-- ==== Sys2Proof/Word.lean ====
section
/-! DEFINITION. The word types of the model: what the manual treats as bits.

Bytes, register words and core words are bit vectors, because software reads, shifts and masks them.
Addresses that are only looked up, counts, sizes and indices are natural numbers. -/

namespace Sys2Proof

/-- One byte of memory. -/
abbrev Byte := BitVec 8

/-- One 32-bit register of a register page (R38). -/
abbrev RegWord := BitVec 32

/-- One 64-bit word of a Shuhenor core (R256). -/
abbrev Word := BitVec 64

/-- One 256-bit vector register (R259). -/
abbrev VecWord := BitVec 256

end Sys2Proof
end

