-- ==== Sys2Proof/Types.lean ====
section
/-! DEFINITION. The operand types of the commands and the plain data types that the state shares with them.

Each type is what a chapter of spec/ names: a core, an instruction format, an outcome that the world
outside the device delivers. -/

namespace Sys2Proof

/-- A core: compute core 0 to 31, real-time core 0 to 7, or the Keeper (R255, R312). -/
inductive CoreId where
  | compute (n : Fin 32)
  | rt (n : Fin 8)
  | keeper
deriving DecidableEq, Repr

/-- Who makes a register access: a core, or an agent that is no core (an engine, a DMA unit). -/
inductive Requester where
  | core (c : CoreId)
  | agent
deriving DecidableEq, Repr

/-- Who writes a register: a requester on the device address space, or the host of physical function `pf` at an offset of its BAR2,
or the host of function slot `slot` at an offset of its BAR0 (R34 to R36). -/
inductive Accessor where
  | dev (r : Requester)
  | host (pf : Fin 2)
  | bar0 (slot : Fin 256)
deriving DecidableEq, Repr

/-- A soft error that strikes one 64-bit word of on-chip SRAM (R573): `addr` is the word's place in the
model's memory map, `double` tells a double-bit error from a single-bit one. -/
structure Upset where
  addr : Nat
  double : Bool
deriving DecidableEq, Repr

/-- A soft error that a load meets: in a word of on-chip SRAM, or in the parity of the cached word at a place of the model's
memory map, in the core's data or instruction cache (R573, R575). -/
inductive SoftError where
  | sram (u : Upset)
  | dcache (addr : Nat)
  | icache (addr : Nat)
deriving DecidableEq, Repr

/-- Format A of R278: rd, ra, rb and the S bit of R279; the rest of func is the row's own. -/
structure FmtA where
  rd : BitVec 5
  ra : BitVec 5
  rb : BitVec 5
  s : Bool
deriving DecidableEq, Repr

/-- Format A as the SYS rows take it: the whole of func is the row's own (R311). -/
structure FmtY where
  rd : BitVec 5
  ra : BitVec 5
  rb : BitVec 5
deriving DecidableEq, Repr

/-- Format A as the VMOV rows take it: `ew` is func[1:0], and func[10], func[7:2] are `z`, which must be zero (R310). -/
structure FmtW where
  rd : BitVec 5
  ra : BitVec 5
  rb : BitVec 5
  ew : BitVec 2
  z : BitVec 7
deriving DecidableEq, Repr

/-- Format B of R278. -/
structure FmtB where
  rd : BitVec 5
  ra : BitVec 5
  imm : BitVec 16
deriving DecidableEq, Repr

/-- Format M of R278: a long-form access through window `wn`. -/
structure FmtM where
  rd : BitVec 5
  wn : BitVec 4
  ra : BitVec 5
  disp : BitVec 12
deriving DecidableEq, Repr

/-- Format S of R278: a short-form access through window WSEL. -/
structure FmtS where
  rd : BitVec 5
  addr : BitVec 21
deriving DecidableEq, Repr

/-- Format X of R278: a bit instruction. -/
structure FmtX where
  bn : BitVec 16
  f : BitVec 10
deriving DecidableEq, Repr

/-- Format J of R278. -/
structure FmtJ where
  disp : BitVec 26
deriving DecidableEq, Repr

/-- Format C of R278. -/
structure FmtC where
  mask : BitVec 8
  disp : BitVec 18
deriving DecidableEq, Repr

/-- Format V of R278; func is the row's own. -/
structure FmtV where
  vd : BitVec 4
  va : BitVec 4
  rb : BitVec 5
  ew : BitVec 2
deriving DecidableEq, Repr

/-- One sample of the ADC of input `inp`: a code from -128 to +127 (R65). -/
structure AdcSample where
  inp : Nat
  adc : Int
deriving DecidableEq, Repr

/-- What discovery reads of one die (R200): that its chip enable becomes ready within 10 ms of its RESET, the bytes of READ ID, the copies of its
parameter page, and the highest data-rate bin that it supports. -/
structure DieInfo where
  die : Nat
  ready : Bool
  id : List (BitVec 8)
  copies : List (List (BitVec 8))
  rate : Nat
deriving DecidableEq, Repr

/-- One try of a bin in the training of a flash channel (R202): whether ZQ calibration and duty-cycle correction end well, and the first and the
last delay at which read and write DQ training find the pattern, in 1/64 UI. -/
structure FlcTry where
  zq : Bool
  dcc : Bool
  rdLo : BitVec 8
  rdHi : BitVec 8
  wrLo : BitVec 8
  wrHi : BitVec 8
deriving DecidableEq, Repr

/-- What a slice read asks for (R209): the slice that holds an LBA, for a function of the host; or a slice of a unit, for
firmware or a destage, with its data going to a device address. -/
inductive SliceWant where
  | host (func nsid lba : Nat)
  | unit (unit slice dst : Nat)
deriving DecidableEq, Repr

/-- A unit's location: die, block, page and slot in the page (R199, R204). -/
structure Machine.FlashLoc where
  die : Nat
  block : Nat
  page : Nat
  slot : Nat
deriving DecidableEq, Repr

/-- Whose ring it is: ring `r` of a core's supervisor context, or of Bench context `ctx` (R325). -/
inductive Machine.RingId where
  | core (c : CoreId) (r : Nat)
  | bench (ctx r : Nat)
deriving DecidableEq, Repr

/-- A submission queue entry as QEN fetches it: opcode, CID, NSID, CDW2 and CDW3, PRPs,
metadata pointer and CDW10 to CDW15. -/
structure Sqe where
  opc : Nat
  cid : Nat
  nsid : Nat
  d2 : BitVec 32
  d3 : BitVec 32
  mptr : BitVec 64
  prp1 : BitVec 64
  prp2 : BitVec 64
  d10 : BitVec 32
  d11 : BitVec 32
  d12 : BitVec 32
  d13 : BitVec 32
  d14 : BitVec 32
  d15 : BitVec 32
deriving DecidableEq, Repr

/-- An admin command tunnelled through the NVMe-MI endpoint (R411): the command slot, the management port (0 and 1 PCIe, 2 SMBus),
the controller it names, and the command. -/
structure Tunnel where
  slot : Fin 2
  port : Fin 3
  ctrl : Fin 256
  e : Sqe
deriving DecidableEq, Repr

end Sys2Proof
end

