-- ==== Sys2Proof/Syntax.lean ====
section
/-! DEFINITION. The commands of the device: one constructor for every row of spec/opcode_table.json, in the
table's order.  The table gives the rows no operand fields; the operands here are what each row's rule names: who
asks, which block, channel, slot or core, the fields of an instruction's format, and what the world outside the
device delivers with the event (a measurement, a decode outcome, host data). -/

namespace Sys2Proof

inductive Instr where
  /-- REGISTER_WRITE (R49): A write to a register field that has no row of its own stores its defined fields, or goes to the shadow for an RWS field. -/
  | registerWrite (who : Accessor) (addr : Nat) (wide : Bool) (value : BitVec 64)
  /-- SOFT_RESET (R41): Writing BLK_CTRL.SRST ends accepted jobs with class 0x70, discards shadows, resets RW and RWS fields and increments STG_EPOCH. -/
  | softReset (req : Requester) (page : Nat)
  /-- SOFT_RESET_DONE (R41): The block soft reset ends, SRST reads 0 and local event 3 is raised. -/
  | softResetDone (page : Nat)
  /-- COMMIT (R55): Writing STG_CTRL.COMMIT requests a commit of the block's staged settings. -/
  | commit (req : Requester) (page : Nat)
  /-- COMMIT_APPLY (R55): Once a settings set is free, the block pauses intake, copies shadows into a new active set, increments EPOCH and raises local event 1. -/
  | commitApply (page : Nat)
  /-- STAGING_ABORT (R59): Writing STG_CTRL.ABORT reloads every shadow from its active value and clears STG_PEND, or cancels a commit not yet at step 3. -/
  | stagingAbort (req : Requester) (page : Nat)
  /-- LOCK (R47): Writing LOCK sets lock bits; setting LK_STG with shadows pending discards them as an abort does. -/
  | lock (req : Requester) (page : Nat) (bits : BitVec 16)
  /-- ENERGY_LO_READ (R48): A read of ENERGY_LO latches the matching high word for the same requester. -/
  | energyLoRead (req : Requester) (page : Nat) (wide : Bool)
  /-- FRAME_BOUNDARY (R70): At a frame boundary signalled by FMT each channel makes its coarse PGA and offset DAC moves and TFE counts saturation. -/
  | frameBoundary (trks : List (Fin 64)) (smp : List AdcSample)
  /-- DROPOUT_ENTRY (R71): The mean of |y| over LEN bits falls below ENTER, the channel enters dropout, counts and raises event 4. -/
  | dropoutEntry (n : Fin 70) (smp : List AdcSample)
  /-- DROPOUT_EXIT (R71): The mean of |y| over LEN bits exceeds EXIT and the channel leaves dropout. -/
  | dropoutExit (n : Fin 70) (smp : List AdcSample)
  /-- LOCK_DECLARED (R76): sigma squared stays below ACQ_THR for 256 bits, the timing loop declares lock, switches to tracking gains and raises event 5. -/
  | lockDeclared (n : Fin 70) (smp : List AdcSample)
  /-- LOCK_LOSS (R76): f reaches its limit or sigma squared exceeds LOSS_THR for 1,024 bits, the loop loses lock, counts and raises event 4. -/
  | lockLoss (n : Fin 70) (smp : List AdcSample)
  /-- ALIGNMENT_MOVE (R81): After 4,096 bits with the largest coupling tap at an end, TDT shifts the alignment offset one bit and raises event 6. -/
  | alignmentMove (trk : Fin 64) (upper : Bool) (smp : List AdcSample)
  /-- BAND_PASS_OPEN (R74): FMT opens a band pass, which TFE, TDT and FMT accept as a job, starting acquisition frames. -/
  | bandPassOpen (write : Bool) (band : BitVec 8)
  /-- BAND_PASS_END (R93): At the end of a band pass TFE writes each element's averaged wear and raises event 8. -/
  | bandPassEnd (smp : List AdcSample)
  /-- REDETECTION_REQUEST (R86): FMT queues a re-detection request for a span of one track. -/
  | redetectionRequest (trk : Fin 64) (first len : Nat)
  /-- REDETECTION_START (R86): A free re-detection unit takes the oldest queued request. -/
  | redetectionStart
  /-- REDETECTION_END (R86): A re-detection unit finishes and its LLRs replace the original ones for the span. -/
  | redetectionEnd (unit : Fin 4)
  /-- FMT_LOAD_START (R105): Writing FMT_LOAD.START starts reading, hashing and checking a format table into a slot. -/
  | fmtLoadStart (req : Requester)
  /-- FMT_EVICT (R106): Writing FMT_LOAD.EVICT empties a slot unless it is named in FMT_WFMT or FMT_RFMT. -/
  | fmtEvict (req : Requester)
  /-- DCF_LOAD_START (R139): Writing DCF_LOAD.START starts loading a code table into a DCF slot. -/
  | dcfLoadStart (req : Requester)
  /-- DCF_EVICT (R139): Writing DCF_LOAD.EVICT empties a code slot unless it is enabled or in use. -/
  | dcfEvict (req : Requester)
  /-- TPI_LOAD_START (R181): Writing TPI_LOAD.START starts loading the motion table. -/
  | tpiLoadStart (req : Requester)
  /-- FTM_LOAD_START (R211): Writing FTM_LOAD.START starts loading a curve table into a slot. -/
  | ftmLoadStart (req : Requester)
  /-- FTM_EVICT (R211): Writing FTM_LOAD.EVICT empties a curve slot unless a live die names it. -/
  | ftmEvict (req : Requester)
  /-- TABLE_LOAD_END (R105): A table load ends after its checks with a STATUS, installing the copy on success and raising the block's load event. -/
  | tableLoadEnd (page : Nat)
  /-- FRAME_ALIGNMENT (R116): FMT takes a read frame, searches its marks and header and aligns it, sending codewords to DCF. -/
  | frameAlignment (trk : Fin 64) (smp : List AdcSample)
  /-- DATA_SET_SEPARATOR (R122): A data-set separator closes the data set due, runs its outer decode and delivers it to the tape ring in DSN order. -/
  | dataSetSeparator
  /-- FRAME_SLOT_ISSUE (R124): Each track writes its next frame slot: a rewrite, the next original frame or a pad frame. -/
  | frameSlotIssue (trk : Fin 64)
  /-- FRAME_VERIFY (R123): FMT judges a written frame from its verify read and schedules a rewrite on failure. -/
  | frameVerify (trk : Fin 64) (aMiss bMiss : Bool) (res : List (Nat × Nat)) (sig : Nat)
  /-- FMT_RWREC_READ (R126): A read of FMT_RWREC returns and removes the head rewrite record. -/
  | fmtRwrecRead (req : Requester) (wide : Bool)
  /-- CODEWORD_REQUEST (R140): A codeword request enters its DCF class queue, resolving its code slot and recording the epoch. -/
  | codewordRequest (words : List (BitVec 32))
  /-- TILE_DISPATCH (R147): A free tile takes the next codeword by class order and reservation. -/
  | tileDispatch
  /-- DECODE_END (R143): A tile ends a codeword in success or failure and returns its result to FMT or FTM. -/
  | decodeEnd (tile : Fin 48)
  /-- DEADLINE_EXPIRY (R145): A queued class-T codeword reaching its deadline completes with STATUS 2 and event 5. -/
  | deadlineExpiry
  /-- SERVO_FRAME_END (R152): At the end of a servo frame SVD delivers TBS position, speed, skew and longitudinal samples to LPE. -/
  | servoFrameEnd (els : List (List (List Int)))
  /-- COMPANION_WINDOW_END (R155): Every 5 µs SVD measures companion tone amplitudes and delivers companion positions. -/
  | companionWindowEnd (ai0 ao0 ai1 ao1 : BitVec 16)
  /-- SLOT_TRIGGER (R164): A sample or tick triggers a loop slot, queuing an evaluation stamped with its deadline. -/
  | slotTrigger (n : Fin 16)
  /-- SLOT_EVALUATION (R161): A free pipe evaluates the waiting slot with the earliest deadline. -/
  | slotEvaluation
  /-- OUTPUT_ISSUE (R165): A slot's output is issued to its PWM channel, actuator lane or set-point. -/
  | outputIssue (n : Fin 16)
  /-- SLOT_DEADLINE_EXPIRY (R165): An output not issued by its deadline is dropped and its state changes discarded. -/
  | slotDeadlineExpiry (n : Fin 16)
  /-- SAMPLE_TIMEOUT (R166): SMP_TO passes without a trigger for a slot. -/
  | sampleTimeout (n : Fin 16)
  /-- LPE_TIMER_TICK (R159): An LPE timer period expires and ticks sources 0x30 or 0x31. -/
  | lpeTimerTick (n : Fin 2)
  /-- SLOT_ENABLE (R168): SLOT_CTRL.EN going 0 to 1 starts the slot from zero state in soft start. -/
  | slotEnable (req : Requester) (n : Fin 16)
  /-- SLOT_DISABLE (R168): SLOT_CTRL.EN going 1 to 0 stops evaluation and holds the output. -/
  | slotDisable (req : Requester) (n : Fin 16)
  /-- SWAP (R170): Writing SLOT_CTRL.SWAP requests a bank swap at the next trigger. -/
  | swap (req : Requester) (n : Fin 16)
  /-- HANDOVER (R171): Writing SLOT_CTRL.HANDOVER requests a hand-over to the inactive bank. -/
  | handover (req : Requester) (n : Fin 16)
  /-- TRACE_ARM (R175): Writing ARM starts a trace unit recording continuously. -/
  | traceArm (req : Requester) (n : Fin 4)
  /-- TRACE_FORCE (R175): Writing FORCE triggers a trace unit at once. -/
  | traceForce (req : Requester) (n : Fin 4)
  /-- TRACE_STOP (R175): Writing STOP stops a trace unit at once. -/
  | traceStop (req : Requester) (n : Fin 4)
  /-- TRACE_POST_END (R175): A trace unit has recorded POST records after its trigger, stops and raises event 12. -/
  | tracePostEnd (n : Fin 4)
  /-- PWM_CARRIER_PERIOD (R176): A new PWM carrier period starts and takes up each channel's latest duty. -/
  | pwmCarrierPeriod
  /-- ACT_SEND (R177): Writing ACT_SENDn queues a firmware frame on an actuator lane. -/
  | actSend (req : Requester) (lane : Fin 2) (frame : BitVec 32)
  /-- ACT_FRAME_START (R177): An idle actuator lane starts its next frame, slot frames before firmware frames. -/
  | actFrameStart (lane : Fin 2)
  /-- ACT_FRAME_END (R177): An actuator frame ends and the word received on ACT_MISO is kept in ACT_RXn. -/
  | actFrameEnd (lane : Fin 2) (rx : BitVec 32)
  /-- SENSE_ADC_RESULT (R178): A current-sense conversion delivers its result to LPE as source 0x10 + n. -/
  | senseAdcResult (n : Fin 8) (code : BitVec 16)
  /-- ADC_DATA_READ (R180): A read of an ADC result register clears its FRESH bit. -/
  | adcDataRead (req : Requester) (n : Fin 8)
  /-- LOAD_MACHINE (R184): TPI_CMD.GO with OP 0 starts the load machine at its entry state. -/
  | loadMachine (req : Requester)
  /-- THREAD_MACHINE (R184): TPI_CMD.GO with OP 1 starts the thread machine. -/
  | threadMachine (req : Requester)
  /-- CALIBRATE_MACHINE (R184): TPI_CMD.GO with OP 2 starts the calibrate machine. -/
  | calibrateMachine (req : Requester)
  /-- SEEK_MACHINE (R184): TPI_CMD.GO with OP 3 starts the seek machine. -/
  | seekMachine (req : Requester)
  /-- STREAM_MACHINE (R184): TPI_CMD.GO with OP 4 starts the stream machine. -/
  | streamMachine (req : Requester)
  /-- BACKHITCH_MACHINE (R184): TPI_CMD.GO with OP 5 starts the backhitch machine. -/
  | backhitchMachine (req : Requester)
  /-- UNLOAD_MACHINE (R184): TPI_CMD.GO with OP 6 starts the unload machine. -/
  | unloadMachine (req : Requester)
  /-- TPI_ABORT (R186): Writing TPI_CMD.ABORT enters the fault machine with FAULT_CODE 0x5. -/
  | tpiAbort (req : Requester)
  /-- SEQUENCER_TICK (R184): Every 1 µs the sequencer evaluates the current state's waits and takes the first that holds. -/
  | sequencerTick (pins : BitVec 16) (tach : List (Nat × Nat))
  /-- STATE_TIMEOUT (R184): A state's TIMEOUT expires and the sequencer takes NEXT_TO. -/
  | stateTimeout
  /-- LOAD_SENSOR_CHANGE (R188): A debounced load-sensor change raises event 6 for insertion or event 7 for removal. -/
  | loadSensorChange (level : Bool) (record : List (BitVec 8))
  /-- CM_TRANSFER (R189): Writing TPI_CM_CTRL.GO shifts LEN bytes of the CM buffer over the CM link. -/
  | cmTransfer (req : Requester)
  /-- CM_TRANSFER_END (R189): A CM transfer ends with the received bytes in the buffer and raises event 12. -/
  | cmTransferEnd (rx : List (BitVec 8))
  /-- TAPE_RING_CONSUME (R195): The consumer takes the next data set in DSN order from the ring or the divert area. -/
  | tapeRingConsume
  /-- WRITE_UNDERRUN (R197): The tape-write port underruns, write gate drops at the next frame boundary and the data set is abandoned. -/
  | writeUnderrun
  /-- UNDERRUN_REWRITE_START (R197): Once the ring holds WR_START data sets FMT writes the abandoned data set again with COPY+1. -/
  | underrunRewriteStart
  /-- DESTAGE_START (R440): A tape-backed zone that has entered Full starts its destage in zone order. -/
  | destageStart
  /-- DISCOVERY (R200): Writing FTM_DISC.START runs flash discovery on every enabled channel. -/
  | discovery (req : Requester)
  /-- DISCOVERY_END (R200): Discovery writes the die map, sets FTM_CAP and STATUS and raises event 12. -/
  | discoveryEnd (dies : List DieInfo) (chans : List (List FlcTry))
  /-- FLC_TRAIN_START (R202): Writing FLC_TRAIN.START trains or retrains a flash channel. -/
  | flcTrainStart (req : Requester) (n : Fin 16)
  /-- FLC_TRAIN_END (R202): Flash channel training ends at a bin, steps down or disables the channel. -/
  | flcTrainEnd (n : Fin 16) (tries : List FlcTry)
  /-- FLC_RETRAIN_TIMER (R203): RETRAIN hours pass or temperature drifts 20 °C and the channel retrains at its bin. -/
  | flcRetrainTimer (n : Fin 16) (found : FlcTry)
  /-- FLC_RAW_GO (R226): Writing FLC_RAW3.GO issues one raw ONFI command from firmware. -/
  | flcRawGo (req : Requester) (n : Fin 16)
  /-- FLC_RAW_END (R226): A raw ONFI command ends with its STATUS and raises event 9. -/
  | flcRawEnd (n : Fin 16) (timeout : Bool) (data : List (BitVec 8))
  /-- FLASH_SLICE_READ (R209): FTM resolves a slice through the map and reads its page into FTM_IN. -/
  | flashSliceRead (op : Nat) (want : SliceWant)
  /-- TRANSIT_SLOT_GRANT (R209): A freed transit or overflow slot is given to the oldest waiting slice and class-H decoding is requested. -/
  | transitSlotGrant
  /-- TRANSIT_DMA_END (R209): HIB's DMA of a transit slot to the host ends and the slot is freed. -/
  | transitDmaEnd (op : Nat)
  /-- UNIT_PROGRAM (R206): FTM places a unit at a free position, programs it and updates its map entry. -/
  | unitProgram (op unit : Nat) (loc : Machine.FlashLoc) (data : List (BitVec 8)) (stage : Option Nat)
  /-- PROGRAM_END (R218): A page program reports pass or fail. -/
  | programEnd (op : Nat) (pass : Bool)
  /-- ERASE (R210): Once a block's in-flight read count is zero its erase is issued. -/
  | erase (die : Fin 512) (block : Nat)
  /-- ERASE_END (R218): An erase reports pass or fail, a failure setting BAD and raising FLC event 7. -/
  | eraseEnd (die : Fin 512) (block : Nat) (pass : Bool)
  /-- FLC_TIMEOUT (R218): A die stays busy past FLC_TO and the operation times out. -/
  | flcTimeout (die : Fin 512)
  /-- MAP_OUT (R201): Firmware sets a die's MAP_OUT bit, mapping it out with CAUSE 0x6. -/
  | mapOut (req : Requester) (die : Fin 512)
  /-- STRIPE_CLOSE (R208): Writing FTM_STRIPE.CLOSE writes the parity of every open stripe. -/
  | stripeClose (req : Requester)
  /-- FREE_ROW_PUSH (R208): A write to FTM_FREE pushes a free row for stripe writing. -/
  | freeRowPush (req : Requester) (group : Fin 32) (block : BitVec 18)
  /-- PATROL_READ (R219): Paced patrol reads the next programmed unit in class B and acts on its outcome. -/
  | patrolRead (op : Nat) (loc : Machine.FlashLoc) (tag : List (BitVec 8))
  /-- FTM_UNREC_READ (R221): A read of FTM_UNREC2 removes the head unrecoverable record. -/
  | ftmUnrecRead (req : Requester)
  /-- DRAM_REQUEST (R231): DMC resolves a DRAM address and serves a read or write burst with its check code. -/
  | dramRequest (write : Bool) (addr len : Nat) (bytes : List (BitVec 8)) (act : Bool) (errs : List (Nat × BitVec 8))
  /-- REAL_TIME_PORT_TRANSFER (R238): A real-time port moves data between its SRAM buffer and DRAM as its need requires. -/
  | realTimePortTransfer (p : Fin 4)
  /-- REFRESH_TICK (R241): At each tREFI a rank's owed refresh count increases by one. -/
  | refreshTick (n : Fin 4) (rank : Fin 2)
  /-- REFRESH_ISSUE (R241): With no request queued and refreshes owed, the rank issues one refresh. -/
  | refreshIssue (n : Fin 4) (rank : Fin 2)
  /-- MR4_POLL (R242): Every TPOLL ms DMC reads each rank's temperature status. -/
  | mr4Poll (n : Fin 4) (rank : Fin 2) (hot : Bool) (temp : Nat)
  /-- ACTIVATION_WINDOW_END (R244): After 8,192 refreshes every activation count and floor resets to zero. -/
  | activationWindowEnd (n : Fin 4) (rank : Fin 2)
  /-- THRESHOLD_HALVING_END (R244): 32 ms after power-on reset the row-disturbance threshold returns to THRESH. -/
  | thresholdHalvingEnd (n : Fin 4)
  /-- COMMAND_ERROR (R246): A CA parity error on ALERT_n repeats the commands, the third counting as uncorrectable. -/
  | commandError (n : Fin 4) (rank : Fin 2)
  /-- MIGRATION_COPY (R248): Migration copies the next bursts of a failing rank to the spare behind DMC_MIG.PTR. -/
  | migrationCopy (n : Fin 4)
  /-- DMC_TRAIN_START (R249): Writing DMC_TRAIN.START runs DDR5 training on each rank. -/
  | dmcTrainStart (n : Fin 4)
  /-- DMC_TRAIN_END (R250): Training ends at a bin, takes failed ranks out of service or disables the channel. -/
  | dmcTrainEnd (n : Fin 4) (win0 win1 : List (List Nat))
  /-- DMC_RETRAIN_TIMER (R252): RETRAIN hours pass or temperature drifts TDRIFT and the channel retrains at its bin. -/
  | dmcRetrainTimer (n : Fin 4) (wins : List (List Nat)) (drift : Nat)
  /-- DRAM_INITIALISATION (R251): DMC writes zero data with valid check bits across every rank, advancing DMC_INIT.PTR. -/
  | dramInitialisation (n : Fin 4) (units : Nat)
  /-- ADD (R281): g[rd] := a + b. -/
  | add (c : CoreId) (f : FmtA) (undef : Option (BitVec 32))
  /-- ADC (R281): g[rd] := a + b + C. -/
  | adc (c : CoreId) (f : FmtA)
  /-- SUB (R281): g[rd] := a + ~b + 1. -/
  | sub (c : CoreId) (f : FmtA)
  /-- SBC (R281): g[rd] := a + ~b + C. -/
  | sbc (c : CoreId) (f : FmtA)
  /-- AND (R281): g[rd] := a & b. -/
  | and (c : CoreId) (f : FmtA)
  /-- OR (R281): g[rd] := a | b. -/
  | or (c : CoreId) (f : FmtA)
  /-- XOR (R281): g[rd] := a ^ b. -/
  | xor (c : CoreId) (f : FmtA)
  /-- ANDN (R281): g[rd] := a & ~b. -/
  | andn (c : CoreId) (f : FmtA)
  /-- SHL (R281): Shift left by b[5:0]. -/
  | shl (c : CoreId) (f : FmtA)
  /-- SHR (R281): Logical shift right by b[5:0]. -/
  | shr (c : CoreId) (f : FmtA)
  /-- SAR (R281): Arithmetic shift right by b[5:0]. -/
  | sar (c : CoreId) (f : FmtA)
  /-- ROR (R281): Rotate right by b[5:0]. -/
  | ror (c : CoreId) (f : FmtA)
  /-- MUL (R281): Low 64 bits of a × b. -/
  | mul (c : CoreId) (f : FmtA)
  /-- MULHS (R281): High 64 bits of the signed product. -/
  | mulhs (c : CoreId) (f : FmtA)
  /-- MULHU (R281): High 64 bits of the unsigned product. -/
  | mulhu (c : CoreId) (f : FmtA)
  /-- DIVS (R282): Signed quotient with defined corner results. -/
  | divs (c : CoreId) (f : FmtA)
  /-- DIVU (R282): Unsigned quotient with defined corner results. -/
  | divu (c : CoreId) (f : FmtA)
  /-- REMS (R282): Signed remainder with the sign of a. -/
  | rems (c : CoreId) (f : FmtA)
  /-- REMU (R282): Unsigned remainder. -/
  | remu (c : CoreId) (f : FmtA)
  /-- MINS (R281): Signed minimum. -/
  | mins (c : CoreId) (f : FmtA)
  /-- MAXS (R281): Signed maximum. -/
  | maxs (c : CoreId) (f : FmtA)
  /-- MINU (R281): Unsigned minimum. -/
  | minu (c : CoreId) (f : FmtA)
  /-- MAXU (R281): Unsigned maximum. -/
  | maxu (c : CoreId) (f : FmtA)
  /-- CLZ (R281): Leading zeros of a. -/
  | clz (c : CoreId) (f : FmtA)
  /-- CTZ (R281): Trailing zeros of a. -/
  | ctz (c : CoreId) (f : FmtA)
  /-- POPC (R281): Set bits of a. -/
  | popc (c : CoreId) (f : FmtA)
  /-- BSWAP (R281): Bytes of a reversed. -/
  | bswap (c : CoreId) (f : FmtA)
  /-- SEXT8 (R281): a sign-extended from bit 7. -/
  | sext8 (c : CoreId) (f : FmtA)
  /-- SEXT16 (R281): a sign-extended from bit 15. -/
  | sext16 (c : CoreId) (f : FmtA)
  /-- SEXT32 (R281): a sign-extended from bit 31. -/
  | sext32 (c : CoreId) (f : FmtA)
  /-- ZEXT8 (R281): a zero-extended from bit 7. -/
  | zext8 (c : CoreId) (f : FmtA)
  /-- ZEXT16 (R281): a zero-extended from bit 15. -/
  | zext16 (c : CoreId) (f : FmtA)
  /-- ZEXT32 (R281): a zero-extended from bit 31. -/
  | zext32 (c : CoreId) (f : FmtA)
  /-- FENCE (R273): Completes once every earlier access of the core is visible to all agents. -/
  | fence (c : CoreId) (f : FmtA)
  /-- FENCEI (R272): Invalidates the whole instruction cache. -/
  | fencei (c : CoreId) (f : FmtA)
  /-- VGET (R289): g[rd] := a lane of v[ra], zero-extended. -/
  | vget (c : CoreId) (f : FmtW)
  /-- VPUT (R289): A lane of v[rd] := low bits of g[ra]. -/
  | vput (c : CoreId) (f : FmtW)
  /-- VRSUM (R289): g[rd] := sum of the lanes of v[ra]. -/
  | vrsum (c : CoreId) (f : FmtW)
  /-- VMSK (R289): g[rd] collects the top bit of each lane of v[ra]. -/
  | vmsk (c : CoreId) (f : FmtW)
  /-- VADD (R288): Lane-wise va + vb. -/
  | vadd (c : CoreId) (f : FmtV)
  /-- VSUB (R288): Lane-wise va − vb. -/
  | vsub (c : CoreId) (f : FmtV)
  /-- VMUL (R288): Lane-wise low product. -/
  | vmul (c : CoreId) (f : FmtV)
  /-- VMULHU (R288): Lane-wise high unsigned product. -/
  | vmulhu (c : CoreId) (f : FmtV)
  /-- VMLA (R288): Lane-wise vd + va × vb. -/
  | vmla (c : CoreId) (f : FmtV)
  /-- VAND (R288): Bitwise and of vectors. -/
  | vand (c : CoreId) (f : FmtV)
  /-- VOR (R288): Bitwise or of vectors. -/
  | vor (c : CoreId) (f : FmtV)
  /-- VXOR (R288): Bitwise exclusive or of vectors. -/
  | vxor (c : CoreId) (f : FmtV)
  /-- VANDN (R288): Bitwise and-not of vectors. -/
  | vandn (c : CoreId) (f : FmtV)
  /-- VMINU (R288): Lane-wise unsigned minimum. -/
  | vminu (c : CoreId) (f : FmtV)
  /-- VMAXU (R288): Lane-wise unsigned maximum. -/
  | vmaxu (c : CoreId) (f : FmtV)
  /-- VCMPEQ (R288): Lane-wise equality mask. -/
  | vcmpeq (c : CoreId) (f : FmtV)
  /-- VCMPGTU (R288): Lane-wise unsigned greater-than mask. -/
  | vcmpgtu (c : CoreId) (f : FmtV)
  /-- VCMPGTS (R288): Lane-wise signed greater-than mask. -/
  | vcmpgts (c : CoreId) (f : FmtV)
  /-- VSHL (R288): Lane-wise shift left by g[rb] mod w. -/
  | vshl (c : CoreId) (f : FmtV)
  /-- VSHR (R288): Lane-wise logical shift right. -/
  | vshr (c : CoreId) (f : FmtV)
  /-- VSAR (R288): Lane-wise arithmetic shift right. -/
  | vsar (c : CoreId) (f : FmtV)
  /-- VPOPC (R288): Lane-wise population count. -/
  | vpopc (c : CoreId) (f : FmtV)
  /-- VSPLAT (R288): Low w bits of g[rb] in every lane. -/
  | vsplat (c : CoreId) (f : FmtV)
  /-- VPERM (R288): Byte permutation of va by vb. -/
  | vperm (c : CoreId) (f : FmtV)
  /-- J (R290): pc := pc + 4 × sext(disp26). -/
  | j (c : CoreId) (f : FmtJ)
  /-- CALL (R294): Stores a call frame through w(WSTK) and jumps pc-relative. -/
  | call (c : CoreId) (f : FmtC)
  /-- BCC (R291): Branches pc-relative when its condition holds. -/
  | bcc (c : CoreId) (f : FmtB)
  /-- CALLR (R294): Stores a call frame and jumps to g[ra]. -/
  | callr (c : CoreId) (f : FmtB)
  /-- MFS (R260): Copies a special register into g[rd]. -/
  | mfs (c : CoreId) (f : FmtB)
  /-- MTS (R263): Copies g[ra] into a special register, serialising. -/
  | mts (c : CoreId) (f : FmtB)
  /-- MOVI (R283): g[rd] := sext(imm16). -/
  | movi (c : CoreId) (f : FmtB)
  /-- ADDI (R283): g[rd] := a + sext(imm16), flags unchanged. -/
  | addi (c : CoreId) (f : FmtB)
  /-- ADDIS (R283): g[rd] := a + sext(imm16), flags as ADD. -/
  | addis (c : CoreId) (f : FmtB)
  /-- CMPI (R283): Compares a with sext(imm16), setting flags. -/
  | cmpi (c : CoreId) (f : FmtB)
  /-- ANDI (R283): g[rd] := a & zext(imm16). -/
  | andi (c : CoreId) (f : FmtB)
  /-- ORI (R283): g[rd] := a | zext(imm16). -/
  | ori (c : CoreId) (f : FmtB)
  /-- XORI (R283): g[rd] := a ^ zext(imm16). -/
  | xori (c : CoreId) (f : FmtB)
  /-- TSTI (R283): Tests a & zext(imm16), setting flags. -/
  | tsti (c : CoreId) (f : FmtB)
  /-- SHLI (R283): Shift left by imm16[5:0]. -/
  | shli (c : CoreId) (f : FmtB)
  /-- SHRI (R283): Logical shift right by imm16[5:0]. -/
  | shri (c : CoreId) (f : FmtB)
  /-- SARI (R283): Arithmetic shift right by imm16[5:0]. -/
  | sari (c : CoreId) (f : FmtB)
  /-- RORI (R283): Rotate right by imm16[5:0]. -/
  | rori (c : CoreId) (f : FmtB)
  /-- ORH1 (R283): g[rd] := a | imm16 << 16. -/
  | orh1 (c : CoreId) (f : FmtB)
  /-- ORH2 (R283): g[rd] := a | imm16 << 32. -/
  | orh2 (c : CoreId) (f : FmtB)
  /-- ORH3 (R283): g[rd] := a | imm16 << 48. -/
  | orh3 (c : CoreId) (f : FmtB)
  /-- LD8U (R285): Long-form zero-extended byte load. -/
  | ld8u (c : CoreId) (f : FmtM)
  /-- LD16U (R285): Long-form zero-extended halfword load. -/
  | ld16u (c : CoreId) (f : FmtM)
  /-- LD32U (R285): Long-form zero-extended word load. -/
  | ld32u (c : CoreId) (f : FmtM)
  /-- LD64 (R285): Long-form 8-byte load through a window checked by R268. -/
  | ld64 (c : CoreId) (f : FmtM) (soft : Option SoftError)
  /-- LD8S (R285): Long-form sign-extended byte load. -/
  | ld8s (c : CoreId) (f : FmtM)
  /-- LD16S (R285): Long-form sign-extended halfword load. -/
  | ld16s (c : CoreId) (f : FmtM)
  /-- LD32S (R285): Long-form sign-extended word load. -/
  | ld32s (c : CoreId) (f : FmtM)
  /-- ST8 (R285): Long-form byte store. -/
  | st8 (c : CoreId) (f : FmtM)
  /-- ST16 (R285): Long-form halfword store. -/
  | st16 (c : CoreId) (f : FmtM)
  /-- ST32 (R285): Long-form word store. -/
  | st32 (c : CoreId) (f : FmtM)
  /-- ST64 (R285): Long-form 8-byte store; a store of PROD is a ring doorbell. -/
  | st64 (c : CoreId) (f : FmtM)
  /-- XCHG64 (R286): Atomic exchange at memory. -/
  | xchg64 (c : CoreId) (f : FmtM)
  /-- XADD64 (R286): Atomic fetch-and-add at memory. -/
  | xadd64 (c : CoreId) (f : FmtM)
  /-- CLWB (R272): Writes back and invalidates one data-cache line. -/
  | clwb (c : CoreId) (f : FmtM)
  /-- VLD (R285): 32-byte vector load. -/
  | vld (c : CoreId) (f : FmtM)
  /-- VST (R285): 32-byte vector store. -/
  | vst (c : CoreId) (f : FmtM)
  /-- LD8U_S (R270): Short-form zero-extended byte load through WSEL. -/
  | ld8uS (c : CoreId) (f : FmtS)
  /-- LD16U_S (R270): Short-form zero-extended halfword load. -/
  | ld16uS (c : CoreId) (f : FmtS)
  /-- LD32U_S (R270): Short-form zero-extended word load. -/
  | ld32uS (c : CoreId) (f : FmtS)
  /-- LD64_S (R270): Short-form 8-byte load. -/
  | ld64S (c : CoreId) (f : FmtS)
  /-- LD8S_S (R270): Short-form sign-extended byte load. -/
  | ld8sS (c : CoreId) (f : FmtS)
  /-- LD16S_S (R270): Short-form sign-extended halfword load. -/
  | ld16sS (c : CoreId) (f : FmtS)
  /-- LD32S_S (R270): Short-form sign-extended word load. -/
  | ld32sS (c : CoreId) (f : FmtS)
  /-- ST8_S (R270): Short-form byte store. -/
  | st8S (c : CoreId) (f : FmtS)
  /-- ST16_S (R270): Short-form halfword store. -/
  | st16S (c : CoreId) (f : FmtS)
  /-- ST32_S (R270): Short-form word store. -/
  | st32S (c : CoreId) (f : FmtS)
  /-- ST64_S (R270): Short-form 8-byte store. -/
  | st64S (c : CoreId) (f : FmtS)
  /-- LDBC (R287): C := bit. -/
  | ldbc (c : CoreId) (f : FmtX)
  /-- STBC (R287): bit := C. -/
  | stbc (c : CoreId) (f : FmtX)
  /-- SETB (R287): bit := 1. -/
  | setb (c : CoreId) (f : FmtX)
  /-- CLRB (R287): bit := 0. -/
  | clrb (c : CoreId) (f : FmtX)
  /-- INVB (R287): bit := its inverse. -/
  | invb (c : CoreId) (f : FmtX)
  /-- ANDBC (R287): C := C and bit. -/
  | andbc (c : CoreId) (f : FmtX)
  /-- ORBC (R287): C := C or bit. -/
  | orbc (c : CoreId) (f : FmtX)
  /-- XORBC (R287): C := C xor bit. -/
  | xorbc (c : CoreId) (f : FmtX)
  /-- TAS (R287): C := bit and bit := 1 indivisibly. -/
  | tas (c : CoreId) (f : FmtX)
  /-- BTST (R287): Branches when the bit equals the sense bit. -/
  | btst (c : CoreId) (f : FmtX)
  /-- RET (R295): Checks the frame at g31, restores pairs and returns. -/
  | ret (c : CoreId) (f : FmtY)
  /-- TRET (R303): ps := TPS, pc := TPC and TCAUSE.ACTIVE cleared. -/
  | tret (c : CoreId) (f : FmtY)
  /-- JR (R292): pc := g[ra]. -/
  | jr (c : CoreId) (f : FmtY)
  /-- BRK (R300): Raises the breakpoint trap. -/
  | brk (c : CoreId) (f : FmtY)
  /-- SVC (R300): Raises the supervisor-call trap with its number. -/
  | svc (c : CoreId) (f : FmtY)
  /-- WFE (R296): Waits until an event group holds a set bit. -/
  | wfe (c : CoreId) (f : FmtY)
  /-- SEV (R297): Sets an event bit of a named core. -/
  | sev (c : CoreId) (f : FmtY)
  /-- WTU (R298): Waits until TB reaches g[ra]. -/
  | wtu (c : CoreId) (f : FmtY)
  /-- WTUE (R298): Waits until TB reaches g[ra] or an enabled group holds a set bit. -/
  | wtue (c : CoreId) (f : FmtY)
  /-- WAIT_END (R298): A waiting core's condition holds, the result is written to g[rd] and execution resumes. -/
  | waitEnd (c : CoreId)
  /-- TIMER_TRAP (R304): TB reaches TCMP with TEN set and the timer trap is taken. -/
  | timerTrap (c : CoreId)
  /-- WATCHDOG_EXPIRY (R305): WDOG.COUNT reaches zero, taking the watchdog trap or stopping the core on the second expiry. -/
  | watchdogExpiry (c : CoreId)
  /-- STORE_BUS_ERROR (R274): A buffered store ending in a bus error makes the bus-error trap due at the next boundary. -/
  | storeBusError (c : CoreId) (addr : BitVec 64)
  /-- CORE_RUN (R313): Writing CORE_CTRL.RUN releases a core from reset at its START offset. -/
  | coreRun (c : CoreId)
  /-- CORE_RESET (R313): Writing CORE_CTRL.RESET returns a core to reset keeping its local store. -/
  | coreReset (c : CoreId)
  /-- CCL_LOAD (R314): Writing the LOAD GO bit copies bytes into the local store of a core held in reset. -/
  | cclLoad (blk : Fin 5)
  /-- CCL_LOAD_END (R314): A LOAD ends with its STATUS and raises event 7 of its block. -/
  | cclLoadEnd (blk : Fin 5)
  /-- BENCH_GO (R317): A core writing CORE_RUN.GO saves its supervisor state and dispatches a Bench. -/
  | benchGo (c : CoreId) (b : Fin 64)
  /-- BENCH_OUT (R317): A trap handler writing OUT switches the Bench out with REASON 1. -/
  | benchOut (c : CoreId)
  /-- SLICE_EXPIRY (R317): SLICE microseconds pass and the Bench is switched out with REASON 2. -/
  | sliceExpiry (c : CoreId)
  /-- T_REM_EXPIRY (R319): T_REM reaches zero and the Bench is switched out with REASON 3. -/
  | tRemExpiry (c : CoreId)
  /-- RING_ARM (R325): Writing a ring header address with ARM latches and checks the ring. -/
  | ringArm (c : CoreId) (r : Fin 4) (lo : BitVec 32)
  /-- DESCRIPTOR_FETCH (R326): While PROD differs from CONS and a tag is free, the ring unit fetches and checks the next descriptor. -/
  | descriptorFetch (ring : Machine.RingId) (tag : Nat) (host : List (BitVec 8))
  /-- ENGINE_JOB_COMPLETE (R332): An engine job ends, writes its completion, increments CPROD and charges its energy. -/
  | engineJobComplete (tag nJ : Nat) (host : List (BitVec 8))
  /-- STREAM_FILL (R333): The producer writes stream bytes and advances FILL while there is room. -/
  | streamFill (stream : Fin 256) (data : List (BitVec 8)) (last : Bool)
  /-- COMPRESS (R339): A CXE instance compresses the source block by block into the destination. -/
  | compress (tag : Nat) (host : List (BitVec 8))
  /-- DECOMPRESS (R341): A CXE instance decodes compression blocks and checks their check values. -/
  | decompress (tag : Nat) (host : List (BitVec 8))
  /-- CHECK (R350): A CXE instance decodes and verifies every check value, writing nothing. -/
  | check (tag : Nat) (host : List (BitVec 8))
  /-- XTS_ENC (R362): AES-XTS encryption of data units. -/
  | xtsEnc (tag : Nat) (host : List (BitVec 8))
  /-- XTS_DEC (R362): AES-XTS decryption of data units. -/
  | xtsDec (tag : Nat) (host : List (BitVec 8))
  /-- GCM_ENC (R360): GCM encryption with a hardware nonce, writing the tag record. -/
  | gcmEnc (tag : Nat) (host : List (BitVec 8))
  /-- GCM_DEC (R363): GCM decryption through the Shutter, releasing plaintext only after the tag verifies. -/
  | gcmDec (tag : Nat) (host : List (BitVec 8))
  /-- SHUTTER_SLOT_ALLOCATE (R363): A waiting GCM_DEC job obtains its Shutter slot once one can be allocated. -/
  | shutterSlotAllocate (tag : Nat)
  /-- GMAC_GEN (R362): GMAC tag generation over the source. -/
  | gmacGen (tag : Nat) (host : List (BitVec 8))
  /-- GMAC_VER (R362): GMAC tag verification over the source. -/
  | gmacVer (tag : Nat) (host : List (BitVec 8))
  /-- CTR (R362): AES-CTR keystream encryption from an initial counter block. -/
  | ctr (tag : Nat) (host : List (BitVec 8))
  /-- KEY_GEN (R359): Fills a key slot with DRBG key bits. -/
  | keyGen (tag : Nat)
  /-- KEY_LOAD (R359): Unwraps a wrapped-key table entry into a slot. -/
  | keyLoad (tag : Nat)
  /-- KEY_WRAP (R359): Writes a slot as a wrapped-key table entry. -/
  | keyWrap (tag : Nat)
  /-- KEY_ERASE (R359): Empties a key slot. -/
  | keyErase (tag : Nat)
  /-- DRBG_RESEED (R361): After 2^32 generate requests the DRBG reseeds itself. -/
  | drbgReseed
  /-- DIGEST (R371): HSE computes a digest or CRC and writes it. -/
  | digest (tag : Nat) (host : List (BitVec 8))
  /-- HSE_VERIFY (R371): HSE computes a result and compares it with the expected value. -/
  | hseVerify (tag : Nat) (host : List (BitVec 8))
  /-- CRC_BLOCKS (R371): HSE computes one CRC per block of the source. -/
  | crcBlocks (tag : Nat) (host : List (BitVec 8))
  /-- ASE_SEARCH (R380): Searches a table once per key, writing a result record each. -/
  | aseSearch (tag : Nat) (host : List (BitVec 8)) (cycs : List (Option Nat))
  /-- ASE_SEARCH_CTX (R382): Runs one search and latches its matches in a search context. -/
  | aseSearchCtx (tag : Nat) (host : List (BitVec 8)) (cyc : Option Nat)
  /-- ASE_STEP (R383): Returns further matches of a context. -/
  | aseStep (tag : Nat)
  /-- ASE_CTX_FREE (R383): Frees a search context. -/
  | aseCtxFree (tag : Nat)
  /-- ASE_LOAD (R386): Writes entry records into a bank from slot START, leaving holes. -/
  | aseLoad (tag : Nat) (host : List (BitVec 8))
  /-- ASE_INSERT (R387): Inserts an entry before slot p, moving entries towards the nearest hole. -/
  | aseInsert (tag : Nat) (host : List (BitVec 8))
  /-- ASE_WRITE (R388): Replaces or fills the entry at slot s. -/
  | aseWrite (tag : Nat) (host : List (BitVec 8))
  /-- ASE_DELETE (R388): Invalidates slot s. -/
  | aseDelete (tag : Nat)
  /-- ASE_READ (R388): Writes the entry record of slot s. -/
  | aseRead (tag : Nat)
  /-- ASE_CLEAR (R388): Invalidates every unit of a bank. -/
  | aseClear (tag : Nat)
  /-- CONTEXT_FREE (R383): Firmware writing a context entry's FREE bit frees the context. -/
  | contextFree (n : Fin 32)
  /-- LINK_TRAINING (R397): A port leaving Detect trains as an endpoint to a speed and width. -/
  | linkTraining (p : Fin 2) (best lanes : Nat) (rev : Bool)
  /-- LINK_DOWN (R404): A port declares link-down, advances its functions' epochs and abandons their commands. -/
  | linkDown (p : Fin 2)
  /-- RETRAIN (R400): The host's Retrain Link or HIB_LCTL.RETRAIN retrains the port. -/
  | retrain (p : Fin 2) (best lanes : Nat)
  /-- PERST_ASSERT (R402): PERST# asserted holds the port in Detect and resets its functions. -/
  | perstAssert (p : Fin 2)
  /-- PERST_RELEASE (R403): PERST# released starts link training and configuration-space loading. -/
  | perstRelease (p : Fin 2)
  /-- L1_ENTRY (R407): The port enters ASPM L1 or a substate. -/
  | l1Entry (p : Fin 2) (sub : Fin 3) (host : BitVec 3)
  /-- L1_EXIT (R407): The port exits L1 back to L0. -/
  | l1Exit (p : Fin 2)
  /-- D3HOT_ENTRY (R408): A function enters D3hot and stops fetching commands. -/
  | d3hotEntry (func : Fin 256)
  /-- D0_RETURN (R408): A function returns to D0 keeping its state. -/
  | d0Return (func : Fin 256)
  /-- DOE_OBJECT (R409): A DOE data object is received and answered. -/
  | doeObject (p : Fin 2) (obj : List (BitVec 8))
  /-- DOE_ABORT (R409): DOE Abort discards the object in progress. -/
  | doeAbort (p : Fin 2)
  /-- GET_VERSION (R409): SPDM GET_VERSION reports version 1.2. -/
  | getVersion (src : Fin 3) (msg : List Byte)
  /-- GET_CERTIFICATE (R510): Returns a certificate chain slot. -/
  | getCertificate (src : Fin 3) (msg : List Byte)
  /-- CHALLENGE (R510): Answers an SPDM challenge signed with the identity key. -/
  | challenge (src : Fin 3) (msg : List Byte)
  /-- KEY_EXCHANGE (R510): Establishes an SPDM secured session. -/
  | keyExchange (src : Fin 3) (msg : List Byte)
  /-- GET_MEASUREMENTS (R511): Returns the measurement blocks. -/
  | getMeasurements (src : Fin 3) (msg : List Byte)
  /-- SET_CERTIFICATE (R510): Installs the owner-issued certificate in slot 1 in Owned. -/
  | setCertificate (src : Fin 3) (msg : List Byte)
  /-- READ_NVME_MI_DATA_STRUCTURE (R411): NVMe-MI Read NVMe-MI Data Structure. -/
  | readNvmeMiDataStructure (port : Fin 3) (dtyp portId ctrlId : Nat)
  /-- SUBSYSTEM_HEALTH_STATUS_POLL (R411): NVMe-MI Subsystem Health Status Poll. -/
  | subsystemHealthStatusPoll (port : Fin 3) (clear : Bool)
  /-- CONTROLLER_HEALTH_STATUS_POLL (R411): NVMe-MI Controller Health Status Poll. -/
  | controllerHealthStatusPoll (port : Fin 3) (start most : Nat) (clear : Bool)
  /-- CONFIGURATION_GET (R411): NVMe-MI Configuration Get. -/
  | configurationGet (port : Fin 3) (dw0 : BitVec 32)
  /-- CONFIGURATION_SET (R411): NVMe-MI Configuration Set. -/
  | configurationSet (port : Fin 3) (dw0 dw1 : BitVec 32)
  /-- VPD_READ (R411): NVMe-MI VPD Read. -/
  | vpdRead (port : Fin 3) (ofs len : Nat)
  /-- VPD_WRITE (R411): NVMe-MI VPD Write. -/
  | vpdWrite (port : Fin 3) (ofs : Nat) (data : List Byte)
  /-- NVME_MI_RESET (R411): NVMe-MI Reset command. -/
  | nvmeMiReset (port : Fin 3) (typ : Nat)
  /-- SET_ENDPOINT_ID (R410): MCTP Set Endpoint ID assigns the management endpoint's EID. -/
  | setEndpointId (port : Fin 3) (eid : BitVec 8)
  /-- SQ_DOORBELL (R420): A submission queue tail doorbell write, ignored and reported if invalid. -/
  | sqDoorbell (func : Fin 256) (q v : Nat)
  /-- CQ_DOORBELL (R420): A completion queue head doorbell write frees CQ entries. -/
  | cqDoorbell (func : Fin 256) (q v : Nat)
  /-- COMMAND_FETCH (R421): QEN fetches a command by arbitration while a tag is free and stamps it. -/
  | commandFetch (tag : Nat) (adm : Fin 256) (e : Sqe)
  /-- COMPLETION_POST (R420): A held completion is posted once its CQ has a free entry. -/
  | completionPost (func : Fin 256) (q : Nat)
  /-- DELETE_IO_SQ (R413): Admin Delete I/O Submission Queue. -/
  | deleteIoSq (tag : Nat)
  /-- CREATE_IO_SQ (R419): Admin Create I/O Submission Queue within the grant. -/
  | createIoSq (tag : Nat)
  /-- DELETE_IO_CQ (R413): Admin Delete I/O Completion Queue. -/
  | deleteIoCq (tag : Nat)
  /-- CREATE_IO_CQ (R419): Admin Create I/O Completion Queue within the grant. -/
  | createIoCq (tag : Nat)
  /-- GET_LOG_PAGE (R417): Returns a log page, removing Deferred Error entries on a removing read. -/
  | getLogPage (tag : Nat) (tun : Option Tunnel)
  /-- IDENTIFY (R416): Returns Identify data including Barlis capabilities. -/
  | identify (tag : Nat) (tun : Option Tunnel)
  /-- ABORT (R434): Settles an Abort at the named command's tag. -/
  | abort (tag : Nat) (inSq : Bool)
  /-- SET_ARBITRATION (R422): Set Features Arbitration. -/
  | setArbitration (tag : Nat) (tun : Option Tunnel)
  /-- SET_POWER_MANAGEMENT (R525): Set Features Power Management sets a PF's requested power state. -/
  | setPowerManagement (tag : Nat) (tun : Option Tunnel)
  /-- SET_TEMPERATURE_THRESHOLD (R418): Set Features Temperature Threshold. -/
  | setTemperatureThreshold (tag : Nat) (tun : Option Tunnel)
  /-- SET_NUMBER_OF_QUEUES (R419): Set Features Number of Queues grants queues within the assignment. -/
  | setNumberOfQueues (tag : Nat) (tun : Option Tunnel)
  /-- SET_INTERRUPT_COALESCING (R419): Set Features Interrupt Coalescing. -/
  | setInterruptCoalescing (tag : Nat) (tun : Option Tunnel)
  /-- SET_INTERRUPT_VECTOR_CONFIGURATION (R418): Set Features Interrupt Vector Configuration. -/
  | setInterruptVectorConfiguration (tag : Nat) (tun : Option Tunnel)
  /-- SET_ASYNC_EVENT_CONFIGURATION (R418): Set Features Asynchronous Event Configuration. -/
  | setAsyncEventConfiguration (tag : Nat) (tun : Option Tunnel)
  /-- SET_TIMESTAMP (R418): Set Features Timestamp. -/
  | setTimestamp (tag : Nat) (data : List (BitVec 8)) (tun : Option Tunnel)
  /-- SET_BARLIS_VERSION (R445): Set Features C0h selects the controller's Barlis version. -/
  | setBarlisVersion (tag : Nat) (tun : Option Tunnel)
  /-- GET_FEATURES (R418): Returns the value of a feature. -/
  | getFeatures (tag : Nat) (tun : Option Tunnel)
  /-- ASYNCHRONOUS_EVENT_REQUEST (R413): Queues a request for a later asynchronous event. -/
  | asynchronousEventRequest (tag : Nat)
  /-- NAMESPACE_MANAGEMENT (R438): Creates or deletes a flash namespace. -/
  | namespaceManagement (tag : Nat) (data : List (BitVec 8))
  /-- NAMESPACE_ATTACHMENT (R438): Sets the controllers a namespace is attached to. -/
  | namespaceAttachment (tag : Nat) (data : List (BitVec 8))
  /-- FIRMWARE_IMAGE_DOWNLOAD (R413): Transfers a piece of a firmware image. -/
  | firmwareImageDownload (tag : Nat) (data : List Byte)
  /-- FIRMWARE_COMMIT_REPLACE (R559): Commit Action 000b or 001b replaces a slot, active at next boot. -/
  | firmwareCommitReplace (tag : Nat)
  /-- FIRMWARE_COMMIT_NEXT_BOOT (R559): Commit Action 010b makes a slot the next boot's slot. -/
  | firmwareCommitNextBoot (tag : Nat) (image : List Byte)
  /-- FIRMWARE_ACTIVATE (R560): Commit Action 011b activates new real-time code without reset. -/
  | firmwareActivate (tag : Nat) (image : List Byte)
  /-- ACTIVATION_STALL_EXPIRY (R560): Fetching has not resumed 45 ms after activation began and the Keeper reloads the previous code. -/
  | activationStallExpiry
  /-- PRIMARY_FLEXIBLE_ALLOCATION (R469): Virtualization Management sets a PF's flexible resources. -/
  | primaryFlexibleAllocation (tag : Nat)
  /-- SECONDARY_OFFLINE (R470): Takes a secondary controller offline, advancing its epoch. -/
  | secondaryOffline (tag : Nat)
  /-- SECONDARY_ASSIGN (R469): Assigns VQ or VI resources to an offline secondary. -/
  | secondaryAssign (tag : Nat)
  /-- SECONDARY_ONLINE (R469): Brings a secondary controller online. -/
  | secondaryOnline (tag : Nat)
  /-- FORMAT_NVM (R442): Formats a flash namespace. -/
  | formatNvm (tag : Nat)
  /-- SANITIZE_BLOCK_ERASE (R442): Erases the flash tier and the write buffer. -/
  | sanitizeBlockErase (tag : Nat)
  /-- SANITIZE_CRYPTO_ERASE (R442): Destroys every namespace key as well as block erasing. -/
  | sanitizeCryptoErase (tag : Nat)
  /-- FLUSH (R428): Completes once earlier writes to the namespace have posted. -/
  | flush (tag : Nat)
  /-- WRITE (R15): Places host data in the write buffer and posts the completion, durable from then on. -/
  | write (tag : Nat) (data mdata : List (BitVec 8))
  /-- READ (R425): Returns each block's latest earlier-stamped data from buffer or tier. -/
  | read (tag : Nat)
  /-- WRITE_ZEROES (R414): Writes zeroes to a flash namespace range. -/
  | writeZeroes (tag : Nat)
  /-- DEALLOCATE (R414): Dataset Management Deallocate of a flash namespace range. -/
  | deallocate (tag : Nat) (data : List (BitVec 8))
  /-- VERIFY (R414): Reads blocks through every check, transferring nothing. -/
  | verify (tag : Nat)
  /-- ZONE_CLOSE (R439): Zone Management Send Close. -/
  | zoneClose (tag : Nat)
  /-- ZONE_FINISH (R439): Zone Management Send Finish. -/
  | zoneFinish (tag : Nat)
  /-- ZONE_OPEN (R439): Zone Management Send Open. -/
  | zoneOpen (tag : Nat)
  /-- ZONE_RESET (R441): Zone Management Send Reset, refused on a sealed zone. -/
  | zoneReset (tag : Nat)
  /-- REPORT_ZONES (R414): Zone Management Receive Report Zones. -/
  | reportZones (tag : Nat)
  /-- EXTENDED_REPORT_ZONES (R414): Zone Management Receive Extended Report Zones. -/
  | extendedReportZones (tag : Nat)
  /-- ZONE_APPEND (R427): Writes at the zone's write pointer and returns the assigned LBA. -/
  | zoneAppend (tag : Nat) (data mdata : List (BitVec 8))
  /-- NSSR (R547): Writing NVMe to NSSR of a PF causes a chip warm reset. -/
  | nssr (func : Fin 256) (v : BitVec 32)
  /-- FLR (R481): Function Level Reset advances the epoch and discards the function's work. -/
  | flr (func : Fin 256)
  /-- PROGRAM_LOAD (R453): Stages an image piece and binds a Bench on the final piece. -/
  | programLoad (tag : Nat) (data : List (BitVec 8)) (codeAt dataAt stackAt : Nat)
  /-- BENCH_STATUS (R459): Returns the status of a Bench. -/
  | benchStatus (tag : Nat)
  /-- PROGRAM_UNLOAD (R454): Frees a Bench, ending its runs with C3h cause 0x05. -/
  | programUnload (tag : Nat)
  /-- ENERGY_REPORT (R465): Returns energy charged to a function, Bench or the device. -/
  | energyReport (tag : Nat)
  /-- BENCH_ATTACH_STREAM (R458): Delivers a zone to a stream of the Bench until it is closed. -/
  | benchAttachStream (tag cb buf : Nat)
  /-- BENCH_RUN (R455): Runs the Bench over extents once earlier runs of it end. -/
  | benchRun (tag : Nat) (rb : List (BitVec 8)) (inAt resAt scrAt : Nat)
  /-- FIXITY_COMPUTE (R460): Hashes a range and writes the digest. -/
  | fixityCompute (tag : Nat) (en : List (Nat × Nat))
  /-- FIXITY_VERIFY (R460): Hashes a range and compares it with an expected digest. -/
  | fixityVerify (tag : Nat) (want : List (BitVec 8)) (en : List (Nat × Nat))
  /-- TRANSFORM (R461): Reads a range through one engine and returns the output with a header. -/
  | transform (tag : Nat) (en : List (Nat × Nat))
  /-- SEARCH (R462): Barlis Search runs ASE searches on an owned table. -/
  | search (tag : Nat) (data : List (BitVec 8)) (en : List (Nat × Nat))
  /-- INDEX_LOAD (R463): Barlis Index Load updates a bank of an owned table. -/
  | indexLoad (tag : Nat) (data : List (BitVec 8)) (en : List (Nat × Nat))
  /-- STAGE_ZONE (R464): Copies a zone from tape into the flash tier. -/
  | stageZone (tag : Nat) (room : Bool) (done : Option (List Nat))
  /-- DESTAGE_ZONE (R464): Starts a zone's destage and completes when it is written and verified. -/
  | destageZone (tag : Nat)
  /-- SEAL_ZONE (R464): Waits for destage, then seals and journals the zone. -/
  | sealZone (tag : Nat)
  /-- APPLY_CONTROLS (R471): CTRL_GO with MIG_OP 0 applies the manager's share, cap, quota and tables. -/
  | applyControls (k : Fin 256) (writes : List (Nat × BitVec 32))
  /-- FREEZE (R484): MIG_OP FREEZE stops I/O fetching and starts the drain. -/
  | freeze (k : Fin 256) (writes : List (Nat × BitVec 32)) (frzTo : BitVec 16)
  /-- FREEZE_DRAINED (R484): The drain ends, the state becomes frozen and event 5 is raised. -/
  | freezeDrained (k : Fin 256)
  /-- FREEZE_TIMEOUT (R484): FRZ_TO passes without a drain, RESULT becomes 0x4. -/
  | freezeTimeout (k : Fin 256)
  /-- THAW (R483): MIG_OP THAW resumes fetching and sends notice 2. -/
  | thaw (k : Fin 256) (writes : List (Nat × BitVec 32))
  /-- SAVE (R485): MIG_OP SAVE serialises the frozen function into a blob. -/
  | save (k : Fin 256) (writes : List (Nat × BitVec 32))
  /-- SAVE_END (R485): The save ends with its RESULT and event 6 on success. -/
  | saveEnd (k : Fin 256) (dmaOk : Bool)
  /-- RESTORE (R488): MIG_OP RESTORE reads and checks a blob into an offline secondary. -/
  | restore (k : Fin 256) (writes : List (Nat × BitVec 32))
  /-- RESTORE_END (R488): The restore brings the secondary online frozen and raises event 7, or fails with a RESULT. -/
  | restoreEnd (k : Fin 256) (dmaOk : Bool) (blob : List (BitVec 8)) (places : List (Nat × Nat × Nat))
  /-- RELEASE (R483): MIG_OP RELEASE resets a saved function as an FLR and unloads its Benches. -/
  | release (k : Fin 256) (writes : List (Nat × BitVec 32))
  /-- TRANSOM_DOORBELL (R478): A doorbell bit going 0 to 1 sends an MSI-X message and raises event 8. -/
  | transomDoorbell (k : Fin 256) (tenant : Bool) (writes : List (Nat × BitVec 32)) (db : BitVec 64)
  /-- TRANSOM_READY (R479): A READY write negotiates the Transom version or resets the agreement. -/
  | transomReady (k : Fin 256) (tenant : Bool) (writes : List (Nat × BitVec 32)) (ready : Bool)
  /-- CAP_EVALUATION (R473): Every 10 ms IMG computes each function's mean power and its over-cap state. -/
  | capEvaluation
  /-- PROVISION (R495): Moves the device from Blank to Provisioned. -/
  | provision (src : Fin 3) (blk : List Byte) (factory : Bool)
  /-- INTEGRATE (R495): Moves the device from Provisioned to Integrated with the integrator key. -/
  | integrate (src : Fin 3) (blk : List Byte)
  /-- TAKE_OWNERSHIP (R495): Moves the device to Owned with owner and recovery keys. -/
  | takeOwnership (src : Fin 3) (blk : List Byte)
  /-- TRANSFER (R495): Replaces the owner keys in Owned. -/
  | transfer (src : Fin 3) (blk : List Byte)
  /-- LIFECYCLE_RELEASE (R495): Returns the device from Owned to Integrated. -/
  | lifecycleRelease (src : Fin 3) (blk : List Byte)
  /-- RETIRE (R496): Retires the device, destroying every key. -/
  | retire (src : Fin 3) (blk : List Byte)
  /-- REBIND (R514): Moves the flash tier to a replacement device under the recovered tier key. -/
  | rebind (src : Fin 3) (blk payload : List Byte) (opens : Bool)
  /-- SECURITY_EPOCH_RAISE (R503): Raises the security epoch and evicts lower-epoch tables. -/
  | securityEpochRaise (src : Fin 3) (blk : List Byte)
  /-- FIRMWARE_APPROVAL (R500): An owner approval of a firmware digest. -/
  | firmwareApproval (src : Fin 3) (blk : List Byte)
  /-- TABLE_APPROVAL (R500): An owner approval of a table digest. -/
  | tableApproval (src : Fin 3) (blk : List Byte)
  /-- INTEGRATOR_KEY_ROTATION (R502): Registers a new integrator key index and revokes older ones. -/
  | integratorKeyRotation (src : Fin 3) (blk : List Byte)
  /-- DEBUG_UNLOCK (R502): Empties key slots and opens JTAG debug until power-on reset. -/
  | debugUnlock (src : Fin 3) (blk : List Byte)
  /-- OWNER_POLICY (R520): Sets the owner policy. -/
  | ownerPolicy (src : Fin 3) (blk : List Byte)
  /-- OWNER_MIGRATION_KEY (R520): Sets the owner migration key. -/
  | ownerMigrationKey (src : Fin 3) (blk payload : List Byte)
  /-- KEY_IMPORT (R520): Places an imported key in a named slot for a function. -/
  | keyImport (src : Fin 3) (blk payload : List Byte)
  /-- SEAL_RELEASE (R515): Removes an expired retention seal. -/
  | sealRelease (src : Fin 3) (blk : List Byte)
  /-- JOURNAL_ENTRY_DURABLE (R506): Both copies of a journal entry are programmed and the change takes effect. -/
  | journalEntryDurable (ok : Bool)
  /-- ALARM (R517): An armed alarm source erases key slots, DRBG state and Shutters and latches its cause. -/
  | alarm (cond : Fin 6)
  /-- ALARM_CLEAR (R517): An alarm condition stays clear for 10 ms and the alarm clears and is journalled. -/
  | alarmClear (src : Fin 3)
  /-- PROFILE_CHANGE (R526): The target profile changes between Open and Ajar. -/
  | profileChange
  /-- LATCHED_ENTRY (R528): Once entry conditions hold the device enters Latched. -/
  | latchedEntry (p0 p1 : Bool)
  /-- SHUTTERED_ENTRY (R528): Once entry conditions hold the device writes the resume image and enters Shuttered. -/
  | shutteredEntry
  /-- ENTRY_TIMEOUT (R527): Entry waits longer than ENTRY_TO and PCR raises event 5. -/
  | entryTimeout
  /-- WAKE (R529): A wake source returns the device from Latched or Shuttered and reloads TB. -/
  | wake (src : Fin 7) (periods : Nat) (ok : Bool)
  /-- AON_TIMER_EXPIRY (R542): PCR_AONTMR seconds pass in Latched or Shuttered, a wake source. -/
  | aonTimerExpiry (ok : Bool)
  /-- IDLE_EXPIRY (R530): IDLE ms without a fetch returns the device to Latched. -/
  | idleExpiry
  /-- GOVERNOR_STEP (R531): Each 1 ms in Ajar PCR throttles or releases one step by power. -/
  | governorStep
  /-- METERING_INTERVAL (R533): Each 1 ms EMT meters the rails and charges energy to blocks and work. -/
  | meteringInterval (rails : List (Option Nat)) (model benches : List (Nat × Nat × Nat)) (dyn : List (Nat × Nat))
    (cmds : List (Nat × Nat × Nat))
  /-- PLANNER_RUN (R538): The margin planner computes and applies the profile voltages. -/
  | plannerRun (delays : List Nat) (span : Nat)
  /-- AVSBUS_TIMEOUT (R539): The regulator does not report done within 1 ms and the old voltage is kept. -/
  | avsbusTimeout
  /-- AGM_MEASUREMENT (R537): Every 24 h AGM measures all path-delay monitors. -/
  | agmMeasurement (delays : List Nat) (span : Nat)
  /-- SENSOR_SAMPLE (R541): Every 1 ms the die sensors are sampled and thresholds compared. -/
  | sensorSample (temps : List (Int × Bool))
  /-- POWER_ON_RESET (R549): The internal power-on reset is released 2 ms after PWR_GOOD and straps are sampled. -/
  | powerOnReset (x8 sris0 sris1 : Bool)
  /-- PORST_LOW (R549): PORST# or PWR_GOOD going low puts the device in power-on reset. -/
  | porstLow
  /-- WARM (R561): The Keeper writing PCR_RST.WARM starts a chip warm reset. -/
  | warm (req : Requester)
  /-- BOOT_STAGE (R551): Boot advances to its next stage once the previous completes. -/
  | bootStage (ok : Bool) (img1 img2 : List Byte) (fault opens : Bool)
  /-- MAP_RESTORE_END (R555): Mapping tables are restored and flash namespaces become ready. -/
  | mapRestoreEnd (tables : List (Nat × List Byte))
  /-- HOLDUP_DRAIN (R587): PFAIL# low stops fetching, stages the write buffer and drives CORE_PWR_EN low. -/
  | holdupDrain
  /-- SOFTWARE_SOURCE (R562): Writing EVF_SWSET with GO raises a software event source. -/
  | softwareSource (req : Requester) (n : Fin 256)
  /-- PULSE_END (R567): A 100 ns EVT_OUT pulse ends and the pin falls. -/
  | pulseEnd (pin : Fin 4)
  /-- LINK_RECOVERY (R400): The link enters Recovery of its own accord, pauses traffic, replays and counts the entry, stepping down after three failures. -/
  | linkRecovery (p : Fin 2) (ok : Bool) (best lanes : Nat)
  /-- PAGE_READ_END (R209): A flash page read completes and the slice's bytes are moved into FTM_IN, ready for a transit slot and decoding. -/
  | pageReadEnd (op : Nat) (raw : List (BitVec 8))
  /-- CONTROLLER_RESET (R445): A host write of CC.EN resets or enables an NVMe controller, returning its Barlis version to 1.0 and applying a pending flexible allocation. -/
  | controllerReset (func : Fin 256) (en wrr : Bool) (sqn cqn : Nat)
  /-- NUMVFS_WRITE (R466): A host configuration write of VF Enable and NumVFs brings virtual functions into existence or removes them. -/
  | numvfsWrite (pf : Fin 2) (n : Nat)
  /-- MSIX_UNMASK (R566): The host clears a vector's mask while its pending bit is set, and the merged MSI-X message is sent. -/
  | msixUnmask (func : Fin 256) (vec : Fin 2048) (addr : BitVec 64) (data : BitVec 32)
  /-- INTERRUPT_COALESCING_TIMEOUT (R419): The aggregation time of Interrupt Coalescing runs out and the held interrupt of a completion queue is sent. -/
  | interruptCoalescingTimeout (func : Fin 256) (q : Nat)
  /-- AVSBUS_DONE (R539): The regulator reports done over AVSBus and PCR raises the frequency for the new plan. -/
  | avsbusDone
  /-- AGM_WEAR_POLL (R540): Every hour AGM reads the largest RETRY_AVG and its die into AGM_WEAR1, raising event 6 on a threshold crossing. -/
  | agmWearPoll
  /-- BOOT_TIMEOUT (R553): RT0 has not reported running within 100 ms, or an alarm has stayed active for 1 s during boot, and the boot stops with its code. -/
  | bootTimeout
  /-- WR_WAIT_EXPIRY (R197): The ring has not reached TPI_WR_START within TPI_WR_WAIT after an underrun, and a backhitch follows. -/
  | wrWaitExpiry
deriving DecidableEq, Repr

end Sys2Proof
end

