-- ==== Sys2Proof/Decode.lean ====
section
/-! DEFINITION. What the host reads of the opcode table's bits.  No row of spec/opcode_table.json gives bits: a command comes from
outside as it is, and no word spells one. -/

namespace Sys2Proof

/-- The command that a word of the table's bits spells: none, for every row. -/
def decodeTableWord (_nbits _w : Nat) : Option Instr := none

end Sys2Proof
end

