-- ==== Sys2Proof/Config.lean ====
section
/-! DEFINITION. What the manual leaves open: every constant here has no body, so no proof can see its value, and a
theorem about the model holds whatever it is.  Each is named in the assumption log. -/

namespace Sys2Proof.Config

/-- Whether a quotient whose rounding the manual does not state is rounded up (log entry 10). -/
opaque roundUp : Int → Int → Bool

/-- A fresh word for a value that the manual leaves undefined, by the model's own counter (log entry 3). -/
opaque freeWord : Nat → BitVec 64

/-- A fresh byte likewise. -/
opaque freeByte : Nat → BitVec 8

/-- BLK_VER.MINOR and BUILD of a block, by its first page (log entry 8). -/
opaque blkMinor : Nat → BitVec 8
opaque blkBuild : Nat → BitVec 16

/-- The interpolator's output between the newest corrected sample and the one before it, both the newest of the list, at a phase in 1/64 of
a sample; the manual does not give its filter (R65; log entry 138). -/
opaque interp : List Int → Nat → Int

/-- The vendor's signing keys by index, fused at the factory (log entry 7). -/
opaque vendorKey : Nat → List (BitVec 8)

/-- The tenants' program signing keys, by KEY_IDX (R323; log entry 7). -/
opaque tenantKey : Nat → List (BitVec 8)

/-- Where byte `i` of what a section's record holds lies in a record of section type `t` of a migration blob: the manual gives
the records' contents and lengths, and not the places (R487; log entry 14). -/
opaque sectionAt : Nat → Nat → Nat

/-- ECDSA P-384 verification: public key, digest, r and s (log entry 9). -/
opaque ecdsaVerify : List (BitVec 8) → List (BitVec 8) → List (BitVec 8) → List (BitVec 8) → Bool

/-- The identity key: its public part in uncompressed form, and signing with the private part, which never leaves KPR:
r followed by s (log entry 7). -/
opaque identKey : List (BitVec 8)
opaque identSign : List (BitVec 8) → List (BitVec 8)

/-- The certificate chain of slot 0 (R510), and the digest of the boot ROM (R511; log entry 7). -/
opaque certChain : List (BitVec 8)
opaque bootRom : BitVec 384

/-- The factory delay, voltage sensitivity and temperature coefficient of path-delay monitor `i`, from its fuses (R537;
log entry 7). -/
opaque monBase : Nat → BitVec 12
opaque monSens : Nat → BitVec 8
opaque monKt : Nat → BitVec 8

/-- The fused temperature grade (R543; log entry 7). -/
opaque tempGrade : BitVec 2

/-- Which value of a byte that changes while a table container is being loaded the load reads: the new one where true
(R105 leaves it undefined; log entry 3). -/
opaque loadReadsNew : Nat → Nat → Bool

/-- The compressed form that the encoder of CXE finds: format, level entry and block; blocks of a Zstandard frame, or a Deflate
stream. It is used where it decodes to the block (R343, R345; log entry 3). -/
opaque cxeEncode : Nat → BitVec 32 → List (BitVec 8) → List (BitVec 8)

/-- Byte `i` of the device wrap key, derived from the fuses (R358; log entry 7). -/
opaque wrapKey : Nat → BitVec 8

/-- Bytes of the Identify Controller structure that name the vendor, the model and the serial number, by offset, and byte `i` of the
Vital Product Data as the factory leaves them (log entry 7). -/
opaque identityByte : Nat → BitVec 8
/-- CAP.TO, of which the manual gives no value. -/
opaque ctrlTimeout : BitVec 8
opaque vpdByte : Nat → BitVec 8

/-- The largest MCTP transmission unit of management port `p` (log entry 7). -/
opaque maxMtu : Nat → BitVec 16

/-- Which lanes of class `c` of HSE run the given jobs, as a mask (R370 does not say; log entry 3). -/
opaque hseMask : List Nat → Nat → Nat

/-- The unit index that the tag of unit `i` of a diverted data set holds: no unit of a namespace (R204, R224; log entry 145). -/
opaque divertUnit : Nat → Nat → Nat

/-- Which line leaves a full cache of a core, by the free counter (R272 leaves the choice open; log entry 3). -/
opaque cacheVictim : Nat → Nat

end Sys2Proof.Config
end

