-- ==== Sys2Proof/Machine/State/Base.lean ====
section
/-! DEFINITION. The plain data types that every block's state is made of: sparse maps, the staging state of a
block, and what a command sends out of the device.

A sparse map is a list of (key, value) pairs in one canonical form: keys strictly rising, and no entry equal
to what an unlisted key reads as.  The operations that keep that form stand in Machine/Ops.lean. -/

namespace Sys2Proof.Machine

/-- A sparse map from natural numbers; what an unlisted key reads as is said where the map is read. -/
abbrev FMap (α : Type) := List (Nat × α)

/-- An older settings set that a block keeps for its jobs in flight (R55 step 2): the epoch it was in force
under, and the words of the block's RWS registers then. -/
structure SettingsSet where
  epoch : RegWord
  words : FMap RegWord
deriving DecidableEq, Repr

/-- What a block keeps beside its registers (R41, R54, R55, R58). -/
structure BlkState where
  /-- EPOCH of every job accepted and not yet complete (R54), oldest first -/
  jobs : List RegWord
  /-- the settings sets older than the active one that jobs in flight still need (R55 step 2) -/
  older : List SettingsSet
  /-- a commit has been requested and has not ended (STG_ACT) -/
  active : Bool
  /-- a further commit request is held until the active commit ends (R58) -/
  held : Bool
  /-- a soft reset is in progress (SRST, SRST_ACT) -/
  srst : Bool
deriving DecidableEq, Repr

/-- A block with no job, no commit and no soft reset in progress. -/
def BlkState.init : BlkState := ⟨[], [], false, false, false⟩

/-- What a command sends out of the device, or answers to who asked: the state keeps the outputs of the last
command only. -/
inductive Out where
  /-- the word a register or memory read returns -/
  | value (v : Nat)
  /-- bytes returned or sent: a response, a log page, data of a read -/
  | data (bytes : List Byte)
  /-- the access ended with a bus error to the requester, and had no other effect (R31) -/
  | busError
  /-- an MSI-X message for vector `vec` of function slot `func` (R564) -/
  | msix (func vec : Nat)
  /-- event bit `bit` of the Keeper is set -/
  | keeper (bit : Nat)
  /-- pin EVT_OUT[n] starts a 100 ns pulse (R567) -/
  | pulse (n : Nat)
  /-- a completion posted to a completion queue: controller, CQ, CID, status code type, status code, DNR, DW0, DW1 -/
  | completion (ctrl cq cid sct sc : Nat) (dnr : Bool) (dw0 dw1 : Nat)
  /-- DMA of data to host memory for function slot `func` -/
  | hostData (func : Nat) (bytes : List Byte)
  /-- an operation issued on an external interface, by its name in the manual and its parameters -/
  | issue (what : String) (args : List Nat)
deriving DecidableEq, Repr

end Sys2Proof.Machine
end

