-- ==== Sys2Proof/Machine/RegTable.lean ====
section
/-! DEFINITION. The register pages: which block owns a page (R13, R14, R36), and the layout of every register
that the block chapters define, with its access codes (R10) and reset values.

Offsets are relative to the page.  A register that a table repeats (entry n at offset + stride × n, or one page
per instance) has one row here.  `resetOf` gives the reset value of the few registers whose rows reset to
different values. -/

namespace Sys2Proof.Machine

/-- The 25 kinds of block, by type code (R13). -/
inductive BlkType where
  | pcr | kpr | evf | hib | qen | img | dmc | flc | ftm | tfe | tdt | fmt | dcf | svd | lpe | tpi
  | ccl | rtx | cxe | aee | hse | ase | agm | emt | noc
deriving DecidableEq, Repr

/-- The type code that BLK_ID[31:16] returns (R13). -/
def BlkType.code : BlkType → Nat
  | .pcr => 0x01 | .kpr => 0x02 | .evf => 0x03 | .hib => 0x04 | .qen => 0x05 | .img => 0x06 | .dmc => 0x07
  | .flc => 0x08 | .ftm => 0x09 | .tfe => 0x0A | .tdt => 0x0B | .fmt => 0x0C | .dcf => 0x0D | .svd => 0x0E
  | .lpe => 0x0F | .tpi => 0x10 | .ccl => 0x11 | .rtx => 0x12 | .cxe => 0x13 | .aee => 0x14 | .hse => 0x15
  | .ase => 0x16 | .agm => 0x17 | .emt => 0x18 | .noc => 0x19

/-- One row of *Page assignment* (R36): `inst` instances of `pages` pages each from page `base`; `src` is the
event source base of instance 0 (R562). -/
structure BlkRow where
  typ : BlkType
  base : Nat
  pages : Nat
  inst : Nat
  src : Nat

/-- *Page assignment* (R36) with the *Event source bases* (R562). -/
def blkRows : List BlkRow := [
  ⟨.pcr, 0x000, 8, 1, 0x000⟩, ⟨.kpr, 0x008, 8, 1, 0x020⟩, ⟨.evf, 0x010, 16, 1, 0x040⟩,
  ⟨.hib, 0x020, 16, 2, 0x060⟩, ⟨.qen, 0x040, 64, 1, 0x0A0⟩, ⟨.img, 0x100, 256, 1, 0x0C0⟩,
  ⟨.dmc, 0x200, 8, 4, 0x0E0⟩, ⟨.flc, 0x220, 2, 16, 0x160⟩, ⟨.ftm, 0x240, 16, 1, 0x360⟩,
  ⟨.tfe, 0x280, 71, 1, 0x380⟩, ⟨.tdt, 0x300, 16, 1, 0x3A0⟩, ⟨.fmt, 0x310, 16, 1, 0x3C0⟩,
  ⟨.dcf, 0x320, 64, 1, 0x3E0⟩, ⟨.svd, 0x360, 4, 1, 0x400⟩, ⟨.lpe, 0x380, 32, 1, 0x420⟩,
  ⟨.tpi, 0x3A0, 16, 1, 0x440⟩, ⟨.ccl, 0x400, 16, 4, 0x460⟩, ⟨.rtx, 0x440, 16, 1, 0x4E0⟩,
  ⟨.cxe, 0x460, 2, 4, 0x500⟩, ⟨.aee, 0x468, 4, 2, 0x580⟩, ⟨.hse, 0x470, 2, 1, 0x5C0⟩,
  ⟨.ase, 0x480, 16, 1, 0x5E0⟩, ⟨.agm, 0x490, 4, 1, 0x600⟩, ⟨.emt, 0x4A0, 8, 1, 0x620⟩,
  ⟨.noc, 0x4B0, 8, 1, 0x640⟩]

/-- A block instance: its type, instance number, first page, page count and event source base. -/
structure Blk where
  typ : BlkType
  inst : Nat
  base : Nat
  pages : Nat
  src : Nat
deriving DecidableEq, Repr

/-- The block instance of a row that owns page `p`, if the row's pages hold it. -/
def BlkRow.at? (r : BlkRow) (p : Nat) : Option Blk :=
  if r.base ≤ p ∧ p < r.base + r.pages * r.inst then
    let n := (p - r.base) / r.pages
    some ⟨r.typ, n, r.base + n * r.pages, r.pages, r.src + 0x20 * n⟩
  else none

/-- The block instance that owns register page `p`; none: the page holds no block (R5). -/
def blkAt (p : Nat) : Option Blk := blkRows.findSome? (·.at? p)

/-- Every block instance, in the order of *Page assignment*. -/
def allBlks : List Blk :=
  blkRows.flatMap fun r => (List.range r.inst).map fun n => ⟨r.typ, n, r.base + n * r.pages, r.pages, r.src + 0x20 * n⟩

/-! ### First pages of the block instances (R36) -/

def pPcr : Nat := 0x000
def pKpr : Nat := 0x008
def pEvf : Nat := 0x010
def pHib (n : Nat) : Nat := 0x020 + 0x10 * n
def pQen : Nat := 0x040
def pImg : Nat := 0x100
def pDmc (n : Nat) : Nat := 0x200 + 8 * n
def pFlc (n : Nat) : Nat := 0x220 + 2 * n
def pFtm : Nat := 0x240
def pTfe : Nat := 0x280
def pTdt : Nat := 0x300
def pFmt : Nat := 0x310
def pDcf : Nat := 0x320
def pSvd : Nat := 0x360
def pLpe : Nat := 0x380
def pTpi : Nat := 0x3A0
def pCcl (n : Nat) : Nat := 0x400 + 16 * n
def pRtx : Nat := 0x440
def pCxe (n : Nat) : Nat := 0x460 + 2 * n
def pAee (n : Nat) : Nat := 0x468 + 4 * n
def pHse : Nat := 0x470
def pAse : Nat := 0x480
def pAgm : Nat := 0x490
def pEmt : Nat := 0x4A0
def pNoc : Nat := 0x4B0

/-- Access codes (R10).  `clr` is an RO field that a write of 0 to its register clears, as ERR_CNT0 says. -/
inductive Acc where
  | ro | rw | w1c | w1s | wo | rws | clr
deriving DecidableEq, Repr

/-- One field of a register: bits [lo + len - 1 : lo]. -/
structure Fld where
  acc : Acc
  lo : Nat
  len : Nat
  reset : Nat

def ro (lo len : Nat) (r : Nat := 0) : Fld := ⟨.ro, lo, len, r⟩
def rw (lo len : Nat) (r : Nat := 0) : Fld := ⟨.rw, lo, len, r⟩
def rws (lo len : Nat) (r : Nat := 0) : Fld := ⟨.rws, lo, len, r⟩
def w1c (lo len : Nat) : Fld := ⟨.w1c, lo, len, 0⟩
def w1s (lo len : Nat) : Fld := ⟨.w1s, lo, len, 0⟩
def wo (lo len : Nat) : Fld := ⟨.wo, lo, len, 0⟩
def clr (lo len : Nat) : Fld := ⟨.clr, lo, len, 0⟩

/-- A register, or a run of `count` registers `stride` bytes apart, on `pages` consecutive pages of the block
from page `page`. -/
structure RegRow where
  page : Nat
  pages : Nat
  off : Nat
  count : Nat
  stride : Nat
  flds : List Fld

/-- One register of page 0. -/
def r0 (off : Nat) (flds : List Fld) : RegRow := ⟨0, 1, off, 1, 4, flds⟩

/-- `count` registers of page `p`, `stride` bytes apart. -/
def rN (p off count stride : Nat) (flds : List Fld) : RegRow := ⟨p, 1, off, count, stride, flds⟩

namespace Reg

/-! ### The common page header (chapter 2) -/

def BLK_ID : Nat := 0x000
def BLK_VER : Nat := 0x004
def BLK_CAP0 : Nat := 0x008
def BLK_CAP1 : Nat := 0x00C
def BLK_CTRL : Nat := 0x010
def BLK_STAT : Nat := 0x014
def STG_CTRL : Nat := 0x018
def STG_EPOCH : Nat := 0x01C
def EVT_RAW : Nat := 0x020
def EVT_PEND : Nat := 0x024
def EVT_MASK : Nat := 0x028
def EVT_ROUTE : Nat := 0x02C
def ERR_CNT (i : Nat) : Nat := 0x030 + 4 * i
def BAD_WR_CNT : Nat := 0x040
def LOCK : Nat := 0x044
def ENERGY_LO : Nat := 0x048
def ENERGY_HI : Nat := 0x04C

/-! ### TFE and TDT (chapter 3) -/

def TFE_CTRL : Nat := 0x080
def TFE_SRATE : Nat := 0x084
def TFE_STEP_TRK : Nat := 0x088
def TFE_STEP_ACQ : Nat := 0x08C
def TFE_TARGET : Nat := 0x090
def TFE_DROP : Nat := 0x094
def TFE_ENV : Nat := 0x098
def TFE_WEAR : Nat := 0x09C
def TFE_WR_CTRL : Nat := 0x0A0
def CH_CFG : Nat := 0x080
def CH_AGC : Nat := 0x084
def CH_DGAIN : Nat := 0x088
def CH_OFS : Nat := 0x08C
def CH_ASYM : Nat := 0x090
def CH_FIR (i : Nat) : Nat := 0x0A0 + 4 * i
def CH_WEAR : Nat := 0x0C0
def CH_STAT : Nat := 0x0C4
def CH_SATCNT : Nat := 0x0C8
def CH_WR : Nat := 0x0CC
def TDT_CTRL : Nat := 0x080
def TDT_NOMRATE : Nat := 0x084
def TDT_LOOP_TRK : Nat := 0x088
def TDT_LOOP_ACQ : Nat := 0x08C
def TDT_FLIM : Nat := 0x090
def TDT_JD : Nat := 0x094
def TDT_LOCK : Nat := 0x098
def TDT_STAT : Nat := 0x09C
def TDT_LOCKN (i : Nat) : Nat := 0x0A0 + 4 * i
def TDT_DEAD (i : Nat) : Nat := 0x0AC + 4 * i
/-- timing entry n, word w, in page 1 -/
def TDT_TIM (n w : Nat) : Nat := 0x080 + 0x10 * n + w
/-- coupling entry t, word w, in page 2 -/
def TDT_CPL (t w : Nat) : Nat := 0x080 + 0x20 * t + w
/-- track map entry t, in page 3 -/
def TDT_MAP (t : Nat) : Nat := 0x080 + 4 * t

/-! ### FMT and DCF (chapters 4 and 5) -/

def FMT_CTRL : Nat := 0x080
def FMT_WFMT : Nat := 0x084
def FMT_RFMT : Nat := 0x088
def FMT_LOAD_LO : Nat := 0x08C
def FMT_LOAD_HI : Nat := 0x090
def FMT_LOAD : Nat := 0x094
def FMT_SLOTID (n : Nat) : Nat := 0x0A0 + 8 * n
def FMT_SLOTVER (n : Nat) : Nat := 0x0A4 + 8 * n
def FMT_DSN : Nat := 0x0E0
def FMT_STAT : Nat := 0x0E4
def FMT_RWDSN : Nat := 0x0E8
def FMT_RWREC : Nat := 0x0EC
def FMT_SPOIL (i : Nat) : Nat := 0x0F0 + 4 * i
def DCF_CTRL : Nat := 0x080
def DCF_TRES : Nat := 0x084
def DCF_TDEAD : Nat := 0x088
def DCF_SCHED : Nat := 0x08C
def DCF_TILE_EN0 : Nat := 0x090
def DCF_TILE_EN1 : Nat := 0x094
def DCF_TILE_BUSY0 : Nat := 0x098
def DCF_TILE_BUSY1 : Nat := 0x09C
def DCF_STAT : Nat := 0x0A0
def DCF_QLEVEL : Nat := 0x0A4
def DCF_LOAD_LO : Nat := 0x0A8
def DCF_LOAD_HI : Nat := 0x0AC
def DCF_LOAD : Nat := 0x0B0
def DCF_SLOT_EN : Nat := 0x0B4
def DCF_SLOTID (n : Nat) : Nat := 0x0C0 + 8 * n
def DCF_SLOTVER (n : Nat) : Nat := 0x0C4 + 8 * n
/-- DCF_CW_T, DCF_CW_H, DCF_CW_B for class 0, 1, 2 -/
def DCF_CW (c : Nat) : Nat := 0x140 + 4 * c
def DCF_IT (c : Nat) : Nat := 0x14C + 4 * c
def DCF_LAT_T : Nat := 0x158

/-! ### SVD and LPE (chapter 6) -/

def SVD_CTRL : Nat := 0x080
def SVD_TBS (i : Nat) : Nat := 0x084 + 4 * i
def SVD_CMP : Nat := 0x090
def SVD_BAND : Nat := 0x094
def SVD_TBS_X : Nat := 0x0A0
def SVD_TBS_XL : Nat := 0x0A4
def SVD_TBS_XU : Nat := 0x0A8
def SVD_SKEW : Nat := 0x0AC
def SVD_SPEED : Nat := 0x0B0
def SVD_LPOS : Nat := 0x0B4
def SVD_CMP_XL : Nat := 0x0B8
def SVD_CMP_XU : Nat := 0x0BC
def SVD_CMP_X : Nat := 0x0C0
def SVD_STAT : Nat := 0x0C4
/-- element entry e, word w, in page 1 -/
def SVD_EL (e w : Nat) : Nat := 0x080 + 0x10 * e + w
def LPE_TIMER (i : Nat) : Nat := 0x080 + 4 * i
def LPE_STAT : Nat := 0x088
def LPE_OVR : Nat := 0x08C
def SLOT_CTRL : Nat := 0x080
def SLOT_IO : Nat := 0x084
def SLOT_TIME : Nat := 0x088
def SLOT_SAFE : Nat := 0x08C
def SLOT_RAMP : Nat := 0x090
/-- bank 0 (A) or 1 (B), word at offset w -/
def BANK (b w : Nat) : Nat := 0x100 + 0x100 * b + w
def SLOT_S : Nat := 0x300
def SLOT_U : Nat := 0x304
def SLOT_R_EFF : Nat := 0x308
def SLOT_Y : Nat := 0x30C
def SLOT_E : Nat := 0x310
def SLOT_GS : Nat := 0x314
def SLOT_D_LO : Nat := 0x318
def SLOT_D_HI : Nat := 0x31C
def SLOT_W (b w : Nat) : Nat := 0x320 + 0x10 * b + w
def SLOT_OVR : Nat := 0x3A0
def SLOT_HOCNT : Nat := 0x3A4
def SLOT_HOREF : Nat := 0x3A8
def SLOT_FBCNT : Nat := 0x3AC
def SLOT_LATMAX : Nat := 0x3B0
/-- gain schedule of slot n, word at offset w, in page 17 + n div 4 -/
def GSCHED (n w : Nat) : Nat := 0x080 + 0x140 * (n % 4) + w
def CURVE_X0 : Nat := 0x080
def CURVE_DX : Nat := 0x084
def CURVE_PT (i : Nat) : Nat := 0x100 + 4 * i
/-- trace unit u, word w, in page 29 + u div 2 -/
def TRACE (u w : Nat) : Nat := 0x080 + 0x40 * (u % 2) + w
def PWM_CTRL : Nat := 0x080
def PWM_PERIOD : Nat := 0x084
def PWM_DUTY (n : Nat) : Nat := 0x088 + 4 * n
def ACT_LINK : Nat := 0x0B0
def ACT_SEND (n : Nat) : Nat := 0x0B4 + 4 * n
def ACT_RX (n : Nat) : Nat := 0x0BC + 4 * n
def ACT_Q : Nat := 0x0C4
def ADC_CTRL : Nat := 0x0D0
def ADC_PERIOD : Nat := 0x0D4
def ADC_DATA (n : Nat) : Nat := 0x0E0 + 4 * n

/-! ### TPI (chapter 7) -/

def TPI_CTRL : Nat := 0x080
def TPI_CMD : Nat := 0x084
def TPI_ARG (i : Nat) : Nat := 0x088 + 4 * i
def TPI_STAT : Nat := 0x090
def TPI_FLAGS : Nat := 0x094
def TPI_GPIO_DIR : Nat := 0x098
def TPI_GPIO_OUT : Nat := 0x09C
def TPI_GPIO_IN : Nat := 0x0A0
def TPI_SENS (i : Nat) : Nat := 0x0A4 + 4 * i
def TPI_LOAD_LO : Nat := 0x0C0
def TPI_LOAD_HI : Nat := 0x0C4
def TPI_LOAD : Nat := 0x0C8
def TPI_MOTID : Nat := 0x0CC
def TPI_CM_CTRL : Nat := 0x0D0
def TPI_RING_BASE : Nat := 0x0E0
def TPI_RING_SIZE : Nat := 0x0E4
def TPI_RING_FILL : Nat := 0x0E8
def TPI_DIV : Nat := 0x0EC
def TPI_WR : Nat := 0x0F0
def TPI_BH_CNT : Nat := 0x0F4
def TPI_UNDER_CNT : Nat := 0x0F8
def TPI_DIV_CNT : Nat := 0x0FC
/-- word i of the CM buffer, in page 2 -/
def TPI_CM_BUF (i : Nat) : Nat := 0x100 + 4 * i

/-! ### FLC and FTM (chapter 8) -/

def FLC_RATE : Nat := 0x080
def FLC_TRAIN : Nat := 0x084
def FLC_DLY : Nat := 0x088
def FLC_TO : Nat := 0x08C
def FLC_STAT : Nat := 0x090
def FLC_RD_CNT : Nat := 0x094
def FLC_PG_CNT : Nat := 0x098
def FLC_ER_CNT : Nat := 0x09C
def FLC_RAW (i : Nat) : Nat := 0x0A0 + 4 * i
/-- word i of the raw data buffer, in page 1 -/
def FLC_RAW_BUF (i : Nat) : Nat := 0x100 + 4 * i
def FTM_CTRL : Nat := 0x080
def FTM_DISC : Nat := 0x084
def FTM_CAP_LO : Nat := 0x088
def FTM_CAP_HI : Nat := 0x08C
def FTM_NS_LO : Nat := 0x090
def FTM_NS_HI : Nat := 0x094
def FTM_MAP_LO : Nat := 0x098
def FTM_MAP_HI : Nat := 0x09C
def FTM_BLK_LO : Nat := 0x0A0
def FTM_BLK_HI : Nat := 0x0A4
def FTM_OVF_LO : Nat := 0x0A8
def FTM_OVF_HI : Nat := 0x0AC
def FTM_IN : Nat := 0x0B0
def FTM_HOURS : Nat := 0x0B4
def FTM_TEMP : Nat := 0x0B8
def FTM_LOAD_LO : Nat := 0x0C0
def FTM_LOAD_HI : Nat := 0x0C4
def FTM_LOAD : Nat := 0x0C8
def FTM_CURVEID (n : Nat) : Nat := 0x0D0 + 4 * n
def FTM_STRIPE : Nat := 0x0E0
def FTM_FREE : Nat := 0x0E4
def FTM_FREE_LVL : Nat := 0x0E8
def FTM_PATROL : Nat := 0x0F0
def FTM_PSTAT : Nat := 0x0F4
def FTM_PSTALE : Nat := 0x0F8
def FTM_DIV : Nat := 0x100
def FTM_DIV_STAT : Nat := 0x104
def FTM_UNREC (i : Nat) : Nat := 0x110 + 4 * i
def FTM_REFRESH : Nat := 0x120
def FTM_SPOIL (i : Nat) : Nat := 0x130 + 4 * i
/-- die map entry d, in page 1 -/
def FTM_DIE (d : Nat) : Nat := 0x080 + 4 * d

/-! ### DMC (chapter 9) -/

def DMC_CFG : Nat := 0x080
def DMC_GEOM : Nat := 0x084
def DMC_TRAIN : Nat := 0x088
def DMC_RANK : Nat := 0x08C
def DMC_MIG : Nat := 0x090
def DMC_REF : Nat := 0x094
def DMC_RDIST : Nat := 0x098
def DMC_ECC : Nat := 0x09C
def DMC_ELOG0 : Nat := 0x0A0
def DMC_ELOG1 : Nat := 0x0A4
def DMC_CHMAP : Nat := 0x0B0
def DMC_INIT : Nat := 0x0B4
def DMC_REF_CNT : Nat := 0x0B8
def DMC_RDIST_CNT : Nat := 0x0BC
/-- port p, word w, in page 1 of DMC 0 -/
def DMC_PORT (p w : Nat) : Nat := 0x080 + 0x20 * p + w
/-- timing set b, word w, in page 2 -/
def DMC_TSET (b w : Nat) : Nat := 0x080 + 0x20 * b + w

/-! ### CCL and RTX (chapter 12) -/

def CCL_CTX_BASE : Nat := 0x080
def CCL_LOAD_LO : Nat := 0x084
def CCL_LOAD_HI : Nat := 0x088
def CCL_LOAD : Nat := 0x08C
def CCL_LOAD_LEN : Nat := 0x090
/-- core entry c, word w, in page 1 -/
def CORE (c w : Nat) : Nat := 0x080 + 0x40 * c + w
/-- Bench entry b, word w, in page 2 -/
def BENCH (b w : Nat) : Nat := 0x080 + 0x10 * b + w
/-- stream entry s, word w, in page 3 -/
def STREAM (s w : Nat) : Nat := 0x080 + 0x20 * s + w

/-! ### CXE, AEE, HSE and ASE (chapters 13 to 15) -/

def CXE_STAT : Nat := 0x080
def CXE_IN_LO : Nat := 0x084
def CXE_IN_HI : Nat := 0x088
def CXE_OUT_LO : Nat := 0x08C
def CXE_OUT_HI : Nat := 0x090
def CXE_JOBS : Nat := 0x094
def CXE_GREW : Nat := 0x098
/-- the entry of level n, 1 to 12 -/
def CXE_LVL (n : Nat) : Nat := 0x0A0 + 4 * (n - 1)
def AEE_CTRL : Nat := 0x080
def AEE_SHUT : Nat := 0x084
def AEE_STAT : Nat := 0x088
def AEE_IN_LO : Nat := 0x08C
def AEE_IN_HI : Nat := 0x090
def AEE_OUT_LO : Nat := 0x094
def AEE_OUT_HI : Nat := 0x098
def AEE_DRBG : Nat := 0x0A0
def AEE_ALARM : Nat := 0x0A4
def AEE_WKT_LO : Nat := 0x0A8
def AEE_WKT_HI : Nat := 0x0AC
/-- slot status entry k, low word, in AEE 0 page 2 + k div 256 -/
def AEE_SLOT (k : Nat) : Nat := 0x080 + 8 * (k % 256)
def HSE_BUSY : Nat := 0x080
def HSE_IN_LO : Nat := 0x084
def HSE_IN_HI : Nat := 0x088
def HSE_MISMATCH : Nat := 0x08C
def ASE_STAT : Nat := 0x080
def ASE_CTX : Nat := 0x084
def ASE_SRCH_LO : Nat := 0x088
def ASE_SRCH_HI : Nat := 0x08C
def ASE_MOVES : Nat := 0x090
/-- bank entry b in page 1, table entry t in page 2, context entry c in page 3: first word -/
def ASE_ENT (i : Nat) : Nat := 0x080 + 8 * i

/-! ### HIB and IMG (chapters 16 and 19) -/

def HIB_MODE : Nat := 0x080
def HIB_STRAP : Nat := 0x084
def HIB_LCTL : Nat := 0x088
def HIB_LSTAT : Nat := 0x08C
def HIB_EQ : Nat := 0x090
def HIB_LINKUP : Nat := 0x094
def HIB_L1_TIME : Nat := 0x098
def HIB_DOE : Nat := 0x0A0
def HIB_MI : Nat := 0x0B0
def HIB_MI_SMB : Nat := 0x0B4
def IMG_FN : Nat := 0x080
def IMG_RES : Nat := 0x084
def IMG_EPOCH : Nat := 0x088
def IMG_CTL : Nat := 0x08C
def IMG_ECAP : Nat := 0x090
def IMG_POWER : Nat := 0x094
def IMG_MIG : Nat := 0x098
def IMG_INFL : Nat := 0x09C
def IMG_TVER : Nat := 0x0A0
def IMG_TABLES : Nat := 0x0A4
def IMG_T2M : Nat := 0x0A8
def IMG_M2T : Nat := 0x0AC
def IMG_MBX : Nat := 0x800
def IMG_SPLIT : Nat := 0x804
def IMG_DEVSHARE : Nat := 0x808
def IMG_APT_LO : Nat := 0x80C
def IMG_APT_HI : Nat := 0x810
def IMG_ONLINE (n : Nat) : Nat := 0x820 + 4 * n
def IMG_FROZEN (n : Nat) : Nat := 0x840 + 4 * n

/-! ### KPR, PCR, AGM, EMT and EVF (chapters 20 to 23) -/

def KPR_LCS : Nat := 0x080
def KPR_SECEP : Nat := 0x084
def KPR_FCNT : Nat := 0x088
def KPR_JSEQ : Nat := 0x08C
def KPR_JFUSE : Nat := 0x090
def KPR_DEVID_LO : Nat := 0x094
def KPR_DEVID_HI : Nat := 0x098
def KPR_ALARM : Nat := 0x0A0
def KPR_POLICY : Nat := 0x0A4
def KPR_SEALS : Nat := 0x0A8
def PCR_RST : Nat := 0x080
def PCR_BOOT : Nat := 0x084
/-- the PCR power registers stand in page 1 (R542) -/
def PCR_PROF : Nat := 0x080
def PCR_PSTAT : Nat := 0x084
def PCR_WAKE : Nat := 0x088
def PCR_AONTMR : Nat := 0x08C
def PCR_CLK : Nat := 0x090
def PCR_VDD : Nat := 0x094
def PCR_GOV : Nat := 0x098
def AGM_CTRL : Nat := 0x080
def AGM_STAT : Nat := 0x084
def AGM_THR (i : Nat) : Nat := 0x090 + 4 * i
def AGM_HOT : Nat := 0x0A0
def AGM_WEAR (i : Nat) : Nat := 0x0A4 + 4 * i
def AGM_WTHR : Nat := 0x0B0
/-- monitor entry i, word w, in page 1 -/
def AGM_MON (i w : Nat) : Nat := 0x080 + 8 * i + w
/-- sensor entry s, in page 2 -/
def AGM_SENS (s : Nat) : Nat := 0x080 + 4 * s
def EMT_DEV_LO : Nat := 0x080
def EMT_DEV_HI : Nat := 0x084
def EMT_UNATTR_LO : Nat := 0x088
def EMT_UNATTR_HI : Nat := 0x08C
def EMT_POWER : Nat := 0x090
def EMT_POWER_MS : Nat := 0x094
/-- function accumulator k, low word, in page 1 -/
def EMT_FN (k : Nat) : Nat := 0x080 + 8 * k
def EVF_DEF : Nat := 0x080
def EVF_DEF_CC : Nat := 0x084
def EVF_PIN : Nat := 0x088
def EVF_SWSET : Nat := 0x08C
def EVF_SWPEND (n : Nat) : Nat := 0x090 + 4 * n
def EVF_FATAL : Nat := 0x0B0
def EVF_SRAM_LOG0 : Nat := 0x0B4
def EVF_SRAM_LOG1 : Nat := 0x0B8
/-- route entry e, in pages 1 to 8 -/
def EVF_RT (e : Nat) : Nat := 0x080 + 4 * e
/-- target entry k, low word, in page 9 -/
def EVF_TGT (k : Nat) : Nat := 0x080 + 8 * k

end Reg

open Reg

/-- The page header (chapter 2).  BLK_ID, BLK_VER, BLK_CAP0, BLK_CAP1 and BLK_STAT are computed at a read. -/
def hdrRegs : List RegRow := [
  r0 BLK_ID [ro 0 32], r0 BLK_VER [ro 0 32], r0 BLK_CAP0 [ro 0 32], r0 BLK_CAP1 [ro 0 32],
  r0 BLK_CTRL [rw 0 1, w1s 1 1, rw 2 1, rw 4 4], r0 BLK_STAT [ro 0 7],
  r0 STG_CTRL [w1s 0 1, w1s 1 1, rw 2 1, ro 8 2], r0 STG_EPOCH [ro 0 32],
  r0 EVT_RAW [ro 0 32], r0 EVT_PEND [w1c 0 32], r0 EVT_MASK [rw 0 32 0xFFFF_FFFF],
  r0 EVT_ROUTE [rw 0 1 1, rw 1 4],
  rN 0 (ERR_CNT 0) 4 4 [clr 0 32], r0 BAD_WR_CNT [clr 0 16, clr 16 12, clr 28 2],
  r0 LOCK [w1s 0 3, w1s 3 13], r0 ENERGY_LO [ro 0 32], r0 ENERGY_HI [ro 0 32]]

def tfeRegs : List RegRow := [
  r0 TFE_CTRL [rws 0 2], r0 TFE_SRATE [rws 0 12 0x800],
  r0 TFE_STEP_TRK [rws 0 5 12, rws 8 5 10, rws 16 5 9, rws 24 5 14],
  r0 TFE_STEP_ACQ [rws 0 5 11, rws 8 5 9, rws 16 5 8, rws 24 5 13],
  r0 TFE_TARGET [rws 0 10 0x020, rws 10 10 0x040, rws 20 10 0x020],
  r0 TFE_DROP [rws 0 8 24, rws 8 8 48, rws 16 8 32], r0 TFE_ENV [rws 0 8 80],
  r0 TFE_WEAR [rws 0 4 8], r0 TFE_WR_CTRL [rws 0 1],
  ⟨1, 70, CH_CFG, 1, 4, [rws 0 1, rws 8 6 0x20, rws 16 4, rws 24 7]⟩,
  ⟨1, 70, CH_AGC, 1, 4, [rw 0 7, rw 8 8]⟩,
  ⟨1, 70, CH_DGAIN, 1, 4, [rw 0 16 0x4000]⟩, ⟨1, 70, CH_OFS, 1, 4, [rw 0 16]⟩, ⟨1, 70, CH_ASYM, 1, 4, [rw 0 16]⟩,
  ⟨1, 70, CH_FIR 0, 8, 4, [rw 0 16, rw 16 16]⟩,
  ⟨1, 70, CH_WEAR, 1, 4, [ro 0 16, ro 16 16]⟩,
  ⟨1, 70, CH_STAT, 1, 4, [ro 0 1, ro 1 2, w1c 3 1, w1c 4 1, w1c 5 1]⟩,
  ⟨1, 70, CH_SATCNT, 1, 4, [clr 0 32]⟩,
  ⟨1, 66, CH_WR, 1, 4, [rws 0 5]⟩]

def tdtRegs : List RegRow := [
  r0 TDT_CTRL [rws 0 1, rws 1 2, rws 8 7 64], r0 TDT_NOMRATE [rws 0 12 0x800],
  r0 TDT_LOOP_TRK [rws 0 5 6, rws 8 5 12], r0 TDT_LOOP_ACQ [rws 0 5 4, rws 8 5 9],
  r0 TDT_FLIM [rws 0 8 40], r0 TDT_JD [rws 0 5 10, rws 8 5 10, rws 16 3 2],
  r0 TDT_LOCK [rws 0 16 0x1000, rws 16 16 0x4000], r0 TDT_STAT [ro 0 1, ro 4 3, ro 8 8],
  rN 0 (TDT_LOCKN 0) 2 4 [ro 0 32], r0 (TDT_LOCKN 2) [ro 0 6], rN 0 (TDT_DEAD 0) 2 4 [ro 0 32],
  rN 1 (TDT_TIM 0 0x0) 70 0x10 [ro 0 6], rN 1 (TDT_TIM 0 0x4) 70 0x10 [rw 0 24],
  rN 1 (TDT_TIM 0 0x8) 70 0x10 [ro 0 1, ro 1 2, clr 16 16], rN 1 (TDT_TIM 0 0xC) 70 0x10 [ro 0 20],
  rN 2 (TDT_CPL 0 0x00) 64 0x20 [rw 0 16, rw 16 16], rN 2 (TDT_CPL 0 0x04) 64 0x20 [rw 0 16, rw 16 16],
  rN 2 (TDT_CPL 0 0x08) 64 0x20 [rw 0 16, rw 16 4], rN 2 (TDT_CPL 0 0x0C) 64 0x20 [rw 0 16, rw 16 16],
  rN 2 (TDT_CPL 0 0x10) 64 0x20 [rw 0 16, rw 16 16], rN 2 (TDT_CPL 0 0x14) 64 0x20 [rw 0 16, rw 16 4],
  rN 3 (TDT_MAP 0) 64 4 [rws 0 7, rws 8 1 1]]

def fmtRegs : List RegRow := [
  r0 FMT_CTRL [rw 0 1, rw 1 1, rw 2 1 1], r0 FMT_WFMT [rws 0 3, rws 7 1],
  r0 FMT_RFMT [rws 0 3, rws 3 1, rws 4 3, rws 7 1, rws 8 3, rws 11 1],
  r0 FMT_LOAD_LO [rw 3 29], r0 FMT_LOAD_HI [rw 0 16], r0 FMT_LOAD [rw 0 3, w1s 8 1, w1s 9 1, ro 16 4],
  rN 0 (FMT_SLOTID 0) 8 8 [ro 0 26], rN 0 (FMT_SLOTVER 0) 8 8 [ro 0 32],
  r0 FMT_DSN [rw 0 32], r0 FMT_STAT [ro 0 3, ro 8 8, ro 16 3], r0 FMT_RWDSN [ro 0 32],
  r0 FMT_RWREC [ro 0 32], rN 0 (FMT_SPOIL 0) 4 4 [clr 0 32]]

def dcfRegs : List RegRow := [
  r0 DCF_CTRL [rws 0 1 1, rws 1 1], r0 DCF_TRES [rws 0 6 6], r0 DCF_TDEAD [rws 0 12 200],
  r0 DCF_SCHED [rws 0 5 16], r0 DCF_TILE_EN0 [rw 0 32 0xFFFF_FFFF], r0 DCF_TILE_EN1 [rw 0 16 0xFFFF],
  r0 DCF_TILE_BUSY0 [ro 0 32], r0 DCF_TILE_BUSY1 [ro 0 16], r0 DCF_STAT [ro 0 2, ro 8 6, ro 16 6],
  r0 DCF_QLEVEL [ro 0 31], r0 DCF_LOAD_LO [rw 3 29], r0 DCF_LOAD_HI [rw 0 16],
  r0 DCF_LOAD [rw 0 4, w1s 8 1, w1s 9 1, ro 16 4], r0 DCF_SLOT_EN [rws 0 16],
  rN 0 (DCF_SLOTID 0) 16 8 [ro 0 16, ro 24 1], rN 0 (DCF_SLOTVER 0) 16 8 [ro 0 32],
  rN 0 (DCF_CW 0) 3 4 [clr 0 32], rN 0 (DCF_IT 0) 3 4 [clr 0 32], r0 DCF_LAT_T [clr 0 16]]

def svdRegs : List RegRow := [
  r0 SVD_CTRL [rws 0 3], r0 (SVD_TBS 0) [rws 0 16 10000, rws 16 16 5000],
  r0 (SVD_TBS 1) [rws 0 16 2500, rws 16 16 600], r0 (SVD_TBS 2) [rws 0 4 4, rws 8 8 25, rws 16 16 2800],
  r0 SVD_CMP [rws 0 5 8, rws 8 8 160, rws 16 8 24], r0 SVD_BAND [rw 0 3, rw 4 3 1],
  rN 0 SVD_TBS_X 9 4 [ro 0 32], r0 SVD_STAT [ro 0 8, w1c 8 1],
  rN 1 (SVD_EL 0 0x0) 6 0x10 [rw 0 32], rN 1 (SVD_EL 0 0x4) 6 0x10 [ro 0 32],
  rN 1 (SVD_EL 0 0x8) 6 0x10 [ro 0 32], rN 1 (SVD_EL 0 0xC) 6 0x10 [ro 0 1, clr 16 16]]

def lpeRegs : List RegRow := [
  rN 0 (LPE_TIMER 0) 2 4 [rw 0 16 1000], r0 LPE_STAT [ro 0 32], r0 LPE_OVR [w1c 0 16],
  ⟨1, 16, SLOT_CTRL, 1, 4, [rw 0 1, w1s 1 1, w1s 2 1, ro 3 1, rw 4 1, ro 8 7]⟩,
  ⟨1, 16, SLOT_IO, 1, 4, [rw 0 2, rw 8 4, rw 16 8]⟩, ⟨1, 16, SLOT_TIME, 1, 4, [rw 0 12 2000, rw 16 12]⟩,
  ⟨1, 16, SLOT_SAFE, 1, 4, [rw 0 32]⟩, ⟨1, 16, SLOT_RAMP, 1, 4, [rw 0 32]⟩,
  ⟨1, 16, BANK 0 0x00, 2, 0x100, [rw 0 6, rw 8 6 0x3F, rw 16 3, rw 20 3, rw 24 4, rw 28 1]⟩,
  ⟨1, 16, BANK 0 0x04, 2, 0x100, [rw 0 32]⟩, ⟨1, 16, BANK 0 0x08, 2, 0x100, [rw 0 32]⟩,
  ⟨1, 16, BANK 0 0x0C, 2, 0x100, [rw 0 32]⟩, ⟨1, 16, BANK 0 0x10, 2, 0x100, [rw 0 32]⟩,
  ⟨1, 16, BANK 0 0x14, 2, 0x100, [rw 0 32 0x2000_0000]⟩, ⟨1, 16, BANK 0 0x18, 2, 0x100, [rw 0 32]⟩,
  ⟨1, 16, BANK 0 0x1C, 2, 0x100, [rw 0 32]⟩,
  ⟨1, 16, BANK 0 0x20, 2, 0x100, [rw 0 32 0x7FFF_FFFF]⟩, ⟨1, 16, BANK 0 0x24, 2, 0x100, [rw 0 32 0x8000_0000]⟩,
  ⟨1, 16, BANK 0 0x28, 2, 0x100, [rw 0 32 0x7FFF_FFFF]⟩, ⟨1, 16, BANK 0 0x2C, 2, 0x100, [rw 0 32 0x8000_0000]⟩,
  ⟨1, 16, BANK 0 0x30, 2, 0x100, [rw 0 16]⟩, ⟨1, 16, BANK 0 0x34, 2, 0x100, [rw 0 32]⟩,
  ⟨1, 16, BANK 0 0x38, 2, 0x100, [rw 0 32]⟩,
  ⟨1, 16, BANK 0 0x40, 40, 4, [rw 0 32]⟩, ⟨1, 16, BANK 1 0x40, 40, 4, [rw 0 32]⟩,
  ⟨1, 16, SLOT_S, 1, 4, [rw 0 32]⟩, ⟨1, 16, SLOT_U, 4, 4, [ro 0 32]⟩, ⟨1, 16, SLOT_GS, 1, 4, [ro 0 32 0x2000_0000]⟩,
  ⟨1, 16, SLOT_D_LO, 34, 4, [rw 0 32]⟩, ⟨1, 16, SLOT_OVR, 4, 4, [clr 0 32]⟩, ⟨1, 16, SLOT_LATMAX, 1, 4, [clr 0 12]⟩,
  ⟨17, 4, GSCHED 0 0x000, 4, 0x140, [rw 0 32]⟩, ⟨17, 4, GSCHED 0 0x004, 4, 0x140, [rw 0 32]⟩,
  ⟨17, 4, GSCHED 0 0x008, 4, 0x140, [rw 0 32]⟩, ⟨17, 4, GSCHED 0 0x00C, 4, 0x140, [rw 0 32]⟩,
  ⟨17, 4, GSCHED 0 0x010, 4, 0x140, [rw 0 32]⟩, ⟨17, 4, GSCHED 0 0x014, 4, 0x140, [rw 0 32]⟩,
  ⟨17, 4, GSCHED 0 0x018, 4, 0x140, [rw 0 32]⟩, ⟨17, 4, GSCHED 0 0x01C, 4, 0x140, [rw 0 32]⟩,
  ⟨17, 4, GSCHED 0 0x020, 4, 0x140, [rw 0 32]⟩, ⟨17, 4, GSCHED 0 0x024, 4, 0x140, [rw 0 32]⟩,
  ⟨17, 4, GSCHED 0 0x028, 4, 0x140, [rw 0 32]⟩, ⟨17, 4, GSCHED 0 0x02C, 4, 0x140, [rw 0 32]⟩,
  ⟨17, 4, GSCHED 0 0x030, 4, 0x140, [rw 0 32]⟩, ⟨17, 4, GSCHED 0 0x034, 4, 0x140, [rw 0 32]⟩,
  ⟨17, 4, GSCHED 0 0x038, 4, 0x140, [rw 0 32]⟩, ⟨17, 4, GSCHED 0 0x03C, 4, 0x140, [rw 0 32]⟩,
  ⟨17, 4, GSCHED 0 0x040, 64, 4, [rw 0 32 0x2000_0000]⟩, ⟨17, 4, GSCHED 1 0x040, 64, 4, [rw 0 32 0x2000_0000]⟩,
  ⟨17, 4, GSCHED 2 0x040, 64, 4, [rw 0 32 0x2000_0000]⟩, ⟨17, 4, GSCHED 3 0x040, 64, 4, [rw 0 32 0x2000_0000]⟩,
  ⟨21, 8, CURVE_X0, 1, 4, [rw 0 32]⟩, ⟨21, 8, CURVE_DX, 1, 4, [rw 0 32 1]⟩, ⟨21, 8, CURVE_PT 0, 512, 4, [rw 0 32]⟩,
  ⟨29, 2, TRACE 0 0x00, 2, 0x40, [w1s 0 1, w1s 1 1, w1s 2 1, rw 4 4, rw 8 3, rw 12 2, rw 16 6]⟩,
  ⟨29, 2, TRACE 0 0x04, 2, 0x40, [rw 0 32]⟩, ⟨29, 2, TRACE 0 0x08, 2, 0x40, [rw 0 32]⟩,
  ⟨29, 2, TRACE 0 0x0C, 2, 0x40, [rw 0 15 8192]⟩, ⟨29, 2, TRACE 0 0x10, 2, 0x40, [rw 18 14]⟩,
  ⟨29, 2, TRACE 0 0x14, 2, 0x40, [rw 0 16]⟩, ⟨29, 2, TRACE 0 0x18, 2, 0x40, [ro 0 3, ro 16 14]⟩,
  ⟨29, 2, TRACE 0 0x1C, 2, 0x40, [ro 0 14]⟩, ⟨29, 2, TRACE 0 0x20, 2, 0x40, [clr 0 32]⟩,
  rN 31 PWM_CTRL 1 4 [rw 0 8, rw 8 1 1], rN 31 PWM_PERIOD 1 4 [rw 0 16 10000], rN 31 (PWM_DUTY 0) 8 4 [rw 0 12],
  rN 31 ACT_LINK 1 4 [rw 0 2, rw 4 8 9, rw 12 1, rw 13 1], rN 31 (ACT_SEND 0) 2 4 [wo 0 32],
  rN 31 (ACT_RX 0) 2 4 [ro 0 32], rN 31 ACT_Q 1 4 [ro 0 5, ro 8 5],
  rN 31 ADC_CTRL 1 4 [rw 0 8, rw 8 8], rN 31 ADC_PERIOD 1 4 [rw 0 16 500], rN 31 (ADC_DATA 0) 8 4 [ro 0 17]]

def tpiRegs : List RegRow := [
  r0 TPI_CTRL [rw 0 1, rw 8 4, rw 12 1], r0 TPI_CMD [rw 0 3, w1s 8 1, w1s 9 1], rN 0 (TPI_ARG 0) 2 4 [rw 0 32],
  r0 TPI_STAT [ro 0 12, w1c 12 1, ro 13 3, ro 16 4], r0 TPI_FLAGS [rw 0 16], r0 TPI_GPIO_DIR [rw 0 16],
  r0 TPI_GPIO_OUT [rw 0 16], r0 TPI_GPIO_IN [ro 0 16], rN 0 (TPI_SENS 0) 4 4 [rw 0 2, rw 4 4, rw 16 16],
  r0 TPI_LOAD_LO [rw 3 29], r0 TPI_LOAD_HI [rw 0 16], r0 TPI_LOAD [w1s 8 1, ro 16 4], r0 TPI_MOTID [ro 0 16, ro 24 1],
  r0 TPI_CM_CTRL [w1s 0 1, rw 4 4 9, rw 8 9], r0 TPI_RING_BASE [rw 0 32], r0 TPI_RING_SIZE [rw 0 16 64],
  r0 TPI_RING_FILL [ro 0 32], r0 TPI_DIV [rw 0 7 75, rw 8 7 25, rw 16 7 94], r0 TPI_WR [rw 0 4 2, rw 16 16 100],
  r0 TPI_BH_CNT [clr 0 32], r0 TPI_UNDER_CNT [clr 0 32], r0 TPI_DIV_CNT [clr 0 32],
  rN 2 (TPI_CM_BUF 0) 64 4 [rw 0 32]]

def flcRegs : List RegRow := [
  r0 FLC_RATE [rw 0 3 5, ro 8 3], r0 FLC_TRAIN [w1s 0 1, ro 16 4, rw 24 8 24],
  r0 FLC_DLY [rw 0 8, rw 8 8, ro 16 8, ro 24 8], r0 FLC_TO [rw 0 8 20, rw 8 8 50, rw 16 8 30],
  r0 FLC_STAT [ro 0 24], r0 FLC_RD_CNT [clr 0 32], r0 FLC_PG_CNT [clr 0 32], r0 FLC_ER_CNT [clr 0 32],
  r0 (FLC_RAW 0) [rw 0 8, rw 8 8, rw 16 3, rw 20 3, rw 23 1], r0 (FLC_RAW 1) [rw 0 32],
  r0 (FLC_RAW 2) [rw 0 8, rw 16 10], r0 (FLC_RAW 3) [w1s 0 1, ro 16 4], rN 1 (FLC_RAW_BUF 0) 128 4 [rw 0 32]]

def ftmRegs : List RegRow := [
  r0 FTM_CTRL [rw 0 1], r0 FTM_DISC [w1s 0 1, ro 16 4], r0 FTM_CAP_LO [ro 0 32], r0 FTM_CAP_HI [ro 0 8],
  r0 FTM_NS_LO [rw 16 16], r0 FTM_NS_HI [rw 0 16], r0 FTM_MAP_LO [rw 16 16], r0 FTM_MAP_HI [rw 0 16],
  r0 FTM_BLK_LO [rw 16 16], r0 FTM_BLK_HI [rw 0 16], r0 FTM_OVF_LO [rw 16 16], r0 FTM_OVF_HI [rw 0 16, rw 16 16],
  r0 FTM_IN [rw 0 9, rw 16 9 128], r0 FTM_HOURS [rw 0 32], r0 FTM_TEMP [rw 0 8 40],
  r0 FTM_LOAD_LO [rw 3 29], r0 FTM_LOAD_HI [rw 0 16], r0 FTM_LOAD [rw 0 2, w1s 8 1, w1s 9 1, ro 16 4],
  rN 0 (FTM_CURVEID 0) 4 4 [ro 0 16, ro 24 1], r0 FTM_STRIPE [ro 0 9, w1s 16 1], r0 FTM_FREE [wo 0 5, wo 8 18],
  r0 FTM_FREE_LVL [ro 0 11], r0 FTM_PATROL [rw 0 1, rw 8 5 8, rw 16 16 30], r0 FTM_PSTAT [ro 0 7, ro 8 24],
  r0 FTM_PSTALE [clr 0 32], r0 FTM_DIV [rw 0 16 64, rw 16 16 256], r0 FTM_DIV_STAT [ro 0 18],
  r0 (FTM_UNREC 0) [ro 0 32], r0 (FTM_UNREC 1) [ro 0 32], r0 (FTM_UNREC 2) [ro 0 27],
  r0 FTM_REFRESH [clr 0 32], rN 0 (FTM_SPOIL 0) 4 4 [clr 0 32],
  rN 1 (FTM_DIE 0) 512 4 [ro 0 1, w1s 1 1, ro 2 3, rw 5 2, rw 7 5, rw 12 4, ro 16 8]]

def dmcRegs (n : Nat) : List RegRow := [
  r0 DMC_CFG [rws 0 2 1, rws 4 1], r0 DMC_GEOM [rws 0 9 128],
  r0 DMC_TRAIN [w1s 0 1, rw 1 2 2, ro 4 2, ro 8 4, rw 16 8 24, rw 24 8 10],
  r0 DMC_RANK [ro 0 9], r0 DMC_MIG [ro 0 24, rw 28 4 1],
  r0 DMC_REF [rws 0 3 4, ro 4 10, rws 16 8 1], r0 DMC_RDIST [rws 0 16 4096],
  r0 DMC_ECC [rw 0 16 64, rw 16 4, rw 20 1, rw 24 4, rw 28 1], r0 DMC_ELOG0 [ro 0 29], r0 DMC_ELOG1 [clr 0 1, clr 4 4, clr 8 3],
  r0 DMC_CHMAP [ro 0 4, ro 8 16], r0 DMC_INIT [ro 0 24, ro 31 1], r0 DMC_REF_CNT [clr 0 32], r0 DMC_RDIST_CNT [clr 0 32],
  rN 2 (DMC_TSET 0 0x00) 3 0x20 [rws 0 8, rws 8 8, rws 16 8, rws 24 8],
  rN 2 (DMC_TSET 0 0x04) 3 0x20 [rws 0 8, rws 8 8, rws 16 8, rws 24 8],
  rN 2 (DMC_TSET 0 0x08) 3 0x20 [rws 0 8, rws 8 8, rws 16 8, rws 24 8],
  rN 2 (DMC_TSET 0 0x0C) 3 0x20 [rws 0 16, rws 16 16]] ++
  (if n = 0 then [
    rN 1 (DMC_PORT 0 0x00) 4 0x20 [rw 0 1, ro 1 1], rN 1 (DMC_PORT 0 0x04) 4 0x20 [rw 0 9, rw 16 9],
    rN 1 (DMC_PORT 0 0x08) 4 0x20 [rw 0 16, rw 16 16], rN 1 (DMC_PORT 0 0x0C) 4 0x20 [ro 0 16],
    rN 1 (DMC_PORT 0 0x10) 4 0x20 [clr 0 32], rN 1 (DMC_PORT 0 0x14) 4 0x20 [clr 0 32]] else [])

/-- The four job-ring register pairs of a core entry. -/
def coreRings : List RegRow :=
  (List.range 4).flatMap fun r =>
    [rN 1 (CORE 0 (0x20 + 8 * r)) 8 0x40 [rw 0 1, rw 6 26], rN 1 (CORE 0 (0x24 + 8 * r)) 8 0x40 [rw 0 16]]

def cclRegs : List RegRow := [
  r0 CCL_CTX_BASE [rw 11 11], r0 CCL_LOAD_LO [rw 3 29], r0 CCL_LOAD_HI [rw 0 16],
  r0 CCL_LOAD [rw 3 15, rw 19 3, w1s 22 1, ro 24 4], r0 CCL_LOAD_LEN [rw 3 16],
  rN 1 (CORE 0 0x00) 8 0x40 [rw 0 1, w1s 1 1], rN 1 (CORE 0 0x04) 8 0x40 [rw 2 16],
  rN 1 (CORE 0 0x08) 8 0x40 [ro 0 3, ro 8 6, ro 16 2],
  rN 1 (CORE 0 0x0C) 8 0x40 [rw 0 6, w1s 8 1, w1s 9 1, ro 16 4], rN 1 (CORE 0 0x10) 8 0x40 [rw 0 20],
  rN 2 (BENCH 0 0x0) 64 0x10 [rw 0 1, ro 4 3, ro 16 16], rN 2 (BENCH 0 0x4) 64 0x10 [clr 0 32],
  rN 3 (STREAM 0 0x00) 64 0x20 [rw 6 26], rN 3 (STREAM 0 0x04) 64 0x20 [rw 0 16],
  rN 3 (STREAM 0 0x08) 64 0x20 [rw 12 20], rN 3 (STREAM 0 0x0C) 64 0x20 [rw 0 16],
  rN 3 (STREAM 0 0x10) 64 0x20 [rw 0 5 12, rw 8 6, rw 16 1, ro 17 1]] ++ coreRings

/-- RTX (R337). -/
def rtxRegs : List RegRow := [
  r0 CCL_LOAD_LO [rw 3 29], r0 CCL_LOAD_HI [rw 0 16],
  r0 CCL_LOAD [rw 3 16, rw 19 3, w1s 22 1, ro 24 4], r0 CCL_LOAD_LEN [rw 3 16],
  rN 1 (CORE 0 0x00) 8 0x40 [rw 0 1, w1s 1 1], rN 1 (CORE 0 0x04) 8 0x40 [rw 2 17],
  rN 1 (CORE 0 0x08) 8 0x40 [ro 0 2, ro 16 2]] ++ coreRings

def cxeRegs : List RegRow := [
  r0 CXE_STAT [ro 0 3, ro 8 4, ro 16 16], r0 CXE_IN_LO [ro 0 32], r0 CXE_IN_HI [ro 0 32], r0 CXE_OUT_LO [ro 0 32],
  r0 CXE_OUT_HI [ro 0 32], r0 CXE_JOBS [clr 0 32], r0 CXE_GREW [clr 0 32],
  rN 0 (CXE_LVL 1) 12 4 [rws 0 11, rws 12 2, rws 16 5, rws 24 3]]

def aeeRegs (n : Nat) : List RegRow := [
  r0 AEE_CTRL [rws 0 1], r0 AEE_SHUT [ro 0 7 64, ro 8 3 6, ro 16 10], r0 AEE_STAT [ro 0 8, ro 16 16],
  rN 0 AEE_IN_LO 4 4 [ro 0 32]] ++
  (if n = 0 then [
    r0 AEE_DRBG [ro 0 1, ro 8 8], r0 AEE_ALARM [w1c 0 4, ro 16 8], r0 AEE_WKT_LO [rw 12 20], r0 AEE_WKT_HI [rw 0 16],
    ⟨2, 2, AEE_SLOT 0, 256, 8, [ro 0 5, ro 8 24]⟩, ⟨2, 2, AEE_SLOT 0 + 4, 256, 8, [ro 0 32]⟩] else [])

def hseRegs : List RegRow := [
  r0 HSE_BUSY [ro 0 10, ro 12 4], r0 HSE_IN_LO [ro 0 32], r0 HSE_IN_HI [ro 0 32], r0 HSE_MISMATCH [clr 0 32]]

def aseRegs : List RegRow := [
  r0 ASE_STAT [ro 0 32], r0 ASE_CTX [ro 0 32], r0 ASE_SRCH_LO [ro 0 32], r0 ASE_SRCH_HI [ro 0 32], r0 ASE_MOVES [clr 0 32],
  rN 1 (ASE_ENT 0) 64 8 [rws 0 1, rws 1 4, rws 5 2, rws 8 4], rN 1 (ASE_ENT 0 + 4) 64 8 [ro 0 11, ro 16 11 1024],
  rN 2 (ASE_ENT 0) 16 8 [rws 0 16 0xFFFF, rws 16 1, ro 17 2, ro 24 7], rN 2 (ASE_ENT 0 + 4) 16 8 [clr 0 32],
  rN 3 (ASE_ENT 0) 32 8 [ro 0 6, ro 8 24], rN 3 (ASE_ENT 0 + 4) 32 8 [w1s 0 1]]

def hibRegs : List RegRow := [
  r0 HIB_MODE [rws 0 2, ro 8 1, ro 16 4 8], r0 HIB_STRAP [ro 0 2],
  r0 HIB_LCTL [rws 0 3 5, w1s 4 1, w1s 5 1, rws 8 2 3],
  r0 HIB_LSTAT [ro 0 6, ro 8 8, ro 16 3 5, ro 20 4], r0 HIB_EQ [ro 0 3, ro 4 3], r0 HIB_LINKUP [clr 0 32],
  r0 HIB_L1_TIME [clr 0 32], r0 HIB_DOE [ro 0 2, ro 16 16], r0 HIB_MI [rw 0 7 0x1D, rw 8 2 1, rw 16 1 1, ro 24 8],
  r0 HIB_MI_SMB [ro 0 8]]

def imgRegs : List RegRow := [
  ⟨0, 256, IMG_FN, 1, 4, [ro 0 2, ro 8 10]⟩, ⟨0, 256, IMG_RES, 1, 4, [ro 0 12, ro 16 12]⟩,
  ⟨0, 256, IMG_EPOCH, 1, 4, [ro 0 32]⟩, ⟨0, 256, IMG_CTL, 1, 4, [ro 0 10, ro 16 9]⟩,
  ⟨0, 256, IMG_ECAP, 1, 4, [ro 0 24]⟩, ⟨0, 256, IMG_POWER, 1, 4, [ro 0 24, ro 31 1]⟩,
  ⟨0, 256, IMG_MIG, 1, 4, [ro 0 3, ro 8 4]⟩, ⟨0, 256, IMG_INFL, 1, 4, [ro 0 32]⟩,
  ⟨0, 256, IMG_TVER, 1, 4, [ro 0 16]⟩, ⟨0, 256, IMG_TABLES, 1, 4, [ro 0 16]⟩,
  ⟨0, 256, IMG_T2M, 1, 4, [ro 0 31]⟩, ⟨0, 256, IMG_M2T, 1, 4, [ro 0 31]⟩,
  r0 IMG_MBX [rw 0 9 0x1A0], r0 IMG_SPLIT [rw 0 8 127, rw 16 13 4032], r0 IMG_DEVSHARE [rw 0 10 256],
  r0 IMG_APT_LO [rw 20 12], r0 IMG_APT_HI [rw 0 16], rN 0 (IMG_ONLINE 0) 8 4 [ro 0 32], rN 0 (IMG_FROZEN 0) 8 4 [ro 0 32]]

def kprRegs : List RegRow := [
  r0 KPR_LCS [ro 0 3, ro 8 3], r0 KPR_SECEP [ro 0 16], r0 KPR_FCNT [ro 0 4, ro 8 4, ro 16 3, ro 20 2],
  r0 KPR_JSEQ [ro 0 32], r0 KPR_JFUSE [ro 0 11, ro 16 1], r0 KPR_DEVID_LO [ro 0 32], r0 KPR_DEVID_HI [ro 0 32],
  r0 KPR_ALARM [ro 0 4, w1c 8 4, rw 16 4], r0 KPR_POLICY [ro 0 3, ro 8 8], r0 KPR_SEALS [ro 0 32]]

/-- PCR: page 0 holds the reset registers (R561) and page 1 the power registers (R542). -/
def pcrRegs : List RegRow := [
  r0 PCR_RST [ro 0 5 1, w1s 8 1, ro 16 16], r0 PCR_BOOT [ro 0 4 1, ro 8 4, ro 16 16],
  rN 1 PCR_PROF 1 4 [rw 0 2, rw 4 1, rw 8 8 100, rw 16 16 10000], rN 1 PCR_PSTAT 1 4 [ro 0 6, ro 8 1, ro 12 3, ro 16 8],
  rN 1 PCR_WAKE 1 4 [rw 0 6 0x3F], rN 1 PCR_AONTMR 1 4 [rw 0 32], rN 1 PCR_CLK 1 4 [rws 0 8 20, rws 8 8 12, ro 16 8 20],
  rN 1 PCR_VDD 1 4 [ro 0 12 850, ro 16 12 850], rN 1 PCR_GOV 1 4 [rws 0 7 95, ro 8 8, clr 16 16]]

def agmRegs : List RegRow := [
  r0 AGM_CTRL [rw 0 1 1, w1s 1 1, rw 8 8 30, rw 16 8 40, rw 24 4 10, rw 28 4 3], r0 AGM_STAT [ro 0 32],
  r0 (AGM_THR 0) [rw 0 8 95, rw 8 3 1, rw 12 4 3], r0 (AGM_THR 1) [rw 0 8 105, rw 8 3 2, rw 12 4 3],
  r0 (AGM_THR 2) [rw 0 8 115, rw 8 3 3, rw 12 4 3], r0 (AGM_THR 3) [rw 0 8 122, rw 8 3 4, rw 12 4 3],
  r0 AGM_HOT [ro 0 15], r0 (AGM_WEAR 0) [ro 0 23], r0 (AGM_WEAR 1) [ro 0 25], r0 (AGM_WEAR 2) [ro 0 10],
  r0 AGM_WTHR [rw 0 8 128, rw 8 8 16, rw 16 8 16], rN 1 (AGM_MON 0 0) 48 8 [ro 0 12, ro 16 12],
  rN 1 (AGM_MON 0 4) 48 8 [ro 0 16], rN 2 (AGM_SENS 0) 12 4 [ro 0 8, clr 8 8, ro 16 1]]

def emtRegs : List RegRow := [
  rN 0 EMT_DEV_LO 4 4 [ro 0 32], r0 EMT_POWER [ro 0 24], r0 EMT_POWER_MS [ro 0 24], rN 1 (EMT_FN 0) 512 4 [ro 0 32]]

def evfRegs : List RegRow := [
  r0 EVF_DEF [rws 0 8 1, rws 8 2, rws 16 11], r0 EVF_DEF_CC [rws 0 32], r0 EVF_PIN [rw 0 4, ro 8 1 1],
  r0 EVF_SWSET [wo 0 8, wo 31 1], rN 0 (EVF_SWPEND 0) 8 4 [w1c 0 32], r0 EVF_FATAL [ro 0 1, ro 4 4],
  r0 EVF_SRAM_LOG0 [ro 3 29], r0 EVF_SRAM_LOG1 [clr 0 4, clr 8 6, clr 31 1],
  ⟨1, 8, EVF_RT 0, 512, 4, [rws 0 1, rws 1 5, rws 6 2, rws 8 6, rws 16 8]⟩,
  rN 9 (EVF_TGT 0) 64 8 [rws 0 32], rN 9 (EVF_TGT 0 + 4) 64 8 [rws 0 16, rws 16 11]]

/-- The block-specific registers of a block. -/
def regsOf (b : Blk) : List RegRow :=
  match b.typ with
  | .pcr => pcrRegs | .kpr => kprRegs | .evf => evfRegs | .hib => hibRegs | .qen => [] | .img => imgRegs
  | .dmc => dmcRegs b.inst | .flc => flcRegs | .ftm => ftmRegs | .tfe => tfeRegs | .tdt => tdtRegs | .fmt => fmtRegs
  | .dcf => dcfRegs | .svd => svdRegs | .lpe => lpeRegs | .tpi => tpiRegs | .ccl => cclRegs | .rtx => rtxRegs
  | .cxe => cxeRegs | .aee => aeeRegs b.inst | .hse => hseRegs | .ase => aseRegs | .agm => agmRegs | .emt => emtRegs
  | .noc => []

/-- Does the row hold the register at offset `off` of block page `pg`? -/
def RegRow.holds (r : RegRow) (pg off : Nat) : Bool :=
  r.page ≤ pg && pg < r.page + r.pages && r.off ≤ off && (off - r.off) % r.stride == 0
    && (off - r.off) / r.stride < r.count

/-- The row of the register at offset `off` of page `pg` of block `b` (R38: none where nothing is defined). -/
def regRow (b : Blk) (pg off : Nat) : Option RegRow :=
  if off < 0x080 then hdrRegs.find? (·.holds 0 off) else (regsOf b).find? (·.holds pg off)

/-- The fields of a register; empty where nothing is defined. -/
def fldsOf (b : Blk) (pg off : Nat) : List Fld := ((regRow b pg off).map (·.flds)).getD []

/-- The level table defaults (R343): CHAIN, LAZY, WLOG, MINM of levels 1 to 12. -/
def lvlDefaults : List (Nat × Nat × Nat × Nat) := [
  (1, 0, 17, 5), (2, 0, 18, 5), (4, 0, 19, 5), (6, 1, 19, 4), (8, 1, 20, 4), (16, 1, 20, 4), (24, 1, 21, 4),
  (32, 2, 21, 4), (64, 2, 22, 4), (128, 2, 22, 4), (256, 2, 22, 3), (512, 2, 22, 3)]

/-- The default of BASE, SIZE, PANIC and RELEASE of real-time port p (*Real-time ports*), as its words 0x04 and
0x08 hold them: 64 KiB units from 0x0100_0200_0000, and 4 KiB units. -/
def portDefaults : List (Nat × Nat) := [
  (0x1C0 + 16 * 0x10000, 192 + 64 * 0x10000), (0x1D0 + 16 * 0x10000, 192 + 64 * 0x10000),
  (0x1E0 + 1 * 0x10000, 12 + 4 * 0x10000), (0x1F0 + 16 * 0x10000, 192 + 64 * 0x10000)]

/-- The reset word that the fields' resets give (log entry 118). -/
def fldReset (fs : List Fld) : Nat := fs.foldl (fun a f => a + f.reset * 2 ^ f.lo) 0

/-- The reset value of the register at offset `off` of page `pg` of block `b`.  The `if`s name the registers whose
rows reset to different values: BLK_CTRL.EN of PCR, KPR, EVF and NOC, tap 6 of the equaliser, the track map, the
level table and the real-time ports (log entry 118). -/
def resetOf (b : Blk) (pg off : Nat) : RegWord :=
  if off = Reg.BLK_CTRL ∧ (b.typ = .pcr ∨ b.typ = .kpr ∨ b.typ = .evf ∨ b.typ = .noc) then 1
  else if b.typ = .tfe ∧ 1 ≤ pg ∧ off = Reg.CH_FIR 3 then 0x4000
  else if b.typ = .tdt ∧ pg = 3 ∧ 0x080 ≤ off then BitVec.ofNat 32 ((off - 0x080) / 4 + 0x100)
  else if b.typ = .cxe ∧ pg = 0 ∧ Reg.CXE_LVL 1 ≤ off then
    let (c, l, w, m) := lvlDefaults.getD ((off - Reg.CXE_LVL 1) / 4) (0, 0, 0, 0)
    BitVec.ofNat 32 (c + l * 2 ^ 12 + w * 2 ^ 16 + m * 2 ^ 24)
  else if b.typ = .dmc ∧ b.inst = 0 ∧ pg = 1 ∧ 0x080 ≤ off ∧ (off - 0x080) % 0x20 = 0x04 then
    BitVec.ofNat 32 (portDefaults.getD ((off - 0x080) / 0x20) (0, 0)).1
  else if b.typ = .dmc ∧ b.inst = 0 ∧ pg = 1 ∧ 0x080 ≤ off ∧ (off - 0x080) % 0x20 = 0x08 then
    BitVec.ofNat 32 (portDefaults.getD ((off - 0x080) / 0x20) (0, 0)).2
  else BitVec.ofNat 32 (fldReset (fldsOf b pg off))

/-- The key of a register in the register store: its word index in the register space. -/
def regKey (page off : Nat) : Nat := page * 1024 + off / 4

/-- What an unlisted key of the register store reads as: the register's reset value; zero where no block or no
register is (R5, R38). -/
def regDefault (k : Nat) : RegWord :=
  match blkAt (k / 1024) with
  | none => 0
  | some b => resetOf b (k / 1024 - b.base) (4 * (k % 1024))

/-- The mask of the fields of a register that have one of the access codes `as`. -/
def accMask (fs : List Fld) (as : List Acc) : RegWord :=
  fs.foldl (fun m f => if as.contains f.acc then m ||| (BitVec.ofNat 32 (2 ^ f.len - 1) <<< f.lo) else m) 0

/-- The RWS bits of the register with key `k` of the register store: those that have a shadow (R53). -/
def rwsMask (k : Nat) : RegWord :=
  match blkAt (k / 1024) with
  | none => 0
  | some b => accMask (fldsOf b (k / 1024 - b.base) (4 * (k % 1024))) [.rws]

/-- The word `w` of the register with key `k`, its RWS bits taken from the shadow word `sh`. -/
def withShadow (k : Nat) (w sh : RegWord) : RegWord := (w &&& ~~~ rwsMask k) ||| (sh &&& rwsMask k)

end Sys2Proof.Machine
end

