-- ==== Sys2Proof/Machine/State/Cores.lean ====
section
/-! DEFINITION. The state of the Shuhenor cores, the Bench contexts, the job rings and the streams
(chapters 10, 11 and 12). -/

namespace Sys2Proof.Machine

/-- What a waiting core waits for (R296, R298). -/
inductive WaitKind where
  /-- WFE rd, #grp -/
  | wfe (rd grp : Nat)
  /-- WTU rd, ra with the value g[ra] held at issue -/
  | wtu (rd : Nat) (until_ : Word)
  /-- WTUE rd, ra likewise -/
  | wtue (rd : Nat) (until_ : Word)
deriving DecidableEq, Repr

/-- The STATE of a core entry (chapter 12): reset, running, waiting, stopped; STOP says why it stopped. -/
inductive CoreMode where
  | inReset
  | running
  | waiting (w : WaitKind)
  | stopped (cause : Nat)
deriving DecidableEq, Repr

/-- One line of a core's data or instruction cache: 64 bytes, dirty once the core has written it (R272), and the 8-byte words of
it, 0 to 7, whose parity is wrong (R575). -/
structure CacheLine where
  bytes : List Byte
  dirty : Bool
  bad : List Nat
deriving DecidableEq, Repr

/-- The Bench that a core runs, from its dispatch to its switch-out (R316, R317, R319). -/
structure BenchRun where
  /-- Bench number within the cluster -/
  b : Nat
  /-- remaining energy budget, signed nJ -/
  eRem : Word
  /-- remaining time budget, TB ticks; all ones: none -/
  tRem : Word
  /-- energy charged since binding, nJ -/
  eUsed : Word
  /-- TB at the dispatch, from which SLICE counts -/
  since : Word
  /-- TB up to which tRem has been decreased -/
  tFrom : Word
  /-- a switch-out cause 2 to 4 that arose while a trap handler ran for the Bench (R317); 0 none -/
  late : Nat
deriving DecidableEq, Repr

/-- One core: its registers (R256 to R260, R267, R306), bit space (R275), caches (R272) and what it runs. -/
structure Core where
  mode : CoreMode
  /-- g1 to g31; g0 is never listed -/
  g : FMap Word
  v : FMap VecWord
  pc : Word
  ps : Word
  wsel : BitVec 4
  wbase : FMap Word
  wlim : FMap Word
  wattr : FMap Word
  tvb : Word
  tpc : Word
  tps : Word
  tcause : Word
  taddr : Word
  tscr : Word
  tcmp : Word
  tctl : Word
  wstk : BitVec 4
  /-- WDOG.LOAD -/
  wdogLoad : BitVec 32
  /-- WDOG.COUNT at TB `wdogFrom` -/
  wdogCount : BitVec 32
  /-- the TB value from which the watchdog's ticks are counted (R305) -/
  wdogFrom : Word
  /-- the watchdog has expired once since the last write of WDOG -/
  wdogOnce : Bool
  /-- private bit RAM b0 to b4095, in words of 32 bits -/
  bits : FMap RegWord
  /-- event groups 0 to 7 (b4096 to b4351) -/
  evt : FMap RegWord
  dcache : FMap CacheLine
  icache : FMap CacheLine
  /-- addresses of buffered stores whose bus error is known and not yet reported, earliest first (R274) -/
  storeErr : List Word
  /-- the Bench dispatched on the core -/
  bench : Option BenchRun
deriving DecidableEq, Repr

/-- A program as its image and the runtime lay it out (R322, R324): sections, lengths, and the DRAM addresses that firmware has
chosen for code, data and BSS, and stack. -/
structure Prog where
  entry : Nat
  code : List Byte
  data : List Byte
  bss : Nat
  stack : Nat
  winReq : Nat
  codeAt : Nat
  dataAt : Nat
  stackAt : Nat
  /-- the image as it was loaded -/
  image : List Byte
deriving DecidableEq, Repr

/-- A Bench Run accepted (R455): its work tag and run block, the extents' data, and the DRAM addresses of w7, w8 and w9. -/
structure BenchTask where
  tag : Nat
  arg : Nat
  input : List Byte
  resLen : Nat
  scrLen : Nat
  strWin : Nat
  tBudget : Nat
  eBudget : Nat
  /-- the result range: namespace, first block and blocks; none: host memory -/
  resNs : Option (Nat × Nat × Nat)
  inAt : Nat
  resAt : Nat
  scrAt : Nat
deriving DecidableEq, Repr

/-- A Bench context (R316): its entry's STATE and binding, its program and its runs. The image itself lies in cluster SRAM. -/
structure Bench where
  /-- STATE: 0 free, 1 ready, 2 running, 3 switched out, 4 killed -/
  state : Nat
  func : Nat
  fepoch : Nat
  /-- RING[0] to RING[3] as read at the previous dispatch -/
  rings : List Word
  prog : Option Prog
  run : Option BenchTask
  waiting : List BenchTask
  /-- CAUSE and trap vector of the last Program Fault -/
  lastCause : Nat
  lastVec : Nat
  runs : Nat
  /-- TB ticks that it has run since binding, and E_USED at the start of the run in progress -/
  tUsed : Nat
  eStart : Nat
  /-- streams attached, by window: stream, work tag of its Bench Attach Stream, and blocks to deliver -/
  streams : FMap (Nat × Nat × Nat)
  /-- energy charged since binding in nJ, by block type code (R465), and its sum at the latest evaluations, newest first -/
  nj : FMap Nat
  hist : List Nat
deriving DecidableEq, Repr

/-- A job ring unit (R325): what it latched at arming and its counts. -/
structure Ring where
  armed : Bool
  /-- resolved device address of the ring header; none: the header's address failed its check -/
  hdr : Option Nat
  desc : Nat
  cpl : Nat
  /-- CHAIN_BASE as written; zero: no chain area -/
  chain : Nat
  log2n : Nat
  engine : Nat
  cons : Nat
  cprod : Nat
  halt : Bool
  haltCause : Nat
  /-- an arming that waits for the accepted jobs to complete (R325): the word to arm with -/
  wait : Option Word
  /-- a descriptor with FENCE that is fetched and waits for every earlier job (R331), with its work tag -/
  hold : Option (Nat × List Byte)
deriving DecidableEq, Repr

/-- A resolved buffer: device address and length. -/
structure Range where
  addr : Nat
  len : Nat
deriving DecidableEq, Repr

/-- The result that an engine has given a job, before its completion is written (R332). -/
structure JobResult where
  status : Nat
  detail : Nat
  bytesIn : Nat
  bytesOut : Nat
deriving DecidableEq, Repr

/-- An engine job accepted from a ring (R331, R54): the descriptor as resolved at acceptance. -/
structure Job where
  ring : RingId
  engine : Nat
  opcode : Nat
  notify : Bool
  chainDst : Bool
  eflags : Nat
  func : Nat
  fepoch : Nat
  tag : Nat
  /-- CFG_EPOCH of the descriptor -/
  cfgEpoch : Nat
  src : List Range
  srcLen : Nat
  /-- DST_ADDR as written, and the destination buffers -/
  dstAddr : Nat
  dst : List Range
  /-- the range that PARAM0 or PARAM1 addresses: index, tag record, counter block or state record -/
  aux : Option Range
  param0 : Nat
  param1 : Nat
  /-- TB at acceptance -/
  since : Nat
  /-- STG_EPOCH of the CCL or RTX that accepted it -/
  cclEpoch : RegWord
  /-- register page of the engine instance that has taken it, with its STG_EPOCH then -/
  inst : Option (Nat × RegWord)
  /-- GCM_DEC: its Shutter slot, by first 16 KiB unit and log2 of its units (R363) -/
  slot : Option (Nat × Nat)
  /-- bytes of unverified plaintext released by GCM_DEC (R364) -/
  released : Nat
  result : Option JobResult
deriving DecidableEq, Repr

/-- An engine intake (R353, R472): waiting jobs by work tag in acceptance order, the functions' credits, and the function
served last. -/
structure Intake where
  queue : List Nat
  credit : FMap Nat
  last : Nat
deriving DecidableEq, Repr

/-- A unit of the ASE that is valid (R376). -/
structure AseUnit where
  key : Nat
  care : Nat
  data : Nat
deriving DecidableEq, Repr

/-- A search context in use (R382): its table, function, latched key and positions (bank, slot) in the order of R379, and
whether a bank of the table has been written since the latch. -/
structure AseCtx where
  table : Nat
  func : Nat
  key : Nat
  pos : List (Nat × Nat)
  stale : Bool
deriving DecidableEq, Repr

/-- An update job of a table that runs (R389): its work tag, its bank, the bank's valid units before it, and what each of its
cycles writes: units by number with their new contents. -/
structure AseRun where
  tag : Nat
  bank : Nat
  before : FMap AseUnit
  steps : List (List (Nat × Option AseUnit))
  /-- cycles that are the first cycle of a move -/
  moves : List Nat
deriving DecidableEq, Repr

/-- The associative search engine: valid units by 1,024 × bank + unit, contexts in use, and the update that runs in each
table. -/
structure Ase where
  units : FMap AseUnit
  ctxs : FMap AseCtx
  run : FMap AseRun
deriving DecidableEq, Repr

/-- A LOAD in progress (R314), by register page of its block: source, destination offset, core and length. -/
structure LoadOp where
  src : Nat
  dst : Nat
  core : CoreId
  len : Nat
deriving DecidableEq, Repr

/-- A stream of a cluster (R333): the FILL and REL that the device has seen, and CLOSED. -/
structure Stream where
  fill : Word
  rel : Word
  closed : Bool
deriving DecidableEq, Repr

end Sys2Proof.Machine
end

