-- ==== Sys2Proof/Machine/State/Dram.lean ====
section
/-! DEFINITION. The state of the DRAM controllers beside their registers (chapter 9). -/

namespace Sys2Proof.Machine

/-- One entry of a bank's activation table (R244). -/
structure ActEntry where
  row : Option Nat
  count : Nat
deriving DecidableEq, Repr

/-- The activation table and floor of one bank (R244). -/
structure ActTable where
  ents : List ActEntry
  floor : Nat
deriving DecidableEq, Repr

/-- One DRAM controller. -/
structure Dmc where
  /-- the channel has been trained since the last power-on or chip warm reset -/
  trained : Bool
  /-- the physical rank that stands at each mapped place of the channel, in address order (R231, R248) -/
  slots : List Nat
  /-- the migration in progress: source and destination rank (R248) -/
  mig : Option (Nat × Nat)
  /-- ranks in catch-up (R241) -/
  catchUp : List Nat
  /-- refreshes completed since the last activation boundary, by rank (R244) -/
  refs : FMap Nat
  /-- corrected bursts since power-on reset, by rank × 16 + device (R235) -/
  corr : FMap Nat
  /-- activation tables, by rank × 32 + bank group × 4 + bank (R244) -/
  acts : FMap ActTable
  /-- the threshold is halved: the first 32 ms after power-on reset (R244) -/
  half : Bool
  /-- CA parity errors on the command being repeated (R246) -/
  alerts : Nat
  /-- MR4 temperature by rank: last reading, and at the last training (R252) -/
  temp : FMap Nat
  tempAt : FMap Nat
  /-- TB at the last training (R252) -/
  trainedAt : Nat
  /-- bursts that the migration has written poisoned (R248) -/
  poisoned : Nat
deriving DecidableEq, Repr

/-- A controller after power-on reset (R254). -/
def Dmc.init : Dmc := ⟨false, [], none, [], [], [], [], true, 0, [], [], 0, 0⟩

/-- A real-time port (R238): bytes in its buffer, where in the buffer the next byte goes, and the DRAM places that its
user has named for the bytes it has left there. -/
structure RtPort where
  fill : Nat
  pos : Nat
  segs : List (Nat × Nat)
deriving DecidableEq, Repr

/-- The DRAM window (R231): the live channels in ascending order, and C in bytes. -/
structure Window where
  live : List Nat
  cap : Nat
deriving DecidableEq, Repr

end Sys2Proof.Machine
end

