-- ==== Sys2Proof/Machine/State/Flash.lean ====
section
/-! DEFINITION. The state of the flash tier beside its registers (chapter 8). The NAND dies themselves lie outside the device;
the namespace table, the map and the block info entries lie in DRAM. -/

namespace Sys2Proof.Machine

/-- What a slice read is for. -/
inductive SliceUse where
  /-- a host read, for a function and under its epoch -/
  | host (func : Nat) (fepoch : BitVec 16)
  /-- firmware, destage or migration: class B, to a device address -/
  | background (dst : Nat)
  /-- slice of the patrol of a unit, by the patrol's tag -/
  | patrol (job : Nat)
  /-- a member of the stripe rebuild of another read -/
  | member (parent : Nat)
deriving DecidableEq, Repr

/-- A slice read in progress (R209, R215), by its tag. -/
structure SliceRead where
  unit : Nat
  slice : Nat
  loc : FlashLoc
  use_ : SliceUse
  /-- stage 1 to 4 of *Read escalation*; 5: the patrol's rebuild waits for room in the record queue; 6: it joins the rebuild of read `first` (R223), or has its data in `raw` and waits
  for a slot; 7: its slot waits for the DMA; and the retry step now read -/
  stage : Nat
  step : Nat
  /-- the step of stage 1 -/
  first : Nat
  /-- steps that failed, with their syndrome weights, and the full sweep's successes: step and data -/
  tried : List (Nat × Nat)
  good : List (Nat × List Byte)
  /-- META_V is 0 and no read of the block has succeeded (R217) -/
  sweep : Bool
  /-- raw bytes of the reads of this stage, in order of reading -/
  raw : List (List Byte)
  /-- waiting for the page read, for a transit slot, or for the decoder -/
  reading : Bool
  /-- its place in the FTM_IN area -/
  cell : Option Nat
  /-- transit slot held, or overflow slot + 8,192 -/
  tslot : Option Nat
  /-- the stripe members still to come, and the XOR so far (stage 4) -/
  left : Nat
  acc : List Byte
  epoch : RegWord
  flcEpoch : RegWord
deriving DecidableEq, Repr

/-- A unit's program in flight (R210): its write-buffer copy; `parity` is a stripe's parity unit. -/
structure Program where
  unit : Nat
  loc : FlashLoc
  data : List Byte
  parity : Bool
  /-- what it is the relocation of (R219): a refresh, and how many slices were rebuilt -/
  refresh : Bool
  rebuilt : Nat
  /-- the data set that it is a unit of in the Stream Divert area, where it has no map entry (R224) -/
  divert : Option Nat
  epoch : RegWord
  flcEpoch : RegWord
deriving DecidableEq, Repr

/-- A unit that waits to be written at a new position: after a failed program, or moved by patrol or a rebuild, then only if
the map still names the old location (R206); or a unit of a diverted data set (R224).  For `refresh`, `rebuilt` and `divert` see
`Program`. -/
structure Relocate where
  unit : Nat
  data : List Byte
  cond : Option FlashLoc
  refresh : Bool
  rebuilt : Nat
  divert : Option Nat
deriving DecidableEq, Repr

/-- An open stripe: its accumulator in shared SRAM, and the positions written (R208). -/
structure Stripe where
  group : Nat
  block : Nat
  page : Nat
  slot : Nat
  acc : Nat
  written : List Nat
deriving DecidableEq, Repr

/-- A row that is being written (R208): group, block, and the pages and slots whose stripes have closed. -/
structure Row where
  group : Nat
  block : Nat
  closed : List (Nat × Nat)
deriving DecidableEq, Repr

/-- A unit under patrol, or rebuilt after its die was mapped out (`mapout`): its location, the slices read, how many are left, whether it is to
be refreshed, and the slices that were rebuilt. -/
structure Patrol where
  unit : Nat
  loc : FlashLoc
  parity : Bool
  live : Bool
  got : List (Nat × List Byte)
  left : Nat
  refresh : Bool
  rebuilt : List Nat
  mapout : Bool
deriving DecidableEq, Repr

/-- The reference geometry (R201). -/
structure Geometry where
  page : Nat
  spare : Nat
  pages : Nat
  blocks : Nat
  bits : Nat
deriving DecidableEq, Repr

/-- The flash tier. -/
structure Flash where
  geom : Geometry
  /-- discovery in progress -/
  disc : Bool
  reads : FMap SliceRead
  /-- reads that wait for a place in the FTM_IN area, in arrival order -/
  inWait : List Nat
  /-- host slices that wait for a transit slot, in arrival order -/
  waiting : List Nat
  /-- transit and overflow slots in use -/
  slots : List Nat
  progs : FMap Program
  /-- the write sequence: units programmed (R204) -/
  wseq : Nat
  moves : List Relocate
  /-- free rows (group, block) in order, and the rows being written -/
  free : List (Nat × Nat)
  rows : List Row
  stripes : List Stripe
  /-- positions not written before their stripe closed -/
  gaps : List (FlashLoc)
  patrols : FMap Patrol
  /-- the place after the last one that patrol read, in its order (R219) -/
  cursor : Nat
  /-- live units of dies mapped out that wait for their rebuild (R218) -/
  rebuilds : List (Nat × FlashLoc)
  /-- units that stage blocks of the tape-backed namespace, with their first LBA (R15, R220) -/
  staged : FMap Nat
  /-- record queue: unit, slices and kind, die and block -/
  unrec : List (Nat × Nat × Nat × Nat × Nat)
  /-- TB of failed operations, by die (R218) -/
  fails : FMap (List Nat)
  /-- RETRY_AVG with 16 fraction bits, by die (R225) -/
  avg : FMap Nat
  /-- offsets last set, by die (R214) -/
  levels : FMap (List Int)
  /-- operations queued or in flight, by channel -/
  ops : FMap Nat
  /-- erases in flight: die, block and the epoch of the FLC -/
  erases : List (Nat × Nat × RegWord)
  /-- highest data-rate bin supported, by die (R200) -/
  rates : FMap Nat
  /-- FTM_TEMP and TB at the last training, by channel (R203) -/
  trainTemp : FMap (Int × Nat)
  /-- the epoch of a raw ONFI command in flight, by channel -/
  raws : FMap RegWord
deriving DecidableEq, Repr

/-- The flash tier with no die found (log entry 6). -/
def Flash.init : Flash where
  geom := ⟨0, 0, 0, 0, 0⟩
  disc := false
  reads := []
  inWait := []
  waiting := []
  slots := []
  progs := []
  wseq := 0
  moves := []
  free := []
  rows := []
  stripes := []
  gaps := []
  patrols := []
  cursor := 0
  rebuilds := []
  staged := []
  unrec := []
  fails := []
  avg := []
  levels := []
  ops := []
  erases := []
  rates := []
  trainTemp := []
  raws := []

end Sys2Proof.Machine
end

