-- ==== Sys2Proof/Machine/State/Host.lean ====
section
/-! DEFINITION. The state of the host side: functions and instances (chapter 19), ports (chapter 16), controllers,
queues, commands in flight and namespaces (chapter 17). -/

namespace Sys2Proof.Machine

/-- Migration state of a function (IMG_MIG.STATE, R483), in the order of its encoding. -/
inductive MigState where
  | running | draining | frozen | saving | saved | restoring
deriving DecidableEq, Repr

/-- The controls of an instance (R471). -/
structure Controls where
  share : Nat
  ecap : Nat
  bquota : Nat
  tables : Nat
deriving DecidableEq, Repr

/-- One function slot (R466). -/
structure Func where
  /-- secondary brought online; PFs are always online -/
  online : Bool
  /-- VQ and VI resources, the admin pair included (IMG_RES) -/
  vq : Nat
  vi : Nat
  /-- a primary flexible allocation that the next controller reset puts in force (R469) -/
  flexVq : Option Nat
  flexVi : Option Nat
  epoch : BitVec 16
  flrCnt : Nat
  ctl : Controls
  /-- controls written while frozen or saved, in force at THAW (R489) -/
  later : Option Controls
  /-- granted ASE tables (IMG_TABLES) -/
  granted : Nat
  /-- dynamic energy attributed since power-on reset in nJ, by block type code (R534), and its sum at the latest evaluations,
  newest first -/
  nj : FMap Nat
  hist : List Nat
  /-- mean power over 1 s, mW, and over its cap (R473) -/
  mean : Nat
  overCap : Bool
  /-- in D3hot (R408) -/
  d3 : Bool
  mig : MigState
  /-- TB at which FRZ_TO of the drain in progress runs out (R484) -/
  frzAt : Option Nat
  /-- RESULT of *Migration results* -/
  result : Nat
  /-- blob exists for a saved function; a restored function owes notice 5 at its first THAW -/
  owes5 : Bool
  /-- SEQ of the last notice (R480) -/
  seq : BitVec 32
  /-- MSI-X vectors that the host has unmasked, with the address and data of their entries, and vectors with their pending
  bit set -/
  unmasked : FMap (Nat × Nat)
  /-- the addresses and data of MSI-X table entries as the host has written them in BAR0 (R34) -/
  entries : FMap (Nat × Nat)
  msixPend : List Nat
deriving DecidableEq, Repr

/-- Priority class of a submission queue (R422). -/
inductive SqPrio where
  | urgent | high | medium | low
deriving DecidableEq, Repr

/-- A submission queue. -/
structure Sq where
  size : Nat
  head : Nat
  tail : Nat
  cq : Nat
  prio : SqPrio
  base : Word
deriving DecidableEq, Repr

/-- A completion: CID, SQ, status code type and code, DNR, DW0, DW1. -/
structure Cqe where
  cid : Nat
  sq : Nat
  sct : Nat
  sc : Nat
  dnr : Bool
  dw0 : Nat
  dw1 : Nat
deriving DecidableEq, Repr

/-- A completion queue; `held` are completions that wait for a free entry, each with its work tag (R420). -/
structure Cq where
  size : Nat
  head : Nat
  tail : Nat
  phase : Bool
  vector : Nat
  ien : Bool
  base : Word
  held : List (Nat × Cqe)
  /-- completions posted since the last interrupt of its vector (R419) -/
  coalesced : Nat
deriving DecidableEq, Repr

/-- One entry of a Deferred Error log (R433). -/
structure DeferEntry where
  nsid : Nat
  cause : Nat
  slba : Nat
  nlb : Nat
  sqid : Nat
  cid : Nat
  time : Nat
deriving DecidableEq, Repr

/-- One entry of an Error Information log (R417): the command and its first failing LBA. -/
structure ErrEntry where
  sq : Nat
  cid : Nat
  sct : Nat
  sc : Nat
  lba : Nat
  nsid : Nat
deriving DecidableEq, Repr

/-- One NVMe controller. -/
structure Ctrl where
  en : Bool
  cfs : Bool
  /-- CC.AMS = 001b: weighted round robin with urgent class (R422) -/
  wrr : Bool
  sqs : FMap Sq
  cqs : FMap Cq
  /-- I/O queues granted by Set Features Number of Queues (R419) -/
  grantSq : Nat
  grantCq : Nat
  /-- Feature values by identifier; unlisted: the default of the feature -/
  features : FMap Nat
  /-- Interrupt Vector Configuration: vectors with coalescing disabled -/
  noCoal : List Nat
  /-- work tags of the outstanding Asynchronous Event Requests -/
  aers : List Nat
  /-- commands (SQ, CID) that an Abort has settled while they were still in their SQ (R434) -/
  preAbort : List (Nat × Nat)
  /-- Program Load: the image staged so far (R453) -/
  stage : Option (List Byte)
  /-- a Barlis command has been fetched since the last controller reset (R445) -/
  barlis : Bool
  errLog : List ErrEntry
  errCount : Nat
  /-- namespaces changed since log page 04h was read -/
  changed : List Nat
  defer : List DeferEntry
  deferOvf : Bool
  deferGen : Nat
  /-- namespaces whose pending flag is set, each with the stamp after which it refuses (R431) -/
  pend : FMap Nat
  /-- round robin positions: the SQ served last per class -/
  last : List Nat
  /-- what the weighted round robin has left to serve in this turn: high, medium, low -/
  wrrLeft : List Nat
deriving DecidableEq, Repr

/-- A command fetched and not complete, by work tag (R421, R424). -/
structure Cmd where
  ctrl : Nat
  sq : Nat
  /-- the CQ of its SQ -/
  cq : Nat
  e : Sqe
  stamp : Nat
  /-- the function's epoch at fetch -/
  epoch : BitVec 16
  /-- a block has accepted it (R434) -/
  accepted : Bool
  /-- it has ended and its completion waits for a free CQ entry (R420) -/
  ended : Bool
  /-- energy charged to it, nJ (R449) -/
  nj : Nat
deriving DecidableEq, Repr

/-- Where the current data of a logical block is: the DRAM write buffer, its flash namespace's unit, or staged for tape (R15, R426). -/
inductive Place where
  | buffer | flash | staged
deriving DecidableEq, Repr

/-- One logical block that holds written data. -/
structure Block where
  data : List Byte
  meta_ : List Byte
  stamp : Nat
  ctrl : Nat
  sqid : Nat
  cid : Nat
  place : Place
  /-- it reads as Unrecovered Read Error (R435) -/
  bad : Bool
deriving DecidableEq, Repr

/-- A namespace (R436, R438). -/
structure Ns where
  lbaf : Nat
  size : Nat
  nguid : Nat
  attached : List Nat
  /-- protection information type 0 to 3 -/
  pi : Nat
  /-- metadata is carried inline with the data (FLBAS) -/
  ext : Bool
  /-- first unit of the flash tier (chapter 8) and number of units -/
  firstUnit : Nat
  units : Nat
  /-- its key, and the device-owned key slot that holds it (R493) -/
  key : List Byte
  slot : Option Nat
deriving DecidableEq, Repr

/-- Zone states of the Zoned Namespace command set, with their encodings in ZSA. -/
inductive ZState where
  | empty | implOpen | explOpen | closed | readOnly | full | offline
deriving DecidableEq, Repr

/-- One zone of the tape-backed namespace (R439 to R441). -/
structure Zone where
  state : ZState
  /-- blocks written from the zone's start -/
  wp : Nat
  /-- the staged copy is in the flash tier -/
  staged : Bool
  /-- destaged to tape and verified -/
  destaged : Bool
  /-- a destage is in progress -/
  destaging : Bool
  sealed : Bool
  /-- data sets of its destage that have been put into the tape ring -/
  sent : Nat
deriving DecidableEq, Repr

/-- The counts that SMART / Health Information reports: units of 512 bytes read and written, read and write commands, media
errors, and power cycles (R417). -/
structure Smart where
  rd : Nat
  wr : Nat
  rdCmds : Nat
  wrCmds : Nat
  errs : Nat
  cycles : Nat
deriving DecidableEq, Repr

/-- What QEN keeps device-wide (R421, R424). -/
structure Qen where
  stamp : Nat
  credit : FMap Nat
  lastCtrl : Nat
  /-- the burst in progress: controller, SQ, commands left -/
  burst : Option (Nat × Nat × Nat)
  /-- fetching is stopped device-wide: fatal error, PFAIL#, activation, profile -/
  stopped : Bool
  /-- what Sanitize Status reports: 0 never sanitized, 1 completed, 2 in progress, 3 failed; and the action -/
  sanitize : Nat
  sanitizeAct : Nat
  /-- saves performed by the device (SERIAL of R486) -/
  saves : Nat
  smart : Smart
  /-- zones whose state the device has changed since log page BFh was read -/
  zonesChanged : List Nat
deriving DecidableEq, Repr

/-- The NVMe-MI Management Endpoint (R410, R411): VPD bytes, the health status flags not yet cleared, and the MCTP transmission
unit of each port. -/
structure Mi where
  vpd : FMap Byte
  health : Nat
  mtu : FMap Nat
deriving DecidableEq, Repr

/-- An entry of the media log (R577). -/
structure MediaEntry where
  seq : Nat
  time : Nat
  kind : Nat
  nsid : Nat
  slba : Nat
  nlb : Nat
  count : Nat
  where_ : Nat
  aux : Nat
deriving DecidableEq, Repr

/-- The media log (R577): the entries held, oldest first, the next SEQ, and the entries replaced. -/
structure Media where
  ents : List MediaEntry
  next : Nat
  lost : Nat
deriving DecidableEq, Repr

/-- One port (chapter 16), beside the registers of its HIB. -/
structure Port where
  /-- consecutive failures of Recovery at the present speed (R399) -/
  fails : Nat
  /-- PERST# of the port is asserted -/
  perst : Bool
  /-- TB at the entry into the present L1 state -/
  l1Since : Nat
  /-- DOE: the CMA/SPDM object in progress -/
  doe : Option (List Byte)
deriving DecidableEq, Repr

end Sys2Proof.Machine
end

