-- ==== Sys2Proof/Machine/State/Power.lean ====
section
/-! DEFINITION. The state of the power profiles, the governor, the energy meters and the margin planner beside their
registers (chapter 21). -/

namespace Sys2Proof.Machine

/-- A plan that the planner has computed and that waits for the regulator (R538, R539): the voltages in mV, the worst monitor,
the guard in mV and the hottest sensor. -/
structure Plan where
  openMv : Nat
  ajarMv : Nat
  worst : Nat
  guard_ : Nat
  temp : Int
deriving DecidableEq, Repr

/-- Power beside the registers of PCR, AGM and EMT. -/
structure Power where
  /-- Latched or Shuttered is wanted and its entry conditions fail, since this TB (R527) -/
  since : Option Nat
  /-- event 5 has been raised for that wait -/
  told : Bool
  /-- the device is in Latched or Shuttered: clocks stopped -/
  asleep : Bool
  /-- TB saved at entry (R528) -/
  saved : Nat
  /-- the profile left at entry -/
  left : Nat
  /-- L1.2 was left while the host demand is Latched: TB from which PCR_PROF.IDLE counts (R530) -/
  idle : Option Nat
  /-- last operational power state of PF0 and PF1 (R530) -/
  lastOp : FMap Nat
  /-- a plan that waits for the regulator, with the TB of its AVSBus command -/
  plan : Option (Plan × Nat)
  /-- a re-plan is due: PERIOD has run out, or Latched → Open (R538) -/
  due : Bool
  /-- hours of the first measurement, and TB of the last plan -/
  planned : Nat
  /-- thermal thresholds in force, of AGM_THR0 to AGM_THR3 (R541) -/
  hot : List Nat
  /-- device power of the last intervals, mW, newest first (R544) -/
  mw : List Nat
  /-- nJ that the energy fields, which count µJ, still owe: by block's first page; device 4096, unattributed 4097 -/
  rem : FMap Nat
  /-- decoder work of this metering interval by command tag, 65536 for codewords of no command: coded bits × iterations, 0 counted as 1
  (R534, R535) -/
  cwWork : FMap Nat
deriving DecidableEq, Repr

def Power.init : Power where
  since := none
  told := false
  asleep := false
  saved := 0
  left := 0
  idle := none
  lastOp := []
  plan := none
  due := false
  planned := 0
  hot := []
  mw := []
  rem := []
  cwWork := []

end Sys2Proof.Machine
end

