-- ==== Sys2Proof/Machine/State/Security.lean ====
section
/-! DEFINITION. Table containers (chapter 4), and the state of the Keeper (chapter 20). -/

namespace Sys2Proof.Machine

/-- A resident table: a container that passed every check (R105), with its sections by type. -/
structure Table where
  id : Nat
  gen : Nat
  writeOk : Bool
  major : Nat
  minor : Nat
  secEpoch : Nat
  digest : List Byte
  secs : FMap (List Byte)
deriving DecidableEq, Repr

/-- A table load in progress: slot, address and the copy read; none after a bus error (R105). -/
structure TableLoad where
  slot : Nat
  addr : Nat
  copy : Option (List Byte)
  /-- the block's EPOCH at START -/
  epoch : RegWord
deriving DecidableEq, Repr

/-- What the fuses hold (R494, R501, R507, R396). -/
structure Fuses where
  lcs : Nat
  secEpoch : Nat
  secUsed : Nat
  ownerUsed : Nat
  portUsed : Nat
  ikeyUsed : Nat
  dbgUsed : Nat
  steps : Nat
  portMode : Nat
deriving DecidableEq, Repr

/-- A seal record (R515). -/
structure Seal where
  cart : Nat
  zone : Nat
  seq : Nat
  sealedAt : Nat
  expires : Nat
deriving DecidableEq, Repr

/-- A key slot of the key store (R357). -/
structure KeySlot where
  typ : Nat
  usage : Nat
  owner : Nat
  key : List Byte
  /-- the 64-bit invocation counter (R360) -/
  inv : Nat
  /-- LOADSEQ at the load of the slot -/
  seq : Nat
deriving DecidableEq, Repr

/-- What takes effect when a journal entry is durable (R506). -/
inductive Change where
  | none_
  /-- a lifecycle transition, with the new keys it carries (R495) -/
  | lifecycle (frm to_ : Nat) (key1 key2 : List Byte)
  | secEpoch (e : Nat)
  /-- an approval of a digest: firmware or table (R500) -/
  | approve (digest : List Byte)
  | ikey (idx : Nat) (key : List Byte)
  | debugUnlock
  | policy (w : Nat)
  | migKey (key : List Byte)
  | keyImport (slot func typ usage : Nat) (key : List Byte)
  | sealRelease (cart zone : Nat)
  | rebind (oldId : Nat) (tierKey : List Byte)
  | portMode (m : Nat)
  /-- effects of NVMe commands in flight, by work tag: a namespace created (its fields), deleted, attached to or detached from
  controllers; Sanitize with its action; a Firmware Commit of a slot with its action and new image -/
  | nsCreate (tag lbaf pi size : Nat) (ext : Bool)
  | nsDelete (tag nsid : Nat)
  | nsAttach (tag nsid : Nat) (ctrls : List Nat) (attach : Bool)
  | sanitize (tag act : Nat)
  | commit (tag act slot : Nat) (image : List Byte)
  | seal (tag zone : Nat)
deriving DecidableEq, Repr

/-- A journal entry approved and not yet durable: TYPE, ROLE and ARG, what takes effect with it, who asked (DOE mailbox 0 or 1,
2 NVMe-MI, 3 nobody) and KPR's EPOCH at acceptance. -/
structure JItem where
  typ : Nat
  role : Nat
  arg : List Byte
  change : Change
  src : Nat
  epoch : RegWord
deriving DecidableEq, Repr

/-- The Keeper. -/
structure Kpr where
  fuses : Fuses
  debug : Bool
  jfault : Bool
  sealedTier : Bool
  /-- boot has read the journal head and, in Owned, unwrapped the tier key: requests are accepted (R522) -/
  ready : Bool
  nextSeq : Nat
  /-- H(NEXT_SEQ − 1) -/
  head : List Byte
  /-- journal entries by SEQ -/
  entries : FMap (List Byte)
  lastTime : Nat
  queue : List JItem
  ownerKey : List Byte
  recoveryKey : List Byte
  /-- integrator keys by index, and the current index -/
  intKeys : FMap (List Byte)
  intIdx : Nat
  ownerCert : Option (List Byte)
  approved : List (List Byte)
  admitted : List (List Byte)
  policy : Nat
  seals : List Seal
  /-- the owner migration key with its invocation counter (R486, R520) -/
  migKey : Option KeySlot
  /-- the tier key, as the Keeper holds it wrapped; none: not present -/
  tierKey : Option (List Byte)
  /-- the recovery envelope: the recovery key it was written under (R512) -/
  envelope : Option (List Byte)
  /-- a host write has been made since the last Sanitize Crypto Erase (R495) -/
  written : Bool
  /-- key slots 0 to 511 -/
  keys : FMap KeySlot
  /-- count of slot loads since boot, and of wraps (R358, R360) -/
  loadSeq : Nat
  wraps : Nat
  /-- DRBG: seeded, generate requests since the last seeding, and SALT (R361) -/
  seeded : Bool
  generated : Nat
  salt : Nat
  /-- the alarm causes latched in the always-on domain (R519) -/
  latch : Nat
  /-- a secured session is open on DOE mailbox 0, 1, or NVMe-MI (2) -/
  sessions : List Nat
deriving DecidableEq, Repr

/-- A fresh die: Blank, no fuse step used, no journal, no key (log entry 6). -/
def Kpr.init : Kpr where
  fuses := ⟨0, 0, 0, 0, 0, 0, 0, 0, 0⟩
  debug := false
  jfault := false
  sealedTier := false
  ready := false
  nextSeq := 0
  head := []
  entries := []
  lastTime := 0
  queue := []
  ownerKey := []
  recoveryKey := []
  intKeys := []
  intIdx := 0
  ownerCert := none
  approved := []
  admitted := []
  policy := 0
  seals := []
  migKey := none
  tierKey := none
  envelope := none
  written := false
  keys := []
  loadSeq := 0
  wraps := 0
  seeded := false
  generated := 0
  salt := 0
  latch := 0
  sessions := []

/-- Firmware and the boot (chapter 22): the images in the slots of the xSPI flash that this device has committed, the slot to
boot next, the image being downloaded, and an activation in progress. -/
structure Boot where
  slots : FMap (List Byte)
  nextSlot : Nat
  download : FMap Byte
  /-- TB at the start of the boot in progress -/
  t0 : Nat
  /-- an alarm has been active during this boot since this TB -/
  alarmAt : Option Nat
  /-- the mapping tables are restored (R555) -/
  mapReady : Bool
  /-- TB at step 1 of the firmware activation in progress, its work tag and its slot (R560) -/
  act : Option (Nat × Nat × Nat)
  /-- the Keeper and real-time code that run -/
  kprCode : List Byte
  rtCode : List Byte
  /-- firmware has written a per-source route to EVT_OUT, so the pins no longer show the boot code (R554) -/
  released : Bool
  /-- power-on reset is held, or CORE_PWR_EN is low: the device does nothing -/
  held : Bool
  /-- real-time firmware has been loaded in this boot since this TB (R553) -/
  rtAt : Option Nat
deriving DecidableEq, Repr

/-- The boot after power-on reset (log entry 6). -/
def Boot.init : Boot := ⟨[], 1, [], 0, none, false, none, [], [], false, false, none⟩

end Sys2Proof.Machine
end

