-- ==== Sys2Proof/Machine/State/Servo.lean ====
section
/-! DEFINITION. The state of the servo demodulator and the loop engine beside their registers (chapter 6). -/

namespace Sys2Proof.Machine

/-- What SVD keeps of the longitudinal words (R153). -/
structure Svd where
  /-- the direction of travel of the last frames: positive forward -/
  forward : Bool
  /-- symbols of the last frames of the lower and of the upper band, newest first: 0, 1, 2 sync, 3 unreadable -/
  symLower : List Nat
  symUpper : List Nat
  /-- the position that the last disagreeing word implies for the present frame -/
  cand : Option Nat
  /-- TBS speed, and the longitudinal position, have been valid once (R163) -/
  speedEver : Bool
  lposEver : Bool
deriving DecidableEq, Repr

/-- An evaluation that waits for a pipe (R164). -/
structure Waiting where
  stamp : Nat
  deadline : Nat
deriving DecidableEq, Repr

/-- What an evaluation computes (R161), kept until its output is issued or dropped (R165). -/
structure EvalResult where
  stamp : Nat
  deadline : Nat
  /-- TB at which the evaluation ends -/
  ready : Nat
  /-- it waits in the queue of its actuator lane -/
  queued : Bool
  y : Int
  rEff : Int
  e : Int
  p : Int
  i : Int
  d : Int
  v : Int
  ff : Int
  gs : Int
  s : Int
  u : Int
  clamped : Bool
  csign : Int
  edPrev : Int
  w : List (Int × Int)
  state : Nat
  outSat : Bool
  /-- the integrator has entered the clamp in this evaluation, and slewing has ended -/
  clampEntry : Bool
  slewEnd : Bool
  /-- the input has had no value yet, so that r_eff still waits for one (R168) -/
  first : Bool
deriving DecidableEq, Repr

/-- The nodes of a slot's last evaluation that trace units read (R174). -/
structure Nodes where
  p : Int
  i : Int
  d : Int
  v : Int
  ff : Int
  lat : Nat
deriving DecidableEq, Repr

/-- One loop slot beside its registers. -/
structure Slot where
  /-- samples and ticks delivered and not yet taken as triggers: source code and stamp -/
  due : List (Nat × Nat)
  wait : Option Waiting
  result : Option EvalResult
  csign : Int
  edPrev : Int
  /-- ed_prev takes this evaluation's ed (R172) -/
  edFresh : Bool
  /-- r_eff waits for the first valid y (R168) -/
  first : Bool
  /-- TB of the last trigger -/
  lastTrig : Nat
  /-- motion set-point from TPI (R183), and the value a feeding slot has written (R160) -/
  motion : Option Int
  fed : Option Int
  nodes : Nodes
deriving DecidableEq, Repr

/-- A slot after power-up. -/
def Slot.init : Slot := ⟨[], none, none, 0, 0, false, false, 0, none, none, ⟨0, 0, 0, 0, 0, 0⟩⟩

/-- A trace unit beside its registers (R174, R175). -/
structure Trace where
  /-- records still to be recorded after the trigger -/
  post : Nat
  /-- the compared node's value at the previous record -/
  prev : Option Int
deriving DecidableEq, Repr

/-- An actuator lane (R177). -/
structure Lane where
  /-- slots whose frames wait, in order of issue -/
  queue : List Nat
  /-- SAFE_OUT frames, which go at once (R167), and firmware frames written and not yet sent, in order -/
  safe : List (BitVec 32)
  fw : List (BitVec 32)
  /-- the frame being sent, and TB at its start -/
  busy : Option (BitVec 32)
  since : Nat
deriving DecidableEq, Repr

def Lane.init : Lane := ⟨[], [], [], none, 0⟩

/-- LPE as a whole. -/
structure Lpe where
  slots : FMap Slot
  /-- latest value and stamp of each sample source, by code (R159) -/
  src : FMap (Int × Nat)
  traces : FMap Trace
  lanes : FMap Lane
  /-- duty in force on each PWM channel in this carrier period, and the duty last given by a slot (R176) -/
  duty : FMap Nat
  slotDuty : FMap Nat
  /-- TB from which each evaluation pipe is free (R164) -/
  pipes : List Nat
deriving DecidableEq, Repr

def Lpe.init : Lpe := ⟨[], [], [], [], [], [], [0, 0]⟩

end Sys2Proof.Machine
end

