-- ==== Sys2Proof/Machine/State/Tape.lean ====
section
/-! DEFINITION. The state of the tape path beside its registers: the signal path (chapter 3), the format engine
(chapter 4) and the decoder fabric (chapter 5). -/

namespace Sys2Proof.Machine

/-! ### Signal path -/

/-- One equalised sample in a track's ring (R86): y, the tentative decision, the TB stamp, its time in 1/64 of an ADC sample since the
band pass opened, and whether its channel was in dropout. -/
structure Sample where
  y : Int
  b : Bool
  tb : Nat
  at_ : Nat
  drop : Bool
deriving DecidableEq, Repr

/-- A channel bit whose decision is still in the traceback (R68, R79): the offset-corrected sample before gain, the FIR input sample, y, its
time, and whether its channel was in dropout. -/
structure BitRec where
  u : Int
  r : Int
  y : Int
  at_ : Nat
  drop : Bool
deriving DecidableEq, Repr

/-- A channel bit of a track after joint detection (R79, R84): y' and σ̂² with 24 fractional bits, and whether it lies in dropout. -/
structure Soft where
  yp : Int
  sig : Nat
  drop : Bool
deriving DecidableEq, Repr

/-- What TFE and TDT keep of one input beside its registers. -/
structure Chan where
  /-- the fraction bits of adapted state below its register: g, o, a, phi, sigma (R68) -/
  gF : Nat
  oF : Nat
  aF : Nat
  phF : Nat
  sgF : Nat
  /-- of the 16 taps -/
  cF : FMap Nat
  /-- corrected samples at the interpolator, newest first, samples taken since the pass opened, and samples to skip before the one that
  completes the next bit (R65, R75) -/
  zs : List Int
  taken : Nat
  skip : Nat
  /-- the last bits, newest first, and the survivors of the tentative detector: metric and path by state (R79) -/
  hist : List BitRec
  surv : List (Int × List Bool)
  /-- of the last decided bit: the sample, its target, and the last two decisions -/
  y1 : Int
  yhat1 : Int
  b1 : Bool
  b2 : Bool
  /-- |y| of the last bits, newest first, and the bits since the window was last clear (R71) -/
  win : List Nat
  /-- consecutive bits with sigma squared below ACQ_THR, and above LOSS_THR (R76) -/
  lowRun : Nat
  highRun : Nat
  /-- f has reached its limit (R76) -/
  fAtLim : Bool
  /-- bits of the present dropout (R77) -/
  dropRun : Nat
  /-- saturated ADC samples of the present frame (R97) -/
  sat : Nat
  /-- |sample| summed in 2⁻²⁴, and samples counted, of the present 256 (R72) -/
  envSum : Nat
  envCnt : Nat
  /-- the ring of samples, newest first, and the samples ever taken -/
  ring : List Sample
  count : Nat
  /-- the wear average in 2⁻²⁴ of 1/64 dB (R93) -/
  wear : Int
  /-- frame boundaries of the band pass (R90), and those since lock was lost (R83) -/
  frames : Nat
  lost : Option Nat
  /-- lock is lost, and the loop waits for the next preamble to re-acquire (R76, R91) -/
  waits : Bool
deriving DecidableEq, Repr

def Chan.init : Chan :=
  ⟨0, 0, 0, 0, 0, [], [], 0, 0, [], [], 0, 0, false, false, [], 0, 0, false, 0, 0, 0, 0, [], 0, 0, 0, none, false⟩

/-- What TDT keeps of a coupling entry: the fractions of its ten taps (lower 0 to 4, upper 5 to 9), and for how many
consecutive bits the largest tap of each side has stood at an end: bits and whether at j = +2 (R81); the bits of the track that have
passed joint detection, newest first, and their number (R79); and the soft decisions that re-detection has put in the place of the
original ones, by first bit (R86). -/
structure Coupling where
  frac : FMap Nat
  lower : Nat × Bool
  upper : Nat × Bool
  soft : List Soft
  done : Nat
  redo : List (Nat × List Int)
deriving DecidableEq, Repr

def Coupling.init : Coupling := ⟨[], (0, false), (0, false), [], 0, []⟩

/-- A re-detection request (R86): logical track, first sample and length, and whether a frame waits for it (R117). -/
structure Redetect where
  track : Nat
  first : Nat
  len : Nat
  frame : Bool
deriving DecidableEq, Repr

/-- A re-detection unit at work: its request and the soft decisions it makes of the samples. -/
structure RedetUnit where
  req : Redetect
  out : List Int
deriving DecidableEq, Repr

/-- The open band pass (R74): the epochs under which TFE, TDT and FMT accepted it, its band pass number, and whether it
writes. -/
structure Pass where
  tfe : RegWord
  tdt : RegWord
  fmt : RegWord
  band : Nat
  write : Bool
deriving DecidableEq, Repr

/-! ### Decoder fabric -/

/-- Who asked for a codeword, and what its result is for. -/
inductive CwOwner where
  /-- a request of the bus form of R141 -/
  | bus
  /-- codeword `cell` of data set `dsn` (R122) -/
  | tape (dsn cell : Nat)
  /-- part of flash operation `op`, by its work tag -/
  | flash (op : Nat)
deriving DecidableEq, Repr

/-- A codeword request (R141).  FMT gives the values of its input with it and takes the output from the result: `input` is not empty, and
`wr`, that the output goes to OUT_ADDR, is false (log entry 144). -/
structure CwReq where
  codeId : Nat
  cls : Nat
  fmt : Nat
  inAddr : Nat
  outAddr : Nat
  tag : Nat
  ver : Nat
  owner : CwOwner
  input : List Int
  wr : Bool
deriving DecidableEq, Repr

/-- A codeword accepted by the fabric (R140): its slot, epoch, acceptance time and deadline. -/
structure Codeword where
  req : CwReq
  slot : Nat
  epoch : RegWord
  at_ : Nat
  deadline : Nat
deriving DecidableEq, Repr

/-- A tile at work: its codeword, the input L values and TB at the start. -/
structure Tile where
  cw : Codeword
  l : List Int
  start : Nat
deriving DecidableEq, Repr

/-- DCF beside its registers. -/
structure Dcf where
  /-- requests that FMT and FTM wait to pass -/
  want : List CwReq
  /-- the class queues T, H, B -/
  qT : List Codeword
  qH : List Codeword
  qB : List Codeword
  tiles : FMap Tile
  bWait : Nat
  /-- decoded slots for the overflow area that wait in the output stage for port 3 (R240) -/
  outq : List (Nat × List Byte)
deriving DecidableEq, Repr

def Dcf.init : Dcf := ⟨[], [], [], [], [], 0, []⟩

/-! ### Format engine -/

/-- A data set being written: its DSN and copy, the failures charged to it, and the zone it belongs to. -/
structure WriteSet where
  dsn : Nat
  copy : Nat
  charged : Nat
  zone : Nat
deriving DecidableEq, Repr

/-- A frame that waits to be rewritten on its track, or waits for its verify. -/
structure FrameId where
  dsn : Nat
  copy : Nat
  frame : Nat
  rewrite : Nat
deriving DecidableEq, Repr

/-- One track on write. -/
structure WriteTrack where
  /-- original frames of the current data set already written, and frame slots written since its interval started -/
  next : Nat
  slots : Nat
  /-- frames that wait to be rewritten, each with the cause of its failure -/
  rewrites : List (FrameId × Nat)
  /-- frames written and not yet judged, oldest first -/
  issued : List FrameId
  /-- the last channel bit of its output, and whether a transition led to it (R95) -/
  level : Bool
  edge : Bool
deriving DecidableEq, Repr

/-- A rewrite record (R126). -/
structure RwRec where
  dsn : Nat
  word : Nat
deriving DecidableEq, Repr

/-- A frame that waits for the identity of the frame after it (R118), or for its re-detection (R117): its header, where
already read, the inputs of its codewords, none an erasure, and whether it is a lead-in frame, whose header alone is read. -/
structure HeldFrame where
  header : Option FrameId
  cws : List (Option (List Int))
  lead : Bool
deriving DecidableEq, Repr

/-- One track on read. -/
structure ReadTrack where
  /-- the last frame's header, if it was read -/
  prev : Option FrameId
  held : Option HeldFrame
  /-- the frames whose re-detection is under way, oldest first, with codewords 2 on -/
  redet : List HeldFrame
  /-- mark A has been found since the last loss of lock (R83, R91) -/
  aligned : Bool
  /-- the channel bit at which the next frame is expected to start, counted as the track's ring counts (R115) -/
  start : Nat
deriving DecidableEq, Repr

def ReadTrack.init : ReadTrack := ⟨none, none, [], false, 0⟩

/-- A data set open in assembly (R122): its decoded codewords by cell, the interval it belongs to, and how many
intervals have closed since its outer decode first failed. -/
structure OpenSet where
  dsn : Nat
  cells : FMap (List Byte)
  interval : Nat
  failed : Bool
deriving DecidableEq, Repr

/-- FMT beside its registers. -/
structure Fmt where
  cur : Option WriteSet
  prev : Option WriteSet
  /-- data sets whose interval N + 1 has ended while frames of theirs still wait for their verify -/
  late : List WriteSet
  /-- whole-data-set rewrites scheduled, in DSN order -/
  whole : List WriteSet
  /-- the epoch of the data set in progress, once its first frame is issued (R101) -/
  job : Option RegWord
  tracks : FMap WriteTrack
  /-- servo frame number at the end of the last separator (R128) -/
  sepAt : Int
  /-- places used by zone, and spill places used by band pass (R127) -/
  places : FMap Nat
  spills : FMap Nat
  queue : List RwRec
  lost : Nat
  rtracks : FMap ReadTrack
  /-- frame boundaries of lead-in read per track, and the read format selected by slot; none: no format matched -/
  leadIn : FMap Nat
  rslot : Option Nat
  mismatch : Bool
  opens : List OpenSet
  /-- the last DSN delivered in this band pass (R122) -/
  last : Option Nat
  /-- intervals closed in this band pass -/
  interval : Nat
  /-- what is delivered to the ring and waits for room in the buffer of port 1 (R240): addresses and bytes -/
  out : List (Nat × List Byte)
  /-- data codewords that port 0 fetches, in order: place of the data set in the ring and index; and those that FMT has taken (R238) -/
  named : List (Nat × Nat)
  taken : FMap (FMap (List Byte))
deriving DecidableEq, Repr

def Fmt.init : Fmt where
  cur := none
  prev := none
  late := []
  whole := []
  job := none
  tracks := []
  sepAt := 0
  places := []
  spills := []
  queue := []
  lost := 0
  rtracks := []
  leadIn := []
  rslot := none
  mismatch := false
  opens := []
  last := none
  interval := 0
  out := []
  named := []
  taken := []

/-- The tape path. -/
structure Tape where
  chans : FMap Chan
  cpl : FMap Coupling
  pass : Option Pass
  /-- re-detection requests in arrival order, and those in a unit (R86) -/
  queue : List Redetect
  units : List RedetUnit
  fmt : Fmt
  dcf : Dcf
deriving DecidableEq, Repr

def Tape.init : Tape := ⟨[], [], none, [], [], Fmt.init, Dcf.init⟩

end Sys2Proof.Machine
end

