-- ==== Sys2Proof/Machine/State/Transport.lean ====
section
/-! DEFINITION. The state of TPI (chapter 7): the sequencer, the cartridge, the CM link and the tape ring. -/

namespace Sys2Proof.Machine

/-- A data set in the tape ring or in the divert area: its DSN (on write, once FMT has taken it up), its place in the ring in
bytes (ring only), its length, the groups that failed their outer decode (R122), the tape-backed zone it belongs to on
write, and its bytes (divert area only). -/
structure RingSet where
  dsn : Option Nat
  ofs : Nat
  len : Nat
  bad : List Nat
  zone : Option Nat
  data : List Byte
deriving DecidableEq, Repr

/-- What this device has written to the attached cartridge: the first and the last DSN, and the format as word 1 of a cartridge record
holds it (R190, R192). -/
structure Wrote where
  first : Nat
  last : Nat
  fmt : Nat
deriving DecidableEq, Repr

/-- TPI beside its registers. -/
structure Tpi where
  /-- TB at entry to the sequencer's present state -/
  entered : Nat
  /-- the fault machine runs -/
  inFault : Bool
  /-- a cartridge present at reset is to be reported when EN is first set (R188) -/
  atReset : Bool
  /-- bytes shifting over the CM link -/
  cm : Option Nat
  ring : List RingSet
  /-- next free byte of the ring -/
  tail : Nat
  divert : List RingSet
  /-- a backhitch waits for the ring to fall below DIV_OFF (R196) -/
  backhitch : Bool
  /-- the stream machine starts again when the seek that follows a backhitch ends (R196) -/
  resume : Bool
  /-- an abandoned data set waits to be written again, since this TB (R197) -/
  underrun : Option Nat
  /-- the cartridge in the drive: the record in its cartridge memory (R190) -/
  loaded : Option (List Byte)
  /-- CART_ID of the attached cartridge; none: no namespace attached (R191, R193) -/
  cart : Option Nat
  /-- what has been written to it since it was attached (R192) -/
  wrote : Option Wrote
  /-- CART_ID whose staged data waits for it to come back (R193) -/
  waiting : Option Nat
deriving DecidableEq, Repr

/-- The transport after power-on reset (log entry 6). -/
def Tpi.init : Tpi where
  entered := 0
  inFault := false
  atReset := false
  cm := none
  ring := []
  tail := 0
  divert := []
  backhitch := false
  resume := false
  underrun := none
  loaded := none
  cart := none
  wrote := none
  waiting := none

end Sys2Proof.Machine
end

