-- ==== Sys2Proof/Machine/State.lean ====
section
/-! DEFINITION. The whole state of the device, the faults and refusals of the model, and the state after reset.

Every register of the register pages lives in one place, the sparse store `regs`, whose unlisted words read as
the reset value that RegTable.lean takes from the manual; a few registers that only mirror other state are computed
when they are read.  What the manual gives a block beside its registers stands in the block's own field. -/

namespace Sys2Proof.Machine

/-- The model has no faults: every stop of the manual (a bus error, a stopped core, a fatal error) is a state
that the device goes on from.  `none_` is raised by no meaning (safe). -/
inductive Fault where
  | none_
deriving DecidableEq, Repr

/-- Refusals.  `notModelled` is answered by an arm of Dispatch.lean for a command whose meaning is not written yet
(safe: the machine stops).  No meaning answers a refusal. -/
inductive Refusal where
  | notModelled (mnemonic : String)
deriving DecidableEq, Repr

/-- The state of the GA-990. -/
structure State where
  /-- the registers that differ from their reset values, by `regKey` -/
  regs : FMap RegWord
  /-- the pending shadow words of RWS registers (R53), by `regKey` -/
  shadows : FMap RegWord
  /-- latched high words, by requester and register (R48) -/
  latches : FMap RegWord
  /-- the staging state of the blocks, by first page -/
  blks : FMap BlkState
  /-- bank select of the Transom window of BAR2, by PF (R35) -/
  bank : FMap Nat
  /-- the 8-byte words of the telemetry and energy pages of BAR2 as last refreshed, by offset ÷ 8 (R536) -/
  telem : FMap Word
  /-- TB, the timebase count (R26) -/
  tb : Word
  /-- CLK_FAB runs, so TB advances -/
  fab : Bool
  /-- DRAM, shared SRAM, local stores and cluster SRAM, in one address map (Machine/Ops.lean) -/
  mem : List Host.Cell
  /-- SRAM words struck by a soft error and not yet repaired (R573): 1 single-bit, 2 double-bit -/
  upsets : FMap Nat
  /-- DRAM bursts whose stored codeword is in error, by burst (address ÷ 64): the wrong symbols by position, each
  XORed with the byte listed (R233); a poisoned burst is one of them (R236) -/
  dramErr : FMap (List (Nat × Byte))
  /-- the DRAM controllers 0 to 3 -/
  dmcs : FMap Dmc
  /-- the DRAM window (R231) -/
  window : Window
  /-- a rank or a channel has left service through training since the window was formed (R232) -/
  winLost : Bool
  /-- the real-time ports 0 to 3 -/
  rts : FMap RtPort
  /-- resident tables by first page of the block × 32 + slot, and table loads in progress by first page (R105) -/
  tables : FMap Table
  tloads : FMap TableLoad
  kpr : Kpr
  boot : Boot
  power : Power
  tape : Tape
  flash : Flash
  tpi : Tpi
  svd : Svd
  lpe : Lpe
  /-- EVT_OUT pins in a pulse (R567) -/
  pulses : List Nat
  /-- cores by number: compute 0 to 31, RT 32 to 39, Keeper 40 -/
  cores : FMap Core
  /-- Bench contexts 0 to 255 (R316) -/
  benches : FMap Bench
  rings : List (RingId × Ring)
  /-- engine jobs accepted and not complete, by work tag -/
  jobs : FMap Job
  /-- engine intakes, by block type code (R353) -/
  intakes : FMap Intake
  ase : Ase
  /-- LOADs in progress, by first page of the block (R314) -/
  loads : FMap LoadOp
  /-- streams 0 to 255 (R333) -/
  streams : FMap Stream
  /-- function slots 0 to 255 (R466) -/
  funcs : FMap Func
  /-- NumVFs of PF0 and PF1 while VF Enable is set -/
  numVfs : FMap Nat
  /-- the ports P0 and P1 -/
  ports : FMap Port
  /-- controllers by CNTLID -/
  ctrls : FMap Ctrl
  /-- NVMe commands in flight, by work tag -/
  cmds : FMap Cmd
  qen : Qen
  mi : Mi
  media : Media
  /-- namespaces by NSID -/
  nss : FMap Ns
  /-- logical blocks that hold data, by NSID × 2^64 + LBA -/
  blocks : FMap Block
  /-- zones of the tape-backed namespace -/
  zones : FMap Zone
  /-- zones and blocks of the cartridges that are not attached, by CART_ID (R193) -/
  shelf : FMap (List (Nat × Zone) × List (Nat × Block))
  /-- bytes that host memory has still to deliver to the command in progress; empty between commands -/
  inp : List Byte
  /-- outputs of the last command -/
  out : List Out
  /-- the model's own counter, the argument of every free value (log entry 3) -/
  free : Nat
  /-- commands that wait, first in, first out -/
  pending : List Instr
deriving DecidableEq, Repr

/-- The machine right after power-on reset (log entries 6 and 111). -/
def State.reset : State where
  regs := []
  shadows := []
  latches := []
  blks := []
  bank := []
  telem := []
  tb := 0
  fab := true
  mem := []
  upsets := []
  dramErr := []
  dmcs := []
  window := ⟨[], 0⟩
  winLost := false
  rts := []
  tables := []
  tloads := []
  kpr := Kpr.init
  boot := Boot.init
  power := Power.init
  tape := Tape.init
  flash := Flash.init
  tpi := Tpi.init
  svd := ⟨true, [], [], none, false, false⟩
  lpe := Lpe.init
  pulses := []
  cores := []
  benches := []
  rings := []
  jobs := []
  intakes := []
  ase := ⟨[], [], []⟩
  loads := []
  streams := []
  funcs := []
  numVfs := []
  ports := []
  ctrls := []
  cmds := []
  qen := ⟨0, [], 255, none, false, 0, 0, 0, ⟨0, 0, 0, 0, 0, 0⟩, []⟩
  mi := ⟨[], 0, []⟩
  media := ⟨[], 0, 0⟩
  nss := []
  blocks := []
  zones := []
  shelf := []
  inp := []
  out := []
  free := 0
  pending := []

end Sys2Proof.Machine
end

