-- ==== Sys2Proof/Machine/Ops.lean ====
section
/-! DEFINITION. The named operations every meaning is written with: sparse maps, bit fields, registers, the
staging settings, bytes of memory, outputs and free values. -/

namespace Sys2Proof.Machine

/-! ### Sparse maps -/

/-- The entry of key `k`, if the map lists one. -/
def mapFind {α : Type} : FMap α → Nat → Option α
  | [], _ => none
  | (a, v) :: r, k => if a = k then some v else mapFind r k

/-- List `v` at key `k`, keeping the keys strictly rising. -/
def mapPut {α : Type} : FMap α → Nat → α → FMap α
  | [], k, v => [(k, v)]
  | (a, x) :: r, k, v => if a = k then (k, v) :: r else if k < a then (k, v) :: (a, x) :: r else (a, x) :: mapPut r k v

/-- Unlist key `k`. -/
def mapDel {α : Type} : FMap α → Nat → FMap α
  | [], _ => []
  | (a, x) :: r, k => if a = k then mapDel r k else (a, x) :: mapDel r k

/-- The value at `k` of a map whose unlisted keys read as `d`. -/
def mapGet {α : Type} (d : Nat → α) (m : FMap α) (k : Nat) : α := (mapFind m k).getD (d k)

/-- Write the value at `k`; writing what an unlisted key reads as removes the entry. -/
def mapSet {α : Type} [DecidableEq α] (d : Nat → α) (m : FMap α) (k : Nat) (v : α) : FMap α :=
  if v = d k then mapDel m k else mapPut m k v

/-- The keys rise strictly. -/
def keysRise {α : Type} : FMap α → Bool
  | [] => true
  | [_] => true
  | (a, _) :: (b, y) :: r => a < b && keysRise ((b, y) :: r)

/-- The canonical form of a sparse map: keys strictly rising, no entry equal to what an unlisted key reads as. -/
def mapWf {α : Type} [DecidableEq α] (d : Nat → α) (m : FMap α) : Bool :=
  keysRise m && m.all fun e => e.2 ≠ d e.1

/-- Update the value at `k`. -/
def mapUpd {α : Type} [DecidableEq α] (d : Nat → α) (m : FMap α) (k : Nat) (f : α → α) : FMap α :=
  mapSet d m k (f (mapGet d m k))

/-! ### Bit fields -/

/-- Bits [lo + len - 1 : lo] of a number. -/
def natBits (w lo len : Nat) : Nat := w / 2 ^ lo % 2 ^ len

/-- Bits [lo + len - 1 : lo] of a register word. -/
def bitsOf (w : RegWord) (lo len : Nat) : Nat := natBits w.toNat lo len

/-- Bit `i` where `b` holds. -/
def flag (b : Bool) (i : Nat) : Nat := if b then 2 ^ i else 0

/-- A mask of the indexes below `n` at which `f` holds. -/
def maskWhere (n : Nat) (f : Nat → Bool) : Nat := ((List.range n).map fun i => flag (f i) i).sum

/-- The mask of bits [lo + len - 1 : lo]. -/
def maskOf (lo len : Nat) : RegWord := BitVec.ofNat 32 (2 ^ len - 1) <<< lo

/-- A register word with bits [lo + len - 1 : lo] replaced by `v` (mod 2 ^ len). -/
def putBits (w : RegWord) (lo len v : Nat) : RegWord :=
  (w &&& ~~~ maskOf lo len) ||| (BitVec.ofNat 32 (v % 2 ^ len) <<< lo)

/-- The number that an n-bit field holds, read as signed. -/
def signedOf (n v : Nat) : Int := if v % 2 ^ n < 2 ^ (n - 1) then (v % 2 ^ n : Nat) else ((v % 2 ^ n : Nat) : Int) - (2 ^ n : Nat)

/-- The n-bit two's-complement pattern of a number. -/
def unsignedOf (n : Nat) (v : Int) : Nat := (v % ((2 ^ n : Nat) : Int)).toNat

/-- A count plus `k`, saturating at `cap`. -/
def satAdd (cap v k : Nat) : Nat := min cap (v + k)

/-- The least number at or above x ÷ y. -/
def ceilDiv (x y : Nat) : Nat := (x + y - 1) / y

/-- The quotient n ÷ d where the manual does not state its rounding: the exact one, or one of the two whole numbers
beside it (log entry 10); 0 when d is 0. -/
def ratio (n d : Int) : Int :=
  if d = 0 then 0 else Int.fdiv n d + (if Int.fmod n d ≠ 0 ∧ Config.roundUp n d then 1 else 0)

/-- Clamp to a range. -/
def clampI (v lo hi : Int) : Int := if v < lo then lo else if hi < v then hi else v

/-- Saturate to a signed n-bit number. -/
def satS (n : Nat) (v : Int) : Int := clampI v (-(2 ^ (n - 1) : Nat)) ((2 ^ (n - 1) : Nat) - 1)

/-! ### Outcome, outputs and free values -/

/-- The outputs of earlier commands are gone when a command starts. -/
def State.fresh (s : State) : State := { s with out := [] }

/-- The device acts: no power-on reset is held, and the clocks run (log entry 5). -/
def State.live (s : State) : Bool := !s.boot.held && !s.power.asleep

/-- A command has acted, the queue apart: no command changes which commands wait. -/
def State.leaveQueue (s t : State) : State := { t with pending := s.pending }

/-- Every command of this device takes a next state; while the device does not act it has no effect (log entry 5; log entry 2). -/
def next (f : State → State) (s : State) : Host.Outcome State Fault Refusal :=
  .next (s.leaveQueue (if s.live then f s.fresh else s.fresh))

/-- A command that the always-on domain takes, so that it acts in Latched and Shuttered too (log entry 5). -/
def nextAon (f : State → State) (s : State) : Host.Outcome State Fault Refusal :=
  .next (s.leaveQueue (if s.boot.held then s.fresh else f s.fresh))

/-- One tick of CLK_FAB with nothing commanded: TB counts while the clock runs (R26; log entry 1). -/
def State.tick (s : State) : State :=
  let s := s.fresh
  if s.live && s.fab then { s with tb := s.tb + 1 } else s

/-- Send `o` out of the device. -/
def State.emit (s : State) (o : Out) : State := { s with out := s.out ++ [o] }

/-- Advance the model's own counter, the argument of the next free value (log entry 3). -/
def State.bump (s : State) : State := { s with free := s.free + 1 }

/-- A deadline at TB `t` has come: TB stands at it or later (log entry 4; log entry 117). -/
def State.reach (s : State) (t : Nat) : State :=
  if s.fab ∧ s.tb.toNat < t then { s with tb := BitVec.ofNat 64 t } else s

/-! ### Registers -/

/-- The word that the register at offset `off` of register page `page` holds. -/
def State.rg (s : State) (page off : Nat) : RegWord := mapGet regDefault s.regs (regKey page off)

/-- Put a word into the register at offset `off` of page `page`. -/
def State.rset (s : State) (page off : Nat) (v : RegWord) : State :=
  { s with regs := mapSet regDefault s.regs (regKey page off) v }

/-- Field [lo + len - 1 : lo] of a register. -/
def State.fget (s : State) (page off lo len : Nat) : Nat := bitsOf (s.rg page off) lo len

/-- Set field [lo + len - 1 : lo] of a register. -/
def State.fset (s : State) (page off lo len v : Nat) : State := s.rset page off (putBits (s.rg page off) lo len v)

/-- Is bit `i` of a register 1? -/
def State.bit (s : State) (page off i : Nat) : Bool := s.fget page off i 1 == 1

/-- Add `k` to a counter field, saturating (R572; log entry 113). -/
def State.cntSat (s : State) (page off lo len k : Nat) : State :=
  s.fset page off lo len (satAdd (2 ^ len - 1) (s.fget page off lo len) k)

/-- Add `k` to a counter field that wraps. -/
def State.cntWrap (s : State) (page off lo len k : Nat) : State := s.fset page off lo len (s.fget page off lo len + k)

/-- Increment header error counter `i` of the block at `pg`, saturating at 0xFFFF_FFFF. -/
def State.errCnt (s : State) (pg i : Nat) : State := s.cntSat pg (Reg.ERR_CNT i) 0 32 1

/-- Add `k` to header error counter `i`. -/
def State.errCntBy (s : State) (pg i k : Nat) : State := s.cntSat pg (Reg.ERR_CNT i) 0 32 k

/-- A 64-bit value held by two registers, the low word at the lower offset (R8). -/
def State.rg64 (s : State) (page off : Nat) : Nat := (s.rg page off).toNat + (s.rg page (off + 4)).toNat * 2 ^ 32

/-- Put a 64-bit value into two registers. -/
def State.rset64 (s : State) (page off v : Nat) : State :=
  (s.rset page off (BitVec.ofNat 32 v)).rset page (off + 4) (BitVec.ofNat 32 (v / 2 ^ 32))

/-- A register word as a signed number. -/
def State.rgI (s : State) (page off : Nat) : Int := (s.rg page off).toInt

/-- Put a signed number into a register (mod 2³²). -/
def State.rsetI (s : State) (page off : Nat) (v : Int) : State := s.rset page off (BitVec.ofInt 32 v)

/-- A 64-bit signed value held by two registers. -/
def State.rg64I (s : State) (page off : Nat) : Int := signedOf 64 (s.rg64 page off)

def State.rset64I (s : State) (page off : Nat) (v : Int) : State := s.rset64 page off (unsignedOf 64 v)

/-! ### Staging (chapter 2) -/

/-- What a block's staging state is unless listed. -/
def blkDefault (_ : Nat) : BlkState := BlkState.init

/-- The staging state of the block at `pg`. -/
def State.blk (s : State) (pg : Nat) : BlkState := mapGet blkDefault s.blks pg

def State.setBlk (s : State) (pg : Nat) (b : BlkState) : State := { s with blks := mapSet blkDefault s.blks pg b }

/-- EPOCH of the block at `pg`. -/
def State.epoch (s : State) (pg : Nat) : RegWord := s.rg pg Reg.STG_EPOCH

/-- A block takes new jobs: enabled, not frozen, and not in a soft reset (BLK_CTRL, R41; log entry 15). -/
def State.intake (s : State) (pg : Nat) : Bool :=
  s.bit pg Reg.BLK_CTRL 0 && !s.bit pg Reg.BLK_CTRL 2 && !(s.blk pg).srst

/-- A block is enabled and not in a soft reset (log entry 15). -/
def State.enabled (s : State) (pg : Nat) : Bool := s.bit pg Reg.BLK_CTRL 0 && !(s.blk pg).srst

/-- A job is accepted: the block records the EPOCH of the moment (R54). -/
def State.accept (s : State) (pg : Nat) : State :=
  let b := s.blk pg
  s.setBlk pg { b with jobs := b.jobs ++ [s.epoch pg] }

/-- The older settings sets that some job in flight still needs. -/
def setsInUse (jobs : List RegWord) (sets : List SettingsSet) : List SettingsSet :=
  sets.filter fun x => jobs.contains x.epoch

/-- A job accepted under `epoch` is complete; a settings set that no job needs any more is free (log entry 125). -/
def State.endJob (s : State) (pg : Nat) (epoch : RegWord) : State :=
  let b := s.blk pg
  let jobs := b.jobs.erase epoch
  s.setBlk pg { b with jobs := jobs, older := setsInUse jobs b.older }

/-- The word of an RWS register that governs a job accepted under `epoch` (R54): the older set kept for that
epoch, or else the active value. -/
def State.setting (s : State) (pg : Nat) (epoch : RegWord) (page off : Nat) : RegWord :=
  match (s.blk pg).older.find? (·.epoch == epoch) with
  | some x => mapGet (fun _ => s.rg page off) x.words (regKey page off)
  | none => s.rg page off

/-- Field [lo + len - 1 : lo] of such a word. -/
def State.setf (s : State) (pg : Nat) (epoch : RegWord) (page off lo len : Nat) : Nat :=
  bitsOf (s.setting pg epoch page off) lo len

/-- The shadow of an RWS register: its RWS bits from the pending word, or else the active word (R53). -/
def State.shadow (s : State) (page off : Nat) : RegWord :=
  match mapFind s.shadows (regKey page off) with
  | some sh => withShadow (regKey page off) (s.rg page off) sh
  | none => s.rg page off

/-- Does key `k` of the register store lie in the block at `pg` with `n` pages? -/
def keyIn (pg n k : Nat) : Bool := pg ≤ k / 1024 && k / 1024 < pg + n

/-- Is a shadow of the block pending (STG_PEND)? -/
def State.stgPend (s : State) (b : Blk) : Bool := s.shadows.any fun e => keyIn b.base b.pages e.1

/-- Discard the pending shadows of a block (R59). -/
def State.dropShadows (s : State) (b : Blk) : State :=
  { s with shadows := s.shadows.filter fun e => !keyIn b.base b.pages e.1 }

/-! ### Memory: one map of bytes

Device addresses (R31) stand for themselves.  The private memories, which lie outside the device address space
(R312, R363), stand above it. -/

/-- What a byte of memory that nothing has written reads as (R251, R558). -/
def byteDefault (_ : Nat) : Byte := 0

/-- The canonical form of memory. -/
def memWf (m : List Host.Cell) : Bool := mapWf byteDefault m

def memGet (m : List Host.Cell) (a : Nat) : Byte := mapGet byteDefault m a

def memSet (m : List Host.Cell) (a : Nat) (v : Byte) : List Host.Cell := mapSet byteDefault m a v

/-- `n` bytes from address `a`. -/
def memRead (m : List Host.Cell) (a : Nat) : Nat → List Byte
  | 0 => []
  | n + 1 => memGet m a :: memRead m (a + 1) n

/-- Write bytes from address `a`. -/
def memWrite (m : List Host.Cell) (a : Nat) : List Byte → List Host.Cell
  | [] => m
  | b :: r => memWrite (memSet m a b) (a + 1) r

/-- The number that bytes stand for, least significant first (R8). -/
def leNat : List Byte → Nat
  | [] => 0
  | b :: r => b.toNat + 256 * leNat r

/-- `n` bytes of a number, least significant first (R8). -/
def leBytes : Nat → Nat → List Byte
  | 0, _ => []
  | n + 1, v => BitVec.ofNat 8 v :: leBytes n (v / 256)

/-- `n` bytes of a number, most significant first. -/
def beBytes (n v : Nat) : List Byte := (leBytes n v).reverse

/-- The number of bytes, most significant first. -/
def beNat (b : List Byte) : Nat := leNat b.reverse

/-- A little-endian field of a byte string: `n` bytes from offset `off`; bytes beyond the string read zero. -/
def fieldAt (b : List Byte) (off n : Nat) : Nat := leNat ((b.drop off).take n)

/-- First byte of core number k's local store. -/
def localBase (k : Nat) : Nat := 2 ^ 48 + 2 ^ 20 * k

/-- First byte of cluster n's SRAM. -/
def clusterBase (n : Nat) : Nat := 2 ^ 49 + 2 ^ 22 * n

/-- First byte of the Shutter of AEE n. -/
def shutterBase (n : Nat) : Nat := 2 ^ 50 + 2 ^ 20 * n

/-- First word of the device-state tables of QEN, IMG and EVF (R573); their contents are fields of State. -/
def deviceStateBase : Nat := 2 ^ 51

/-- First byte of the shared SRAM (R31). -/
def sramBase : Nat := 0x0100_0000_0000

/-- Size of the shared SRAM: transit buffer and general use. -/
def sramSize : Nat := 0x400_0000

/-- First byte of the general-use half. -/
def sramGeneral : Nat := 0x0100_0200_0000

/-- First address of the register space. -/
def regBase : Nat := 0x0F00_0000_0000

/-- Size of the register space. -/
def regSize : Nat := 0x100_0000

/-- First address of the host memory apertures. -/
def aptBase : Nat := 0x0200_0000_0000

/-- `n` bytes: cut, or filled with zeros. -/
def padTo (n : Nat) (b : List Byte) : List Byte := b.take n ++ List.replicate (n - b.length) 0

end Sys2Proof.Machine
end

