-- ==== Sys2Proof/Machine/Hash.lean ====
section
/-! DEFINITION. The digests and check values of *HSE algorithms* (R370), which other blocks use too: SHA-2 (FIPS 180-4),
SHA-3 (FIPS 202), CRC-32C, the 64-bit guard CRC of the NVM Command Set, and the CRC-16 of the tape frame header (R113).

The manual names the standards and does not reproduce them: the algorithms are taken from the standards (log entry 9). -/

namespace Sys2Proof.Machine

/-! ### SHA-2 -/

/-- The largest r below 2 ^ bits with rᵏ at most n, found bit by bit above `acc`. -/
def rootBits (k n : Nat) : Nat → Nat → Nat
  | 0, acc => acc
  | b + 1, acc => rootBits k n b (if (acc + 2 ^ b) ^ k ≤ n then acc + 2 ^ b else acc)

/-- The first 80 primes. -/
def primes80 : List Nat := (List.range 410).filter fun n => 2 ≤ n && (List.range n).all fun d => d < 2 || n % d != 0

/-- The first w bits of the fractional part of the k-th root of a prime. -/
def rootFrac (k w p : Nat) : Nat := rootBits k (p * 2 ^ (k * w)) (w + 10) 0 % 2 ^ w

/-- What distinguishes SHA-256 from SHA-384 and SHA-512: word width, rounds, and the rotation amounts of
Σ0, Σ1, σ0 and σ1. -/
structure Sha2 where
  w : Nat
  rounds : Nat
  big0 : Nat × Nat × Nat
  big1 : Nat × Nat × Nat
  small0 : Nat × Nat × Nat
  small1 : Nat × Nat × Nat

def sha2x32 : Sha2 := ⟨32, 64, (2, 13, 22), (6, 11, 25), (7, 18, 3), (17, 19, 10)⟩
def sha2x64 : Sha2 := ⟨64, 80, (28, 34, 39), (14, 18, 41), (1, 8, 7), (19, 61, 6)⟩

/-- Rotation right of a w-bit number. -/
def rotr (w r x : Nat) : Nat := (x / 2 ^ r + x * 2 ^ (w - r)) % 2 ^ w

def bigSigma (w : Nat) (r : Nat × Nat × Nat) (x : Nat) : Nat := rotr w r.1 x ^^^ rotr w r.2.1 x ^^^ rotr w r.2.2 x
def smallSigma (w : Nat) (r : Nat × Nat × Nat) (x : Nat) : Nat := rotr w r.1 x ^^^ rotr w r.2.1 x ^^^ x / 2 ^ r.2.2

/-- The message schedule: the block's 16 words and those derived from them. -/
def sha2Schedule (p : Sha2) (blk : List Nat) : List Nat :=
  ((List.range (p.rounds - 16)).foldl (fun (a : List Nat) _ =>
    -- `a` is kept newest first
    let x := smallSigma p.w p.small1 (a.getD 1 0) + a.getD 6 0 + smallSigma p.w p.small0 (a.getD 14 0) + a.getD 15 0
    (x % 2 ^ p.w) :: a) blk.reverse).reverse

/-- The round constants. -/
def sha2K (p : Sha2) : List Nat := (primes80.take p.rounds).map (rootFrac 3 p.w)

def k256 : List Nat := sha2K sha2x32
def k512 : List Nat := sha2K sha2x64

/-- The compression of one block into the chaining words. -/
def sha2Block (p : Sha2) (k : List Nat) (h : List Nat) (blk : List Nat) : List Nat :=
  let m := 2 ^ p.w
  let r := (List.zip k (sha2Schedule p blk)).foldl (fun (v : List Nat) kw =>
    match v with
    | [a, b, c, d, e, f, g, x] =>
      let ch := (e &&& f) ^^^ ((m - 1 - e) &&& g)
      let t1 := x + bigSigma p.w p.big1 e + ch + kw.1 + kw.2
      let t2 := bigSigma p.w p.big0 a + ((a &&& b) ^^^ (a &&& c) ^^^ (b &&& c))
      [(t1 + t2) % m, a, b, c, (d + t1) % m, e, f, g]
    | _ => v) h
  List.zipWith (fun x y => (x + y) % m) h r

/-- Split a list into pieces of `n` (at most `fuel` of them). -/
def chunksN {α : Type} (n : Nat) : Nat → List α → List (List α)
  | 0, _ => []
  | fuel + 1, l => if l.isEmpty then [] else l.take n :: chunksN n fuel (l.drop n)

/-- Split a list into pieces of `n`; the last may be shorter. -/
def chunks {α : Type} (n : Nat) (l : List α) : List (List α) := chunksN n (l.length / n + 1) l

/-- Absorb whole blocks of bytes. -/
def sha2Absorb (p : Sha2) (k : List Nat) (h : List Nat) (bytes : List Byte) : List Nat :=
  (chunks (2 * p.w) bytes).foldl (fun h b => sha2Block p k h ((chunks (p.w / 8) b).map beNat)) h

/-- The padding after a message of `len` bytes. -/
def sha2Pad (p : Sha2) (len : Nat) : List Byte :=
  let blk := 2 * p.w
  let z := (2 * blk - 1 - p.w / 4 - len % blk) % blk
  0x80 :: (List.replicate z 0 ++ beBytes (p.w / 4) (8 * len))

/-! ### SHA-3 -/

/-- One step of the round-constant LFSR of FIPS 202. -/
def kLfsr (r : Nat) : Nat := let r2 := 2 * r; if r2 < 256 then r2 else (r2 ^^^ 0x171) % 256

/-- The state of the LFSR after t steps. -/
def kLfsrN : Nat → Nat
  | 0 => 1
  | t + 1 => kLfsr (kLfsrN t)

/-- The constant of round ir. -/
def keccakRC (ir : Nat) : Nat :=
  (List.range 7).foldl (fun a j => a + (kLfsrN ((j + 7 * ir) % 255) % 2) * 2 ^ (2 ^ j - 1)) 0

/-- The rotation offsets, lane x + 5y. -/
def keccakRot : List Nat :=
  ((List.range 24).foldl (fun (a : List Nat × Nat × Nat) t =>
    let (l, x, y) := a
    (l.set (x + 5 * y) ((t + 1) * (t + 2) / 2 % 64), y, (2 * x + 3 * y) % 5)) (List.replicate 25 0, 1, 0)).1

/-- Rotation left of a 64-bit lane. -/
def rotl64 (r x : Nat) : Nat := (x * 2 ^ r + x / 2 ^ (64 - r)) % 2 ^ 64

/-- One round of Keccak-f[1600] on the 25 lanes A[x, y] at x + 5y. -/
def keccakRound (a : List Nat) (ir : Nat) : List Nat :=
  let g (l : List Nat) (x y : Nat) : Nat := l.getD (x % 5 + 5 * (y % 5)) 0
  let c := (List.range 5).map fun x => g a x 0 ^^^ g a x 1 ^^^ g a x 2 ^^^ g a x 3 ^^^ g a x 4
  let a := (List.range 25).map fun i => a.getD i 0 ^^^ c.getD ((i + 4) % 5) 0 ^^^ rotl64 1 (c.getD ((i + 1) % 5) 0)
  let b := (List.range 25).foldl (fun (l : List Nat) i =>
    let x := i % 5
    let y := i / 5
    l.set (y + 5 * ((2 * x + 3 * y) % 5)) (rotl64 (keccakRot.getD i 0) (a.getD i 0))) (List.replicate 25 0)
  let a := (List.range 25).map fun i =>
    let x := i % 5
    let y := i / 5
    g b x y ^^^ ((2 ^ 64 - 1 - g b (x + 1) y) &&& g b (x + 2) y)
  a.set 0 (a.getD 0 0 ^^^ keccakRC ir)

def keccakF (a : List Nat) : List Nat := (List.range 24).foldl keccakRound a

/-- Absorb whole blocks of `rate` bytes. -/
def sha3Absorb (rate : Nat) (a : List Nat) (bytes : List Byte) : List Nat :=
  (chunks rate bytes).foldl (fun a b =>
    let ws := (chunks 8 b).map leNat
    keccakF ((List.range 25).map fun i => a.getD i 0 ^^^ ws.getD i 0)) a

/-- The padding of SHA-3 after a message of `len` bytes. -/
def sha3Pad (rate len : Nat) : List Byte :=
  let z := rate - len % rate
  if z = 1 then [0x86] else 0x06 :: (List.replicate (z - 2) 0 ++ [0x80])

/-! ### CRCs -/

/-- A reflected CRC over bytes, bit by bit, from register `r`. -/
def crcRefl (poly : Nat) (r : Nat) (bytes : List Byte) : Nat :=
  bytes.foldl (fun r b =>
    (List.range 8).foldl (fun r _ => if r % 2 = 1 then r / 2 ^^^ poly else r / 2) (r ^^^ b.toNat)) r

/-- CRC-32C: reflected polynomial 0x82F63B78, register and result inverted. -/
def crc32c (b : List Byte) : Nat := crcRefl 0x82F6_3B78 0xFFFF_FFFF b ^^^ 0xFFFF_FFFF

/-- The 64-bit guard CRC of the NVM Command Set. -/
def crc64nvme (b : List Byte) : Nat := crcRefl 0x9A6C_9329_AC4B_C9B5 0xFFFF_FFFF_FFFF_FFFF b ^^^ 0xFFFF_FFFF_FFFF_FFFF

/-- A CRC with the most significant bit first, of w bits. -/
def crcMsb (w poly r : Nat) (b : List Byte) : Nat :=
  b.foldl (fun r x =>
    (List.range 8).foldl (fun r _ => if r / 2 ^ (w - 1) = 1 then (2 * r % 2 ^ w) ^^^ poly else 2 * r % 2 ^ w)
      (r ^^^ x.toNat * 2 ^ (w - 8))) r

/-- The frame header check of R113: polynomial 0x1021, initial value 0xFFFF. -/
def crc16 (b : List Byte) : Nat := crcMsb 16 0x1021 0xFFFF b

/-! ### The algorithms by their ALG code (R370) -/

/-- Output bytes of an algorithm; 0 for a reserved code. -/
def algOut (alg : Nat) : Nat :=
  match alg with
  | 1 => 32 | 2 => 48 | 3 => 64 | 4 => 32 | 5 => 64 | 8 => 4 | 9 => 8 | _ => 0

/-- Block bytes of an algorithm. -/
def algBlock (alg : Nat) : Nat :=
  match alg with
  | 1 => 64 | 2 => 128 | 3 => 128 | 4 => 136 | 5 => 72 | _ => 1

/-- The state words before the first byte. -/
def algInit (alg : Nat) : List Nat :=
  match alg with
  | 1 => (primes80.take 8).map (rootFrac 2 32)
  | 2 => ((primes80.drop 8).take 8).map (rootFrac 2 64)
  | 3 => (primes80.take 8).map (rootFrac 2 64)
  | 4 => List.replicate 25 0
  | 5 => List.replicate 25 0
  | 8 => [0xFFFF_FFFF]
  | 9 => [0xFFFF_FFFF_FFFF_FFFF]
  | _ => []

/-- The state words after absorbing bytes, whole blocks for the digests. -/
def algAbsorb (alg : Nat) (st : List Nat) (b : List Byte) : List Nat :=
  match alg with
  | 1 => sha2Absorb sha2x32 k256 st b
  | 2 => sha2Absorb sha2x64 k512 st b
  | 3 => sha2Absorb sha2x64 k512 st b
  | 4 => sha3Absorb 136 st b
  | 5 => sha3Absorb 72 st b
  | 8 => [crcRefl 0x82F6_3B78 (st.getD 0 0) b]
  | 9 => [crcRefl 0x9A6C_9329_AC4B_C9B5 (st.getD 0 0) b]
  | _ => st

/-- The result: the last bytes `b` of a message of `len` bytes in all, absorbed with the padding. -/
def algFinish (alg : Nat) (st : List Nat) (b : List Byte) (len : Nat) : List Byte :=
  match alg with
  | 1 => (algAbsorb 1 st (b ++ sha2Pad sha2x32 len)).flatMap (beBytes 4)
  | 2 => ((algAbsorb 2 st (b ++ sha2Pad sha2x64 len)).flatMap (beBytes 8)).take 48
  | 3 => (algAbsorb 3 st (b ++ sha2Pad sha2x64 len)).flatMap (beBytes 8)
  | 4 => ((algAbsorb 4 st (b ++ sha3Pad 136 len)).flatMap (leBytes 8)).take 32
  | 5 => ((algAbsorb 5 st (b ++ sha3Pad 72 len)).flatMap (leBytes 8)).take 64
  | 8 => leBytes 4 ((algAbsorb 8 st b).getD 0 0 ^^^ 0xFFFF_FFFF)
  | 9 => leBytes 8 ((algAbsorb 9 st b).getD 0 0 ^^^ 0xFFFF_FFFF_FFFF_FFFF)
  | _ => []

/-- The result of an algorithm over a whole message. -/
def algDigest (alg : Nat) (b : List Byte) : List Byte := algFinish alg (algInit alg) b b.length

/-- The SHA-256 digest (log entry 9). -/
def sha256 (b : List Byte) : List Byte := algDigest 1 b
/-- The SHA-384 digest (log entry 9). -/
def sha384 (b : List Byte) : List Byte := algDigest 2 b

/-! ### State words as bytes (*State record*, R372) -/

/-- STATE of a state record: SHA-2 words and SHA-3 lanes little-endian, the CRC register in 8 bytes. -/
def algStateBytes (alg : Nat) (st : List Nat) : List Byte :=
  if alg = 1 then st.flatMap (leBytes 4) else st.flatMap (leBytes 8)

/-- Bytes of STATE that an algorithm uses. -/
def algStateLen (alg : Nat) : Nat :=
  match alg with
  | 1 => 32 | 2 => 64 | 3 => 64 | 4 => 200 | 5 => 200 | _ => 8

def algStateOf (alg : Nat) (b : List Byte) : List Nat :=
  (chunks (if alg = 1 then 4 else 8) (b.take (algStateLen alg))).map leNat

/-- The device identity: low 64 bits of the digest of the identity key, once there is one (R510; log entry 133). -/
def State.devId (s : State) : Nat := if s.kpr.fuses.lcs = 0 then 0 else beNat ((sha384 Config.identKey).drop 40)

end Sys2Proof.Machine
end

