-- ==== Sys2Proof/Machine/Aes.lean ====
section
/-! DEFINITION. AES and the modes of *Cipher jobs* (R362): XTS (IEEE 1619), GCM and GMAC (NIST SP 800-38D) and CTR.  The
manual names the standards; the algorithms are taken from them (log entry 9). -/

namespace Sys2Proof.Machine

/-- Multiplication in GF(2⁸) with the AES polynomial 0x11B, over the lowest `n` bits of `b`. -/
def aesMulN : Nat → Byte → Byte → Byte
  | 0, _, _ => 0
  | n + 1, a, b =>
    let a2 := if a.toNat < 128 then a <<< 1 else (a <<< 1) ^^^ 0x1B
    (if b.toNat % 2 = 1 then a else 0) ^^^ aesMulN n a2 (b >>> 1)

def aesMul (a b : Byte) : Byte := aesMulN 8 a b

/-- a to the power 254: the inverse, and 0 for 0. -/
def aesInv (a : Byte) : Byte :=
  (List.range 7).foldl (fun (x : Byte × Byte) _ => let s := aesMul x.2 x.2; (aesMul x.1 s, s)) ((1 : Byte), a) |>.1

def rotl8 (r : Nat) (x : Byte) : Byte := (x <<< r) ||| (x >>> (8 - r))

/-- The S-box. -/
def sboxOf (a : Byte) : Byte :=
  let x := aesInv a
  x ^^^ rotl8 1 x ^^^ rotl8 2 x ^^^ rotl8 3 x ^^^ rotl8 4 x ^^^ 0x63

/-- The S-box and its inverse as tables. -/
def sboxTab : List Byte := (List.range 256).map fun i => sboxOf (BitVec.ofNat 8 i)
def invTab : List Byte := (List.range 256).map fun i => BitVec.ofNat 8 ((sboxTab.findIdx? (· == BitVec.ofNat 8 i)).getD 0)

def sub (x : Byte) : Byte := sboxTab.getD x.toNat 0
def invSub (x : Byte) : Byte := invTab.getD x.toNat 0

def xorBytes (a b : List Byte) : List Byte := List.zipWith (· ^^^ ·) a b

/-- The key schedule: the key's words and those derived from them, up to `total` words, newest first. -/
def aesWords (nk : Nat) (key : List Byte) (total : Nat) : List (List Byte) :=
  ((List.range (total - nk)).foldl (fun (a : List (List Byte) × Byte) t =>
    let i := nk + t
    let prev := a.1.getD 0 []
    let back := a.1.getD (nk - 1) []
    let (f, rc) :=
      if i % nk = 0 then (xorBytes ((prev.drop 1 ++ prev.take 1).map sub) [a.2, 0, 0, 0], aesMul a.2 2)
      else if 6 < nk ∧ i % nk = 4 then (prev.map sub, a.2)
      else (prev, a.2)
    (xorBytes back f :: a.1, rc)) ((chunks 4 key).reverse, (1 : Byte))).1

/-- Round keys, 16 bytes each, in order. -/
def aesKeys (key : List Byte) : List (List Byte) :=
  let nk := key.length / 4
  chunks 16 ((aesWords nk key (4 * (nk + 7))).reverse.flatten)

def shiftRows (s : List Byte) : List Byte := (List.range 16).map fun i => s.getD ((i + 4 * (i % 4)) % 16) 0
def invShiftRows (s : List Byte) : List Byte := (List.range 16).map fun i => s.getD ((i + 16 - 4 * (i % 4)) % 16) 0

/-- MixColumns with the given first row of its matrix. -/
def mixCols (m : List Byte) (s : List Byte) : List Byte :=
  (List.range 16).map fun i =>
    (List.range 4).foldl (fun a j => a ^^^ aesMul (m.getD ((j + 4 - i % 4) % 4) 0) (s.getD (i / 4 * 4 + j) 0)) 0

/-- Encrypt one block (log entry 9). -/
def aesEnc (key blk : List Byte) : List Byte :=
  let ks := aesKeys key
  let n := ks.length - 1
  let s := (List.range (n - 1)).foldl (fun s r =>
    xorBytes (mixCols [2, 3, 1, 1] (shiftRows (s.map sub))) (ks.getD (r + 1) [])) (xorBytes blk (ks.getD 0 []))
  xorBytes (shiftRows (s.map sub)) (ks.getD n [])

/-- Decrypt one block. -/
def aesDec (key blk : List Byte) : List Byte :=
  let ks := aesKeys key
  let n := ks.length - 1
  let s := (List.range (n - 1)).foldl (fun s r =>
    mixCols [14, 11, 13, 9] (xorBytes ((invShiftRows s).map invSub) (ks.getD (n - 1 - r) []))) (xorBytes blk (ks.getD n []))
  xorBytes ((invShiftRows s).map invSub) (ks.getD 0 [])

/-! ### XTS -/

/-- The tweak times α, as a 128-bit little-endian number. -/
def xtsNext (t : Nat) : Nat := let t2 := 2 * t; if t2 < 2 ^ 128 then t2 else (t2 - 2 ^ 128) ^^^ 0x87

/-- One data unit of whole blocks under tweak number `unit`; `key` holds the data key, then the tweak key. -/
def xtsUnit (enc : Bool) (key : List Byte) (unit : Nat) (data : List Byte) : List Byte :=
  let k1 := key.take (key.length / 2)
  let k2 := key.drop (key.length / 2)
  ((chunks 16 data).foldl (fun (a : List Byte × Nat) b =>
    let t := leBytes 16 a.2
    let x := xorBytes b t
    (a.1 ++ xorBytes (if enc then aesEnc k1 x else aesDec k1 x) t, xtsNext a.2))
    ([], leNat (aesEnc k2 (leBytes 16 unit)))).1

/-- Consecutive data units of `du` bytes from number `first`. -/
def xts (enc : Bool) (key : List Byte) (du first : Nat) (data : List Byte) : List Byte :=
  let us := chunks du data
  (List.range us.length).flatMap fun i => xtsUnit enc key ((first + i) % 2 ^ 128) (us.getD i [])

/-! ### CTR and GCM -/

/-- Key stream from a 128-bit big-endian counter, incremented in its lowest `w` bits. -/
def ctrStream (w : Nat) (key : List Byte) (ctr n : Nat) : List Byte :=
  ((List.range ((n + 15) / 16)).flatMap fun i =>
    aesEnc key (beBytes 16 (ctr / 2 ^ w * 2 ^ w + (ctr + i) % 2 ^ w))).take n

/-- CTR with an initial counter block (R362). -/
def ctrCrypt (key icb data : List Byte) : List Byte := xorBytes data (ctrStream 128 key (beNat icb) data.length)

/-- Multiplication in GF(2¹²⁸) as GCM orders bits, over `n` bits of x from the most significant. -/
def ghashMulN (x : Nat) : Nat → Nat → Nat → Nat
  | 0, _, z => z
  | n + 1, v, z =>
    let z := if x / 2 ^ n % 2 = 1 then z ^^^ v else z
    ghashMulN x n (if v % 2 = 1 then v / 2 ^^^ (0xE1 * 2 ^ 120) else v / 2) z

def ghashMul (x y : Nat) : Nat := ghashMulN x 128 y 0

/-- Pad to a multiple of 16 bytes with zeros. -/
def pad16 (b : List Byte) : List Byte := b ++ List.replicate ((16 - b.length % 16) % 16) 0

def ghash (h : Nat) (b : List Byte) : Nat := (chunks 16 b).foldl (fun y x => ghashMul (y ^^^ beNat x) h) 0

/-- The GCM tag of additional data and ciphertext under a 96-bit nonce (log entry 9). -/
def gcmTag (key nonce aad ct : List Byte) : List Byte :=
  let h := beNat (aesEnc key (List.replicate 16 0))
  let s := ghash h (pad16 aad ++ pad16 ct ++ beBytes 8 (8 * aad.length) ++ beBytes 8 (8 * ct.length))
  xorBytes (beBytes 16 s) (aesEnc key (nonce ++ beBytes 4 1))

/-- GCM encryption and decryption of the text under a 96-bit nonce (log entry 9). -/
def gcmCrypt (key nonce data : List Byte) : List Byte :=
  xorBytes data (ctrStream 32 key (beNat (nonce ++ beBytes 4 2)) data.length)

end Sys2Proof.Machine
end

