-- ==== Sys2Proof/Machine/Events.lean ====
section
/-! DEFINITION. The function slots as the rest of the device sees them, the event fabric (chapter 23), and the
handling of rejected writes (R51). -/

namespace Sys2Proof.Machine

/-! ### Function slots (chapter 19, R466, R468, R470) -/

/-- A function slot after power-on reset (R491): a PF has its private resources. -/
def funcDefault (k : Nat) : Func where
  online := false
  vq := if k ≤ 1 then 65 else 0
  vi := if k ≤ 1 then 64 else 0
  flexVq := none
  flexVi := none
  epoch := 0
  flrCnt := 0
  ctl := ⟨64, 0, if k ≤ 1 then 256 else 0, 0⟩
  later := none
  granted := 0
  nj := []
  hist := []
  mean := 0
  overCap := false
  d3 := false
  mig := .running
  frzAt := none
  result := 0
  owes5 := false
  seq := 0
  unmasked := []
  entries := []
  msixPend := []

/-- The function of slot `k`. -/
def State.func (s : State) (k : Nat) : Func := mapGet funcDefault s.funcs k

def State.setFunc (s : State) (k : Nat) (f : Func) : State := { s with funcs := mapSet funcDefault s.funcs k f }

/-- Energy of every block type together. -/
def njSum (m : FMap Nat) : Nat := (m.map Prod.snd).sum

/-- Dynamic energy of block type `code` attributed to function `k` (R534); device work is no function's. -/
def State.chargeFunc (s : State) (k code nJ : Nat) : State :=
  if k < 256 then s.setFunc k { s.func k with nj := mapUpd (fun _ => 0) (s.func k).nj code (· + nJ) } else s

/-- One ×8 is in force (HIB_MODE.ACT_X8, R394). -/
def State.x8 (s : State) : Bool := s.bit (pHib 0) Reg.HIB_MODE 8

/-- N0 of R466. -/
def State.n0 (s : State) : Nat := s.fget pImg Reg.IMG_SPLIT 0 8

/-- Slot `k` is a physical function (R466). -/
def State.isPf (s : State) (k : Nat) : Bool := k == 0 || (k == 1 && !s.x8)

/-- The PF that slot `k` belongs to: 0 or 1 (R466). -/
def State.parent (s : State) (k : Nat) : Nat :=
  if s.x8 then 0 else if k = 1 ∨ 1 + s.n0 < k then 1 else 0

/-- The PF-relative index of slot `k` (R466). -/
def State.pfIndex (s : State) (k : Nat) : Nat :=
  if s.isPf k then 0 else if s.x8 then k else if k ≤ 1 + s.n0 then k - 1 else k - 1 - s.n0

/-- Slot `k` exists under NumVFs (IMG_FN.ENABLED); a PF always does. -/
def State.slotEnabled (s : State) (k : Nat) : Bool :=
  k < 256 && (s.isPf k || s.pfIndex k ≤ mapGet (fun _ => 0) s.numVfs (s.parent k))

/-- The controller of slot `k` is usable: a PF, or an enabled secondary that is online (R470). -/
def State.slotOnline (s : State) (k : Nat) : Bool := s.slotEnabled k && (s.isPf k || (s.func k).online)

/-- The port whose link serves slot `k` (R394): in ×8 mode P0 serves every function. -/
def State.portOf (s : State) (k : Nat) : Nat := s.parent k

/-- The Data Link Layer of port `p` is up. -/
def State.linkUp (s : State) (p : Nat) : Bool := s.bit (pHib p) Reg.HIB_LSTAT 8

/-- A function to which an MSI-X message can be delivered (R566): enabled, online, not in D3hot, its link up. -/
def State.usable (s : State) (k : Nat) : Bool :=
  s.slotOnline k && !(s.func k).d3 && s.linkUp (s.portOf k)

/-- The size of the MSI-X table of slot `k`. -/
def State.msixSize (s : State) (k : Nat) : Nat := (s.func k).vi

/-- An MSI-X message for vector `v` of slot `k` (R566): discarded and counted when the function is not usable or the
vector lies outside its table; pending while the vector is masked; sent otherwise. -/
def State.msix (s : State) (k v : Nat) : State :=
  if s.usable k ∧ v < s.msixSize k then
    let f := s.func k
    if (mapFind f.unmasked v).isSome then s.emit (.msix k v)
    else if f.msixPend.contains v then s else s.setFunc k { f with msixPend := v :: f.msixPend }
  else s.errCnt pEvf 3

/-! ### Cores, as the event fabric and the registers see them -/

/-- The number under which the state lists a core: compute 0 to 31, RT 32 to 39, Keeper 40. -/
def coreNum : CoreId → Nat
  | .compute n => n.val
  | .rt n => 32 + n.val
  | .keeper => 40

/-- The local-store size of a core in bytes (R255). -/
def localSize : CoreId → Nat
  | .compute _ => 256 * 1024
  | .rt _ => 512 * 1024
  | .keeper => 128 * 1024

/-- The local-store size by core number. -/
def localSizeOf (k : Nat) : Nat := if k < 32 then 256 * 1024 else if k < 40 then 512 * 1024 else 128 * 1024

/-- A core after reset (R264): supervisor mode, every register zero, w0 over the local store with R, W and X. Compute and
real-time cores are held in reset (R313); the Keeper runs (R551; log entries 63 and 118). -/
def coreDefault (k : Nat) : Core where
  mode := if k = 40 then .running else .inReset
  g := []
  v := []
  pc := 0
  ps := 0
  wsel := 0
  wbase := []
  wlim := [(0, BitVec.ofNat 64 (localSizeOf k - 1))]
  wattr := [(0, 0x1F)]
  tvb := 0
  tpc := 0
  tps := 0
  tcause := 0
  taddr := 0
  tscr := 0
  tcmp := 0
  tctl := 0
  wstk := 0
  wdogLoad := 0
  wdogCount := 0
  wdogFrom := 0
  wdogOnce := false
  bits := []
  evt := []
  dcache := []
  icache := []
  storeErr := []
  bench := none

/-- The state of core number `k`. -/
def State.core (s : State) (k : Nat) : Core := mapGet coreDefault s.cores k

def State.setCore (s : State) (k : Nat) (c : Core) : State := { s with cores := mapSet coreDefault s.cores k c }

/-- Zero, what an unlisted word of a sparse register file or bit space reads as. -/
def zeroWord {n : Nat} (_ : Nat) : BitVec n := 0

/-- Set event bit b4096 + `bit` of core number `k` (R276). -/
def State.setEvt (s : State) (k bit : Nat) : State :=
  let c := s.core k
  s.setCore k { c with evt := mapUpd zeroWord c.evt (bit / 32) (· ||| (1 <<< (bit % 32))) }

/-- Set event bit b4096 + `bit` of every core of a mask; core i of the mask is core number `base` + i. -/
def State.setEvts (s : State) (base mask bit : Nat) (n : Nat) : State :=
  (List.range n).foldl (fun s i => if natBits mask i 1 = 1 then s.setEvt (base + i) bit else s) s

/-! ### Throttling (R531, R532, R541) -/

/-- Thermal action in force. -/
def State.thermal (s : State) : Nat := s.fget pAgm Reg.AGM_HOT 12 3

/-- Governor steps in force, and how many of them lower CLK_CORE: 200 MHz each, to 400 MHz. -/
def State.govSteps (s : State) : Nat := s.fget (pPcr + 1) Reg.PCR_GOV 8 8
/-- How many of them lower CLK_CORE (log entry 108). -/
def State.clkSteps (s : State) : Nat := ceilDiv (s.fget (pPcr + 1) Reg.PCR_CLK 8 8 - 4) 2

/-- The profile that the block at `pg` follows: PROF_OVR holds it at Open or Ajar while the device profile is Open or Ajar (R42). -/
def State.blkProf (s : State) (pg : Nat) : Nat :=
  let dev := s.fget (pPcr + 1) Reg.PCR_PSTAT 0 2
  if 2 ≤ dev then dev else match s.fget pg Reg.BLK_CTRL 4 4 with
    | 1 => 0
    | 2 => 1
    | _ => dev

/-- Governor steps that act on the block at `pg`: none on a block in Open (R531, R42; log entry 136). -/
def State.govOn (s : State) (pg : Nat) : Nat := if s.blkProf pg = 0 then 0 else s.govSteps

/-- The share of the time that the intake of the engine at `pg` is open, in eighths. -/
def State.intakeShare (s : State) (pg : Nat) : Nat :=
  min (8 - min 8 (s.govOn pg - s.clkSteps)) (if 3 ≤ s.thermal then 0 else if s.thermal = 2 then 4 else 8)

/-- Class-B work of the block at `pg`, a flash block or DCF, is paused. -/
def State.pausedB (s : State) (pg : Nat) : Bool := 3 ≤ s.thermal || s.clkSteps + 8 < s.govOn pg

/-- CLK_CORE in effect, in 100 MHz units, by profile, governor and thermal action. -/
def State.clkWant (s : State) : Nat :=
  let ajar := s.fget (pPcr + 1) Reg.PCR_CLK 8 8
  let own := if s.fget (pPcr + 1) Reg.PCR_PSTAT 0 2 = 0 then s.fget (pPcr + 1) Reg.PCR_CLK 0 8
    else max 4 (ajar - 2 * min s.govSteps s.clkSteps)
  if 2 ≤ s.thermal then min own 4 else if s.thermal = 1 then min own ajar else own

/-- PCR_CLK.NOW follows. -/
def State.clkUpdate (s : State) : State := s.fset (pPcr + 1) Reg.PCR_CLK 16 8 s.clkWant

/-! ### The event fabric -/

/-- The ordinal of a block instance (R562). -/
def Blk.ordinal (b : Blk) : Nat := b.src / 0x20

/-- The block instance whose sources include source ID `id`. -/
def blkOfSrc (id : Nat) : Option Blk := allBlks.find? fun b => b.src ≤ id && id < b.src + 0x20

/-- Is the source pending (R562, R563)? -/
def State.srcPend (s : State) (id : Nat) : Bool :=
  if 0xF00 ≤ id then s.bit pEvf (Reg.EVF_SWPEND ((id - 0xF00) / 32)) ((id - 0xF00) % 32)
  else match blkOfSrc id with
    | some b => s.bit b.base Reg.EVT_PEND (id - b.src)
    | none => false

/-- Is the source masked?  Software sources have no mask. -/
def State.srcMasked (s : State) (id : Nat) : Bool :=
  if 0xF00 ≤ id then false
  else match blkOfSrc id with
    | some b => s.bit b.base Reg.EVT_MASK (id - b.src)
    | none => true

/-- The route entry word of a source (R580). -/
def State.route (s : State) (id : Nat) : RegWord := s.rg (pEvf + 1 + id / 512) (Reg.EVF_RT (id % 512))

/-- The EVT_OUT pin that a source is routed to, if any (R564). -/
def State.srcPin (s : State) (id : Nat) : Option Nat :=
  let r := s.route id
  if bitsOf r 0 1 = 1 then (if bitsOf r 5 1 = 1 then some (bitsOf r 6 2) else none)
  else match blkOfSrc id with
    | some b => if s.bit b.base Reg.EVT_ROUTE 4 then some (s.fget pEvf Reg.EVF_DEF 8 2) else none
    | none => none

/-- A delivery to pin `n`: a pulse in pulse mode (R567); in level mode the level follows from the sources. -/
def State.pinDelivery (s : State) (n : Nat) : State :=
  if s.bit pEvf Reg.EVF_PIN n ∧ ¬ s.pulses.contains n then { s with pulses := n :: s.pulses }.emit (.pulse n) else s

/-- One delivery of source `id` to each destination of its per-source route `r` (R564). -/
def State.deliverRoute (s : State) (r : RegWord) : State :=
  let t := bitsOf r 8 6
  let bit := bitsOf r 16 8
  let tw := s.rg64 (pEvf + 9) (Reg.EVF_TGT t)
  let s := if bitsOf r 1 1 = 1 then s.setEvts 32 (natBits tw 0 8) bit 8 else s
  let s := if bitsOf r 2 1 = 1 then s.setEvts 0 (natBits tw 8 32) bit 32 else s
  let s := if bitsOf r 3 1 = 1 then (s.setEvt 40 bit).emit (.keeper bit) else s
  let s := if bitsOf r 4 1 = 1 then s.msix (natBits tw 40 8) (natBits tw 48 11) else s
  if bitsOf r 5 1 = 1 then s.pinDelivery (bitsOf r 6 2) else s

/-- One delivery to the default targets, by EVT_ROUTE of the block (R45, R564). -/
def State.deliverHeader (s : State) (b : Blk) : State :=
  let r := s.rg b.base Reg.EVT_ROUTE
  let s := if bitsOf r 0 1 = 1 then s.setEvts 32 (s.fget pEvf Reg.EVF_DEF 0 8) b.ordinal 8 else s
  let s := if bitsOf r 1 1 = 1 then s.setEvts 0 (s.rg pEvf Reg.EVF_DEF_CC).toNat b.ordinal 32 else s
  let s := if bitsOf r 2 1 = 1 then (s.setEvt 40 b.ordinal).emit (.keeper b.ordinal) else s
  let s := if bitsOf r 3 1 = 1 then s.msix 0 (s.fget pEvf Reg.EVF_DEF 16 11) else s
  if bitsOf r 4 1 = 1 then s.pinDelivery (s.fget pEvf Reg.EVF_DEF 8 2) else s

/-- EVF makes one delivery of source `id` (R563, R564; log entry 25). -/
def State.deliver (s : State) (id : Nat) : State :=
  let r := s.route id
  if bitsOf r 0 1 = 1 then s.deliverRoute r
  else match blkOfSrc id with
    | some b => s.deliverHeader b
    | none => s

/-- Local source `i` of the block at `pg` occurs: its pending bit is set, and it is delivered while unmasked
(R563; log entry 24). -/
def State.raise (s : State) (pg i : Nat) : State :=
  match blkAt pg with
  | none => s
  | some b =>
    let s := s.fset b.base Reg.EVT_PEND i 1 1
    if s.bit b.base Reg.EVT_MASK i then s else s.deliver (b.src + i)

/-- The level of pin EVT_OUT[n] (R554, R567): the boot code while BOOT is 1, a pulse, or the level of the sources
routed to it. -/
def State.pinLevel (s : State) (n : Nat) : Bool :=
  if s.bit pEvf Reg.EVF_PIN 8 then s.bit pPcr Reg.PCR_BOOT n
  else if s.bit pEvf Reg.EVF_PIN n then s.pulses.contains n
  else (List.range 0x1000).any fun id => s.srcPend id && !s.srcMasked id && s.srcPin id == some n

/-! ### Rejected writes (R51, R52) -/

/-- A write to the register at offset `off` is rejected: cause 1 is a reserved encoding, 2 a locked field. -/
def State.badWrite (s : State) (pg off cause : Nat) : State :=
  let s := s.cntSat pg Reg.BAD_WR_CNT 0 16 1
  let s := (s.fset pg Reg.BAD_WR_CNT 16 12 off).fset pg Reg.BAD_WR_CNT 28 2 cause
  s.raise pg 0

/-! ### Fatal errors (R571) -/

/-- A fatal error with CAUSE `cause`: the first one stops fetching from every controller, stages the write buffer and
sets CSTS.CFS of every controller; a later one is only counted and raised. -/
def State.fatal (s : State) (cause : Nat) : State :=
  let first := !s.bit pEvf Reg.EVF_FATAL 0
  let s := (s.errCnt pEvf 2)
  let s := if first then (s.fset pEvf Reg.EVF_FATAL 0 1 1).fset pEvf Reg.EVF_FATAL 4 4 cause else s
  let s := s.raise pEvf 6
  if first then
    { s with
      qen := { s.qen with stopped := true }
      blocks := s.blocks.map fun e => (e.1, if e.2.place = .buffer then { e.2 with place := .staged } else e.2)
      ctrls := s.ctrls.map fun e => (e.1, { e.2 with cfs := true }) }
  else s

/-! ### On-chip SRAM (R573, R574) -/

/-- Which REGION and UNIT of EVF_SRAM_LOG1 an SRAM word at `a` of the model's address map belongs to, and its offset
there. -/
def sramRegion (a : Nat) : Nat × Nat × Nat :=
  if 2 ^ 51 ≤ a then (7, 0, a - 2 ^ 51)
  else if 2 ^ 50 ≤ a then (6, (a - 2 ^ 50) / 2 ^ 20, (a - 2 ^ 50) % 2 ^ 20)
  else if 2 ^ 49 ≤ a then (1 + (a - 2 ^ 49) / 2 ^ 22, 0, (a - 2 ^ 49) % 2 ^ 22)
  else if 2 ^ 48 ≤ a then (5, (a - 2 ^ 48) / 2 ^ 20, (a - 2 ^ 48) % 2 ^ 20)
  else (0, 0, a - sramBase)

/-- Does address `a` of the model's map lie in on-chip SRAM? -/
def isSram (a : Nat) : Bool := 2 ^ 48 ≤ a || (sramBase ≤ a && a < sramBase + sramSize)

/-- A soft error strikes the 64-bit word at `u.addr` (R573). -/
def State.strike (s : State) (u : Upset) : State :=
  if isSram u.addr then
    { s with upsets := mapSet (fun _ => 0) s.upsets (u.addr / 8 * 8) (if u.double then 2 else 1) }
  else s

/-- What a read of the SRAM word at `w` does (R573): a single-bit error is corrected, counted and raised; a
double-bit error is logged, counted and raised, and makes the read uncorrectable (log entry 112). -/
def State.sramWord (s : State) (w : Nat) : State × Bool :=
  match mapGet (fun _ => 0) s.upsets w with
  | 0 => (s, true)
  | 1 => ((s.errCnt pEvf 0).raise pEvf 4, true)
  | _ =>
    let (region, unit, ofs) := sramRegion w
    let s := s.errCnt pEvf 1
    let s := s.fset pEvf Reg.EVF_SRAM_LOG0 3 29 (ofs / 8)
    let s := s.rset pEvf Reg.EVF_SRAM_LOG1 (BitVec.ofNat 32 (region + unit * 2 ^ 8 + 2 ^ 31))
    let s := s.raise pEvf 5
    if region = 7 then (s.fatal 4, true) else (s, false)

/-- The first addresses of the 64-bit words that `n` bytes from `a` touch. -/
def wordsOf (a n : Nat) : List Nat :=
  if n = 0 then [] else (List.range ((a + n - 1) / 8 - a / 8 + 1)).map fun i => (a / 8 + i) * 8

/-- Check the SRAM words that a read of `n` bytes from `a` touches, in order, up to the first uncorrectable one. -/
def State.sramCheck (s : State) : List Nat → State × Bool
  | [] => (s, true)
  | w :: r =>
    match s.sramWord w with
    | (s, true) => s.sramCheck r
    | (s, false) => (s, false)

/-- Read `n` bytes of SRAM: none is the bus error of an uncorrectable word. -/
def State.sramRead (s : State) (a n : Nat) : State × Option (List Byte) :=
  match s.sramCheck (wordsOf a n) with
  | (s, true) => (s, some (memRead s.mem a n))
  | (s, false) => (s, none)

/-- Does a write of `n` bytes from `a` store the word at `w` whole? -/
def wholeWord (a n w : Nat) : Bool := a ≤ w && w + 8 ≤ a + n

/-- Write bytes to SRAM (R574): words stored whole are repaired; words stored in part are read first, and an
uncorrectable one stops the write with a bus error. -/
def State.sramWrite (s : State) (a : Nat) (b : List Byte) : State × Bool :=
  let ws := wordsOf a b.length
  match s.sramCheck (ws.filter fun w => !wholeWord a b.length w) with
  | (s, true) =>
    ({ s with mem := memWrite s.mem a b, upsets := ws.foldl (fun m w => mapDel m w) s.upsets }, true)
  | (s, false) => (s, false)

end Sys2Proof.Machine
end

