-- ==== Sys2Proof/Machine/Dram.lean ====
section
/-! DEFINITION. The DRAM controllers (chapter 9): the address map, the check code, reads and writes of bursts,
uncorrectable errors and the spare, refresh and row disturbance, and the four real-time ports. -/

namespace Sys2Proof.Machine

/-! ### The check code (R233 to R236) -/

/-- Multiplication in GF(2⁸) with field polynomial 0x11D, over the lowest `n` bits of `b`. -/
def gfMulN : Nat → Byte → Byte → Byte
  | 0, _, _ => 0
  | n + 1, a, b =>
    let a2 := if a.toNat < 128 then a <<< 1 else (a <<< 1) ^^^ 0x1D
    (if b.toNat % 2 = 1 then a else 0) ^^^ gfMulN n a2 (b >>> 1)

/-- The product of two symbols. -/
def gfMul (a b : Byte) : Byte := gfMulN 8 a b

/-- The `k`-th power of a symbol. -/
def gfPow (a : Byte) : Nat → Byte
  | 0 => 1
  | k + 1 => gfMul a (gfPow a k)

/-- α to the power `k`; α has order 255. -/
def gfAlpha (k : Nat) : Byte := gfPow 2 (k % 255)

/-- The inverse of a non-zero symbol. -/
def gfInv (a : Byte) : Byte := gfPow a 254

/-- A symbol error pattern: positions 0 to 79 with the byte that each is wrong by. -/
abbrev SymErr := List (Nat × Byte)

/-- Add two error patterns: equal positions combine. -/
def symAdd (a b : SymErr) : SymErr :=
  b.foldl (fun m e => mapUpd (fun _ => (0 : Byte)) m e.1 (· ^^^ e.2)) a

/-- The 16 syndromes of an error pattern: the received word at the roots α⁰ to α¹⁵ (R233). -/
def syndromes (e : SymErr) : List Byte :=
  (List.range 16).map fun j => e.foldl (fun a x => a ^^^ gfMul x.2 (gfAlpha (j * x.1))) 0

/-- The generator polynomial of the code, lowest coefficient first: its roots are α⁰ to α¹⁵ (R233). -/
def genPoly : List Byte :=
  (List.range 16).foldl (fun g j =>
    (List.range 17).map fun i => gfMul (gfAlpha j) (g.getD i 0) ^^^ (if i = 0 then 0 else g.getD (i - 1) 0)) [1]

/-- A remainder modulo the generator, times x, plus `c`. -/
def remStep (r : List Byte) (c : Byte) : List Byte :=
  let top := r.getD 15 0
  (List.range 16).map fun i => (if i = 0 then c else r.getD (i - 1) 0) ^^^ gfMul top (genPoly.getD i 0)

/-- The symbols of a burst by position, 8v + s holding symbol s of device v: the data bytes 8s + v, and the check symbols of devices 8 and 9 that
make a codeword of them (R233).  As α has order 255, the check symbols are the data times x¹⁹¹ modulo the generator. -/
def burstSymbols (data : List Byte) : List Byte :=
  let d := (List.range 64).map fun p => data.getD (8 * (p % 8) + p / 8) 0
  d ++ (d.reverse ++ List.replicate 191 (0 : Byte)).foldl remStep (List.replicate 16 0)

/-- The burst on the DQ lanes: 16 beats of ten devices' four lanes, bits [3:0] of a symbol in its first beat (R233). -/
def burstBeats (sym : List Byte) : List Nat :=
  (List.range 16).map fun b =>
    (List.range 10).foldl (fun w v => w + (sym.getD (8 * v + b / 2) 0).toNat / 16 ^ (b % 2) % 16 * 16 ^ v) 0

/-- The error pattern of a poisoned burst: 0x5A in every check byte (R236). -/
def poisonErr : SymErr := (List.range 16).map fun i => (64 + i, 0x5A)

/-- The product of a polynomial, given by its 16 lowest coefficients, and 1 - x·c. -/
def polyStep (c : Byte) (p : List Byte) : List Byte :=
  (List.range 16).map fun i => p.getD i 0 ^^^ (if i = 0 then 0 else gfMul c (p.getD (i - 1) 0))

/-- The syndrome polynomial times the erasure locator of device `v`, modulo x¹⁶. -/
def deviceOmega (v : Nat) (syn : List Byte) : List Byte :=
  (List.range 8).foldl (fun p s => polyStep (gfAlpha (8 * v + s)) p) syn

/-- One device alone explains the syndrome: its eight positions, taken as erasures, leave no other error. -/
def deviceExplains (v : Nat) (syn : List Byte) : Bool := ((deviceOmega v syn).drop 8).all (· == 0)

/-- The values that device `v`'s eight symbols are wrong by when it explains the syndrome (Forney). -/
def deviceFix (v : Nat) (syn : List Byte) : SymErr :=
  let om := (deviceOmega v syn).take 8
  (List.range 8).foldl (fun m s =>
    let xi := gfInv (gfAlpha (8 * v + s))
    let num := (List.range 8).foldl (fun a i => a ^^^ gfMul (om.getD i 0) (gfPow xi i)) 0
    let den := (List.range 8).foldl (fun a j => if j = s then a else gfMul a (1 ^^^ gfMul (gfAlpha (8 * v + j)) xi)) 1
    mapSet (fun _ => (0 : Byte)) m (8 * v + s) (gfMul num (gfInv den))) []

/-- What the decoder makes of a burst (R234).  `rest` is what the burst is wrong by after decoding: nothing, unless
the decoder corrects wrongly or the error is itself a codeword (R235). -/
inductive Decoded where
  | clean (rest : SymErr)
  | poisoned
  | corrected (dev : Nat) (rest : SymErr)
  | uncorrectable
deriving DecidableEq, Repr

/-- Decode a burst with error pattern `e`, `marked` being the marked device of its rank (R234). -/
def decodeBurst (marked : Option Nat) (e : SymErr) : Decoded :=
  let syn := syndromes e
  if syn.all (· == 0) then .clean e
  else if syn = syndromes poisonErr then .poisoned
  else
    let devs := match marked with
      | some m => if deviceExplains m syn then [m] else []
      | none => (List.range 10).filter fun v => deviceExplains v syn
    match devs with
    | [v] => .corrected v (symAdd e (deviceFix v syn))
    | _ => .uncorrectable

/-- What data byte `i` of a burst is wrong by: byte 8s + v is symbol s of device v (R233). -/
def errOfByte (e : SymErr) (i : Nat) : Byte := mapGet (fun _ => 0) e (8 * (i % 8) + i / 8)

/-! ### The address map (R231) -/

def dmcDefault (_ : Nat) : Dmc := Dmc.init

/-- The controller of channel `n`. -/
def State.dmc (s : State) (n : Nat) : Dmc := mapGet dmcDefault s.dmcs n

def State.setDmc (s : State) (n : Nat) (d : Dmc) : State := { s with dmcs := mapSet dmcDefault s.dmcs n d }

/-- Bytes of the DRAM window: NLIVE × C (R231, R32). -/
def State.dramSize (s : State) : Nat := s.window.live.length * s.window.cap

/-- Bytes of one rank of channel `n`: ROWS_K × 1,024 rows of 256 KiB (R229). -/
def State.rankSize (s : State) (n : Nat) : Nat := s.fget (pDmc n) Reg.DMC_GEOM 0 9 * 1024 * 0x40000

/-- Channel, mapped place and offset in the rank of DRAM address `a` (R231). -/
def State.dramPlace (s : State) (a : Nat) : Nat × Nat × Nat :=
  let nlive := s.window.live.length
  let u := a / 256
  let ch := s.window.live.getD (u % nlive) 0
  let o := u / nlive * 256 + a % 256
  (ch, o / s.rankSize ch, o % s.rankSize ch)

/-- The physical rank that serves offset `r` of mapped place `i` of channel `n`: the spare below DMC_MIG.PTR while a
migration runs (R248). -/
def State.dramRank (s : State) (n i r : Nat) : Nat :=
  let d := s.dmc n
  let p := d.slots.getD i 0
  match d.mig with
  | some (src, dst) => if p = src ∧ r / 4096 < s.fget (pDmc n) Reg.DMC_MIG 0 24 then dst else p
  | none => p

/-- Row, column, bank group and bank of an offset in a rank (R231). -/
def dramCell (r : Nat) : Nat × Nat × Nat × Nat :=
  (r / 2 ^ 18, natBits r 6 2 + 4 * natBits r 13 5, natBits r 8 3, natBits r 11 2)

/-! ### Rank state, errors and the spare (R235 to R237, R247, R248) -/

/-- ST0 or ST1 of DMC_RANK: 0 absent, 1 mapped, 2 spare, 3 out of service. -/
def State.rankSt (s : State) (n r : Nat) : Nat := s.fget (pDmc n) Reg.DMC_RANK (4 * r) 2

def State.setRankSt (s : State) (n r v : Nat) : State := s.fset (pDmc n) Reg.DMC_RANK (4 * r) 2 v

/-- DEG0 or DEG1 of DMC_RANK. -/
def State.rankDeg (s : State) (n r : Nat) : Bool := s.bit (pDmc n) Reg.DMC_RANK (4 * r + 2)

/-- The marked device of rank `r` (DMC_ECC). -/
def State.markedDev (s : State) (n r : Nat) : Option Nat :=
  if s.bit (pDmc n) Reg.DMC_ECC (20 + 8 * r) then some (s.fget (pDmc n) Reg.DMC_ECC (16 + 8 * r) 4) else none

/-- Record a burst in DMC_ELOG. -/
def State.elog (s : State) (n rank r dev kind : Nat) : State :=
  let (row, col, bg, bank) := dramCell r
  (s.rset (pDmc n) Reg.DMC_ELOG0 (BitVec.ofNat 32 (row % 2 ^ 17 + col * 2 ^ 17 + bg * 2 ^ 24 + bank * 2 ^ 27))).rset
    (pDmc n) Reg.DMC_ELOG1 (BitVec.ofNat 32 (rank + dev * 2 ^ 4 + kind * 2 ^ 8))

/-- *Response to an uncorrectable error* (R247) of rank `r` (log entry 124). -/
def State.rankFails (s : State) (n r : Nat) : State :=
  let d := s.dmc n
  let pg := pDmc n
  if d.mig.any (·.2 == r) then
    let src := (d.mig.map (·.1)).getD 0
    let s := (s.setRankSt n r 3).setRankSt n src 1
    let s := (s.fset pg Reg.DMC_RANK (4 * src + 2) 1 1).fset pg Reg.DMC_RANK 8 1 0
    (s.setDmc n { d with mig := none }).raise pg 5
  else if s.rankDeg n r ∨ s.rankSt n r = 3 then s
  else if r ≠ 1 ∧ s.rankSt n 1 = 2 ∧ d.mig = none then
    let s := (s.setRankSt n r 3).setDmc n { d with mig := some (r, 1), poisoned := 0 }
    let s := (s.fset pg Reg.DMC_MIG 0 24 0).fset pg Reg.DMC_RANK 8 1 1
    (s.raise pg 5).raise pg 6
  else ((s.fset pg Reg.DMC_RANK (4 * r + 2) 1 1).raise pg 5).raise pg 6

/-- One correction by device `dev` of rank `rank`: counted, logged, and the device marked once its corrected bursts in
the rank reach MARK_THR (R235; log entry 114). -/
def State.correction (s : State) (n rank r dev : Nat) : State :=
  let pg := pDmc n
  let d := s.dmc n
  let k := rank * 16 + dev
  let c := mapGet (fun _ => 0) d.corr k + 1
  let thr := s.fget pg Reg.DMC_ECC 0 16
  let s := ((s.errCnt pg 0).elog n rank r dev 1).setDmc n { d with corr := mapPut d.corr k c }
  if thr ≠ 0 ∧ thr ≤ c ∧ s.markedDev n rank = none then
    let s := (s.fset pg Reg.DMC_ECC (16 + 8 * rank) 4 dev).fset pg Reg.DMC_ECC (20 + 8 * rank) 1 1
    s.raise pg 4
  else s

/-- Read the burst that holds address `a`, whose codeword is further wrong by `errs` on its way: what its data is
wrong by after decoding, or none for a bus error (R234, R236, R237). -/
def State.burstRead (s : State) (a : Nat) (errs : SymErr) : State × Option SymErr :=
  let (n, i, r) := s.dramPlace a
  let rank := s.dramRank n i r
  match decodeBurst (s.markedDev n rank) (symAdd ((mapFind s.dramErr (a / 64)).getD []) errs) with
  | .clean e => (s, some e)
  | .corrected v e => (s.correction n rank r v, some e)
  | .poisoned => (s.elog n rank r 0xF 3, none)
  | .uncorrectable => ((((s.errCnt (pDmc n) 1).elog n rank r 0xF 2)).rankFails n rank, none)

/-- The data bytes of a burst, with what they are wrong by. -/
def State.burstData (s : State) (b : Nat) (e : SymErr) : List Byte :=
  (List.range 64).map fun i => memGet s.mem (b * 64 + i) ^^^ errOfByte e i

/-- Read `n` bytes of DRAM from `a`, burst by burst (at most `fuel` bursts). -/
def State.dramReadN : Nat → State → Nat → Nat → SymErr → State × Option (List Byte)
  | 0, s, _, _, _ => (s, some [])
  | fuel + 1, s, a, n, errs =>
    if n = 0 then (s, some []) else
    let k := min n (64 - a % 64)
    match s.burstRead a errs with
    | (s, none) => (s, none)
    | (s, some e) =>
      match State.dramReadN fuel s (a + k) (n - k) [] with
      | (s, some r) => (s, some (((s.burstData (a / 64) e).drop (a % 64)).take k ++ r))
      | (s, none) => (s, none)

/-- Read `n` bytes of DRAM; `errs` strikes the first burst. -/
def State.dramRead (s : State) (a n : Nat) (errs : SymErr) : State × Option (List Byte) :=
  State.dramReadN (n / 64 + 2) s a n errs

/-- Write bytes into the burst that holds `a` (at most to its end): a whole burst replaces whatever the burst held; a
shorter one is a read-modify-write, not performed when its read fails (R236). -/
def State.burstWrite (s : State) (a : Nat) (b : List Byte) (errs : SymErr) : State × Bool :=
  if a % 64 = 0 ∧ b.length = 64 then
    ({ s with mem := memWrite s.mem a b, dramErr := mapDel s.dramErr (a / 64) }, true)
  else match s.burstRead a errs with
    | (s, none) => (s, false)
    | (s, some e) =>
      let m := memWrite s.mem (a / 64 * 64) (s.burstData (a / 64) e)
      ({ s with mem := memWrite m a b, dramErr := mapDel s.dramErr (a / 64) }, true)

def State.dramWriteN : Nat → State → Nat → List Byte → SymErr → State × Bool
  | 0, s, _, _, _ => (s, true)
  | fuel + 1, s, a, b, errs =>
    if b.isEmpty then (s, true) else
    let k := 64 - a % 64
    match s.burstWrite a (b.take k) errs with
    | (s, false) => (s, false)
    | (s, true) => State.dramWriteN fuel s (a + k) (b.drop k) []

/-- Write bytes to DRAM. -/
def State.dramWrite (s : State) (a : Nat) (b : List Byte) (errs : SymErr) : State × Bool :=
  State.dramWriteN (b.length / 64 + 2) s a b errs

/-! ### Row disturbance (R244) -/

/-- An activation table at zero with rows invalid. -/
def actInit : ActTable := ⟨List.replicate 16 ⟨none, 0⟩, 0⟩

/-- The index of the entry with the smallest COUNT, the lowest on a tie. -/
def minEntry (l : List ActEntry) : Nat :=
  (List.range l.length).foldl (fun b i =>
    if (l.getD i ⟨none, 0⟩).count < (l.getD b ⟨none, 0⟩).count then i else b) 0

/-- The table and the entry that activation of row `r` counts in. -/
def actSelect (t : ActTable) (r : Nat) : ActTable × Nat :=
  match t.ents.findIdx? (·.row == some r) with
  | some e => (t, e)
  | none =>
    let e := minEntry t.ents
    let fl := max t.floor (t.ents.getD e ⟨none, 0⟩).count
    (⟨t.ents.set e ⟨some r, fl⟩, fl⟩, e)

/-- The row-disturbance threshold now in force. -/
def State.rdThresh (s : State) (n : Nat) : Nat :=
  let t := s.fget (pDmc n) Reg.DMC_RDIST 0 16
  if (s.dmc n).half then t / 2 else t

/-- One activation of row `row` in a bank of a rank (R244): at the threshold the neighbouring rows that exist are
activated and precharged (log entry 114). -/
def State.activate (s : State) (n rank bank row : Nat) : State :=
  let d := s.dmc n
  let k := rank * 32 + bank
  let (t, e) := actSelect (mapGet (fun _ => actInit) d.acts k) row
  let c := (t.ents.getD e ⟨none, 0⟩).count + 1
  let mit := s.rdThresh n ≤ c
  let t := { t with ents := t.ents.set e ⟨some row, if mit then 0 else c⟩ }
  let s := s.setDmc n { d with acts := mapPut d.acts k t }
  if mit then
    let rows := ([row - 2, row - 1, row + 1, row + 2].eraseDups).filter fun r =>
      r ≠ row && r < s.fget (pDmc n) Reg.DMC_GEOM 0 9 * 1024 && (row < r || row - r ≤ 2)
    (s.cntSat (pDmc n) Reg.DMC_RDIST_CNT 0 32 1).emit (.issue "ACT" (n :: rank :: bank :: rows))
  else s

/-! ### Refresh (R241, R242) -/

def State.owed (s : State) (n r : Nat) : Nat := s.fget (pDmc n) Reg.DMC_REF (4 + 4 * r) 4

/-- The owed refresh count of a rank, at most 15 (R241; log entry 114). -/
def State.setOwed (s : State) (n r v : Nat) : State := s.fset (pDmc n) Reg.DMC_REF (4 + 4 * r) 4 (min v 15)

/-- A rank owing more than POSTMAX enters catch-up, counted once at its entry (R241). -/
def State.catchUpCheck (s : State) (n r : Nat) : State :=
  let d := s.dmc n
  if s.fget (pDmc n) Reg.DMC_REF 0 3 < s.owed n r ∧ ¬ d.catchUp.contains r then
    (s.setDmc n { d with catchUp := r :: d.catchUp }).cntSat (pDmc n) Reg.DMC_REF_CNT 0 32 1
  else s

/-! ### The window (R231, R232) -/

/-- Mapped capacity of channel `n` in bytes: its mapped places. -/
def State.mappedCap (s : State) (n : Nat) : Nat := (s.dmc n).slots.length * s.rankSize n

/-- Form the DRAM window from the live channels, and report it in every DMC_CHMAP. -/
def State.formWindow (s : State) : State :=
  let live := (List.range 4).filter fun n => (s.dmc n).trained && !(s.dmc n).slots.isEmpty
  let c := live.foldl (fun m n => min m (s.mappedCap n)) (match live with | [] => 0 | n :: _ => s.mappedCap n)
  let s := { s with window := ⟨live, c⟩ }
  (List.range 4).foldl (fun s n =>
    let spare := if live.contains n then (s.mappedCap n - c) / 2 ^ 30 else 0
    s.rset (pDmc n) Reg.DMC_CHMAP
      (BitVec.ofNat 32 (live.foldl (fun m k => m + 2 ^ k) 0 + c / 2 ^ 30 * 2 ^ 8 + spare * 2 ^ 16))) s

/-! ### Real-time ports (R238 to R240) -/

/-- A fetch port reads DRAM for its consumer; the others drain. -/
def portFetches (p : Nat) : Bool := p == 0

/-- Bytes of port p's buffer. -/
def State.rtSize (s : State) (p : Nat) : Nat := s.fget (pDmc 0 + 1) (Reg.DMC_PORT p 0x04) 16 9 * 0x10000

/-- First address of port p's buffer. -/
def State.rtBase (s : State) (p : Nat) : Nat := sramGeneral + s.fget (pDmc 0 + 1) (Reg.DMC_PORT p 0x04) 0 9 * 0x10000

def rtDefault (_ : Nat) : RtPort := ⟨0, 0, []⟩

def State.rt (s : State) (p : Nat) : RtPort := mapGet rtDefault s.rts p

def State.rtFillOf (s : State) (p : Nat) : Nat := (s.rt p).fill

/-- Replace port p, and show its fill in FILL, in 4 KiB units. -/
def State.setRt (s : State) (p : Nat) (r : RtPort) : State :=
  { s with rts := mapSet rtDefault s.rts p r }.fset (pDmc 0 + 1) (Reg.DMC_PORT p 0x0C) 0 16 (r.fill / 4096)

def State.setRtFill (s : State) (p v : Nat) : State := s.setRt p { s.rt p with fill := v }

/-- The need of port p: free space when it fetches, fill when it drains. -/
def State.rtNeed (s : State) (p : Nat) : Nat :=
  if portFetches p then s.rtSize p - s.rtFillOf p else s.rtFillOf p

def State.rtPanic (s : State) (p : Nat) : Bool := s.bit (pDmc 0 + 1) (Reg.DMC_PORT p 0x00) 1

/-- Panic is entered when the need reaches PANIC and left when it falls to RELEASE (R239). -/
def State.rtPanicCheck (s : State) (p : Nat) : State :=
  let pg := pDmc 0 + 1
  let w := s.rg pg (Reg.DMC_PORT p 0x08)
  let need := s.rtNeed p
  if s.rtPanic p then (if need ≤ bitsOf w 16 16 * 4096 then s.fset pg (Reg.DMC_PORT p 0) 1 1 0 else s)
  else if bitsOf w 0 16 * 4096 ≤ need then
    ((s.fset pg (Reg.DMC_PORT p 0) 1 1 1).cntSat pg (Reg.DMC_PORT p 0x10) 0 32 1).raise (pDmc 0) 10
  else s

/-- A port cannot keep pace (R240). -/
def State.rtShort (s : State) (p : Nat) : State :=
  (s.cntSat (pDmc 0 + 1) (Reg.DMC_PORT p 0x14) 0 32 1).raise (pDmc 0) 11

/-- The user of drain port p leaves `b` in the buffer for DRAM address `a`; false where the buffer cannot take it, which is
reported as a shortfall (R240). -/
def State.rtPut (s : State) (p a : Nat) (b : List Byte) : State × Bool :=
  let r := s.rt p
  let sz := s.rtSize p
  if sz < r.fill + b.length then (s.rtShort p, false)
  else
    let m := (List.range b.length).foldl (fun m i => memSet m (s.rtBase p + (r.pos + i) % sz) (b.getD i 0)) s.mem
    let s := { s with mem := m }.setRt p ⟨r.fill + b.length, (r.pos + b.length) % sz, r.segs ++ [(a, b.length)]⟩
    (s.rtPanicCheck p, true)

/-- Read `n` bytes of port p's buffer from place `o`, round its end. -/
def State.rtRead (s : State) (p o n : Nat) : State × Option (List Byte) :=
  let sz := s.rtSize p
  let k := min n (sz - o % sz)
  match s.sramRead (s.rtBase p + o % sz) k with
  | (s, some a) =>
    match s.sramRead (s.rtBase p) (n - k) with
    | (s, some b) => (s, some (a ++ b))
    | (s, none) => (s, none)
  | (s, none) => (s, none)

/-- The consumer of fetch port p takes the oldest `n` bytes of its buffer, which must hold them. -/
def State.rtTake (s : State) (p n : Nat) : State × List Byte :=
  let r := s.rt p
  let (s, b) := s.rtRead p (r.pos + s.rtSize p - r.fill % (s.rtSize p + 1)) n
  ((s.setRtFill p (r.fill - n)).rtPanicCheck p, b.getD [])

/-- The user of fetch port p names the DRAM places that it will need next. -/
def State.rtName (s : State) (p : Nat) (l : List (Nat × Nat)) : State :=
  (s.setRt p { s.rt p with segs := (s.rt p).segs ++ l }).rtPanicCheck p

/-- Port p is enabled, in panic, and has something to move: it holds order 1 of R20. -/
def State.rtFirst (s : State) (p : Nat) : Bool :=
  s.bit (pDmc 0 + 1) (Reg.DMC_PORT p 0) 0 && s.rtPanic p && !(s.rt p).segs.isEmpty

/-- Some real-time port is enabled and in panic. -/
def State.anyPanic (s : State) : Bool := (List.range 4).any fun p => s.bit (pDmc 0 + 1) (Reg.DMC_PORT p 0) 0 && s.rtPanic p

/-! ### Reads and writes of an agent on the device address space (R31, R32) -/

/-- Do `n` bytes from `a` lie in the shared SRAM? -/
def inSram (a n : Nat) : Bool := sramBase ≤ a && a + n ≤ sramBase + sramSize

/-- Read `n` bytes of DRAM or shared SRAM; none is a bus error. -/
def State.busRead (s : State) (a n : Nat) : State × Option (List Byte) :=
  if a + n ≤ s.dramSize then s.dramRead a n []
  else if inSram a n then s.sramRead a n
  else (s, none)

/-- Write bytes to DRAM or shared SRAM; false is a bus error. -/
def State.busWrite (s : State) (a : Nat) (b : List Byte) : State × Bool :=
  if a + b.length ≤ s.dramSize then s.dramWrite a b []
  else if inSram a b.length then s.sramWrite a b
  else (s, false)

end Sys2Proof.Machine
end

