-- ==== Sys2Proof/Machine/Queues.lean ====
section
/-! DEFINITION. QEN's part that every block uses: controllers, completions and their interrupts, asynchronous events, deferred
write faults and the media log (chapters 17 and 23). -/

namespace Sys2Proof.Machine

/-- A controller before it is first enabled. -/
def ctrlDefault (_ : Nat) : Ctrl where
  en := false
  cfs := false
  wrr := false
  sqs := []
  cqs := []
  grantSq := 0
  grantCq := 0
  features := []
  noCoal := []
  aers := []
  preAbort := []
  stage := none
  barlis := false
  errLog := []
  errCount := 0
  changed := []
  defer := []
  deferOvf := false
  deferGen := 0
  pend := []
  last := []
  wrrLeft := []

def State.ctrl (s : State) (c : Nat) : Ctrl := mapGet ctrlDefault s.ctrls c

def State.setCtrl (s : State) (c : Nat) (x : Ctrl) : State := { s with ctrls := mapSet ctrlDefault s.ctrls c x }

/-- The value of a Feature; 0 unless set. -/
def State.feature (s : State) (c id : Nat) : Nat := mapGet (fun _ => 0) (s.ctrl c).features id

/-- Whole milliseconds of TB. -/
def State.tbMs (s : State) : Nat := s.tb.toNat / 1000000

/-- The Timestamp of controller `c` now, in ms: what Set Features left, and the time since (log entry 11). -/
def State.timestamp (s : State) (c : Nat) : Nat := (s.feature c 0x0E + s.tbMs) % 2 ^ 48

/-- The owner's clock in ms (log entry 11). -/
def State.ownerClock (s : State) : Nat := max s.kpr.lastTime (s.timestamp 0)

/-! ### Completions (R419, R420) -/

/-- The interrupt of a completion on CQ `q` of controller `c`: at once, or held back by coalescing. -/
def State.cqInterrupt (s : State) (c q : Nat) : State :=
  let x := s.ctrl c
  match mapFind x.cqs q with
  | none => s
  | some k =>
    if !k.ien then s else
    let f := mapGet (fun _ => 0) x.features 8
    let direct := q == 0 || natBits f 8 8 == 0 || x.noCoal.contains k.vector
    if direct || f % 256 + 1 ≤ k.coalesced + 1 then
      (s.setCtrl c { x with cqs := mapPut x.cqs q { k with coalesced := 0 } }).msix c k.vector
    else s.setCtrl c { x with cqs := mapPut x.cqs q { k with coalesced := k.coalesced + 1 } }

/-- Entries free in a CQ; one entry always stays empty. -/
def Cq.room (k : Cq) : Nat := if k.size = 0 then 0 else (k.head + k.size - k.tail - 1) % k.size

/-- Put a completion into CQ `q`, which has a free entry: it goes to the host's memory, and its work tag is free. -/
def State.cqPut (s : State) (c q tag : Nat) (e : Cqe) : State :=
  let x := s.ctrl c
  match mapFind x.cqs q with
  | none => s
  | some k =>
    let t := if k.tail + 1 = k.size then 0 else k.tail + 1
    let s := s.setCtrl c { x with cqs := mapPut x.cqs q { k with tail := t, phase := if t = 0 then !k.phase else k.phase } }
    let s := { s with cmds := mapDel s.cmds tag }.emit (.completion c q e.cid e.sct e.sc e.dnr e.dw0 e.dw1)
    s.cqInterrupt c q

/-- The command of work tag `tag` has ended; its completion waits. -/
def State.endCmd (s : State) (tag : Nat) : State :=
  match mapFind s.cmds tag with
  | some k => { s with cmds := mapPut s.cmds tag { k with ended := true } }
  | none => s

/-- Post a completion, or hold it back while the CQ is full (R420). -/
def State.cqPost (s : State) (c q tag : Nat) (e : Cqe) : State :=
  let x := s.ctrl c
  match mapFind x.cqs q with
  | none => { s with cmds := mapDel s.cmds tag }
  | some k =>
    if k.room = 0 ∨ ¬ k.held.isEmpty then
      (s.setCtrl c { x with cqs := mapPut x.cqs q { k with held := k.held ++ [(tag, e)] } }).endCmd tag
    else s.cqPut c q tag e

/-- An entry of the Error Information log: the newest first, 64 kept (R416, R417). -/
def State.errInfo (s : State) (c : Nat) (e : ErrEntry) : State :=
  let x := s.ctrl c
  s.setCtrl c { x with errLog := (e :: x.errLog).take 64, errCount := x.errCount + 1 }

/-- Above every work tag stand the tags of the two command slots of the management endpoint (R410). -/
def miTag : Nat := 2 ^ 32

/-- The command of work tag `tag` completes, on its CQ or to the management endpoint; a function whose epoch has advanced gets none (R23)
(log entry 85). -/
def State.complete (s : State) (tag sct sc : Nat) (dnr : Bool) (dw0 dw1 lba : Nat) : State :=
  match mapFind s.cmds tag with
  | none => s
  | some k =>
    if k.ended then s else
    if miTag ≤ tag then { s with cmds := mapDel s.cmds tag }.emit (.issue "MI response" [sct, sc, dw0, dw1]) else
    if k.epoch ≠ (s.func k.ctrl).epoch then { s with cmds := mapDel s.cmds tag }
    else
      let s := if sct = 0 ∧ sc = 0 then s else s.errInfo k.ctrl ⟨k.sq, k.e.cid, sct, sc, lba, k.e.nsid⟩
      s.cqPost k.ctrl k.cq tag ⟨k.e.cid, k.sq, sct, sc, dnr, dw0, dw1⟩

/-- A command completes successfully. -/
def State.completeOk (s : State) (tag : Nat) : State := s.complete tag 0 0 false 0 0 0

/-- A command ends with a generic status (type 0h). -/
def State.completeErr (s : State) (tag sc : Nat) : State := s.complete tag 0 sc true 0 0 0

/-- A command ends with a vendor status of R443. -/
def State.completeVendor (s : State) (tag sc : Nat) : State := s.complete tag 7 sc (sc == 0xC3 || sc == 0xC5) 0 0 0

/-! ### Asynchronous events -/

/-- Controller `c` posts an asynchronous event of type `typ`, information `info` and log page `page`, if a request is
outstanding (log entry 85). -/
def State.aen (s : State) (c typ info page : Nat) : State :=
  let x := s.ctrl c
  match x.aers with
  | tag :: r => (s.setCtrl c { x with aers := r }).complete tag 0 0 false (typ + info * 2 ^ 8 + page * 2 ^ 16) 0 0
  | [] => s

/-- Every controller that namespace `nsid` is attached to notes the change and posts Namespace Attribute Changed, where its
Asynchronous Event Configuration lets it. -/
def State.nsChanged (s : State) (nsid : Nat) (ctrls : List Nat) : State :=
  ctrls.foldl (fun s c =>
    let x := s.ctrl c
    let s := s.setCtrl c { x with changed := if x.changed.contains nsid then x.changed else nsid :: x.changed }
    if natBits (mapGet (fun _ => 0) x.features 0x0B) 8 1 = 1 then s.aen c 2 0 4 else s) s

/-! ### The media log (R577, R578) -/

/-- The kinds that also post a notice to the controllers of PF0 and PF1. -/
def mediaNotice (kind : Nat) : Bool := [1, 3, 0x12, 0x14, 0x15].contains kind

/-- Enter an event in the media log; frame rewrites of one data set share one entry (log entry 44). -/
def State.mediaAdd (s : State) (kind nsid slba nlb count where_ aux : Nat) : State :=
  let m := s.media
  let merges (e : MediaEntry) : Bool := e.kind == 0x10 && e.where_ == where_ && e.aux % 2 ^ 32 == aux % 2 ^ 32
  let merged := kind == 0x10 && m.ents.any merges
  let s :=
    if merged then
      { s with media := { m with
          ents := m.ents.map fun e => if merges e then { e with count := e.count + count } else e } }
    else
      let full := 262144 ≤ m.ents.length
      { s with media := {
          ents := (if full then m.ents.drop 1 else m.ents) ++ [⟨m.next, s.ownerClock, kind, nsid, slba, nlb, count, where_, aux⟩]
          next := m.next + 1
          lost := if full then m.lost + 1 else m.lost } }
  if mediaNotice kind then (s.aen 0 7 1 0xC1).aen 1 7 1 0xC1 else s

/-! ### Deferred write faults (R430 to R433) -/

/-- Merge a range into the last entry of the same namespace and cause. -/
def deferMerge (e : DeferEntry) : List DeferEntry → List DeferEntry
  | [] => []
  | x :: r =>
    if r.any (fun y => y.nsid == e.nsid && y.cause == e.cause) ∨ x.nsid ≠ e.nsid ∨ x.cause ≠ e.cause then x :: deferMerge e r
    else
      let lo := min x.slba e.slba
      { x with slba := lo, nlb := max (x.slba + x.nlb) (e.slba + e.nlb) - lo } :: r

/-- A deferred write fault of controller `c` on a range: the log entry, the pending flag and the event. -/
def State.deferFault (s : State) (c nsid cause slba nlb sqid cid : Nat) : State :=
  let x := s.ctrl c
  let e : DeferEntry := ⟨nsid, cause, slba, nlb, sqid, cid, s.timestamp c⟩
  let full := 1024 ≤ x.defer.length
  let s := s.setCtrl c { x with
    defer := if full then deferMerge e x.defer else x.defer ++ [e]
    deferOvf := x.deferOvf || full
    deferGen := x.deferGen + 1
    pend := mapPut x.pend nsid s.qen.stamp }
  (s.aen c 7 2 0xC0).mediaAdd 0x16 nsid slba nlb 1 0 0

end Sys2Proof.Machine
end

