-- ==== Sys2Proof/Machine/DramCommands.lean ====
section
/-! DEFINITION. The commands of the DRAM controllers (chapter 9): requests, ports, refresh, errors, migration and
training. -/

namespace Sys2Proof.Machine

/-! ### Requests -/

/-- A burst at or above DMC_INIT.PTR waits until the initialisation has passed it (R251). -/
def State.initPassed (s : State) (a : Nat) : Bool :=
  let (n, i, r) := s.dramPlace a
  s.bit (pDmc n) Reg.DMC_INIT 31 || (i * s.rankSize n + r) / 4096 < s.fget (pDmc n) Reg.DMC_INIT 0 24

/-- A rank in catch-up issues its owed refreshes before every request (R241). -/
def State.rankFree (s : State) (a : Nat) : Bool :=
  let (n, i, r) := s.dramPlace a
  !(s.dmc n).catchUp.contains (s.dramRank n i r)

/-- The activation that a request brings about, where it opens its row. -/
def State.actFor (s : State) (a : Nat) : State :=
  let (n, i, r) := s.dramPlace a
  let (row, _, bg, bank) := dramCell r
  s.activate n (s.dramRank n i r) (bg * 4 + bank) row

/-- The bursts that hold bytes `a` to `a + n - 1` go out to the devices with their check bytes (R233). -/
def State.burstsOut (s : State) (a n : Nat) : State :=
  (List.range (ceilDiv (a + n) 64 - a / 64)).foldl (fun s i =>
    s.emit (.issue "DRAM_BURST" ((a / 64 + i) :: burstBeats (burstSymbols (s.burstData (a / 64 + i) []))))) s

/-- DRAM_REQUEST (R231 to R237): `act` tells whether the request opens its row, and `errs` what its first burst is
wrong by on the way.  A request waits while the initialisation has not passed it, while its rank is in catch-up, and behind a real-time
port in panic (R20, R239). -/
def dramRequest (write : Bool) (addr len : Nat) (bytes : List Byte) (act : Bool) (errs : SymErr) (s : State) : State :=
  let n := if write then bytes.length else len
  if s.dramSize < addr + n then s.emit .busError
  else if !(s.initPassed addr && s.initPassed (addr + n - 1) && s.rankFree addr) || (List.range 4).any s.rtFirst then s
  else
    let s := if act then s.actFor addr else s
    let (ch, _, _) := s.dramPlace addr
    let s := s.setDmc ch { s.dmc ch with alerts := 0 }
    if write then
      match s.dramWrite addr bytes errs with
      | (s, true) => s.burstsOut addr n
      | (s, false) => s.emit .busError
    else match s.dramRead addr len errs with
      | (s, some b) => s.emit (.data b)
      | (s, none) => s.emit .busError

/-- DRAM_REQUEST (R231, R20, R31, R32). -/
def execDramRequest (write : Bool) (addr len : Nat) (bytes : List (BitVec 8)) (act : Bool) (errs : List (Nat × BitVec 8)) (s : State) :
    Host.Outcome State Fault Refusal := next (dramRequest write addr len bytes act errs) s

/-! ### Refresh -/

/-- A rank that holds data: mapped, spare, or the source of a migration. -/
def State.rankPresent (s : State) (n r : Nat) : Bool := s.rankSt n r ≠ 0

/-- REFRESH_TICK (R241): a tREFI of the rank has passed. -/
def execRefreshTick (n : Fin 4) (rank : Fin 2) (s : State) : Host.Outcome State Fault Refusal :=
  next (fun s =>
    if s.rankPresent n.val rank.val then
      (s.setOwed n.val rank.val (s.owed n.val rank.val + 1)).catchUpCheck n.val rank.val
    else s) s

/-- REFRESH_ISSUE (R241): one refresh, or a pair in catch-up; catch-up ends when owed reaches zero. -/
def refreshIssue (n r : Nat) (s : State) : State :=
  let o := s.owed n r
  if o = 0 then s else
  let d := s.dmc n
  let k := if d.catchUp.contains r then min 2 o else 1
  let d := { d with
    refs := mapUpd (fun _ => 0) d.refs r (· + k)
    catchUp := if o = k then d.catchUp.filter (· ≠ r) else d.catchUp }
  ((s.setDmc n d).setOwed n r (o - k)).emit (.issue "REFab" [n, r, k])

/-- REFRESH_ISSUE (R241). -/
def execRefreshIssue (n : Fin 4) (rank : Fin 2) (s : State) : Host.Outcome State Fault Refusal :=
  next (refreshIssue n.val rank.val) s

/-- MR4_POLL (R242): the rank reports its refresh range and temperature. -/
def mr4Poll (n r : Nat) (hot : Bool) (temp : Nat) (s : State) : State :=
  let pg := pDmc n
  let d := s.dmc n
  let was := s.bit pg Reg.DMC_REF (12 + r)
  let s := (s.setDmc n { d with temp := mapPut d.temp r temp }).fset pg Reg.DMC_REF (12 + r) 1 (if hot then 1 else 0)
  if hot ∧ ¬ was then
    ((s.setOwed n r (min (2 * s.owed n r) 8)).catchUpCheck n r).raise pg 12
  else s

/-- MR4_POLL (R242, R252). -/
def execMr4Poll (n : Fin 4) (rank : Fin 2) (hot : Bool) (temp : Nat) (s : State) : Host.Outcome State Fault Refusal :=
  next (mr4Poll n.val rank.val hot temp) s

/-- ACTIVATION_WINDOW_END (R244): the rank has completed 8,192 refreshes since the last boundary. -/
def activationWindowEnd (n r : Nat) (s : State) : State :=
  let d := s.dmc n
  let k := mapGet (fun _ => 0) d.refs r
  if k < 8192 then s else
  s.setDmc n { d with
    refs := mapPut d.refs r (k - 8192)
    acts := d.acts.map fun e =>
      if e.1 / 32 = r then (e.1, ⟨e.2.ents.map fun x => { x with count := 0 }, 0⟩) else e }

/-- ACTIVATION_WINDOW_END (R244). -/
def execActivationWindowEnd (n : Fin 4) (rank : Fin 2) (s : State) : Host.Outcome State Fault Refusal :=
  next (activationWindowEnd n.val rank.val) s

/-- THRESHOLD_HALVING_END (R244): 32 ms after power-on reset. -/
def execThresholdHalvingEnd (n : Fin 4) (s : State) : Host.Outcome State Fault Refusal :=
  next (fun s => (s.reach 32000000).setDmc n.val { s.dmc n.val with half := false }) s

/-! ### Errors and migration -/

/-- COMMAND_ERROR (R246; log entry 124): the commands are repeated twice; the third error on the same command is uncorrectable for the
rank. -/
def commandError (n r : Nat) (s : State) : State :=
  let d := s.dmc n
  if d.alerts < 2 then (s.setDmc n { d with alerts := d.alerts + 1 }).emit (.issue "repeat" [n, r])
  else
    let s := (s.setDmc n { d with alerts := 0 }).errCnt (pDmc n) 2
    (s.rset (pDmc n) Reg.DMC_ELOG1 (BitVec.ofNat 32 (r + 0xF * 2 ^ 4 + 4 * 2 ^ 8))).rankFails n r

/-- COMMAND_ERROR (R246, R247). -/
def execCommandError (n : Fin 4) (rank : Fin 2) (s : State) : Host.Outcome State Fault Refusal :=
  next (commandError n.val rank.val) s

/-- The DRAM address of offset `r` in mapped place `i` of channel `n`, where the window holds it (R231). -/
def State.dramAddrOf (s : State) (n i r : Nat) : Option Nat :=
  let o := i * s.rankSize n + r
  match s.window.live.findIdx? (· == n) with
  | some k => if o < s.window.cap then some ((o / 256 * s.window.live.length + k) * 256 + o % 256) else none
  | none => none

/-- Copy the burst at `a` from the source to the spare of channel `n` (R248). -/
def State.copyBurst (s : State) (n a : Nat) : State :=
  match s.burstRead a [] with
  | (s, some e) =>
    { s with mem := memWrite s.mem (a / 64 * 64) (s.burstData (a / 64) e), dramErr := mapDel s.dramErr (a / 64) }
  | (s, none) =>
    let d := s.dmc n
    { s.setDmc n { d with poisoned := d.poisoned + 1 } with
      mem := memWrite s.mem (a / 64 * 64) (List.replicate 64 0)
      dramErr := mapPut s.dramErr (a / 64) poisonErr }

/-- MIGRATION_COPY (R248): the next 4 KiB behind DMC_MIG.PTR; at the end of the rank the spare becomes mapped in place
of the source, and the media log tells of the rank out of service with the words poisoned (R578; log entry 152). -/
def migrationCopy (n : Nat) (s : State) : State :=
  let d := s.dmc n
  let pg := pDmc n
  match d.mig with
  | none => s
  | some (src, dst) =>
    let ptr := s.fget pg Reg.DMC_MIG 0 24
    let i := (d.slots.findIdx? (· == src)).getD 0
    let s := (List.range 64).foldl (fun s b =>
      match s.dramAddrOf n i (ptr * 4096 + 64 * b) with
      | some a => s.copyBurst n a
      | none => s) s
    let s := s.fset pg Reg.DMC_MIG 0 24 (ptr + 1)
    if s.rankSize n ≤ (ptr + 1) * 4096 then
      let d := s.dmc n
      let s := s.setDmc n { d with mig := none, slots := (d.slots.map fun x => if x = src then dst else x), poisoned := 0 }
      (((s.setRankSt n dst 1).fset pg Reg.DMC_RANK 8 1 0).raise pg 7).mediaAdd 0x15 0 0 0 d.poisoned 0 0
    else s

/-- MIGRATION_COPY (R248). -/
def execMigrationCopy (n : Fin 4) (s : State) : Host.Outcome State Fault Refusal := next (migrationCopy n.val) s

/-! ### Training -/

/-- Some field of a timing set that training at MAXBIN or below needs is zero (R249). -/
def State.noTiming (s : State) (n : Nat) : Bool :=
  (List.range (s.fget (pDmc n) Reg.DMC_TRAIN 1 2 + 1)).any fun b =>
    ([0, 4, 8].any fun w => (List.range 4).any fun i => s.fget (pDmc n + 2) (Reg.DMC_TSET b w) (8 * i) 8 == 0)
      || (List.range 2).any fun i => s.fget (pDmc n + 2) (Reg.DMC_TSET b 0xC) (16 * i) 16 == 0

/-- Writing DMC_TRAIN.START (R249): locked while a commit is active; refused without timing. -/
def dmcTrainStart (n : Nat) (s : State) : State :=
  let pg := pDmc n
  if (s.blk pg).active then s.badWrite pg Reg.DMC_TRAIN 2
  else if !s.enabled pg then s
  else if s.noTiming n then s.fset pg Reg.DMC_TRAIN 8 4 6
  else s.fset pg Reg.DMC_TRAIN 8 4 1

/-- DMC_TRAIN_START (R249; log entry 124). -/
def execDmcTrainStart (n : Fin 4) (s : State) : Host.Outcome State Fault Refusal := next (dmcTrainStart n.val) s

/-- The ranks fitted on channel `n`. -/
def State.fitted (s : State) (n : Nat) : List Nat := List.range (s.fget (pDmc n) Reg.DMC_CFG 0 2)

/-- The bin that training ends at and the ranks that stay in service, from the bins (bit b of each entry) at which
each fitted rank passes (*Training outcomes*). -/
def trainOutcome (maxbin : Nat) (ranks : List (Nat × Nat)) : Option (Nat × List Nat) :=
  let bins := (List.range (maxbin + 1)).reverse
  let passAll (l : List (Nat × Nat)) := bins.find? fun b => l.all fun x => natBits x.2 b 1 == 1
  match passAll ranks with
  | some b => some (b, ranks.map (·.1))
  | none =>
    let l := ranks.filter fun x => bins.any fun b => natBits x.2 b 1 == 1
    match l, passAll l with
    | [], _ => none
    | _, some b => some (b, l.map (·.1))
    | x :: _, none =>
      (bins.find? fun b => natBits x.2 b 1 == 1).map fun b => (b, (l.filter fun y => natBits y.2 b 1 == 1).map (·.1))

/-- The eight steps of training each find a window of at least 0.25 UI; widths in 1/64 UI (R249). -/
def trainSteps (w : List Nat) : Bool := w.length == 8 && w.all (16 ≤ ·)

/-- The bins that a rank passes, as a mask, from its windows by bin and step (R249). -/
def trainPass (w : List (List Nat)) : Nat := (List.range 3).foldl (fun m b => if trainSteps (w.getD b []) then m + 2 ^ b else m) 0

/-- DMC_TRAIN_END (R250): `pass0` and `pass1` tell at which bins each rank finds its windows.  The first training of a channel after a reset forms
the window; where a rank or a channel has left service since it was formed last, it is rebuilt, and event 9 is raised in every instance (R232; log
entry 124). -/
def dmcTrainEnd (n : Nat) (pass0 pass1 : Nat) (s : State) : State :=
  let pg := pDmc n
  if s.fget pg Reg.DMC_TRAIN 8 4 ≠ 1 then s else
  let maxbin := s.fget pg Reg.DMC_TRAIN 1 2
  let fit := s.fitted n
  let d := s.dmc n
  let first := !d.trained
  let spare := s.bit pg Reg.DMC_CFG 4
  let out := trainOutcome maxbin (fit.map fun r => (r, if r = 0 then pass0 else pass1))
  let ok := match out with | some (_, l) => l | none => []
  let failed := fit.filter fun r => !ok.contains r
  let s := s.errCntBy pg 3 failed.length
  let st (r : Nat) : Nat :=
    if !fit.contains r then 0 else if !ok.contains r then 3
    else if r = 1 ∧ spare ∧ ok.contains 0 then 2 else 1
  let s := (s.setRankSt n 0 (st 0)).setRankSt n 1 (st 1)
  let slots := ([0, 1] : List Nat).filter fun r => st r == 1
  let s := s.setDmc n { d with trained := true, slots := slots, tempAt := d.temp, trainedAt := s.tb.toNat }
  let s := match out with
    | some (b, _) =>
      (s.fset pg Reg.DMC_TRAIN 4 2 b).fset pg Reg.DMC_TRAIN 8 4 (if b = maxbin ∧ failed = [] then 2 else 3)
    | none => ((s.fset pg Reg.DMC_TRAIN 8 4 4).fset pg Reg.BLK_CTRL 0 1 0).raise pg 9
  let s := (s.fset pg Reg.DMC_INIT 0 24 0).fset pg Reg.DMC_INIT 31 1 0
  let s := failed.foldl (fun s _ => s.mediaAdd 0x15 0 0 0 0 0 0) s
  let lost := s.winLost || failed != []
  let s := if !first then { s with winLost := lost }
    else
      let s := { s with winLost := false }.formWindow
      if lost then (List.range 4).foldl (fun s k => s.raise (pDmc k) 9) s else s
  s.raise pg 13

/-- DMC_TRAIN_END (R231, R249, R250; log entry 124): the windows of each rank by bin and step, in 1/64 UI. -/
def execDmcTrainEnd (n : Fin 4) (win0 win1 : List (List Nat)) (s : State) : Host.Outcome State Fault Refusal :=
  next (dmcTrainEnd n.val (trainPass win0) (trainPass win1)) s

/-- The channel's temperature has moved by TDRIFT or more since its last training (R252). -/
def State.tempDrift (s : State) (n : Nat) : Bool :=
  let d := s.dmc n
  let t := s.fget (pDmc n) Reg.DMC_TRAIN 24 8
  t ≠ 0 && d.temp.any fun e =>
    let b := mapGet (fun _ => e.2) d.tempAt e.1
    t ≤ e.2 - b || t ≤ b - e.2

/-- DMC reports at a retrain the largest shift of a trained delay from its first training, in 1/64 UI (R540). -/
def driftReport (n drift : Nat) (s : State) : State :=
  let old := s.fget pAgm (Reg.AGM_WEAR 2) 0 8
  if drift ≤ old then s else
  let thr := s.fget pAgm Reg.AGM_WTHR 16 8
  let s := (s.fset pAgm (Reg.AGM_WEAR 2) 0 8 (min drift 255)).fset pAgm (Reg.AGM_WEAR 2) 8 2 n
  if old < thr ∧ thr ≤ min drift 255 then s.raise pAgm 6 else s

/-- DMC_RETRAIN_TIMER (R252): RETRAIN hours have passed, or the temperature has drifted; `found` tells whether the
retrain finds its windows. -/
def dmcRetrain (n : Nat) (found : Bool) (drift : Nat) (s : State) : State :=
  let pg := pDmc n
  let d := s.dmc n
  let h := s.fget pg Reg.DMC_TRAIN 16 8
  if !d.trained ∨ s.anyPanic ∨ d.catchUp ≠ [] ∨ (h = 0 ∧ ¬ s.tempDrift n) then s else
  let s := if s.tempDrift n then s else s.reach (d.trainedAt + h * 3600000000000)
  let s := driftReport n drift s
  if found then s.setDmc n { d with tempAt := d.temp, trainedAt := s.tb.toNat }
  else ((s.setDmc n { d with tempAt := d.temp, trainedAt := s.tb.toNat }).errCnt pg 3).raise pg 8

/-- DMC_RETRAIN_TIMER (R249, R252, R540): the windows by rank and step, in 1/64 UI. -/
def execDmcRetrainTimer (n : Fin 4) (wins : List (List Nat)) (drift : Nat) (s : State) : Host.Outcome State Fault Refusal :=
  next (dmcRetrain n.val (wins.all trainSteps) drift) s

/-- Zero data with valid check bits in units `p` to `q - 1` of channel `n`'s offsets (R251). -/
def State.zeroUnits (s : State) (n p q : Nat) : State :=
  let hit (a : Nat) : Bool :=
    let (c, i, r) := s.dramPlace a
    a < s.dramSize && c == n && p ≤ (i * s.rankSize n + r) / 4096 && (i * s.rankSize n + r) / 4096 < q
  { s with mem := s.mem.filter fun c => !hit c.1, dramErr := s.dramErr.filter fun e => !hit (64 * e.1) }

/-- DRAM_INITIALISATION (R251): zero data with valid check bits up to `units` more units of 4 KiB of channel offset. -/
def dramInit (n units : Nat) (s : State) : State :=
  let pg := pDmc n
  let d := s.dmc n
  if !d.trained ∨ s.bit pg Reg.DMC_INIT 31 then s else
  let old := s.fget pg Reg.DMC_INIT 0 24
  let p := old + units
  let cap := s.mappedCap n / 4096
  let s := s.zeroUnits n old (min p cap)
  if cap ≤ p then (s.fset pg Reg.DMC_INIT 0 24 cap).fset pg Reg.DMC_INIT 31 1 1 else s.fset pg Reg.DMC_INIT 0 24 p

/-- DRAM_INITIALISATION (R251). -/
def execDramInitialisation (n : Fin 4) (units : Nat) (s : State) : Host.Outcome State Fault Refusal :=
  next (dramInit n.val units) s

end Sys2Proof.Machine
end

