-- ==== Sys2Proof/Machine/Tables.lean ====
section
/-! DEFINITION. Table containers: format, code, motion and curve tables (R102 to R109, R135 to R137, R181, R182, R187,
R211, R212), their load checks, residency and eviction, and the Keeper's admission of their signers (R500). -/

namespace Sys2Proof.Machine

/-! ### The Keeper's part of check 3 -/

/-- The public key that a signer's key index names. -/
def State.signerKey (s : State) (signer idx : Nat) : Option (List Byte) :=
  if signer = 1 then some (Config.vendorKey idx) else if signer = 2 then mapFind s.kpr.intKeys idx else none

/-- The Keeper's admission of a container's signer at the present lifecycle state (R500). -/
def State.admits (s : State) (signer idx : Nat) (digest : List Byte) : Bool :=
  let k := s.kpr
  let current := signer == 1 || idx == k.intIdx
  if k.fuses.lcs = 0 ∨ k.fuses.lcs = 4 then false
  else if k.admitted.contains digest then true
  else match k.fuses.lcs with
    | 1 => signer == 1
    | 2 => current
    | _ => current && k.approved.contains digest

/-- Does the Keeper accept a signature? -/
def State.sigOk (s : State) (signer idx : Nat) (digest r sg : List Byte) : Bool :=
  match s.signerKey signer idx with
  | some k => Config.ecdsaVerify k digest r sg
  | none => false

/-! ### Container fields -/

/-- One directory entry (R103). -/
structure DirEntry where
  typ : Nat
  sver : Nat
  ofs : Nat
  len : Nat
deriving DecidableEq, Repr

/-- The directory of a container. -/
def directory (b : List Byte) : List DirEntry :=
  (List.range (fieldAt b 0x14 2)).map fun i =>
    let o := 0x20 + 12 * i
    ⟨fieldAt b o 2, fieldAt b (o + 2) 2, fieldAt b (o + 4) 4, fieldAt b (o + 8) 4⟩

/-- The kinds of container, by the block that loads them: MAGIC, the sections that must appear exactly once, the highest
table major (BLK_CAP0[31:24] of FMT and DCF), and whether GEN and WRITE_OK carry meaning. -/
structure TableKind where
  magic : Nat
  types : List Nat
  major : Nat
  isFormat : Bool
deriving DecidableEq, Repr

def kindOf (pg : Nat) : TableKind :=
  if pg = pFmt then ⟨0x5446_4147, [1, 2, 3, 4, 5, 6, 7, 8, 9, 10, 11], 1, true⟩
  else if pg = pDcf then ⟨0x5443_4147, [0x0101], 1, false⟩
  else if pg = pTpi then ⟨0x544D_4147, [0x0201], 1, false⟩
  else ⟨0x5643_4147, [0x0301], 1, false⟩

/-- Check 6 of R105: the directory. -/
def directoryOk (k : TableKind) (b : List Byte) : Bool :=
  let len := fieldAt b 0x0C 4
  let d := directory b
  let dirEnd := 0x20 + 12 * d.length
  dirEnd + 96 ≤ len
    && d.all (fun e => k.types.contains e.typ || 0x8000 ≤ e.typ)
    && k.types.all (fun t => (d.filter (·.typ == t)).length == 1)
    && d.all (fun e => dirEnd ≤ e.ofs && e.ofs + e.len + 96 ≤ len && e.ofs % 8 == 0 && (0x8000 ≤ e.typ || e.sver == 1))
    && (List.range d.length).all fun i => (List.range i).all fun j =>
        let x := d.getD i ⟨0, 0, 0, 0⟩
        let y := d.getD j ⟨0, 0, 0, 0⟩
        x.len == 0 || y.len == 0 || x.ofs + x.len ≤ y.ofs || y.ofs + y.len ≤ x.ofs

/-- The bytes of the section of a type. -/
def sectionOf (b : List Byte) (t : Nat) : List Byte :=
  match (directory b).find? (·.typ == t) with
  | some e => (b.drop e.ofs).take e.len
  | none => []

/-- Word `i` of a section has no bit outside `mask`. -/
def wordClear (sec : List Byte) (i mask : Nat) : Bool := (fieldAt sec (4 * i) 4 &&& (0xFFFF_FFFF - mask)) == 0

/-- Every word of a section from word `i` on is zero. -/
def restZero (sec : List Byte) (ofs : Nat) : Bool := (sec.drop ofs).all (· == 0)

/-- Masks of the defined bits of the words of the FMT-read sections and the servo section, in order (R108, R158). -/
def formatMasks (t : Nat) : List Nat :=
  match t with
  | 1 => 0x1FF :: List.replicate 16 0xFFFF_FFFF
  | 2 => [0xFFFF_FFFF]
  | 3 => [0xFFFF_FFFF, 0xFFFF_FFFF, 0xFFFF_FFFF, 0x00FF_FFFF, 0x0000_FFFF]
  | 4 => [0xFFFF_FFFF, 0xFFFF_FFFF, 0xFFFF_FFFF, 0xFFFF_FFFF, 0xFFFF_FFFF, 0xFFFF]
  | 5 => [0xFFFF, 0xFFFF, 0xFFFF_FFFF]
  | 6 => [0xFFFF_FFFF, 0xFFFF_FFFF, 0xFFFF_FFFF]
  | 7 => [0xFFFF_FFFF, 0xFFFF_FFFF, 0xFFFF_FF0F, 0xFFFF_FFFF, 0xFFFF_FFFF, 0xFFFF_00FF, 0xFFFF]
  | 10 => [0x00FF_FFFF]
  | 11 => [0xFFFF_FFFF, 0xFFFF_FFFF, 0xFFFF_FFFF, 0xFFFF, 0xFFFF_FFFF]
  | _ => []

/-- Bytes that a section of a type must at least hold. -/
def sectionMin (b : List Byte) (t : Nat) : Nat :=
  let sec := sectionOf b t
  match t with
  | 8 => 0
  | 9 => 8 + 8 * (fieldAt sec 0 1)
  | 0x0101 => 16 + 4 * fieldAt sec 8 2
  | 0x0201 => 0x10 + 96 * fieldAt sec 0 1
  | 0x0301 => 0x1040 + 16 * fieldAt sec 1 1
  | _ => 4 * (formatMasks t).length

/-- The reserved fields of the AFE nominal, speed, code, state and threshold sections are zero (R109, R187, R136, R137,
R182, R212). -/
def sectionReservedOk (t : Nat) (sec : List Byte) : Bool :=
  match t with
  | 8 => (chunks 8 sec).all fun e => fieldAt e 3 1 == 0 && natBits (fieldAt e 4 2) 12 4 == 0
  | 9 =>
    let n := fieldAt sec 0 1
    wordClear sec 0 0xFF && wordClear sec 1 0 && restZero sec (8 + 8 * n)
      && (List.range n).all fun i => wordClear sec (2 + 2 * i) 0x0FFF_FFFF && wordClear sec (3 + 2 * i) 0xFFF
  | 0x0101 =>
    let n := fieldAt sec 8 2
    wordClear sec 1 0x00FF_FFFF && wordClear sec 3 0x00FF_FFFF && restZero sec (16 + 4 * n)
      && (List.range n).all fun i => wordClear sec (4 + i) 0x01FF_FFFF
  | 0x0201 =>
    let n := fieldAt sec 0 1
    wordClear sec 0 0xFF && wordClear sec 3 0 && restZero sec (0x10 + 96 * n)
      && (List.range n).all fun i =>
        let st := (sec.drop (0x10 + 96 * i)).take 96
        wordClear st 0 0x00FF_0177 && wordClear st 3 0
          && (List.range 4).all (fun w => wordClear st (4 + 2 * w) 0xFFFF_0FFF)
          && (List.range 6).all fun a => wordClear st (12 + 2 * a) 0xFFFF
  | 0x0301 => wordClear sec 1 0x000F_0F0F && restZero sec 0x1240
  | _ =>
    let m := formatMasks t
    (List.range m.length).all (fun i => wordClear sec i (m.getD i 0)) && restZero sec (4 * m.length)

/-- Check 7 of R105: every reserved field of the container is zero. -/
def reservedOk (k : TableKind) (b : List Byte) : Bool :=
  fieldAt b 0x11 3 == 0 && natBits (fieldAt b 0x16 2) 1 15 == 0 && fieldAt b 0x1C 4 == 0
    && k.types.all fun t => sectionReservedOk t (sectionOf b t)

/-- An entry of the AFE nominal section names a half of an RW or RWS register of TFE or TDT (R109). -/
def afeEntryOk (e : List Byte) : Bool :=
  let blk := fieldAt e 2 1
  let page := fieldAt e 0 2
  let off := natBits (fieldAt e 4 2) 0 12
  match (if blk = 0x0A then blkAt pTfe else if blk = 0x0B then blkAt pTdt else none) with
  | none => false
  | some b =>
    let half : RegWord := if off % 4 = 2 then 0xFFFF_0000 else 0x0000_FFFF
    off % 2 == 0 && page < b.pages && 0x080 ≤ off
      && accMask (fldsOf b page (off / 4 * 4)) [.rw, .rws] &&& half != 0

/-- The rows and columns rules of R137 on the entries of a code section. -/
def codeEntriesOk (sec : List Byte) (n mb nb z : Nat) : Bool :=
  let es := (List.range n).map fun i =>
    let w := fieldAt sec (16 + 4 * i) 4
    (natBits w 0 8, natBits w 8 8, natBits w 16 9)
  es.all (fun e => e.1 < mb && e.2.1 < nb && e.2.2 < z)
    && (List.range (n - 1)).all (fun i =>
      let a := es.getD i (0, 0, 0)
      let b := es.getD (i + 1) (0, 0, 0)
      a.1 < b.1 || (a.1 == b.1 && a.2.1 < b.2.1))
    && (List.range mb).all (fun m => let c := (es.filter (·.1 == m)).length; 2 ≤ c && c ≤ 64)
    && (List.range nb).all fun c => es.any (·.2.1 == c)

/-- How many indexes a wait source of a motion table has (*Wait sources*). -/
def waitIndexes (src : Nat) : Nat := if src = 1 then 4 else if src = 2 ∨ src = 3 ∨ src = 7 ∨ src = 8 then 16 else 256

/-- How many targets an action of a motion table has (*Actions*): slots, PWM channels or lanes. -/
def actionTargets (kind : Nat) : Nat :=
  if kind ≤ 4 ∨ kind = 7 then 16 else if kind = 5 then 8 else if kind = 8 then 2 else 256

/-- Every field of a section lies in its stated range. -/
def sectionValuesOk (t : Nat) (sec : List Byte) : Bool :=
  let f := fieldAt sec
  match t with
  | 1 => [32, 48, 64].contains (f 0 1) && (List.range 64).all fun i => f (4 + i) 1 < 64
  | 2 => f 3 1 ≤ 1 && (f 3 1 == 1 || f 0 1 == f 1 1)
  | 5 => f 4 1 ≤ 1
  | 7 => 100 ≤ f 6 2 && f 6 2 ≤ 1500 && 2 ≤ f 8 1 % 16 && f 8 1 % 16 ≤ 8 && f 12 1 ≤ 1
      && f 13 1 % 2 == 0 && 4 ≤ f 13 1 && f 13 1 ≤ 30
  | 8 => sec.length % 8 == 0 && (chunks 8 sec).all afeEntryOk
  | 9 => 1 ≤ f 0 1 && f 0 1 ≤ 16
  | 0x0101 =>
    let z := f 0 2
    let mb := f 2 1
    let nb := f 3 1
    let n := f 8 2
    z % 32 == 0 && 32 ≤ z && z ≤ 512 && 1 ≤ mb && mb ≤ 16 && 2 ≤ nb && nb ≤ 96 && nb * z ≤ 40960
      && 1 ≤ f 4 1 && f 4 1 < nb && 1 ≤ f 5 1 && f 5 1 ≤ 16 && f 6 1 ≤ 15 && 1 ≤ n && n ≤ 1024
      && [10, 11, 12].all (fun o => 1 ≤ f o 1 && f o 1 ≤ 63) && 1 ≤ f 13 1 && f 13 1 ≤ 31 && f 14 1 ≤ 3
      && codeEntriesOk sec n mb nb z
  | 0x0201 =>
    let n := f 0 1
    1 ≤ n && (List.range 8).all (fun m => f (4 + m) 1 < n || f (4 + m) 1 == 0xFF)
      && (List.range n).all fun i =>
        let st := (sec.drop (0x10 + 96 * i)).take 96
        let g := fieldAt st
        g 0 1 % 8 ≤ 6 && g 0 1 / 16 % 8 ≤ 4 && (g 2 1 < n || g 2 1 == 0xFF)
          && (List.range (g 0 1 / 16 % 8)).all (fun w =>
            1 ≤ g (16 + 8 * w) 1 && g (16 + 8 * w) 1 ≤ 9 && g (17 + 8 * w) 1 % 16 ≤ 3 && g (19 + 8 * w) 1 < n
              && g (18 + 8 * w) 1 < waitIndexes (g (16 + 8 * w) 1))
          && (List.range (g 0 1 % 8)).all fun a => 1 ≤ g (48 + 8 * a) 1 && g (48 + 8 * a) 1 ≤ 10
            && g (49 + 8 * a) 1 < actionTargets (g (48 + 8 * a) 1)
  | 0x0301 =>
    let asc (l : List Int) : Bool := (List.range (l.length - 1)).all fun i => l.getD i 0 ≤ l.getD (i + 1) 0
    let npe := f 4 1 % 16
    let nrt := f 5 1 % 16
    let ntp := f 6 1 % 16
    let nlev := f 0 1
    let zero (o n : Nat) : Bool := ((sec.drop o).take n).all (· == 0)
    [1, 3, 7, 15].contains nlev && f 1 1 ≤ 32 && 1 ≤ f 3 1 && f 3 1 ≤ 63
      && 1 ≤ npe && npe ≤ 8 && 1 ≤ nrt && nrt ≤ 8 && 1 ≤ ntp && ntp ≤ 4
      && asc ((List.range npe).map fun i => (f (8 + 2 * i) 2 : Int))
      && asc ((List.range nrt).map fun j => (f (0x18 + 4 * j) 4 : Int))
      && asc ((List.range ntp).map fun l => signedOf 8 (f (0x38 + l) 1))
      && zero (8 + 2 * npe) (16 - 2 * npe) && zero (0x18 + 4 * nrt) (32 - 4 * nrt) && zero (0x38 + ntp) (4 - ntp)
      && (List.range 256).all (fun c => zero (0x40 + 16 * c + nlev) (16 - nlev))
      && (List.range 32).all fun r => zero (0x1040 + 16 * r + nlev) (16 - nlev)
  | _ => true

/-- Check 8 of R105: every field lies within its stated range. -/
def valuesOk (k : TableKind) (b : List Byte) : Bool :=
  (if k.isFormat then 1 ≤ fieldAt b 6 1 && fieldAt b 6 1 ≤ 3 else fieldAt b 6 1 == 0 && fieldAt b 0x16 1 % 2 == 0)
    && k.types.all fun t => sectionMin b t ≤ (sectionOf b t).length && sectionValuesOk t (sectionOf b t)

/-- The digest over which a container's signature is taken. -/
def containerDigest (b : List Byte) : List Byte := sha384 (b.take (b.length - 96))

/-- The first check of *Table load checks* that fails, as its STATUS; 2 where none does. -/
def State.loadStatus (s : State) (k : TableKind) (b : List Byte) : Nat :=
  let len := fieldAt b 0x0C 4
  if fieldAt b 0 4 ≠ k.magic ∨ fieldAt b 7 1 ≠ 1 then 3
  else if len % 8 ≠ 0 ∨ len < 256 ∨ 65536 < len then 3
  else
    let dg := containerDigest b
    let signer := fieldAt b 0x18 1
    let idx := fieldAt b 0x19 3
    if !(s.sigOk signer idx dg ((b.drop (len - 96)).take 48) ((b.drop (len - 48)).take 48) && s.admits signer idx dg) then 4
    else if fieldAt b 0x10 1 < s.kpr.fuses.secEpoch then 5
    else if k.major < fieldAt b 0x0A 2 then 6
    else if !directoryOk k b then 8
    else if !reservedOk k b then 9
    else if !valuesOk k b then 0xA
    else 2

/-- The resident table that a container makes. -/
def tableOf (k : TableKind) (b : List Byte) : Table where
  id := fieldAt b 4 2
  gen := fieldAt b 6 1
  writeOk := fieldAt b 0x16 1 % 2 == 1
  major := fieldAt b 0x0A 2
  minor := fieldAt b 0x08 2
  secEpoch := fieldAt b 0x10 1
  digest := containerDigest b
  secs := k.types.map fun t => (t, sectionOf b t)

/-! ### Residency -/

def tableKey (pg slot : Nat) : Nat := pg * 32 + slot

/-- The table in a slot. -/
def State.table (s : State) (pg slot : Nat) : Option Table := mapFind s.tables (tableKey pg slot)

/-- A section of the table in a slot. -/
def State.tsec (s : State) (pg slot t : Nat) : List Byte :=
  match s.table pg slot with
  | some x => (mapFind x.secs t).getD []
  | none => []

/-- Show a slot's table in its identity registers. -/
def State.showSlot (s : State) (pg slot : Nat) : State :=
  let (id, ver) := match s.table pg slot with
    | some t => (t.id + (if pg = pFmt then t.gen * 2 ^ 16 + (if t.writeOk then 2 ^ 25 else 0) else 0) + 2 ^ 24, t.minor + t.major * 2 ^ 16)
    | none => (0, 0)
  let w : RegWord := BitVec.ofNat 32 id
  if pg = pFmt then (s.rset pg (Reg.FMT_SLOTID slot) w).rset pg (Reg.FMT_SLOTVER slot) (BitVec.ofNat 32 ver)
  else if pg = pDcf then (s.rset pg (Reg.DCF_SLOTID slot) w).rset pg (Reg.DCF_SLOTVER slot) (BitVec.ofNat 32 ver)
  else if pg = pTpi then s.rset pg Reg.TPI_MOTID w
  else s.rset pg (Reg.FTM_CURVEID slot) w

/-- A table becomes resident in a slot (R105; log entry 29). -/
def State.putTable (s : State) (pg slot : Nat) (t : Table) : State :=
  { s with tables := mapPut s.tables (tableKey pg slot) t }.showSlot pg slot

/-- Empty a slot. -/
def State.dropTable (s : State) (pg slot : Nat) : State :=
  { s with tables := mapDel s.tables (tableKey pg slot) }.showSlot pg slot

/-- Is slot `slot` named in a value of FMT_WFMT or FMT_RFMT? -/
def fmtNames (w r : RegWord) (slot : Nat) : Bool :=
  (bitsOf w 7 1 == 1 && bitsOf w 0 3 == slot)
    || (List.range 3).any fun i => bitsOf r (4 * i + 3) 1 == 1 && bitsOf r (4 * i) 3 == slot

/-- Die `d` is live: present and not mapped out (chapter 8). -/
def State.dieLive (s : State) (d : Nat) : Bool :=
  s.bit (pFtm + 1) (Reg.FTM_DIE d) 0 && !s.bit (pFtm + 1) (Reg.FTM_DIE d) 1

/-- The slot is in use, in the sense of R106, R139, R181, R211 and R503. -/
def State.slotInUse (s : State) (pg slot : Nat) : Bool :=
  if pg = pFmt then
    fmtNames (s.rg pg Reg.FMT_WFMT) (s.rg pg Reg.FMT_RFMT) slot || fmtNames (s.shadow pg Reg.FMT_WFMT) (s.shadow pg Reg.FMT_RFMT) slot
  else if pg = pDcf then bitsOf (s.rg pg Reg.DCF_SLOT_EN) slot 1 == 1 || bitsOf (s.shadow pg Reg.DCF_SLOT_EN) slot 1 == 1
  else if pg = pTpi then s.bit pg Reg.TPI_STAT 11
  else (List.range 512).any fun d => s.dieLive d && s.fget (pFtm + 1) (Reg.FTM_DIE d) 5 2 == slot

/-- The load registers of a block: address low word, load register, and the width of its SLOT field. -/
def loadRegs (pg : Nat) : Nat × Nat × Nat :=
  if pg = pFmt then (Reg.FMT_LOAD_LO, Reg.FMT_LOAD, 3)
  else if pg = pDcf then (Reg.DCF_LOAD_LO, Reg.DCF_LOAD, 4)
  else if pg = pTpi then (Reg.TPI_LOAD_LO, Reg.TPI_LOAD, 0)
  else (Reg.FTM_LOAD_LO, Reg.FTM_LOAD, 2)

/-- The slot that the load register names. -/
def State.loadSlot (s : State) (pg : Nat) : Nat := s.fget pg (loadRegs pg).2.1 0 (loadRegs pg).2.2

def State.loadStat (s : State) (pg : Nat) : Nat := s.fget pg (loadRegs pg).2.1 16 4

def State.setLoadStat (s : State) (pg v : Nat) : State := s.fset pg (loadRegs pg).2.1 16 4 v

/-- The event that a block raises when a load ends. -/
def loadEvent (pg : Nat) : Nat := if pg = pTpi then 13 else 4

/-- Writing START (R105, R107): the container is read into the load buffer, each burst once; its first bursts give its length. -/
def State.loadStart (s : State) (pg : Nat) : State :=
  if s.loadStat pg = 1 ∨ !s.intake pg then s else
  let a := s.rg64 pg (loadRegs pg).1
  let first := 64 - a % 64
  let (s, b) := match s.busRead a (if first < 16 then first + 64 else first) with
    | (s, some h) =>
      let len := fieldAt h 0x0C 4
      if 256 ≤ len ∧ len ≤ 65536 then
        match s.busRead (a + h.length) (len - h.length) with
        | (s, some r) => (s, some (h ++ r))
        | (s, none) => (s, none)
      else (s, some h)
    | (s, none) => (s, none)
  ({ s with tloads := mapPut s.tloads pg ⟨s.loadSlot pg, a, b, s.epoch pg⟩ }.setLoadStat pg 1).accept pg

/-- Writing EVICT (R106, R107, R139, R211); `busy` tells that a codeword accepted in DCF uses the slot. -/
def State.evict (s : State) (pg : Nat) (busy : Bool) : State :=
  if s.loadStat pg = 1 ∨ !s.enabled pg then s else
  let slot := s.loadSlot pg
  let s := if s.slotInUse pg slot || busy then s.setLoadStat pg 7 else (s.dropTable pg slot).setLoadStat pg 2
  if pg = pFmt then s else s.raise pg 4

/-- The copy that a load has read: where a byte of the container has changed since START, the old or the new value. -/
def State.loadedCopy (s : State) (a : Nat) (b : List Byte) : List Byte :=
  (List.range b.length).map fun i =>
    let old := b.getD i 0
    let new := memGet s.mem (a + i)
    if old ≠ new ∧ Config.loadReadsNew s.free i then new else old

/-- A table load ends (R105): a slot in use gives STATUS 0x7 ahead of checks 1 to 8 (log entry 143); the first failing check gives the status and leaves the slot as it was; otherwise the
copy is installed, its digest stays admitted, and in Owned the install is journalled (R500; log entry 29). -/
def State.loadEnd (s : State) (pg : Nat) : State :=
  match mapFind s.tloads pg with
  | none => s
  | some l =>
    let s := { s with tloads := mapDel s.tloads pg }
    let s := s.endJob pg l.epoch
    match l.copy with
    | none => (s.setLoadStat pg 0xB).raise pg (loadEvent pg)
    | some b0 =>
      let b := s.loadedCopy l.addr b0
      let s := s.bump
      if s.slotInUse pg l.slot then (s.setLoadStat pg 7).raise pg (loadEvent pg) else
      let k := kindOf pg
      let st := s.loadStatus k b
      let s := s.setLoadStat pg st
      if st = 2 then
        let t := tableOf k b
        let s := s.putTable pg l.slot t
        let kp := s.kpr
        let item : JItem := ⟨0x0004, fieldAt b 0x18 1,
          leBytes 4 k.magic ++ leBytes 2 t.id ++ leBytes 1 t.major ++ leBytes 1 t.minor ++ t.digest.take 8, .none_, 3, 0⟩
        let s := { s with kpr := { kp with
          admitted := if kp.admitted.contains t.digest then kp.admitted else t.digest :: kp.admitted
          queue := kp.queue ++ [item] } }
        s.raise pg (loadEvent pg)
      else (if st = 4 then s.errCnt pKpr 3 else s).raise pg (loadEvent pg)

end Sys2Proof.Machine
end

