-- ==== Sys2Proof/Machine/Fabric.lean ====
section
/-! DEFINITION. The decoder fabric (chapter 5): decoding, class queues, reservation and dispatch. -/

namespace Sys2Proof.Machine

/-! ### Codes (R136, R137) -/

/-- A code, as its code section gives it. -/
structure Code where
  z : Nat
  mb : Nat
  nb : Nat
  kb : Nat
  alpha : Nat
  beta : Nat
  iters : List Nat
  hardMag : Nat
  llr3Shift : Nat
  /-- the entries of each row: column and shift -/
  rows : List (List (Nat × Nat))
deriving DecidableEq, Repr

/-- The code of a code section. -/
def codeOf (sec : List Byte) : Code :=
  let f := fieldAt sec
  let es := (List.range (f 8 2)).map fun i =>
    let w := f (16 + 4 * i) 4
    (natBits w 0 8, natBits w 8 8, natBits w 16 9)
  { z := f 0 2, mb := f 2 1, nb := f 3 1, kb := f 4 1, alpha := f 5 1, beta := f 6 1
    iters := [f 10 1, f 11 1, f 12 1], hardMag := f 13 1, llr3Shift := f 14 1
    rows := (List.range (f 2 1)).map fun m => (es.filter (·.1 == m)).map (·.2) }

/-- Coded bits. -/
def Code.n (c : Code) : Nat := c.nb * c.z

/-- CLK_FAB cycles of one iteration (R131). -/
def Code.iterTime (c : Code) : Nat := ceilDiv c.n 24

/-- The coded bits of check row r of layer `row`. -/
def checkBits (z : Nat) (row : List (Nat × Nat)) (r : Nat) : List Nat := row.map fun e => e.1 * z + (r + e.2) % z

/-- The unsatisfied checks of the hard decisions of L (R132, R143). -/
def Code.syndromeWeight (c : Code) (l : Array Int) : Nat :=
  c.rows.foldl (fun n row => (List.range c.z).foldl (fun n r =>
    n + ((checkBits c.z row r).foldl (fun p i => p + (if l.getD i 0 < 0 then 1 else 0)) 0) % 2) n) 0

/-- Saturate at ±127 and at ±31. -/
def sat8 (v : Int) : Int := clampI v (-127) 127
def sat6 (v : Int) : Int := clampI v (-31) 31

/-- The new message to bit `k` of a check from the other bits' values (R132). -/
def checkMessage (alpha beta : Nat) (q : List Int) (k : Nat) : Int :=
  let others := (q.take k) ++ (q.drop (k + 1))
  let mag := others.foldl (fun m v => min m (Int.natAbs v)) 127
  let neg := (others.filter (· < 0)).length % 2 == 1
  let v := ((alpha * mag + 8) / 16 : Nat) - (beta : Int)
  sat6 ((if neg then -1 else 1) * max v 0)

/-- One check row of a layer: `base` is the place of its first message among the messages (log entry 37). -/
def checkUpdate (c : Code) (lr : Array Int × Array Int) (bits : List Nat) (base : Nat) : Array Int × Array Int :=
  let deg := bits.length
  let q := (List.range deg).map fun k => sat8 (lr.1.getD (bits.getD k 0) 0 - lr.2.getD (base + k) 0)
  (List.range deg).foldl (fun lr k =>
    let m := checkMessage c.alpha c.beta q k
    (lr.1.setIfInBounds (bits.getD k 0) (sat8 (q.getD k 0 + m)), lr.2.setIfInBounds (base + k) m)) lr

/-- One iteration: the layers in ascending order; messages lie 64 to a check row. -/
def Code.iterate (c : Code) (lr : Array Int × Array Int) : Array Int × Array Int :=
  (List.range c.mb).foldl (fun lr m =>
    let row := c.rows.getD m []
    (List.range c.z).foldl (fun lr r => checkUpdate c lr (checkBits c.z row r) ((m * c.z + r) * 64)) lr) lr

/-- The decoding loop of R132 from iteration `it`: STATUS, iterations and L.  `stop it` tells that the next iteration would
end after the deadline. -/
def Code.decodeN (c : Code) (stop : Nat → Bool) (limit : Nat) : Nat → Nat → Array Int × Array Int → Nat × Nat × Array Int
  | 0, it, lr => (1, it, lr.1)
  | fuel + 1, it, lr =>
    if c.syndromeWeight lr.1 = 0 then (0, it, lr.1)
    else if it = limit then (1, it, lr.1)
    else if stop it then (2, it, lr.1)
    else c.decodeN stop limit fuel (it + 1) (c.iterate lr)

/-- Decode L values: STATUS, iterations and the final L. -/
def Code.decode (c : Code) (limit : Nat) (stop : Nat → Bool) (l : List Int) : Nat × Nat × Array Int :=
  c.decodeN stop limit (limit + 1) 0 (l.toArray, Array.replicate (c.mb * c.z * 64) 0)

/-- Bits to bytes, bit i at bit (i mod 8) of byte i div 8 (R134). -/
def bitsToBytes : Nat → List Bool → List Byte
  | 0, _ => []
  | n + 1, b =>
    BitVec.ofNat 8 ((List.range 8).foldl (fun v i => if b.getD i false then v + 2 ^ i else v) 0) :: bitsToBytes n (b.drop 8)

/-- The bits of bytes in that order (log entry 32). -/
def bytesToBits (b : List Byte) : List Bool := b.flatMap fun x => (List.range 8).map fun i => x.toNat.testBit i

/-- What a codeword ends in (R143): STATUS, iterations, syndrome weight, flips and the information bytes. -/
structure CwResult where
  status : Nat
  iter : Nat
  synw : Nat
  flips : Nat
  out : List Byte
deriving DecidableEq, Repr

/-- A result without a decode. -/
def CwResult.bare (status : Nat) : CwResult := ⟨status, 0, 0, 0, []⟩

/-- The result of decoding `l`. -/
def Code.result (c : Code) (limit : Nat) (stop : Nat → Bool) (l : List Int) : CwResult :=
  let (st, it, o) := c.decode limit stop l
  let k := c.kb * c.z
  let hard := (List.range k).map fun i => decide (o.getD i 0 < 0)
  let flips := ((List.range k).filter fun i => decide (o.getD i 0 < 0) != decide (l.getD i 0 < 0)).length
  ⟨st, it, min 65535 (c.syndromeWeight o), min 65535 flips, bitsToBytes (k / 8) hard⟩

/-- A value of an input format converted to L (R142); a decided 1 of the HARD format is a negative value. -/
def Code.toL (c : Code) (fmt : Nat) (v : Int) : Int :=
  if fmt = 0 then max v (-31) else if fmt = 1 then (if v < 0 then -(c.hardMag : Int) else (c.hardMag : Int))
  else max v (-3) * (2 ^ c.llr3Shift : Nat)

/-- Input L values from packed bytes (R142; log entry 37). -/
def Code.unpack (c : Code) (fmt : Nat) (b : List Byte) : List Int :=
  let v := leNat b
  (List.range c.n).map fun i => c.toL fmt
    (if fmt = 0 then signedOf 6 (natBits v (6 * i) 6) else if fmt = 1 then -(natBits v i 1 : Int) else signedOf 3 (natBits v (3 * i) 3))

/-- Bytes of the packed input. -/
def Code.inBytes (c : Code) (fmt : Nat) : Nat := ceilDiv (c.n * (if fmt = 0 then 6 else if fmt = 1 then 1 else 3)) 8

/-! ### The fabric's state -/

def State.dcf (s : State) : Dcf := s.tape.dcf

def State.setDcf (s : State) (d : Dcf) : State := { s with tape := { s.tape with dcf := d } }

/-- A base address of FTM held in a pair of registers (bits [31:16] and [47:32]). -/
def State.ftmBase (s : State) (off : Nat) : Nat := s.rg64 pFtm off % 2 ^ 48 / 65536 * 65536

/-- Slots of the overflow area: each 4 KiB. -/
def State.ovfSlots (s : State) : Nat := s.fget pFtm Reg.FTM_OVF_HI 16 16 * 256

/-- Is `a` an address of the overflow area (R209)? -/
def State.inOvf (s : State) (a : Nat) : Bool :=
  s.ftmBase Reg.FTM_OVF_LO ≤ a && a < s.ftmBase Reg.FTM_OVF_LO + 4096 * s.ovfSlots

/-- Outputs for the overflow area move from the output stage into the buffer of port 3 while it has room (R240). -/
def State.ovfFeed (s : State) : Nat → State
  | 0 => s
  | n + 1 =>
    match s.dcf.outq with
    | (a, b) :: q =>
      if s.rtSize 3 < s.rtFillOf 3 + b.length then s
      else ((s.setDcf { s.dcf with outq := q }).rtPut 3 a b).1.ovfFeed n
    | [] => s

/-- A tile's output goes to OUT_ADDR: into the overflow area through port 3, behind what waits for it (R18, R238, R240). -/
def State.cwOut (s : State) (a : Nat) (b : List Byte) : State × Bool :=
  if !s.inOvf a then s.busWrite a b
  else if !s.dcf.outq.isEmpty then (s.setDcf { s.dcf with outq := s.dcf.outq ++ [(a, b)] }, true)
  else match s.rtPut 3 a b with
    | (s, true) => (s, true)
    | (s, false) => (s.setDcf { s.dcf with outq := [(a, b)] }, true)

/-- The enabled slot that holds a CODE_ID under the active enables. -/
def State.codeSlot (s : State) (id : Nat) : Option Nat :=
  (List.range 16).find? fun k => s.bit pDcf Reg.DCF_SLOT_EN k && (s.table pDcf k).any (·.id == id)

/-- The code in a slot. -/
def State.code (s : State) (slot : Nat) : Code := codeOf (s.tsec pDcf slot 0x0101)

/-- The version of the table in a slot. -/
def State.codeVer (s : State) (slot : Nat) : Nat := ((s.table pDcf slot).map fun t => t.major * 65536 + t.minor).getD 0

/-- A codeword accepted in the fabric uses slot `k` (R139). -/
def State.codeBusy (s : State) (k : Nat) : Bool :=
  let d := s.dcf
  (d.qT ++ d.qH ++ d.qB).any (·.slot == k) || d.tiles.any (·.2.cw.slot == k)

/-- Enabled tiles. -/
def State.tilesOn (s : State) : List Nat :=
  (List.range 48).filter fun i => if i < 32 then s.bit pDcf Reg.DCF_TILE_EN0 i else s.bit pDcf Reg.DCF_TILE_EN1 (i - 32)

/-- The reservation is active (R146). -/
def State.reserved (s : State) : Bool :=
  (s.bit pDcf Reg.DCF_CTRL 0 && (s.bit pFmt Reg.FMT_STAT 0 || s.bit pFmt Reg.FMT_STAT 1)) || s.bit pDcf Reg.DCF_CTRL 1

def State.resShort (s : State) : Bool := s.reserved && s.tilesOn.length < s.fget pDcf Reg.DCF_TRES 0 6 + 1

/-- How many tiles may decode class H or B (R146 to R148). -/
def State.hbLimit (s : State) : Nat :=
  let e := s.tilesOn.length
  if s.resShort then 0 else if s.reserved then e - s.fget pDcf Reg.DCF_TRES 0 6 else e

/-- The reservation follows its conditions: DCF_STAT shows it, and RES_SHORT raises event 8 when it is set. -/
def State.resCheck (s : State) : State :=
  let was := s.bit pDcf Reg.DCF_STAT 1
  let s := (s.fset pDcf Reg.DCF_STAT 0 1 (if s.reserved then 1 else 0)).fset pDcf Reg.DCF_STAT 1 1 (if s.resShort then 1 else 0)
  if s.resShort && !was then s.raise pDcf 8 else s

/-- Tiles that decode class T, and class H or B. -/
def State.tRun (s : State) : Nat := (s.dcf.tiles.filter (·.2.cw.req.cls == 0)).length
def State.hbRun (s : State) : Nat := (s.dcf.tiles.filter (·.2.cw.req.cls != 0)).length

/-- DCF_TILE_BUSY, DCF_STAT and DCF_QLEVEL show the fabric. -/
def State.showDcf (s : State) : State :=
  let d := s.dcf
  let mask (lo : Nat) := d.tiles.foldl (fun m t => if lo ≤ t.1 ∧ t.1 < lo + 32 then m + 2 ^ (t.1 - lo) else m) 0
  let s := (s.rset pDcf Reg.DCF_TILE_BUSY0 (BitVec.ofNat 32 (mask 0))).rset pDcf Reg.DCF_TILE_BUSY1 (BitVec.ofNat 32 (mask 32))
  let s := (s.fset pDcf Reg.DCF_STAT 8 6 s.hbRun).fset pDcf Reg.DCF_STAT 16 6 s.tRun
  s.rset pDcf Reg.DCF_QLEVEL (BitVec.ofNat 32 (d.qT.length + d.qH.length * 2 ^ 10 + d.qB.length * 2 ^ 21))

/-- A codeword that has been accepted ends with `r`: its counts, its job and the longest class-T latency (R149). -/
def State.cwCount (s : State) (w : Codeword) (r : CwResult) : State :=
  let c := w.req.cls
  let s := s.cntWrap pDcf (Reg.DCF_IT c) 0 32 r.iter
  let s := match r.status with
    | 1 => s.errCnt pDcf (if c = 0 then 1 else 2)
    | 2 => (s.errCnt pDcf 0).raise pDcf 5
    | 5 => s.errCnt pDcf 3
    | 6 => s.errCnt pDcf 3
    | _ => s
  let lat := ceilDiv (s.tb.toNat - w.at_) 250
  let s := if c = 0 ∧ s.fget pDcf Reg.DCF_LAT_T 0 16 < lat then s.fset pDcf Reg.DCF_LAT_T 0 16 (min lat 65535) else s
  s.endJob pDcf w.epoch

/-- A codeword ended at once or later: the request and its result. -/
abbrev Ended := CwReq × CwResult

/-- The queue of a class is full (R144). -/
def Dcf.full (d : Dcf) (cls : Nat) : Bool :=
  match cls with
  | 0 => 512 ≤ d.qT.length
  | 1 => 1024 ≤ d.qH.length
  | _ => 512 ≤ d.qB.length

/-- A codeword at the end of its class queue. -/
def Dcf.put (d : Dcf) (w : Codeword) : Dcf :=
  match w.req.cls with
  | 0 => { d with qT := d.qT ++ [w] }
  | 1 => { d with qH := d.qH ++ [w] }
  | _ => { d with qB := d.qB ++ [w] }

/-- The enabled slot that serves a request: it holds the CODE_ID at CODE_VER or above (R140). -/
def State.codeFor (s : State) (r : CwReq) : Option Nat := (s.codeSlot r.codeId).filter fun k => r.ver ≤ s.codeVer k

/-- A codeword request comes to its class queue (R140, R144): none, with the request kept waiting, where class H or B is full; otherwise the
state and the result, if it ends at once.  It is accepted and counted before its code is resolved (R149, R150; log entry 36). -/
def State.cwRequest (s : State) (r : CwReq) : Option (State × Option Ended) :=
  if s.dcf.full r.cls then
    if r.cls = 0 then some (((s.errCnt pDcf 0).raise pDcf 7), some (r, .bare 4)) else none
  else
    let s := s.cntWrap pDcf (Reg.DCF_CW r.cls) 0 32 1
    match s.codeFor r with
    | none => some (((s.errCnt pDcf 3).raise pDcf 6), some (r, .bare 3))
    | some k =>
      let now := s.tb.toNat
      let w : Codeword := ⟨r, k, s.epoch pDcf, now, now + s.fget pDcf Reg.DCF_TDEAD 0 12 * 250⟩
      some (((s.setDcf (s.dcf.put w)).accept pDcf).showDcf, none)

/-- A queued class-T codeword at the head ends with STATUS 2 (R145). -/
def State.cwExpire (s : State) : State × Option Ended :=
  match s.dcf.qT with
  | w :: r => (((s.setDcf { s.dcf with qT := r }).cwCount w (.bare 2)).showDcf, some (w.req, .bare 2))
  | [] => (s, none)

/-- Drop every class-T head entry whose deadline has passed. -/
def State.cwExpireAll : Nat → State → State × List Ended
  | 0, s => (s, [])
  | n + 1, s =>
    match s.dcf.qT with
    | w :: _ =>
      if w.deadline ≤ s.tb.toNat then
        let (s, e) := s.cwExpire
        let (s, es) := State.cwExpireAll n s
        (s, e.toList ++ es)
      else (s, [])
    | [] => (s, [])

/-- The lowest free enabled tile. -/
def State.freeTile (s : State) : Option Nat := s.tilesOn.find? fun i => (mapFind s.dcf.tiles i).isNone

/-- The codeword that a free tile takes by R147, and the fabric without it. -/
def State.cwPick (s : State) : Option (Codeword × Dcf) :=
  let d := s.dcf
  match d.qT with
  | w :: r => some (w, { d with qT := r })
  | [] =>
    if s.hbRun < s.hbLimit then
      match (if s.pausedB pDcf then [] else d.qB), d.qH with
      | w :: r, qH =>
        if s.fget pDcf Reg.DCF_SCHED 0 5 ≤ d.bWait ∨ qH.isEmpty then some (w, { d with qB := r, bWait := 0 })
        else match qH with
          | h :: q => some (h, { d with qH := q, bWait := d.bWait + 1 })
          | [] => none
      | [], h :: q => some (h, { d with qH := q })
      | [], [] => none
    else none

/-- A free tile takes the next codeword and reads its input; an input that cannot be read ends it with STATUS 5. -/
def State.cwDispatch (s : State) : State × List Ended :=
  let (s, dead) := State.cwExpireAll s.dcf.qT.length s
  match s.freeTile, s.cwPick with
  | some t, some (w, d) =>
    let s := s.setDcf d
    let c := s.code w.slot
    if w.req.input.isEmpty then
      match s.busRead w.req.inAddr (c.inBytes w.req.fmt) with
      | (s, some b) =>
        let x : Tile := ⟨w, c.unpack w.req.fmt b, s.tb.toNat⟩
        ((s.setDcf { s.dcf with tiles := mapPut s.dcf.tiles t x }).showDcf, dead)
      | (s, none) => ((s.cwCount w (.bare 5)).showDcf, dead ++ [(w.req, .bare 5)])
    else
      let x : Tile := ⟨w, w.req.input.map (c.toL w.req.fmt), s.tb.toNat⟩
      ((s.setDcf { s.dcf with tiles := mapPut s.dcf.tiles t x }).showDcf, dead)
  | _, _ => (s, dead)

/-- The command whose work a codeword is: the work tag of a flash request; 65536 for any other. -/
def CwReq.cmdTag (r : CwReq) : Nat :=
  match r.owner with
  | .flash _ => r.tag
  | _ => 65536

/-- A codeword of `bits` coded bits that took `it` iterations counts bits × max(it, 1) in this metering interval (R534, R535). -/
def State.meterCw (s : State) (r : CwReq) (bits it : Nat) : State :=
  { s with power := { s.power with cwWork := mapUpd (fun _ => 0) s.power.cwWork r.cmdTag (· + bits * max 1 it) } }

/-- A tile ends its codeword (R132 to R134, R143). -/
def State.cwEnd (s : State) (t : Nat) : State × List Ended :=
  match mapFind s.dcf.tiles t with
  | none => (s, [])
  | some x =>
    let c := s.code x.cw.slot
    let w := x.cw
    let stop : Nat → Bool := fun it => w.req.cls == 0 && w.deadline < x.start + (it + 1) * c.iterTime
    let r := c.result (c.iters.getD w.req.cls 1) stop x.l
    let s := s.reach (x.start + r.iter * c.iterTime)
    let s := s.setDcf { s.dcf with tiles := mapDel s.dcf.tiles t }
    let (s, ok) := if w.req.wr then s.cwOut w.req.outAddr r.out else (s, true)
    let r := if ok then r else { r with status := 6 }
    (((s.cwCount w r).meterCw w.req c.n r.iter).showDcf, [(w.req, r)])

/-- A result as R143 lays it out. -/
def resultBytes (tag : Nat) (r : CwResult) : List Byte :=
  leBytes 2 tag ++ leBytes 1 r.status ++ leBytes 1 r.iter ++ leBytes 2 r.synw ++ leBytes 2 r.flips

/-- *Status mapping* (R143): the status class that the requester gives a result. -/
def CwResult.cls (r : CwResult) : Nat :=
  match r.status with
  | 0 => if r.flips = 0 then 0x00 else 0x01
  | 1 => 0x40
  | 2 => 0x40
  | 4 => 0x40
  | 3 => 0x10
  | _ => 0x70

/-- Block soft reset of DCF (R41, R150): every accepted codeword ends with STATUS 7, and no table is left. -/
def State.dcfReset (s : State) : State × List Ended :=
  let d := s.dcf
  let all := d.qT ++ d.qH ++ d.qB ++ d.tiles.map (·.2.cw)
  let s := (List.range 16).foldl (fun s k => s.dropTable pDcf k) s
  ((s.setDcf { Dcf.init with want := d.want, outq := d.outq }).showDcf, all.map fun w => (w.req, .bare 7))

end Sys2Proof.Machine
end

