-- ==== Sys2Proof/Machine/Signal.lean ====
section
/-! DEFINITION. The tape signal path (chapter 3): adaptation, timing, joint detection, dropout, lock, coarse moves and
re-detection. -/

namespace Sys2Proof.Machine

/-! ### State access -/

/-- Register page of TFE channel `n`. -/
def pCh (n : Nat) : Nat := pTfe + 1 + n

def State.chan (s : State) (n : Nat) : Chan := mapGet (fun _ => Chan.init) s.tape.chans n

def State.setChan (s : State) (n : Nat) (c : Chan) : State :=
  { s with tape := { s.tape with chans := mapSet (fun _ => Chan.init) s.tape.chans n c } }

def State.cpl (s : State) (t : Nat) : Coupling := mapGet (fun _ => Coupling.init) s.tape.cpl t

def State.setCpl (s : State) (t : Nat) (c : Coupling) : State :=
  { s with tape := { s.tape with cpl := mapSet (fun _ => Coupling.init) s.tape.cpl t c } }

/-- A setting of TFE in force for the open band pass (R74). -/
def State.tfeF (s : State) (page off lo len : Nat) : Nat :=
  match s.tape.pass with
  | some p => s.setf pTfe p.tfe page off lo len
  | none => s.fget page off lo len

/-- A setting of TDT likewise. -/
def State.tdtF (s : State) (page off lo len : Nat) : Nat :=
  match s.tape.pass with
  | some p => s.setf pTdt p.tdt page off lo len
  | none => s.fget page off lo len

/-- Tracks in use. -/
def State.ntrk (s : State) : Nat := s.tdtF pTdt Reg.TDT_CTRL 8 7

/-- The input that logical track `t` names; none where it is not read (R98, R99). -/
def State.inputOf (s : State) (t : Nat) : Option Nat :=
  if t < s.ntrk ∧ s.tdtF (pTdt + 3) (Reg.TDT_MAP t) 8 1 = 1 then some (s.tdtF (pTdt + 3) (Reg.TDT_MAP t) 0 7) else none

def State.chEn (s : State) (n : Nat) : Bool := s.tfeF (pCh n) Reg.CH_CFG 0 1 == 1

def State.tim (s : State) (n w lo len : Nat) : Nat := s.fget (pTdt + 1) (Reg.TDT_TIM n w) lo len

def State.setTim (s : State) (n w lo len v : Nat) : State := s.fset (pTdt + 1) (Reg.TDT_TIM n w) lo len v

/-- LOCK of input `n`: servo inputs read 1 while enabled (R75). -/
def State.locked (s : State) (n : Nat) : Bool := if 66 ≤ n then s.chEn n else s.tim n 8 0 1 == 1

def State.dropped (s : State) (n : Nat) : Bool := s.bit (pCh n) Reg.CH_STAT 0

def State.dead (s : State) (t : Nat) : Bool := s.bit pTdt (Reg.TDT_DEAD (t / 32)) (t % 32)

/-- The condition of R66. -/
def State.rateErr (s : State) : Bool :=
  8 * s.tfeF pTfe Reg.TFE_SRATE 0 12 < 9 * s.tdtF pTdt Reg.TDT_NOMRATE 0 12

/-- The level of TRK_ELSEL: high while the inputs carry the verify elements (R67). -/
def State.trkElsel (s : State) : Bool := s.tfeF pTfe Reg.TFE_CTRL 0 2 == 2

/-! ### Values with 24 fractional bits (R68) -/

/-- Adapted values: digital gain, offset, asymmetry, tap i. -/
def State.gVal (s : State) (n : Nat) : Int := (s.fget (pCh n) Reg.CH_DGAIN 0 16 * 2 ^ 10 + (s.chan n).gF : Nat)
def State.oVal (s : State) (n : Nat) : Int := signedOf 16 (s.fget (pCh n) Reg.CH_OFS 0 16) * 2 ^ 16 + (s.chan n).oF
def State.aVal (s : State) (n : Nat) : Int := signedOf 16 (s.fget (pCh n) Reg.CH_ASYM 0 16) * 4 + (s.chan n).aF
def State.cVal (s : State) (n k : Nat) : Int :=
  signedOf 16 (s.fget (pCh n) (Reg.CH_FIR (k / 2)) (16 * (k % 2)) 16) * 2 ^ 10 + mapGet (fun _ => 0) (s.chan n).cF k
def State.fVal (s : State) (n : Nat) : Int := signedOf 24 (s.tim n 4 0 24)
def State.phVal (s : State) (n : Nat) : Nat := s.tim n 0 0 6 * 2 ^ 18 + (s.chan n).phF
def State.sgVal (s : State) (n : Nat) : Nat := s.tim n 0xC 0 20 * 2 ^ 20 + (s.chan n).sgF

def State.putG (s : State) (n : Nat) (v : Int) : State :=
  let lo : Int := 2 ^ 23
  let hi : Int := 2 ^ 25
  let w := (clampI v lo hi).toNat
  let s := if v ≤ lo ∨ hi ≤ v then s.fset (pCh n) Reg.CH_STAT 5 1 1 else s
  (s.fset (pCh n) Reg.CH_DGAIN 0 16 (w / 2 ^ 10)).setChan n { s.chan n with gF := w % 2 ^ 10 }

def State.putO (s : State) (n : Nat) (v : Int) : State :=
  let w := satS 32 v
  (s.fset (pCh n) Reg.CH_OFS 0 16 (unsignedOf 16 (Int.fdiv w (2 ^ 16)))).setChan n { s.chan n with oF := (w % 2 ^ 16).toNat }

def State.putA (s : State) (n : Nat) (v : Int) : State :=
  let w := satS 18 v
  (s.fset (pCh n) Reg.CH_ASYM 0 16 (unsignedOf 16 (Int.fdiv w 4))).setChan n { s.chan n with aF := (w % 4).toNat }

def State.putC (s : State) (n k : Nat) (v : Int) : State :=
  let w := satS 26 v
  let c := s.chan n
  (s.fset (pCh n) (Reg.CH_FIR (k / 2)) (16 * (k % 2)) 16 (unsignedOf 16 (Int.fdiv w (2 ^ 10)))).setChan n
    { c with cF := mapSet (fun _ => 0) c.cF k (w % 2 ^ 10).toNat }

def State.putPh (s : State) (n v : Nat) : State :=
  (s.setTim n 0 0 6 (v / 2 ^ 18)).setChan n { s.chan n with phF := v % 2 ^ 18 }

def State.putSg (s : State) (n : Nat) (v : Int) : State :=
  let w := (clampI v 0 (2 ^ 40 - 1)).toNat
  (s.setTim n 0xC 0 20 (w / 2 ^ 20)).setChan n { s.chan n with sgF := w % 2 ^ 20 }

/-- Where tap `k` of coupling entry t stands (0 to 4 lower, 5 to 9 upper): word and low bit. -/
def cplPlace (k : Nat) : Nat × Nat := (0xC * (k / 5) + 4 * (k % 5 / 2), 16 * (k % 5 % 2))

/-- The cancellation coefficient between track `t` and its neighbour at place `k`, signed (R80; log entry 30). -/
def State.kVal (s : State) (t k : Nat) : Int :=
  let (w, lo) := cplPlace k
  signedOf 16 (s.fget (pTdt + 2) (Reg.TDT_CPL t w) lo 16) * 2 ^ 16 + mapGet (fun _ => 0) (s.cpl t).frac k

def State.putK (s : State) (t k : Nat) (v : Int) : State :=
  let w := satS 32 v
  let (o, lo) := cplPlace k
  let c := s.cpl t
  (s.fset (pTdt + 2) (Reg.TDT_CPL t o) lo 16 (unsignedOf 16 (Int.fdiv w (2 ^ 16)))).setCpl t
    { c with frac := mapSet (fun _ => 0) c.frac k (w % 2 ^ 16).toNat }

/-- A write by firmware replaces an adapted value of channel `n`: the register at `off` is the whole value (R73). -/
def State.chWritten (s : State) (n off : Nat) : State :=
  let c := s.chan n
  if off = Reg.CH_DGAIN then s.setChan n { c with gF := 0 }
  else if off = Reg.CH_OFS then s.setChan n { c with oF := 0 }
  else if off = Reg.CH_ASYM then s.setChan n { c with aF := 0 }
  else if Reg.CH_FIR 0 ≤ off ∧ off < Reg.CH_FIR 8 then
    let k := 2 * ((off - Reg.CH_FIR 0) / 4)
    s.setChan n { c with cF := mapDel (mapDel c.cF k) (k + 1) }
  else s

/-- A write by firmware replaces the taps in word `w` of coupling entry `t` (R73). -/
def State.cplWritten (s : State) (t w : Nat) : State :=
  let c := s.cpl t
  s.setCpl t { c with frac := c.frac.filter fun e => (cplPlace e.1).1 != w }

/-! ### One channel bit (R68, R75 to R77, R80, R81, R84) -/

/-- The step exponents in force: equaliser, gain, offset, asymmetry (R69). -/
def State.stepExp (s : State) (n k : Nat) : Nat :=
  let set := s.fget (pCh n) Reg.CH_STAT 1 2
  let v := s.tfeF pTfe (if set = 1 then Reg.TFE_STEP_ACQ else Reg.TFE_STEP_TRK) (8 * k) 5
  if set = 3 then v + 4 else v

/-- The partial-response target. -/
def State.target (s : State) (k : Nat) : Int := signedOf 10 (s.tfeF pTfe Reg.TFE_TARGET (10 * k) 10)

/-- A decision as +1 or -1. -/
def pm (b : Bool) : Int := if b then 1 else -1

/-- The equalised sample: the taps on the samples, saturated to 10 bits (R65; log entry 30). -/
def State.equalise (s : State) (n : Nat) (r : List Int) : Int :=
  satS 10 (ratio ((List.range 16).foldl (fun a k => a + s.cVal n k * r.getD k 0) 0) (2 ^ 48))

/-- The frequency limit in 2⁻²⁴ of nominal (R75). -/
def State.fLim (s : State) : Int := ratio (s.tdtF pTdt Reg.TDT_FLIM 0 8 * 2 ^ 24 : Nat) 2000

/-- ADC samples per channel bit in 2⁻²⁴. -/
def State.nomStep (s : State) : Int :=
  ratio (s.tfeF pTfe Reg.TFE_SRATE 0 12 * 2 ^ 24 : Nat) (s.tdtF pTdt Reg.TDT_NOMRATE 0 12 : Nat)

/-- Neighbour `u` of a track takes part in I[k] (R80, R82, R83). -/
def State.neighbourIn (s : State) (u : Option Nat) : Bool :=
  match u with
  | none => false
  | some t => match s.inputOf t with
    | some m => s.locked m && !s.dropped m && !s.dead t
    | none => false

/-- The lower and upper neighbours of track `t` (R82). -/
def State.lowerOf (_s : State) (t : Nat) : Option Nat := if t = 0 then none else some (t - 1)
def State.upperOf (s : State) (t : Nat) : Option Nat := if t + 1 < s.ntrk then some (t + 1) else none

/-- The coupling sum of one side, taps from `k0` (R78). -/
def State.couplingSum (s : State) (t k0 : Nat) (b : List Bool) : Int :=
  (List.range 5).foldl (fun a j => a + s.kVal t (k0 + j) * pm (b.getD j false)) 0

/-- I[k] of track `t` with 24 fractional bits. -/
def State.interference (s : State) (t : Nat) (lower upper : List Bool) : Int :=
  if s.tdtF pTdt Reg.TDT_CTRL 0 1 = 0 then 0
  else (if s.neighbourIn (s.lowerOf t) then s.couplingSum t 0 lower else 0)
    + (if s.neighbourIn (s.upperOf t) then s.couplingSum t 5 upper else 0)

/-- A track is locked and in the tracking set. -/
def State.tracks (s : State) (t : Nat) : Bool :=
  match s.inputOf t with
  | some n => s.locked n && s.fget (pCh n) Reg.CH_STAT 1 2 == 2 && !s.dead t
  | none => false

/-- The index of the tap of largest magnitude of one side, the lowest on a tie. -/
def State.largestTap (s : State) (t k0 : Nat) : Nat :=
  (List.range 5).foldl (fun b j => if Int.natAbs (s.kVal t (k0 + b)) < Int.natAbs (s.kVal t (k0 + j)) then j else b) 0

/-- Consecutive bits with the largest tap at one end. -/
def endRun (r : Nat × Bool) (j : Nat) : Nat × Bool :=
  if j = 0 then (if r.2 then (1, false) else (r.1 + 1, false))
  else if j = 4 then (if r.2 then (r.1 + 1, true) else (1, true))
  else (0, false)

/-- The coupling taps of track `t` adapt (R80), and the run of R81 goes on. -/
def State.couplingBit (s : State) (t : Nat) (e : Int) (lower upper : List Bool) : State :=
  if s.tdtF pTdt Reg.TDT_CTRL 0 1 = 0 then s else
  let mu := s.tdtF pTdt Reg.TDT_JD 0 5
  let side (s : State) (u : Option Nat) (k0 : Nat) (b : List Bool) : State :=
    if u.any s.tracks && s.tracks t then
      (List.range 5).foldl (fun s j => s.putK t (k0 + j) (s.kVal t (k0 + j) + Int.fdiv (e * pm (b.getD j false)) (2 ^ mu))) s
    else s
  let s := side (side s (s.lowerOf t) 0 lower) (s.upperOf t) 5 upper
  let c := s.cpl t
  s.setCpl t { c with lower := endRun c.lower (s.largestTap t 0), upper := endRun c.upper (s.largestTap t 5) }

/-- The four LMS loops of one bit (R68): `u` and `r` with 24 fractional bits (log entry 30). -/
def State.lmsBit (s : State) (n : Nat) (e yhat u : Int) (r : List Int) : State :=
  let s := (List.range 16).foldl (fun s k => s.putC n k (s.cVal n k - Int.fdiv (e * r.getD k 0) (2 ^ s.stepExp n 0))) s
  let h1 := s.target 1
  let s := if h1 = 0 then s else s.putG n (s.gVal n - Int.fdiv (e * yhat * 2 ^ 24) (h1 * 2 ^ s.stepExp n 1))
  let s := s.putO n (s.oVal n + Int.fdiv (e * 2 ^ 24) (2 ^ s.stepExp n 2))
  s.putA n (s.aVal n - Int.fdiv (e * u * u) (2 ^ (24 + s.stepExp n 3)))

/-! ### The trellis (R79) -/

/-- The target of a transition: states are (b[k-1], b[k-2]) as 2 b1 + b2. -/
def trellisOut (h : Int × Int × Int) (st : Nat) (b : Bool) : Int :=
  h.1 * pm b + h.2.1 * pm (st / 2 % 2 == 1) + h.2.2 * pm (st % 2 == 1)

/-- The state after bit `b`. -/
def trellisNext (st : Nat) (b : Bool) : Nat := (if b then 2 else 0) + st / 2

/-- One step of a Viterbi survivor table: metric and decisions, newest first, by state. -/
def viterbiStep (h : Int × Int × Int) (t : List (Int × List Bool)) (y : Int) : List (Int × List Bool) :=
  (List.range 4).map fun nx =>
    let b := nx / 2 == 1
    let cand (p : Nat) : Int × List Bool :=
      let e := y - trellisOut h p b
      let x := t.getD p (0, [])
      (x.1 + e * e, b :: x.2)
    let a := cand (2 * (nx % 2))
    let c := cand (2 * (nx % 2) + 1)
    if c.1 < a.1 then c else a

/-- The best survivor, the lowest state on a tie. -/
def bestPath (t : List (Int × List Bool)) : List Bool :=
  (t.foldl (fun (m : Option (Int × List Bool)) x => match m with
    | some y => if x.1 < y.1 then some x else some y
    | none => some x) none).elim [] (·.2)

/-! ### From ADC samples to channel bits (R65, R68, R75, R79) -/

/-- The sample after offset subtraction, asymmetry correction and digital gain, from the offset-corrected sample `u` (R65, R68). -/
def State.corrected (s : State) (n : Nat) (u : Int) : Int :=
  Int.fdiv ((u + Int.fdiv (s.aVal n * u * u) (2 ^ 48)) * s.gVal n) (2 ^ 24)

/-- The phase of input `n` advances by one channel bit of which the timing error is `tau` in 2⁻²⁴ of a bit period (R75): acquisition gains
apply until lock and in the first two frames (R90), the loop coasts in dropout (R77), and inputs above 63 run at the nominal rate plus f
(log entries 31 and 139). -/
def State.clockBit (s : State) (n : Nat) (tau : Int) : State :=
  let loop := if s.tim n 8 1 2 = 2 ∧ 2 ≤ (s.chan n).frames then Reg.TDT_LOOP_TRK else Reg.TDT_LOOP_ACQ
  let kp := s.tdtF pTdt loop 0 5
  let ki := s.tdtF pTdt loop 8 5
  let f0 := s.fVal n
  let lim := s.fLim
  let coast := 64 ≤ n || s.dropped n
  let f := if coast then f0 else clampI (f0 + Int.fdiv tau (2 ^ ki)) (-lim) lim
  let ph := (s.phVal n + s.nomStep + f + if coast then 0 else Int.fdiv tau (2 ^ kp)).toNat
  let s := (if coast then s else s.setTim n 4 0 24 (unsignedOf 24 f)).putPh n (ph % 2 ^ 24)
  let c := s.chan n
  s.setChan n { c with skip := ph / 2 ^ 24 - 1, fAtLim := if coast then c.fAtLim else f = lim ∨ f = -lim }

/-- The traceback of the tentative detector in bits (R79). -/
def traceback : Nat := 24

/-- The oldest bit of the traceback of input `n` is decided: the loops take it, and it enters the ring (R68, R75, R86). -/
def State.decideBit (s : State) (n : Nat) (b : Bool) (x : BitRec) : State :=
  let c := s.chan n
  let yhat := s.target 0 * pm b + s.target 1 * pm c.b1 + s.target 2 * pm c.b2
  let tau := (x.y * c.yhat1 - c.y1 * yhat) * 2 ^ 12
  let s := s.lmsBit n (x.y - yhat) yhat x.u ((c.hist.drop traceback).map (·.r))
  let s := s.setChan n { s.chan n with
    y1 := x.y, yhat1 := yhat, b1 := b, b2 := c.b1
    ring := (⟨x.y, b, s.tb.toNat, x.at_, x.drop⟩ :: c.ring).take 24576
    count := c.count + 1 }
  s.clockBit n tau

/-- A channel bit of data input `n` falls before the newest sample, whose offset-corrected value is `u`: interpolator, equaliser and one step
of the tentative detector (log entries 30 and 138). -/
def State.bitIn (s : State) (n : Nat) (u : Int) : State :=
  let c := s.chan n
  let ph := s.tim n 0 0 6
  let r := Config.interp c.zs ph
  let y := s.equalise n (r :: (c.hist.take 15).map (·.r))
  let drop := s.dropped n
  let surv := viterbiStep (s.target 0, s.target 1, s.target 2) c.surv y
  let least := surv.foldl (fun m v => min m v.1) ((surv.head?.map (·.1)).getD 0)
  let c := { c with
    hist := (⟨u, r, y, c.taken * 64 - 64 + ph, drop⟩ :: c.hist).take 40
    surv := surv.map fun v => (v.1 - least, v.2.take (traceback + 1))
    win := (Int.natAbs y :: c.win).take (s.tfeF pTfe Reg.TFE_DROP 16 8)
    dropRun := if drop then c.dropRun + 1 else 0 }
  let s := s.setChan n c
  match (bestPath surv)[traceback]?, c.hist[traceback]? with
  | some b, some x => s.decideBit n b x
  | _, _ => s.clockBit n 0

/-- Inputs 64 to 69: gain and offset adapt to the envelope of the corrected sample `z` over each 256 samples (R72; log entry 140). -/
def State.envBit (s : State) (n : Nat) (z : Int) : State :=
  let c := s.chan n
  let sum := c.envSum + Int.natAbs z
  if c.envCnt + 1 < 256 then s.setChan n { c with envSum := sum, envCnt := c.envCnt + 1 }
  else
    let e := Int.fdiv (sum : Int) 256 - (s.tfeF pTfe Reg.TFE_ENV 0 8 * 2 ^ 24 : Nat)
    let s := s.setChan n { c with envSum := 0, envCnt := 0 }
    (s.putG n (s.gVal n - Int.fdiv e (2 ^ s.stepExp n 1))).putO n (s.oVal n + Int.fdiv e (2 ^ s.stepExp n 2))

/-- A saturated ADC sample is counted (R97). -/
def State.satBit (s : State) (n : Nat) (adc : Int) : State :=
  if adc ≤ -128 ∨ 127 ≤ adc then
    (s.setChan n { s.chan n with sat := (s.chan n).sat + 1 }).cntSat (pCh n) Reg.CH_SATCNT 0 32 1
  else s

/-- One ADC sample of input `n` (R65): the interpolator gives a channel bit at every phase that falls before it. -/
def State.sampleIn (s : State) (n : Nat) (adc : Int) : State :=
  let s := s.satBit n adc
  let u := adc * 2 ^ 24 - s.oVal n
  let z := s.corrected n u
  let c := s.chan n
  let s := s.setChan n { c with zs := (z :: c.zs).take 16, taken := c.taken + 1, skip := c.skip - 1 }
  let s := if 64 ≤ n then s.envBit n z else s
  if 0 < c.skip then s else if 64 ≤ n then s.clockBit n 0 else s.bitIn n u

/-! ### Joint detection (R78 to R80, R84) -/

/-- Sample `k` of channel `n`'s ring, by its number since the start. -/
def State.ringAt (s : State) (n k : Nat) : Option Sample :=
  let c := s.chan n
  if k < c.count then c.ring[c.count - 1 - k]? else none

/-- The decision of a ring, newest first, that lies nearest to time `t`; the newer of two as near (R78; log entry 139). -/
def nearestBit : List Sample → Nat → Bool
  | [], _ => false
  | [x], _ => x.b
  | x :: y :: r, t =>
    if (if y.at_ < t then t - y.at_ else y.at_ - t) < (if x.at_ < t then t - x.at_ else x.at_ - t) then nearestBit (y :: r) t else x.b

/-- The decisions of neighbour `u` on the clock of input `n`, at j = -2 to +2 about bit `k`, less the alignment offset `d` (R78). -/
def State.neighbourBits (s : State) (n : Nat) (u : Option Nat) (d : Int) (k : Nat) : List Bool :=
  match u.bind s.inputOf with
  | none => []
  | some m => (List.range 5).map fun j =>
    let i := (k : Int) - ((j : Int) - 2) - d
    match (if i < 0 then none else s.ringAt n i.toNat) with
    | some x => nearestBit (s.chan m).ring x.at_
    | none => false

/-- The alignment offset at word `w` of the coupling entry of track `t`: 0x08 the lower one, 0x14 the upper. -/
def State.cplOfs (s : State) (t w : Nat) : Int := signedOf 4 (s.fget (pTdt + 2) (Reg.TDT_CPL t w) 16 4)

/-- I[k] of track `t` on input `n`, with the two neighbours' decisions (R79). -/
def State.jointAt (s : State) (t n k : Nat) : Int × List Bool × List Bool :=
  let lower := s.neighbourBits n (s.lowerOf t) (s.cplOfs t 0x08) k
  let upper := s.neighbourBits n (s.upperOf t) (s.cplOfs t 0x14) k
  (s.interference t lower upper, lower, upper)

/-- The logical tracks that detect input `n`. -/
def State.tracksOf (s : State) (n : Nat) : List Nat := (List.range 64).filter fun t => s.inputOf t == some n

/-- The noise variance of input `n` takes the error `e1`, and the runs of R76 go on, but while the loop waits for a preamble; of two tracks
on one input the lower one drives it (log entry 139). -/
def State.noiseBit (s : State) (n : Nat) (e1 : Int) : State :=
  let sg : Int := s.sgVal n
  let s := s.putSg n (sg + Int.fdiv (Int.fdiv (e1 * e1) (2 ^ 24) - sg) (2 ^ s.tdtF pTdt Reg.TDT_JD 8 5))
  let c := s.chan n
  let sig := s.sgVal n
  s.setChan n { c with
    lowRun := if sig < s.tdtF pTdt Reg.TDT_LOCK 0 16 * 2 ^ 20 ∧ ¬ c.waits then c.lowRun + 1 else 0
    highRun := if s.dropped n then c.highRun else if s.tdtF pTdt Reg.TDT_LOCK 16 16 * 2 ^ 20 < sig then c.highRun + 1 else 0 }

/-- Joint detection takes the next decided bit of track `t` on input `n`: coupling, noise variance and y' (R79, R80, R84). -/
def State.softBit (s : State) (t n : Nat) : State :=
  let k := (s.cpl t).done
  match s.ringAt n k with
  | none => s.setCpl t { s.cpl t with done := k + 1, soft := (⟨0, 0, true⟩ :: (s.cpl t).soft).take 24576 }
  | some x =>
    let b (i : Nat) : Bool := if k < i then false else ((s.ringAt n (k - i)).map (·.b)).getD false
    let yhat := s.target 0 * pm x.b + s.target 1 * pm (b 1) + s.target 2 * pm (b 2)
    let (i, lower, upper) := s.jointAt t n k
    let yp := x.y * 2 ^ 24 - i
    let e1 := yp - yhat * 2 ^ 24
    let s := s.couplingBit t e1 lower upper
    let s := if (s.tracksOf n).head? = some t then s.noiseBit n e1 else s
    let c := s.cpl t
    s.setCpl t { c with done := k + 1, soft := (⟨yp, s.sgVal n, x.drop⟩ :: c.soft).take 24576 }

/-- Bits by which joint detection stays behind the decisions, so that its neighbours' are there: two taps and the largest offset, and as
many again for skew (log entry 139). -/
def jointLag : Nat := 20

/-- Joint detection of track `t` catches up with the decisions of input `n`, at most `fuel` bits. -/
def State.softRun (s : State) (t n : Nat) : Nat → State
  | 0 => s
  | fuel + 1 => if (s.cpl t).done + jointLag < (s.chan n).count then (s.softBit t n).softRun t n fuel else s

/-- The ADC samples since the last command of the signal path are taken in order, and joint detection follows; nothing adapts while TFE is
idle. -/
def State.takeSamples (s : State) (l : List AdcSample) : State :=
  if s.tfeF pTfe Reg.TFE_CTRL 0 2 = 0 then s else
  let s := l.foldl (fun s x => if 70 ≤ x.inp ∨ ¬ s.chEn x.inp then s else s.sampleIn x.inp x.adc) s
  (List.range 64).foldl (fun s t => match s.inputOf t with
    | some n => s.softRun t n ((s.chan n).count - (s.cpl t).done)
    | none => s) s

/-! ### Dropout, lock, alignment (R71, R76, R77, R81, R83) -/

/-- The step set that a channel outside dropout has (R69). -/
def State.plainSet (s : State) (n : Nat) : Nat :=
  if s.tape.pass.isNone then 0 else if (s.chan n).frames < 2 then 1 else 2

/-- Channel `n` enters dropout (R71). -/
def State.dropEnter (s : State) (n : Nat) : State :=
  let c := s.chan n
  let len := s.tfeF pTfe Reg.TFE_DROP 16 8
  if !s.dropped n && c.win.length == len && c.win.sum < s.tfeF pTfe Reg.TFE_DROP 0 8 * len then
    let s := (s.fset (pCh n) Reg.CH_STAT 0 1 1).fset (pCh n) Reg.CH_STAT 1 2 3
    let s := (if s.locked n then s.setTim n 8 1 2 3 else s).setChan n { s.chan n with dropRun := 0 }
    (s.errCnt pTfe 0).raise pTfe 4
  else s

/-- Channel `n` leaves dropout. -/
def State.dropLeave (s : State) (n : Nat) : State :=
  let c := s.chan n
  let len := s.tfeF pTfe Reg.TFE_DROP 16 8
  if s.dropped n && c.win.length == len && s.tfeF pTfe Reg.TFE_DROP 8 8 * len < c.win.sum then
    let s := (s.fset (pCh n) Reg.CH_STAT 0 1 0).fset (pCh n) Reg.CH_STAT 1 2 (s.plainSet n)
    (if s.locked n then s.setTim n 8 1 2 2 else s).setChan n { s.chan n with dropRun := 0 }
  else s

/-- The loop of input `n` declares lock (R76); the companion inputs lock to their tone, of which the manual gives no measure (R75; log entry
139). -/
def State.lockDeclare (s : State) (n : Nat) : State :=
  let c := s.chan n
  if s.tim n 8 1 2 = 1 ∧ (256 ≤ c.lowRun ∨ 64 ≤ n) ∧ ¬ c.waits ∧ ¬ s.rateErr then
    let s := ((s.setTim n 8 0 1 1).setTim n 8 1 2 2).setChan n { c with lost := none, highRun := 0 }
    if n < 64 then s.raise pTdt 5 else s
  else s

/-- The loop of input `n` loses lock, and waits for the next preamble (R76, R77, R91; log entry 31). -/
def State.lockLose (s : State) (n : Nat) : State :=
  let c := s.chan n
  if s.tim n 8 0 1 = 1 ∧ (if s.dropped n then 4096 < c.dropRun else c.fAtLim ∨ 1024 ≤ c.highRun) then
    let s := ((s.setTim n 8 0 1 0).setTim n 8 1 2 1).setChan n { c with lost := some 0, lowRun := 0, highRun := 0, waits := true }
    ((s.cntSat (pTdt + 1) (Reg.TDT_TIM n 8) 16 16 1).errCnt pTdt 0).raise pTdt 4
  else s

/-- The alignment offset of one side of track `t` moves one bit towards the end where its largest tap stands (R81). -/
def State.alignMove (s : State) (t : Nat) (upper : Bool) : State :=
  let c := s.cpl t
  let (run, high) := if upper then c.upper else c.lower
  let w := if upper then 0x14 else 0x08
  let k0 := if upper then 5 else 0
  let d := signedOf 4 (s.fget (pTdt + 2) (Reg.TDT_CPL t w) 16 4)
  if run < 4096 ∨ d = 7 ∨ d = -8 then s
  else
    let old := (List.range 5).map fun j => s.kVal t (k0 + j)
    let s := (List.range 5).foldl (fun s j =>
      s.putK t (k0 + j) (if high then old.getD (j + 1) 0 else if j = 0 then 0 else old.getD (j - 1) 0)) s
    let s := s.fset (pTdt + 2) (Reg.TDT_CPL t w) 16 4 (unsignedOf 4 (if high then d + 1 else d - 1))
    let c := s.cpl t
    let s := s.setCpl t (if upper then { c with upper := (0, false) } else { c with lower := (0, false) })
    (s.errCnt pTdt 3).raise pTdt 6

/-- A track is declared dead (R83). -/
def State.trackDead (s : State) (t : Nat) : State :=
  ((s.fset pTdt (Reg.TDT_DEAD (t / 32)) (t % 32) 1 1).errCnt pTdt 1).raise pTdt 7

/-- A dead track revives once it is locked and FMT reports mark A on it. -/
def State.trackRevive (s : State) (t : Nat) (markA : Bool) : State :=
  if s.dead t && markA && (s.inputOf t).any s.locked then
    (s.fset pTdt (Reg.TDT_DEAD (t / 32)) (t % 32) 1 0).raise pTdt 8
  else s

/-! ### Frame boundaries (R70, R83, R90, R93) -/

/-- 20·log₁₀ g > +0.375 dB, exactly: g¹⁶⁰ > 10³. -/
def gainHigh (g : Nat) : Bool := 1000 * (2 ^ 24) ^ 160 < g ^ 160

/-- 20·log₁₀ g < -0.375 dB. -/
def gainLow (g : Nat) : Bool := 1000 * g ^ 160 < (2 ^ 24) ^ 160

/-- A blocked coarse move sets its clamp bit, counts and raises its event. -/
def State.blocked (s : State) (n bit cnt evt : Nat) : State :=
  ((s.fset (pCh n) Reg.CH_STAT bit 1 1).errCnt pTfe cnt).raise pTfe evt

/-- The coarse moves of channel `n` (*Coarse moves at a frame boundary*). -/
def State.coarse (s : State) (n : Nat) : State :=
  let pga := s.fget (pCh n) Reg.CH_AGC 0 7
  let g := (s.gVal n).toNat
  let s :=
    if gainHigh g then
      if 120 ≤ pga then s.blocked n 3 1 5
      else (s.fset (pCh n) Reg.CH_AGC 0 7 (pga + 1)).putG n (ratio (g * 10000 : Nat) 10292)
    else if gainLow g then
      if pga = 0 then s.blocked n 3 1 5
      else (s.fset (pCh n) Reg.CH_AGC 0 7 (pga - 1)).putG n (ratio (g * 10292 : Nat) 10000)
    else s
  let dac := signedOf 8 (s.fget (pCh n) Reg.CH_AGC 8 8)
  let o := s.oVal n
  if 2 ^ 25 ≤ o then
    if dac = -128 then s.blocked n 4 2 6
    else (s.fset (pCh n) Reg.CH_AGC 8 8 (unsignedOf 8 (dac - 1))).putO n (o - 2 ^ 24)
  else if o ≤ -(2 ^ 25) then
    if dac = 127 then s.blocked n 4 2 6
    else (s.fset (pCh n) Reg.CH_AGC 8 8 (unsignedOf 8 (dac + 1))).putO n (o + 2 ^ 24)
  else s

/-- Fraction bits of the binary logarithm of `m` in 2⁻⁴⁰, from 1 to 2, by repeated squaring. -/
def log2Bits : Nat → Nat → Nat → Nat
  | 0, _, acc => acc
  | k + 1, m, acc =>
    let q := m * m / 2 ^ 40
    if 2 ^ 41 ≤ q then log2Bits k (q / 2) (2 * acc + 1) else log2Bits k q (2 * acc)

/-- 64 · 20 · log₁₀ of a gain given in 2⁻²⁴, in 2⁻²⁴ of 1/64 dB: the binary logarithm with 40 fraction bits times 1,280 · log₁₀ 2
(R93; log entry 141). -/
def gainDb24 (g : Nat) : Int :=
  let e := Nat.log2 g
  let l : Int := ((e : Int) - 24) * 2 ^ 40 + log2Bits 40 (g * 2 ^ 40 / 2 ^ e) 0
  Int.fdiv (l * 423662055093639) (2 ^ 56)

/-- The wear average of channel `n` takes the present gain (R93). -/
def State.wearStep (s : State) (n : Nat) : State :=
  let v := ((s.fget (pCh n) Reg.CH_AGC 0 7 : Int) - s.tfeF (pCh n) Reg.CH_CFG 24 7) * 16 * 2 ^ 24 + gainDb24 (s.gVal n).toNat
  let c := s.chan n
  s.setChan n { c with wear := c.wear + Int.fdiv (v - c.wear) (2 ^ s.tfeF pTfe Reg.TFE_WEAR 0 4) }

/-- One channel at a frame boundary. -/
def State.boundary (s : State) (n : Nat) : State :=
  if !s.chEn n then s else
  let s := (s.coarse n).wearStep n
  let c := s.chan n
  let s := s.setChan n { c with frames := c.frames + 1, sat := 0, lost := c.lost.map (· + 1), waits := false }
  let s := if s.fget (pCh n) Reg.CH_STAT 1 2 = 1 then s.fset (pCh n) Reg.CH_STAT 1 2 (s.plainSet n) else s
  if (s.chan n).lost = some 2 ∧ ¬ s.locked n then
    (s.tracksOf n).foldl (fun s t => if s.dead t then s else s.trackDead t) s
  else s

/-- Does a frame boundary of the tracks `trks` reach channel `n`?  The inputs that carry no data follow track 0 (log entry 139). -/
def State.atBoundary (s : State) (trks : List (Fin 64)) (n : Nat) : Bool :=
  if n < 64 then trks.any fun t => s.inputOf t.val == some n else trks.any fun t => t.val == 0

/-- A frame boundary of the tracks `trks` (R70, R90): a frame in which a channel saturated 64 samples is counted (R97). -/
def State.frameBoundary (s : State) (trks : List (Fin 64)) : State :=
  let ns := (List.range 70).filter (s.atBoundary trks)
  let sat := ns.any fun n => s.chEn n && 64 ≤ (s.chan n).sat
  let s := ns.foldl State.boundary s
  let s := if sat then (s.errCnt pTfe 3).raise pTfe 7 else s
  (List.range 64).foldl (fun s t => s.trackRevive t ((mapGet (fun _ => ReadTrack.init) s.tape.fmt.rtracks t).aligned)) s

/-! ### Detection (R79, R84) -/

/-- Tentative decisions of stage 1 (R79): a traceback of 24 bits from the best survivor, and the rest of it at the end (log entry 30). -/
def viterbi (h : Int × Int × Int) (ys : List Int) : List Bool :=
  let init : List (Int × List Bool) := List.replicate 4 (0, [])
  let (t, out) := ys.foldl (fun (a : List (Int × List Bool) × List Bool) y =>
    let t := viterbiStep h a.1 y
    let p := bestPath t
    if 24 < p.length then (t.map fun x => (x.1, x.2.take 24), (p.getD 24 false) :: a.2) else (t, a.2)) (init, [])
  out.reverse ++ (bestPath t).reverse

/-- Path metrics by state after the samples `ys`, from metrics `m`. -/
def forwardMetrics (h : Int × Int × Int) (m : List Int) (ys : List Int) : List Int :=
  ys.foldl (fun m y => (List.range 4).map fun nx =>
    let b := nx / 2 == 1
    let c (p : Nat) : Int := let e := y - trellisOut h p b; m.getD p 0 + e * e
    min (c (2 * (nx % 2))) (c (2 * (nx % 2) + 1))) m

/-- Path metrics by state before the samples `ys`, given newest last (log entry 30). -/
def backwardMetrics (h : Int × Int × Int) (ys : List Int) : List Int :=
  ys.reverse.foldl (fun m y => (List.range 4).map fun st =>
    let c (b : Bool) : Int := let e := y - trellisOut h st b; m.getD (trellisNext st b) 0 + e * e
    min (c false) (c true)) [0, 0, 0, 0]

/-- M1 - M0 of bit `k` of `ys` over a window of 128 bits around it (R84). -/
def metricGap (h : Int × Int × Int) (ys : List Int) (k : Nat) : Int :=
  let lo := k - 64
  let f := forwardMetrics h [0, 0, 0, 0] ((ys.drop lo).take (k - lo))
  let g := backwardMetrics h ((ys.drop (k + 1)).take (127 - (k - lo)))
  let m (b : Bool) : Int :=
    let c (st : Nat) : Int := let e := ys.getD k 0 - trellisOut h st b; f.getD st 0 + e * e + g.getD (trellisNext st b) 0
    min (min (c 0) (c 1)) (min (c 2) (c 3))
  m true - m false

/-- The nearest whole number to n ÷ d, d > 0; which one on a tie the manual does not state. -/
def nearest (n d : Int) : Int :=
  let q := Int.fdiv n d
  let r := 2 * (n - q * d)
  if r < d then q else if d < r then q + 1 else if Config.roundUp n d then q + 1 else q

/-- L6 of R84: σ̂² with 24 fractional bits, metrics with 48; at σ̂² 0 the largest value of the sign of the gap (log entry 140). -/
def llr6 (gap : Int) (sig q : Nat) : Int :=
  if sig = 0 then (if 0 < gap then 31 else if gap < 0 then -31 else 0)
  else clampI (nearest (gap * (2 ^ q : Nat)) (2 * (sig : Int) * 2 ^ 24)) (-31) 31

/-- Bits of the sliding window on either side of a bit (R79). -/
def halfWindow : Nat := 64

/-- L6 of `len` bits from bit `first` of a track: the metric gap over the y' that `at_` gives, 0 in dropout and where there is no bit (R71,
R84). -/
def State.softSpan (s : State) (first len : Nat) (at_ : Nat → Option Soft) : List Int :=
  let h := (s.target 0 * 2 ^ 24, s.target 1 * 2 ^ 24, s.target 2 * 2 ^ 24)
  let lo := first - halfWindow
  let ys := (List.range (len + 2 * halfWindow)).map fun i => ((at_ (lo + i)).map (·.yp)).getD 0
  (List.range len).map fun k => match at_ (first + k) with
    | some x => if x.drop then 0 else llr6 (metricGap h ys (first + k - lo)) x.sig (s.tdtF pTdt Reg.TDT_JD 16 3)
    | none => 0

/-- OUT_MODE is HARD (R85). -/
def State.hardOut (s : State) : Bool := s.tdtF pTdt Reg.TDT_CTRL 1 2 == 1

/-- A decided bit as a value of the HARD format: its sign alone counts (R85, R142). -/
def hardValue (b : Bool) : Int := if b then -1 else 1

/-- What TDT delivers of `len` bits from bit `first` of track `t`: L6, or with OUT_MODE HARD the tentative decisions; re-detected spans take
the place of the original ones (R84 to R86). -/
def State.delivered (s : State) (t first len : Nat) : List Int :=
  match s.inputOf t with
  | none => []
  | some n =>
    let c := s.cpl t
    let own := if s.hardOut then (List.range len).map fun k => match s.ringAt n (first + k) with
        | some x => if x.drop then 0 else hardValue x.b
        | none => 0
      else s.softSpan first len fun k => if k < c.done then c.soft[c.done - 1 - k]? else none
    c.redo.foldl (fun l e => (List.range l.length).map fun i =>
      if e.1 ≤ first + i then e.2.getD (first + i - e.1) (l.getD i 0) else l.getD i 0) own

/-- The soft decisions that a re-detection unit makes of a span of track `t` from its ring: both stages, with the neighbours' stored
decisions (R86). -/
def State.detect (s : State) (t first len : Nat) : List Int :=
  match s.inputOf t with
  | none => []
  | some n =>
    if s.hardOut then
      (viterbi (s.target 0, s.target 1, s.target 2) ((List.range len).map fun k => ((s.ringAt n (first + k)).map (·.y)).getD 0)).map hardValue
    else s.softSpan first len fun k => (s.ringAt n k).map fun x => ⟨x.y * 2 ^ 24 - (s.jointAt t n k).1, s.sgVal n, x.drop⟩

/-! ### Re-detection (R86, R87) -/

/-- TDT_STAT shows the units and the queue. -/
def State.showRedet (s : State) : State :=
  (s.fset pTdt Reg.TDT_STAT 4 3 s.tape.units.length).fset pTdt Reg.TDT_STAT 8 8 (min 64 s.tape.queue.length)

/-- FMT queues a re-detection request; where the 64 entries of the queue are taken, it waits behind them. -/
def State.redetRequest (s : State) (r : Redetect) : State :=
  { s with tape := { s.tape with queue := s.tape.queue ++ [r] } }.showRedet

/-- A re-detected span takes the place of the original soft decisions of track `t`; spans that have left the ring are forgotten (R86). -/
def State.putRedo (s : State) (t first : Nat) (l : List Int) : State :=
  let count := ((s.inputOf t).map fun n => (s.chan n).count).getD 0
  s.setCpl t { s.cpl t with redo := (s.cpl t).redo.filter (fun e => count ≤ e.1 + 24576) ++ [(first, l)] }

/-- Has the first sample of a request been overwritten? -/
def State.redetLate (s : State) (r : Redetect) : Bool :=
  match s.inputOf r.track with
  | some n => r.first + 24576 < (s.chan n).count
  | none => true

end Sys2Proof.Machine
end

