-- ==== Sys2Proof/Machine/Gate.lean ====
section
/-! DEFINITION. The write outputs of TFE and the write gate (R94, R95, R154). -/

namespace Sys2Proof.Machine

def State.fmt (s : State) : Fmt := s.tape.fmt

def State.setFmt (s : State) (f : Fmt) : State := { s with tape := { s.tape with fmt := f } }

def wtrkDefault (_ : Nat) : WriteTrack := ⟨0, 0, [], [], false, false⟩

def State.wtrk (s : State) (t : Nat) : WriteTrack := mapGet wtrkDefault s.fmt.tracks t

def State.setWtrk (s : State) (t : Nat) (x : WriteTrack) : State :=
  s.setFmt { s.fmt with tracks := mapSet wtrkDefault s.fmt.tracks t x }

/-- The values of an output's channel bits: the bit, and above it by how many 1/64 of a bit period its transition comes early; a transition
that follows one in the previous bit cell is advanced by `adv` (R95).  `level` and `edge` are of the bit before. -/
def precomp (adv : Nat) : Bool → Bool → List Bool → List Nat
  | _, _, [] => []
  | level, edge, b :: r => ((if b then 1 else 0) + if b != level && edge then 2 * adv else 0) :: precomp adv b (b != level) r

/-- Channel bits go to the write output of track `t` (R94, R95), which holds low while OUT_EN is 0. -/
def State.trackOut (s : State) (t : Nat) (bits : List Bool) : State :=
  if s.tfeF pTfe Reg.TFE_WR_CTRL 0 1 = 0 then s else
  let x := s.wtrk t
  let prev := if bits.length < 2 then x.level else bits.getD (bits.length - 2) false
  let last := bits.getLast?.getD x.level
  let s := s.setWtrk t { x with level := last, edge := prev != last }
  s.emit (.issue "TRK_WD" (t :: precomp (s.tfeF (pCh t) Reg.CH_WR 0 5) x.level x.edge bits))

/-- The write gate rises or falls: with it come the bit clock, and the companion square wave of SVD on outputs 64 and 65 where CMP_WR asks
for it; with the gate low every output holds low (R94, R154). -/
def State.writeGate (s : State) (on : Bool) : State :=
  if s.bit pFmt Reg.FMT_STAT 0 == on then s else
  let s := ((s.fset pFmt Reg.FMT_STAT 0 1 (flag on 0)).resCheck).emit (.issue "TRK_WGATE" [flag on 0])
  if on then
    let s := s.emit (.issue "TRK_WCLK" [s.tdtF pTdt Reg.TDT_NOMRATE 0 12])
    if s.bit pSvd Reg.SVD_CTRL 2 && s.tfeF pTfe Reg.TFE_WR_CTRL 0 1 == 1 then
      let d := s.fget pSvd Reg.SVD_CMP 0 5
      (s.emit (.issue "TRK_WD_SQUARE" [64, d])).emit (.issue "TRK_WD_SQUARE" [65, d])
    else s
  else { s with tape := { s.tape with fmt := { s.fmt with tracks := s.fmt.tracks.map fun t => (t.1, { t.2 with level := false, edge := false }) } } }

end Sys2Proof.Machine
end

