-- ==== Sys2Proof/Machine/Loop.lean ====
section
/-! DEFINITION. The loop engine (chapter 6): sources, evaluation, issue, overruns, banks, traces and actuators. -/

namespace Sys2Proof.Machine

/-! ### Slots and their registers -/

/-- Register page of slot `n`. -/
def pSlot (n : Nat) : Nat := pLpe + 1 + n

/-- A register of slot `n` as a number. -/
def State.sl (s : State) (n : Nat) : Slot := mapGet (fun _ => Slot.init) s.lpe.slots n

def State.setSl (s : State) (n : Nat) (x : Slot) : State :=
  { s with lpe := { s.lpe with slots := mapSet (fun _ => Slot.init) s.lpe.slots n x } }

def State.slotEn (s : State) (n : Nat) : Bool := s.bit (pSlot n) Reg.SLOT_CTRL 0

/-- ACT_BANK of slot `n`. -/
def State.slotBank (s : State) (n : Nat) : Nat := s.fget (pSlot n) Reg.SLOT_CTRL 3 1

/-- STATE of slot `n`: 0 off, 1 soft start, 2 run, 3 slewing, 4 safe. -/
def State.slotState (s : State) (n : Nat) : Nat := s.fget (pSlot n) Reg.SLOT_CTRL 8 3

def State.setSlotState (s : State) (n v : Nat) : State := s.fset (pSlot n) Reg.SLOT_CTRL 8 3 v

/-- A signed word of bank `b` of slot `n`. -/
def State.bk (s : State) (n b w : Nat) : Int := s.rgI (pSlot n) (Reg.BANK b w)

def State.bkf (s : State) (n b lo len : Nat) : Nat := s.fget (pSlot n) (Reg.BANK b 0) lo len

/-- The source that triggers bank `b` of slot `n`; 0x3F is the bank's own input. -/
def State.trigSrc (s : State) (n b : Nat) : Nat :=
  let t := s.bkf n b 8 6
  if t = 0x3F then s.bkf n b 0 6 else t

/-- Latest value and stamp of a source (R159). -/
def State.srcVal (s : State) (c : Nat) : Option (Int × Nat) := mapFind s.lpe.src c

/-- A source value older than SMP_TO of slot `n`, or none at all (R166, R171). -/
def State.stale (s : State) (n c now : Nat) : Bool :=
  let lim := s.fget (pSlot n) Reg.SLOT_TIME 16 12
  lim ≠ 0 && match s.srcVal c with
    | some (_, t) => lim * 1000 < now - t
    | none => true

/-- A sample or tick of source `c` is delivered to LPE with the present TB as its stamp: its value is kept, and every
enabled slot that it triggers, or whose pending hand-over it settles, has a trigger due (R159, R171). -/
def State.deliverSrc (s : State) (c : Nat) (v : Int) : State :=
  let now := s.tb.toNat
  let s := { s with lpe := { s.lpe with src := mapPut s.lpe.src c (v, now) } }
  (List.range 16).foldl (fun s n =>
    let b := s.slotBank n
    let ho := s.bit (pSlot n) Reg.SLOT_CTRL 2
    if s.slotEn n && s.slotState n != 4 && (s.trigSrc n b == c || (ho && s.trigSrc n (1 - b) == c)) then
      let x := s.sl n
      s.setSl n { x with due := x.due ++ [(c, now)] }
    else s) s

/-! ### Traces (R174, R175) -/

/-- Register page and entry offset of trace unit `u`. -/
def trPage (u : Nat) : Nat := pLpe + 29 + u / 2

def State.trf (s : State) (u w lo len : Nat) : Nat := s.fget (trPage u) (Reg.TRACE u w) lo len

def State.trSet (s : State) (u w lo len v : Nat) : State := s.fset (trPage u) (Reg.TRACE u w) lo len v

def State.trace (s : State) (u : Nat) : Trace := mapGet (fun _ => ⟨0, none⟩) s.lpe.traces u

def State.setTrace (s : State) (u : Nat) (t : Trace) : State :=
  { s with lpe := { s.lpe with traces := mapSet (fun _ => ⟨0, none⟩) s.lpe.traces u t } }

/-- The value of a node code: slot [3:0], type [7:4] (R174). -/
def State.node (s : State) (code : Nat) : Int :=
  let n := code % 16
  let pg := pSlot n
  let x := s.sl n
  match code / 16 % 16 with
  | 0 => s.rgI pg Reg.SLOT_Y
  | 1 => s.rgI pg Reg.SLOT_R_EFF
  | 2 => s.rgI pg Reg.SLOT_E
  | 3 => x.nodes.p
  | 4 => x.nodes.i
  | 5 => x.nodes.d
  | 6 => x.nodes.v
  | 7 => x.nodes.ff
  | 8 => s.rgI pg Reg.SLOT_U
  | 9 => s.rgI pg Reg.SLOT_GS
  | 10 => s.rgI pg Reg.SLOT_S
  | _ => x.nodes.lat

/-- A trace unit triggers: it notes the index of the trigger record and raises event 11; POST records follow that record.  The trigger record is
the last one written, where the trigger comes from it (`last`), and else the next one (R175; log entry 39). -/
def State.traceTrigger (s : State) (u : Nat) (last : Bool) : State :=
  if s.trf u 0x18 0 2 = 1 then
    let next := s.trf u 0x18 16 14
    let s := (s.trSet u 0x18 0 2 2).trSet u 0x1C 0 14 (if last then (next + 16383) % 16384 else next)
    (s.setTrace u { s.trace u with post := s.trf u 0x0C 0 15 + if last then 0 else 1 }).raise pLpe 11
  else s

/-- A slot event of kind `k` (0 overrun, 1 clamp entry, 2 hand-over, 3 refusal, 4 safe, 5 swap) triggers the units that
select it and whose clock slot is the slot (R175); an evaluation has given its record before its own events. -/
def State.slotEvent (s : State) (n k : Nat) : State :=
  (List.range 4).foldl (fun s u =>
    if s.trf u 0 8 3 = 5 ∧ s.trf u 0 4 4 = n ∧ natBits (s.trf u 0 16 6) k 1 = 1 then s.traceTrigger u (k == 0 || k == 1 || k == 4) else s) s

/-- The level condition of a trace unit's mode on its compared node, from its previous value to its present one. -/
def traceLevel (mode : Nat) (level : Int) (prev : Option Int) (v : Int) : Bool :=
  match mode with
  | 1 => level < v
  | 2 => v < level
  | 3 => prev.any fun p => p ≤ level ∧ level < v
  | 4 => prev.any fun p => level ≤ p ∧ v < level
  | _ => false

/-- The evaluation of slot `n` gives one record to every unit that has it as its clock slot and is recording (R174): `own` are the slot's own
nodes by type, and nodes of other slots give their last issued values. The record goes to the trace port, or is dropped where the port cannot take
it; then the trigger condition is looked at. -/
def State.traceRecord (s : State) (n : Nat) (own : Nat → Int) : State :=
  (List.range 4).foldl (fun s u =>
    let st := s.trf u 0x18 0 2
    if s.trf u 0 4 4 ≠ n ∨ ¬ (st = 1 ∨ (st = 2 ∧ (s.trace u).post ≠ 0)) then s else
    let vals := (List.range 4).map fun k =>
      let code := s.trf u 0x04 (8 * k) 8
      if code % 16 = n then own (code / 16) else s.node code
    let idx := s.trf u 0x18 16 14
    let base := s.rg64 (trPage u) (Reg.TRACE u 0x10)
    let (s, ok) := s.rtPut 2 (base + 16 * idx) (vals.flatMap fun v => leBytes 4 (unsignedOf 32 v))
    let s := if ok then s else (s.cntSat (trPage u) (Reg.TRACE u 0x20) 0 32 1).errCnt pLpe 3
    let s := s.trSet u 0x18 16 14 (idx + 1)
    let s := if idx + 1 = 16384 then s.trSet u 0x18 2 1 1 else s
    let v := vals.getD (s.trf u 0 12 2) 0
    let hit := traceLevel (s.trf u 0 8 3) (s.rgI (trPage u) (Reg.TRACE u 0x08)) (s.trace u).prev v
    let s := s.setTrace u { s.trace u with prev := some v }
    if st = 1 then (if hit then s.traceTrigger u true else s)
    else s.setTrace u { s.trace u with post := (s.trace u).post - 1 }) s

/-! ### Outputs and the safe state (R160, R167, R168) -/

/-- Slot `n` issues the output `u` at its destination: the PWM duty, the lane frame (by its caller) or the set-point of
another slot (R160). -/
def State.drive (s : State) (n : Nat) (u : Int) : State :=
  let pg := pSlot n
  let s := s.rsetI pg Reg.SLOT_U u
  let ch := s.fget pg Reg.SLOT_IO 8 4
  match s.fget pg Reg.SLOT_IO 0 2 with
  | 1 => { s with lpe := { s.lpe with slotDuty := mapPut s.lpe.slotDuty ch (clampI u 0 4095).toNat } }
  | 3 => s.setSl ch { s.sl ch with fed := some u }
  | _ => s

/-- The word of an actuator frame: address SLOT_IO.ADDR, data u[23:0]. -/
def State.slotFrame (s : State) (n : Nat) (u : Int) : Nat :=
  s.fget (pSlot n) Reg.SLOT_IO 16 8 * 2 ^ 24 + unsignedOf 24 u

/-- A lane of the actuator link. -/
def State.lane (s : State) (l : Nat) : Lane := mapGet (fun _ => Lane.init) s.lpe.lanes l

def State.setLane (s : State) (l : Nat) (x : Lane) : State :=
  { s with lpe := { s.lpe with lanes := mapSet (fun _ => Lane.init) s.lpe.lanes l x } }

/-- The lane is enabled and sends nothing. -/
def State.laneIdle (s : State) (l : Nat) : Bool := (s.lane l).busy.isNone && s.bit (pLpe + 31) Reg.ACT_LINK l

/-- Lane `l` starts to send `w`. -/
def State.laneSend (s : State) (l : Nat) (w : BitVec 32) : State :=
  (s.setLane l { s.lane l with busy := some w, since := s.tb.toNat }).emit (.issue "lane" [l, w.toNat])

/-- An idle lane starts the oldest SAFE_OUT frame. -/
def State.laneSafe (s : State) (l : Nat) : State :=
  match s.laneIdle l, (s.lane l).safe with
  | true, w :: q => (s.setLane l { s.lane l with safe := q }).laneSend l w
  | _, _ => s

/-- Slot `n` waits for no lane any more. -/
def State.unqueue (s : State) (n : Nat) : State :=
  (List.range 2).foldl (fun s l => s.setLane l { s.lane l with queue := (s.lane l).queue.filter (· ≠ n) }) s

/-- Slot `n` issues SAFE_OUT at once, on its lane before every other frame that waits (R167), and enters the safe state. -/
def State.goSafe (s : State) (n : Nat) : State :=
  let u := s.rgI (pSlot n) Reg.SLOT_SAFE
  let s := ((s.unqueue n).drive n u).deliverSrc (0x20 + n) u
  let l := s.fget (pSlot n) Reg.SLOT_IO 8 4
  let s := if s.fget (pSlot n) Reg.SLOT_IO 0 2 = 2 then
      (s.setLane l { s.lane l with safe := (s.lane l).safe ++ [BitVec.ofNat 32 (s.slotFrame n u)] }).laneSafe l
    else s
  let x := s.sl n
  ((s.setSl n { x with due := [], wait := none, result := none }).setSlotState n 4).fset pLpe Reg.LPE_STAT n 1 1

/-- A slot starts from zero state in soft start (R168). -/
def State.slotStart (s : State) (n : Nat) : State :=
  let pg := pSlot n
  let s := ((s.rsetI pg Reg.SLOT_S 0).rset64I pg Reg.SLOT_D_LO 0).fset pg Reg.SLOT_CTRL 11 1 0
  let s := (List.range 8).foldl (fun s k => (s.rset64I pg (Reg.SLOT_W k 0) 0).rset64I pg (Reg.SLOT_W k 8) 0) s
  let s := (s.fset pg Reg.SLOT_CTRL 0 1 1).fset pg Reg.SLOT_CTRL 13 2 0
  let s := (s.fset pLpe Reg.LPE_STAT n 1 0).fset pLpe Reg.LPE_STAT (16 + n) 1 1
  let x := s.sl n
  (s.setSl n { x with
    due := [], wait := none, result := none, edPrev := 0, edFresh := false, first := true
    lastTrig := s.tb.toNat }).setSlotState n 1

/-- EN goes to 0: evaluation stops and the output holds; pending requests and the safe state end (R168). -/
def State.slotStop (s : State) (n : Nat) : State :=
  let pg := pSlot n
  let s := (s.fset pg Reg.SLOT_CTRL 0 3 0).setSlotState n 0
  let s := (s.fset pLpe Reg.LPE_STAT n 1 0).fset pLpe Reg.LPE_STAT (16 + n) 1 0
  (s.unqueue n).setSl n { s.sl n with due := [], wait := none, result := none }

/-- Every enabled slot issues SAFE_OUT and enters the safe state (R168, R186). -/
def State.allSafe (s : State) : State :=
  (List.range 16).foldl (fun s n => if s.slotEn n then s.goSafe n else s) s

/-- Every PWM output goes low, and its channel is disabled (log entry 148). -/
def State.pwmLow (s : State) : State :=
  { s with lpe := { s.lpe with duty := [], slotDuty := [] } }.fset (pLpe + 31) Reg.PWM_CTRL 0 8 0

/-- A slot drives PWM channel `ch` (R176): it is enabled, or its output still holds the last value that it issued (R168). -/
def State.pwmDriven (s : State) (ch : Nat) : Bool :=
  (List.range 16).any fun n => (s.slotEn n || (mapFind s.lpe.slotDuty ch).isSome)
    && s.fget (pSlot n) Reg.SLOT_IO 0 2 == 1 && s.fget (pSlot n) Reg.SLOT_IO 8 4 == ch

/-- Block soft reset of LPE (R168): every enabled slot issues SAFE_OUT, PWM outputs go low, the link is idle, and no slot or trace
unit is in any state. -/
def State.lpeReset (s : State) : State :=
  let s := s.allSafe.pwmLow
  let s := (List.range 2).foldl (fun s l => (s.lane l).safe.foldl (fun s w => s.emit (.issue "lane" [l, w.toNat])) s) s
  let s := (List.range 16).foldl (fun s n => s.rset (pSlot n) Reg.SLOT_CTRL 0) s
  let s := (List.range 4).foldl (fun s u => s.trSet u 0x18 0 2 0) (s.rset pLpe Reg.LPE_STAT 0)
  { s with lpe := { Lpe.init with src := s.lpe.src } }

end Sys2Proof.Machine
end

