-- ==== Sys2Proof/Machine/Transport.lean ====
section
/-! DEFINITION. The sequencer of TPI (chapter 7): motion machines, actions, waits and transport faults. -/

namespace Sys2Proof.Machine

/-- The state section of the motion table (R182); empty while none is loaded. -/
def State.motion (s : State) : List Byte := s.tsec pTpi 0 0x0201

/-- ENTRY[m] of the motion table; 0xFF: the machine is absent. -/
def State.machineEntry (s : State) (m : Nat) : Nat := if s.motion.isEmpty then 0xFF else fieldAt s.motion (4 + m) 1

/-- A field of the state entry of state `k`. -/
def State.stateFld (s : State) (k off n : Nat) : Nat := fieldAt s.motion (0x10 + 96 * k + off) n

def State.setTpi (s : State) (t : Tpi) : State := { s with tpi := t }

/-- TPI_STAT.STREAM. -/
def State.streaming (s : State) : Bool := s.bit pTpi Reg.TPI_STAT 16

/-- TPI_STAT.BUSY. -/
def State.seqBusy (s : State) : Bool := s.bit pTpi Reg.TPI_STAT 11

/-- A firmware frame for lane `l` (R177, R180): none where the lane's queue is full, which makes it a write to a locked
field (log entry 40). -/
def State.fwFrame (s : State) (l : Nat) (w : BitVec 32) : Option State :=
  let x := s.lane l
  if 16 ≤ x.queue.length + x.safe.length + x.fw.length then none else some (s.setLane l { x with fw := x.fw ++ [w] })

/-- A change of a slot's EN (R168). -/
def State.slotSetEn (s : State) (n : Nat) (on : Bool) : State :=
  if on == s.slotEn n then s else if on then s.slotStart n else s.slotStop n

/-- One action of *Actions*; none where firmware could not perform it (R186; log entry 41). -/
def State.action (s : State) (kind tgt val : Nat) : Option State :=
  match kind with
  | 1 => some (s.slotSetEn tgt (val % 2 == 1))
  | 2 => some (s.setSl tgt { s.sl tgt with motion := some (signedOf 32 val) })
  | 3 => some (s.setSl tgt { s.sl tgt with motion := some (s.rgI pTpi (Reg.TPI_ARG (val % 2))) })
  | 4 => some (s.setSl tgt { s.sl tgt with motion := none })
  | 5 => if s.pwmDriven tgt then none else some (s.fset (pLpe + 31) (Reg.PWM_DUTY tgt) 0 12 (val % 4096))
  | 6 =>
    let w := (s.rg pTpi Reg.TPI_GPIO_OUT).toNat ||| val % 65536
    some (s.rset pTpi Reg.TPI_GPIO_OUT (BitVec.ofNat 32 w &&& ~~~ BitVec.ofNat 32 (val / 65536)))
  | 7 =>
    if s.bit (pSlot tgt) Reg.SLOT_CTRL 1 ∨ s.bit (pSlot tgt) Reg.SLOT_CTRL 2 then none
    else some (s.fset (pSlot tgt) Reg.SLOT_CTRL 2 1 1)
  | 8 => s.fwFrame tgt (BitVec.ofNat 32 val)
  | 9 => some (s.fset pTpi Reg.TPI_STAT 16 1 val)
  | 10 => some (s.fset pTpi Reg.TPI_STAT 17 1 val)
  | _ => some s

/-- What entering a state ends in. -/
inductive Entered where
  | running
  | ended
  | failed
deriving DecidableEq, Repr

/-- The actions of state `k` from action `a` on; `keep` goes on after an action that could not be performed. -/
def State.actions (s : State) (k : Nat) (keep : Bool) : List Nat → State × Bool
  | [] => (s, true)
  | a :: r =>
    match s.action (s.stateFld k (0x30 + 8 * a) 1) (s.stateFld k (0x31 + 8 * a) 1) (s.stateFld k (0x34 + 8 * a) 4) with
    | some s => s.actions k keep r
    | none => if keep then let (s, _) := s.actions k keep r; (s, false) else (s, false)

/-- The sequencer enters state `k` (R184): its actions in order, and the end of the machine at a TERMINAL state. -/
def State.enterPlain (s : State) (k : Nat) (keep : Bool) : State × Bool :=
  let s := (s.fset pTpi Reg.TPI_STAT 0 8 k).setTpi { s.tpi with entered := s.tb.toNat }
  let (s, ok) := s.actions k keep (List.range (s.stateFld k 0 1 % 8))
  if !ok && !keep then (s, false)
  else if s.stateFld k 1 1 % 2 = 1 then
    (((s.fset pTpi Reg.TPI_STAT 11 1 0).setTpi { s.tpi with inFault := false }).raise pTpi 4, ok)
  else (s, ok)

/-- What every transport fault does (R186): the fault is reported, and write gate and STREAM drop at once. -/
def State.faultReport (s : State) (code : Nat) : State :=
  let s := (s.fset pTpi Reg.TPI_STAT 12 1 1).fset pTpi Reg.TPI_STAT 13 3 code
  let s := ((s.errCnt pTpi 3).raise pTpi 5).writeGate false
  s.fset pTpi Reg.TPI_STAT 16 1 0

/-- A transport fault (R186): the fault machine is entered unless it runs; where the motion table has none, every enabled
slot goes safe and every PWM output low. -/
def State.transportFault (s : State) (code : Nat) : State :=
  let s := s.faultReport code
  if s.tpi.inFault then s
  else if s.machineEntry 7 = 0xFF then (s.fset pTpi Reg.TPI_STAT 11 1 0).allSafe.pwmLow
  else
    let s := (s.fset pTpi Reg.TPI_STAT 8 3 7).fset pTpi Reg.TPI_STAT 11 1 1
    let (s, ok) := (s.setTpi { s.tpi with inFault := true }).enterPlain (s.machineEntry 7) true
    if ok then s else s.faultReport 4

/-- The sequencer enters state `k` of the machine it runs: an action that could not be performed is a transport fault. -/
def State.enterState (s : State) (k : Nat) : State :=
  let (s', ok) := s.enterPlain k s.tpi.inFault
  if ok then s' else s'.transportFault 4

/-- Machine `m` starts at its entry state. -/
def State.startMachine (s : State) (m : Nat) : State :=
  let s := (s.fset pTpi Reg.TPI_STAT 8 3 m).fset pTpi Reg.TPI_STAT 11 1 1
  (s.setTpi { s.tpi with inFault := false }).enterState (s.machineEntry m)

/-- A write of TPI_CMD.GO with OP `m` (R184): a reserved encoding while a machine runs or where `m` is absent; without
effect while the sequencer is disabled. -/
def State.machineGo (s : State) (m : Nat) : State :=
  if s.seqBusy ∨ s.machineEntry m = 0xFF ∨ 7 ≤ m then s.badWrite pTpi Reg.TPI_CMD 1
  else
    let s := s.fset pTpi Reg.TPI_CMD 0 3 m
    if s.enabled pTpi ∧ s.bit pTpi Reg.TPI_CTRL 0 then s.startMachine m else s

/-- BP_LEN of the cartridge's record (R128, R190). -/
def State.bpLen (s : State) : Nat := fieldAt (s.tpi.loaded.getD []) 0x10 4

/-- A write of TPI_CMD.ABORT (R186). -/
def State.machineAbort (s : State) : State :=
  if s.enabled pTpi ∧ s.bit pTpi Reg.TPI_CTRL 0 then s.transportFault 5 else s

/-- The value that a wait source compares (*Wait sources*). -/
def State.waitValue (s : State) (src idx : Nat) : Int :=
  match src with
  | 1 => ((s.srcVal (0x18 + idx)).map (·.1)).getD 0
  | 2 => s.fget pTpi Reg.TPI_GPIO_IN idx 1
  | 3 => s.slotState idx
  | 4 => s.rgI pSvd Reg.SVD_SPEED
  | 5 => s.rgI pSvd Reg.SVD_LPOS - s.rgI pTpi (Reg.TPI_ARG 0)
  | 6 => s.fget pSvd Reg.SVD_STAT 5 1
  | 7 => s.fget pTpi Reg.TPI_FLAGS idx 1
  | 8 => s.fget (pSlot idx) Reg.SLOT_CTRL 12 1
  | _ => s.fget pTpi Reg.TPI_STAT 18 1

/-- Does a wait hold? -/
def waitHolds (op : Nat) (v w : Int) : Bool :=
  match op with
  | 0 => w ≤ v
  | 1 => v ≤ w
  | 2 => v == w
  | _ => v != w

/-- The state that the first wait that holds selects. -/
def State.waitNext (s : State) (k : Nat) : Option Nat :=
  (List.range (s.stateFld k 0 1 / 16 % 8)).findSome? fun w =>
    let o := 0x10 + 8 * w
    if waitHolds (s.stateFld k (o + 1) 1 % 16) (s.waitValue (s.stateFld k o 1) (s.stateFld k (o + 2) 1))
        (signedOf 32 (s.stateFld k (o + 4) 4))
    then some (s.stateFld k (o + 3) 1) else none

/-- The current state of the sequencer. -/
def State.seqState (s : State) : Nat := s.fget pTpi Reg.TPI_STAT 0 8

/-- The sampled level of the transport pins: a driven pin carries its own output. -/
def State.samplePins (s : State) (pins : BitVec 16) : State :=
  let dir := s.rg pTpi Reg.TPI_GPIO_DIR
  s.rset pTpi Reg.TPI_GPIO_IN ((s.rg pTpi Reg.TPI_GPIO_OUT &&& dir) ||| (pins.setWidth 32 &&& ~~~ dir))

/-- The TPI sensors that watch tachometer pin `pin` take the edge period `period` in ns. -/
def State.tachSample (s : State) (pin period : Nat) : State :=
  (List.range 4).foldl (fun s k =>
    let w := s.rg pTpi (Reg.TPI_SENS k)
    if bitsOf w 0 2 = 2 ∧ bitsOf w 4 4 = pin ∧ period ≠ 0 then
      s.deliverSrc (0x18 + k) ((bitsOf w 16 16 * 1000000 / period : Nat) : Int)
    else s) s

/-- The TPI sensors that watch current-sense ADC `n` take its result. -/
def State.adcSensors (s : State) (n : Nat) (code : Int) : State :=
  (List.range 4).foldl (fun s k =>
    let w := s.rg pTpi (Reg.TPI_SENS k)
    if bitsOf w 0 2 = 1 ∧ bitsOf w 4 4 = n then s.deliverSrc (0x18 + k) (code + signedOf 16 (bitsOf w 16 16)) else s) s

/-! ### The tape ring (R194 to R196) -/

/-- Bytes of the tape ring. -/
def State.ringSize (s : State) : Nat := s.fget pTpi Reg.TPI_RING_SIZE 0 16 * 2 ^ 26

def State.ringBase (s : State) : Nat := (s.rg pTpi Reg.TPI_RING_BASE).toNat * 2 ^ 16

/-- Bytes of data sets in the ring. -/
def State.ringFill (s : State) : Nat := s.tpi.ring.foldl (fun n r => n + r.len) 0

/-- TPI_RING_FILL shows the fill in units of 64 KiB. -/
def State.showRing (s : State) : State := s.rset pTpi Reg.TPI_RING_FILL (BitVec.ofNat 32 (s.ringFill / 65536))

/-- The fill is at or above `p` percent of the ring. -/
def State.ringAtLeast (s : State) (p : Nat) : Bool := p * s.ringSize ≤ 100 * s.ringFill

def State.divertOn (s : State) : Bool := s.bit pTpi Reg.TPI_STAT 19

/-- Divert goes off. -/
def State.divertOff (s : State) : State := if s.divertOn then (s.fset pTpi Reg.TPI_STAT 19 1 0).raise pTpi 9 else s

/-- Divert ends below DIV_OFF (R194). -/
def State.divertCheck (s : State) : State := if s.ringAtLeast (s.fget pTpi Reg.TPI_DIV 8 7) then s else s.divertOff

/-- A backhitch (R196); one that waits for its restart is not begun again, and a fault machine runs on (log entry 149). -/
def State.backhitch (s : State) : State :=
  if s.tpi.backhitch then s else
  let s := (s.fset pTpi Reg.TPI_STAT 16 1 0).setTpi { s.tpi with backhitch := true, resume := false }
  let s := ((s.errCnt pTpi 0).cntSat pTpi Reg.TPI_BH_CNT 0 32 1).raise pTpi 10
  if s.machineEntry 5 = 0xFF ∨ s.tpi.inFault then s else s.startMachine 5

/-- The ring has fallen below DIV_OFF after a backhitch: firmware seeks to the first data set not delivered, whose position is its own
(R196; log entry 149). -/
def State.restartCheck (s : State) : State :=
  if !s.tpi.backhitch || s.ringAtLeast (s.fget pTpi Reg.TPI_DIV 8 7) || s.seqBusy || s.machineEntry 3 == 0xFF
    || !s.enabled pTpi || !s.bit pTpi Reg.TPI_CTRL 0 then s
  else
    let s := (s.setTpi { s.tpi with backhitch := false, resume := true }).rset pTpi (Reg.TPI_ARG 0) ((Config.freeWord s.free).setWidth 32)
    (s.bump.fset pTpi Reg.TPI_CMD 0 3 3).startMachine 3

/-- The DRAM pieces of `n` bytes of the ring from place `ofs`, round its end. -/
def State.ringPieces (s : State) (ofs n : Nat) : List (Nat × Nat) :=
  let sz := s.ringSize
  let k := min n (sz - ofs % sz)
  (s.ringBase + ofs % sz, k) :: if k < n then [(s.ringBase, n - k)] else []

/-- Does address `a` lie in data set `r` of the ring? -/
def State.inRingSet (s : State) (r : RingSet) (a : Nat) : Bool :=
  s.ringBase ≤ a && decide ((a - s.ringBase + s.ringSize - r.ofs % s.ringSize) % s.ringSize < r.len)

/-- All of data set `r` has left port 1 for DRAM. -/
def State.inDram (s : State) (r : RingSet) : Bool :=
  !((s.rt 1).segs.map (·.1) ++ s.fmt.out.map (·.1)).any (s.inRingSet r)

/-- FMT leaves what it delivers in the buffer of port 1 while that has room (R238, R240). -/
def State.fmtFeed (s : State) : Nat → State
  | 0 => s
  | n + 1 =>
    match s.fmt.out with
    | (a, b) :: q =>
      let k := min b.length (s.rtSize 1 - s.rtFillOf 1)
      if k = 0 then s
      else
        let rest := if k < b.length then (a + k, b.drop k) :: q else q
        ((s.setFmt { s.fmt with out := rest }).rtPut 1 a (b.take k)).1.fmtFeed n
    | [] => s

/-- Write bytes of the ring from place `ofs`, round its end. -/
def State.ringWrite (s : State) (ofs : Nat) (b : List Byte) : State :=
  let sz := s.ringSize
  let k := min b.length (sz - ofs % sz)
  let (s, _) := s.busWrite (s.ringBase + ofs % sz) (b.take k)
  if k = b.length then s else (s.busWrite s.ringBase (b.drop k)).1

/-- Read `n` bytes of the ring from place `ofs`, round its end. -/
def State.ringRead (s : State) (ofs n : Nat) : State × Option (List Byte) :=
  let sz := s.ringSize
  let k := min n (sz - ofs % sz)
  match s.busRead (s.ringBase + ofs % sz) k with
  | (s, some a) =>
    if k = n then (s, some a) else
    match s.busRead s.ringBase (n - k) with
    | (s, some b) => (s, some (a ++ b))
    | (s, none) => (s, none)
  | (s, none) => (s, none)

end Sys2Proof.Machine
end

