-- ==== Sys2Proof/Machine/Framing.lean ====
section
/-! DEFINITION. The format engine (chapter 4): formats, modulation, frames, marks, alignment, data sets and the outer code,
and writing with read-after-write. -/

namespace Sys2Proof.Machine

/-! ### Formats (R108) -/

/-- A field of the format table in FMT slot `k`: section type, byte offset, bytes. -/
def State.ff (s : State) (k t off n : Nat) : Nat := fieldAt (s.tsec pFmt k t) off n

/-- FORMAT_ID and GEN of the table in FMT slot `k`, as word 1 of a cartridge record holds them beside REC_VER (R190). -/
def State.formatWord (s : State) (k : Nat) : Nat := ((s.table pFmt k).map fun t => t.gen * 2 ^ 8 + t.id * 2 ^ 16).getD 0

/-- Frame bits of a format become channel bits (R112). -/
def State.modLen (s : State) (k n : Nat) : Nat :=
  if s.ff k 2 3 1 = 0 then n else n / s.ff k 2 0 1 * s.ff k 2 1 1

/-- Drop the inserted bit of each word of channel values. -/
def State.demod (s : State) (k : Nat) (l : List Int) : List Int :=
  if s.ff k 2 3 1 = 0 then l else
  (chunks (s.ff k 2 1 1) l).flatMap fun w => w.take (s.ff k 2 2 1) ++ w.drop (s.ff k 2 2 1 + 1)

/-- Insert a bit into each word of frame bits, the inverse of the bit before it. -/
def State.modulate (s : State) (k : Nat) (b : List Bool) : List Bool :=
  if s.ff k 2 3 1 = 0 then b else
  (chunks (s.ff k 2 0 1) b).flatMap fun w =>
    let p := s.ff k 2 2 1
    w.take p ++ [!(w.getD (p - 1) false)] ++ w.drop p

/-- User bytes of a codeword, codewords of a frame, frames and tracks of a data set, interleave groups. -/
def State.cwBytes (s : State) (k : Nat) : Nat := s.ff k 3 8 2 / 8
def State.ncw (s : State) (k : Nat) : Nat := s.ff k 3 6 1
def State.framesOf (s : State) (k : Nat) : Nat := s.ff k 3 0xC 1
def State.trksOf (s : State) (k : Nat) : Nat := s.ff k 1 0 1
def State.groups (s : State) (k : Nat) : Nat := s.ff k 6 9 1
def State.outerN (s : State) (k : Nat) : Nat := s.ff k 6 4 2
def State.outerK (s : State) (k : Nat) : Nat := s.ff k 6 6 2

/-- Bytes of a data set's user area (R119). -/
def State.userArea (s : State) (k : Nat) : Nat := s.outerK k * s.groups k * s.cwBytes k

/-- The cell (track, frame, codeword) of symbol index `j` of group `g` (R119). -/
def State.cellOf (s : State) (k g j : Nat) : Nat :=
  let sl := s.groups k * (j / s.trksOf k) + g
  ((j % s.trksOf k) * s.framesOf k + sl / s.ncw k) * s.ncw k + sl % s.ncw k

/-- Group and symbol index of a cell. -/
def State.symbolOf (s : State) (k cell : Nat) : Nat × Nat :=
  let cw := cell % s.ncw k
  let fr := cell / s.ncw k % s.framesOf k
  let tr := cell / s.ncw k / s.framesOf k
  let sl := fr * s.ncw k + cw
  (sl % s.groups k, sl / s.groups k * s.trksOf k + tr)

/-! ### Reed-Solomon over GF(2^m) (R120) -/

/-- The product in the field of polynomial `poly` with `m` bits. -/
def gfxMulN (m poly : Nat) : Nat → Nat → Nat → Nat
  | 0, _, _ => 0
  | n + 1, a, b =>
    let a2 := if a < 2 ^ (m - 1) then a * 2 else (a * 2) ^^^ poly
    (if b % 2 = 1 then a else 0) ^^^ gfxMulN m poly n a2 (b / 2)

/-- A field: bits per symbol, polynomial, first root exponent and the number of check symbols. -/
structure RsField where
  m : Nat
  poly : Nat
  fcr : Nat
  roots : Nat
deriving DecidableEq, Repr

def RsField.mul (f : RsField) (a b : Nat) : Nat := gfxMulN f.m f.poly f.m a b

/-- a to the power e, by the low `n` bits of e. -/
def RsField.powN (f : RsField) : Nat → Nat → Nat → Nat
  | 0, _, _ => 1
  | n + 1, a, e => f.mul (if e % 2 = 1 then a else 1) (f.powN n (f.mul a a) (e / 2))

def RsField.alpha (f : RsField) (e : Nat) : Nat := f.powN (f.m + 1) 2 (e % (2 ^ f.m - 1))
def RsField.inv (f : RsField) (a : Nat) : Nat := f.powN (f.m + 1) a (2 ^ f.m - 2)

/-- The value of a polynomial, lowest coefficient first. -/
def RsField.eval (f : RsField) (p : List Nat) (x : Nat) : Nat := p.foldr (fun c a => c ^^^ f.mul a x) 0

/-- c + x·p·d. -/
def RsField.addShift (f : RsField) (p : List Nat) (d : Nat) (q : List Nat) : List Nat :=
  let q' := 0 :: q.map (f.mul d)
  (List.range (max p.length q'.length)).map fun i => p.getD i 0 ^^^ q'.getD i 0

/-- Syndromes of a word whose symbol j lies at α^j (log entry 35). -/
def RsField.syndromes (f : RsField) (w : List Nat) : List Nat :=
  (List.range f.roots).map fun j => f.eval w (f.alpha (f.fcr + j))

/-- The locator polynomial of the erasures and errors (Berlekamp and Massey, started from the erasures; log entry 32). -/
def RsField.locator (f : RsField) (syn : List Nat) (era : List Nat) : List Nat × Nat :=
  let g := era.foldl (fun p j => f.addShift p (f.alpha j) p) [1]
  let e := era.length
  let (l, _, n) := (List.range (f.roots - e)).foldl (fun (a : List Nat × List Nat × Nat) i =>
    let (lam, b, el) := a
    let r := e + i + 1
    let d := (List.range r).foldl (fun v k => v ^^^ f.mul (lam.getD k 0) (syn.getD (r - 1 - k) 0)) 0
    if d = 0 then (lam, 0 :: b, el)
    else
      let t := f.addShift lam d b
      if 2 * el ≤ r + e - 1 then (t, lam.map (f.mul (f.inv d)), r + e - el)
      else (t, 0 :: b, el)) (g, g, e)
  (l, n)

/-- Decode a word with erasures at the listed places: none where it cannot be corrected. -/
def RsField.decode (f : RsField) (w : List Nat) (era : List Nat) : Option (List Nat) :=
  let syn := f.syndromes w
  if syn.all (· == 0) then some w
  else if f.roots < era.length then none
  else
    let (lam, deg) := f.locator syn era
    let places := (List.range w.length).filter fun j => f.eval lam (f.inv (f.alpha j)) == 0
    if places.length ≠ deg then none
    else
      let om := (List.range f.roots).map fun i =>
        (List.range (i + 1)).foldl (fun v k => v ^^^ f.mul (lam.getD k 0) (syn.getD (i - k) 0)) 0
      let fix := places.foldl (fun (w : List Nat) j =>
        let xi := f.inv (f.alpha j)
        let num := f.mul (f.eval om xi) (f.powN 17 (f.alpha j) ((f.fcr * (2 ^ f.m - 2) + 1) % (2 ^ f.m - 1)))
        let den := (List.range lam.length).foldl (fun v i => if i % 2 = 1 then v ^^^ f.mul (lam.getD i 0) (f.powN 17 xi (i - 1)) else v) 0
        w.set j (w.getD j 0 ^^^ f.mul num (f.inv den))) w
      if (f.syndromes fix).all (· == 0) then some fix else none

/-- The outer code of a format. -/
def State.outerCode (s : State) (k : Nat) : RsField :=
  ⟨s.ff k 6 8 1, s.ff k 6 0 4, s.ff k 6 0xA 2, s.outerN k - s.outerK k⟩

/-- Symbols of a codeword's user bytes. -/
def symbolsOf (sym : Nat) (b : List Byte) : List Nat := (chunks (sym / 8) b).map leNat

/-- Group `g` of a data set after its outer decode: the bytes of its data codewords in order of symbol index, or none
(R120, R121); `cell` gives the codewords that decoded. -/
def State.outerGroup (s : State) (k g : Nat) (cell : Nat → Option (List Byte)) : Option (List (List Byte)) :=
  let n := s.outerN k
  let bytes := s.cwBytes k
  let sym := s.ff k 6 8 1
  let got := (List.range n).map fun j => cell (s.cellOf k g j)
  let era := (List.range n).filter fun j => (got.getD j none).isNone
  let syms := got.map fun x => symbolsOf sym (x.getD (List.replicate bytes 0))
  let f := s.outerCode k
  let cols := (List.range (bytes * 8 / sym)).map fun p => f.decode (syms.map fun x => x.getD p 0) era
  if cols.all Option.isSome then
    some ((List.range (s.outerK k)).map fun j => cols.flatMap fun c => leBytes (sym / 8) ((c.getD []).getD j 0))
  else none

/-- The codeword of cell `cell` of a data set with user area `user`: data as it is, parity by the outer code (R119, R120). -/
def State.cwUser (s : State) (k : Nat) (user : List Byte) (cell : Nat) : List Byte :=
  let (g, j) := s.symbolOf k cell
  let data (i : Nat) : List Byte := (user.drop (s.cwBytes k * (i * s.groups k + g))).take (s.cwBytes k)
  if j < s.outerK k then data j
  else
    let f := s.outerCode k
    let sym := s.ff k 6 8 1
    let syms := (List.range (s.outerK k)).map fun i => symbolsOf sym (data i)
    let par := (List.range (f.roots)).map (· + s.outerK k)
    (List.range (s.cwBytes k * 8 / sym)).flatMap fun p =>
      let w := syms.map (fun x => x.getD p 0) ++ List.replicate f.roots 0
      leBytes (sym / 8) (((f.decode w par).getD []).getD j 0)

/-! ### The inner code on write: parity bits that meet every check (R137) -/

/-- Clear unknown `v` from every row but the pivot; rows are bit masks of the unknowns with the constant above them. -/
def pivotRow (rows : List Nat) (v : Nat) : List Nat :=
  match rows.findIdx? fun r => r.testBit v && r % 2 ^ v == 0 with
  | none => rows
  | some i =>
    let p := rows.getD i 0
    (List.range rows.length).map fun j => let r := rows.getD j 0; if j ≠ i && r.testBit v then r ^^^ p else r

/-- Parity bits for information bits `u`. -/
def Code.parity (c : Code) (u : List Bool) : List Bool :=
  let k := c.kb * c.z
  let np := c.n - k
  let rows := c.rows.flatMap fun row => (List.range c.z).map fun r =>
    let (m, x) := (checkBits c.z row r).foldl (fun (a : Nat × Bool) b =>
      if b < k then (a.1, a.2 != u.getD b false) else (a.1 ^^^ 2 ^ (b - k), a.2)) (0, false)
    m + (if x then 2 ^ np else 0)
  let fin := (List.range np).foldl pivotRow rows
  (List.range np).map fun v => fin.any fun r => r % 2 ^ np == 2 ^ v && r.testBit np

/-- The coded bits of a codeword's user bytes under the inner code of format `k`; without parity where no enabled slot of DCF holds the code
(R111; log entry 143). -/
def State.innerBits (s : State) (k : Nat) (user : List Byte) : List Bool :=
  let u := bytesToBits user
  match s.codeSlot (s.ff k 5 0 2) with
  | some sl => u ++ (s.code sl).parity u
  | none => u

/-! ### Frames (R111, R113) -/

/-- The frame header. -/
def State.headerBytes (s : State) (k track : Nat) (f : FrameId) (band : Nat) : List Byte :=
  let id := leNat (((sha384 Config.identKey).drop 46).take 2).reverse
  let b := leBytes 2 (((s.table pFmt k).map (·.id)).getD 0) ++ leBytes 1 track ++ leBytes 1 f.frame ++ leBytes 4 f.dsn
    ++ leBytes 1 (min f.rewrite 255) ++ leBytes 1 f.copy ++ leBytes 1 band ++ [0] ++ leBytes 2 id
  b ++ leBytes 2 (crc16 b)

/-- The bits of a 64-bit mark, most significant first (log entry 32). -/
def markBits (v : Nat) : List Bool := (List.range 64).map fun i => v.testBit (63 - i)

/-- `n` bits of the pattern 0b1100 repeated. -/
def preamble (n : Nat) : List Bool := (List.range n).map fun i => i % 4 < 2

/-- The channel bits of a frame with header `h` and codewords `cws`, each in coded bits. -/
def State.frameBits (s : State) (k : Nat) (h : List Byte) (cws : List (List Bool)) : List Bool :=
  let after := s.ff k 3 7 1
  preamble (s.ff k 3 0 2) ++ markBits (s.ff k 4 0 8) ++ s.modulate k (bytesToBits h)
    ++ (cws.take after).flatMap (s.modulate k) ++ markBits (s.ff k 4 8 8) ++ (cws.drop after).flatMap (s.modulate k)
    ++ preamble (s.ff k 3 2 2)

/-- Channel bits of a frame (R111). -/
def State.frameLen (s : State) (k : Nat) : Nat :=
  s.ff k 3 0 2 + 128 + s.modLen k (s.ff k 3 4 2) + s.ncw k * s.modLen k (s.ff k 3 0xA 2) + s.ff k 3 2 2

/-- The data-set separator: SEP half frame slots of the preamble pattern (R114). -/
def State.separatorBits (s : State) (k : Nat) : List Bool := preamble (s.ff k 3 0xE 1 * s.frameLen k / 2)

/-- What a header reads as: FORMAT_ID and the frame's identity, where its CRC holds and its FRAME is not reserved (R113). -/
def headerRead (frames : Nat) (b : List Byte) : Option (Nat × FrameId) :=
  let f := fieldAt b 3 1
  if b.length = 16 ∧ crc16 (b.take 14) = fieldAt b 14 2 ∧ (f < frames ∨ f = 0x7E ∨ f = 0x7F) then
    some (fieldAt b 0 2, ⟨fieldAt b 4 4, fieldAt b 9 1, f, fieldAt b 8 1⟩)
  else none

/-! ### Marks and alignment (R115, R116) -/

/-- Hard decisions differ from a mark at place `p` in how many bits. -/
def markDiff (hard : Array Bool) (mark : List Bool) (p : Nat) : Nat :=
  (List.range 64).foldl (fun n i => if p + i < hard.size ∧ hard.getD (p + i) false = mark.getD i false then n else n + 1) 0

/-- The first place from `lo` to `hi` where a mark is accepted with at most `k` differing bits. -/
def findMark (hard : Array Bool) (mark : List Bool) (k lo hi : Nat) : Option Nat :=
  ((List.range (hi + 1 - lo)).map (· + lo)).find? fun p => markDiff hard mark p ≤ k

/-- The outcome of *Frame alignment*: where header and codeword 1 start and where the rest starts, whether the first two are
re-detected, and whether mark A and mark B were found. -/
structure Alignment where
  head : Nat
  rest : Nat
  redetect : Bool
  aFound : Bool
  bFound : Bool
deriving DecidableEq, Repr

/-- Channel bits of header and codeword 1, which a re-detection spans (R117). -/
def State.redetSpan (s : State) (k : Nat) : Nat := s.modLen k (s.ff k 3 4 2) + s.ff k 3 7 1 * s.modLen k (s.ff k 3 0xA 2)

/-- Codeword 1's syndrome weight is above SYN_LIM when read at `p` (R116); it counts as within the limit where no enabled slot of DCF holds
the code (log entry 143). -/
def State.synHigh (s : State) (k : Nat) (l : List Int) (p : Nat) : Bool :=
  match s.codeSlot (s.ff k 5 0 2) with
  | some sl =>
    let h := s.modLen k (s.ff k 3 4 2)
    let cw := s.demod k ((l.drop (p + h)).take (s.modLen k (s.ff k 3 0xA 2)))
    s.ff k 3 0x10 2 < (s.code sl).syndromeWeight cw.toArray
  | none => false

/-- Align a frame from its soft decisions; bit 0 of `l` lies WIN channel bits before the frame's expected start. `first` opens
the mark A window throughout the preamble; `bOnly` tells whether mark B alone is enough (R91). -/
def State.align (s : State) (k : Nat) (l : List Int) (first bOnly : Bool) : Option Alignment :=
  let hard := (l.map fun v => decide (v < 0)).toArray
  let win := s.ff k 4 0x15 1
  let tol := s.ff k 4 0x14 1
  let pre := s.ff k 3 0 2
  let d := s.modLen k (s.ff k 4 0x12 2)
  let a := findMark hard (markBits (s.ff k 4 0 8)) (s.ff k 4 0x10 1) (if first then 0 else pre) (pre + 2 * win)
  let b := match a with
    | some p => findMark hard (markBits (s.ff k 4 8 8)) (s.ff k 4 0x11 1) (p + 64 + d - (tol + win)) (p + 64 + d + tol + win)
    | none =>
      if bOnly then findMark hard (markBits (s.ff k 4 8 8)) (s.ff k 4 0x11 1) (pre + 64 + d) (pre + 64 + d + 2 * win) else none
  let span := s.redetSpan k
  match a, b with
  | some p, some q =>
    let far := if p + 64 + d < q then q - (p + 64 + d) else p + 64 + d - q
    if far = 0 ∨ (far ≤ tol ∧ !s.synHigh k l (p + 64)) then some ⟨p + 64, p + 64 + d + 64, false, true, true⟩
    else some ⟨q - span, q + 64, true, true, true⟩
  | some p, none => some ⟨p + 64, p + 64 + d + 64, false, true, false⟩
  | none, some q => some ⟨q - span, q + 64, true, false, true⟩
  | none, none => none

/-- The inputs of codewords that lie one after another from place `p`. -/
def State.cwInputs (s : State) (k : Nat) (l : List Int) (p n : Nat) : List (Option (List Int)) :=
  let len := s.modLen k (s.ff k 3 0xA 2)
  (List.range n).map fun i =>
    let w := s.demod k ((l.drop (p + i * len)).take len)
    if w.length = s.ff k 3 0xA 2 then some w else none

/-- The header read at place `p`. -/
def State.headerAt (s : State) (k : Nat) (l : List Int) (p : Nat) : Option (Nat × FrameId) :=
  let w := s.demod k ((l.drop p).take (s.modLen k (s.ff k 3 4 2)))
  headerRead (s.framesOf k) (bitsToBytes (s.ff k 3 4 2 / 8) (w.map fun v => decide (v < 0)))

/-! ### FMT's state -/

def State.rtrk (s : State) (t : Nat) : ReadTrack := mapGet (fun _ => ReadTrack.init) s.fmt.rtracks t

def State.setRtrk (s : State) (t : Nat) (x : ReadTrack) : State :=
  s.setFmt { s.fmt with rtracks := mapSet (fun _ => ReadTrack.init) s.fmt.rtracks t x }

/-- FMT_STAT shows the engine; the head rewrite record stands in FMT_RWDSN and FMT_RWREC. -/
def State.showFmt (s : State) : State :=
  let f := s.fmt
  let s := (s.fset pFmt Reg.FMT_STAT 2 1 (if f.whole.isEmpty then 0 else 1)).fset pFmt Reg.FMT_STAT 8 8
    (min 255 ((f.cur.map (·.charged)).getD 0))
  let s := s.fset pFmt Reg.FMT_STAT 16 3 f.opens.length
  match f.queue with
  | r :: _ => (s.rset pFmt Reg.FMT_RWDSN (BitVec.ofNat 32 r.dsn)).rset pFmt Reg.FMT_RWREC
      (BitVec.ofNat 32 (r.word + f.lost * 2 ^ 18 + 2 ^ 31))
  | [] => (s.rset pFmt Reg.FMT_RWDSN 0).rset pFmt Reg.FMT_RWREC (BitVec.ofNat 32 (f.lost * 2 ^ 18))

/-- The active read formats in order (FMT_RFMT), under the epoch of the open pass. -/
def State.readSlots (s : State) : List Nat :=
  let w := match s.tape.pass with
    | some p => s.setting pFmt p.fmt pFmt Reg.FMT_RFMT
    | none => s.rg pFmt Reg.FMT_RFMT
  (List.range 3).filterMap fun i => if bitsOf w (4 * i + 3) 1 = 1 then some (bitsOf w (4 * i) 3) else none

/-- The format in use on read: the one selected by the lead-in, or the first active one before that. -/
def State.readFmt (s : State) : Option Nat :=
  match s.fmt.rslot with
  | some k => some k
  | none => s.readSlots.head?

/-! ### Reading: data sets in assembly (R118, R121, R122) -/

/-- The cell of the frame's codeword `i`. -/
def State.frameCell (s : State) (k t f i : Nat) : Nat := (t * s.framesOf k + f) * s.ncw k + i

/-- A codeword of data set `dsn` has decoded: the first copy that decodes is kept. -/
def State.cellStore (s : State) (dsn cell : Nat) (b : List Byte) : State :=
  s.setFmt { s.fmt with opens := s.fmt.opens.map fun o =>
    if o.dsn = dsn ∧ (mapFind o.cells cell).isNone then { o with cells := mapPut o.cells cell b } else o }

/-- Data set `dsn` is open in assembly, if it has not been delivered in this band pass and there is room: the frames of a fifth data set are
dropped, and while delivery waits for port 1 TPI backhitches (R122, R240; log entry 143). -/
def State.openSet (s : State) (dsn : Nat) : State :=
  if s.fmt.opens.any (·.dsn == dsn) ∨ s.fmt.last.any (dsn ≤ ·) then s
  else if 4 ≤ s.fmt.opens.length then (if s.fmt.out.isEmpty then s else s.backhitch)
  else (s.setFmt { s.fmt with opens := s.fmt.opens ++ [⟨dsn, [], s.fmt.interval, false⟩] }).showFmt

/-- The inner code of KIND 1, in FMT: hard decisions to bytes, decoded as a Reed-Solomon word over GF(2⁸) with the field polynomial and the
first root of the outer-code section (R110; log entry 143). -/
def State.innerRs (s : State) (k : Nat) (w : List Int) : Option (List Byte) :=
  let n := s.ff k 3 0xA 2 / 8
  let u := s.cwBytes k
  let f : RsField := ⟨8, s.ff k 6 0 4, s.ff k 6 0xA 2, n - u⟩
  (f.decode ((bitsToBytes n (w.map fun v => decide (v < 0))).map (·.toNat)) []).map fun x => (x.take u).map (BitVec.ofNat 8)

/-- Firmware's work tag for the open band pass (R22; log entry 145). -/
def passTag : Nat := 1

/-- A frame of known identity gives its codewords: to DCF, or to FMT's own decoder. -/
def State.frameDeliver (s : State) (k t : Nat) (f : FrameId) (cws : List (Option (List Int))) : State :=
  if f.frame ≥ s.framesOf k then s
  else
    let s := s.openSet f.dsn
    (List.range cws.length).foldl (fun s i =>
      match cws.getD i none with
      | none => s
      | some w =>
        let cell := s.frameCell k t f.frame i
        if s.ff k 5 4 1 = 1 then
          match s.innerRs k w with
          | some b => s.cellStore f.dsn cell b
          | none => s
        else
          let r : CwReq := ⟨s.ff k 5 0 2, 0, if s.hardOut then 1 else 0, 0, 0, passTag, s.ff k 5 8 4, .tape f.dsn cell, w, false⟩
          s.setDcf { s.dcf with want := s.dcf.want ++ [r] }) s

/-- A frame discarded for its header (R118). -/
def State.frameDiscard (s : State) : State := s.errCnt pFmt 2

/-- Settle the frame held on track `t` when the next frame's header is `next` (R118). -/
def State.heldSettle (s : State) (k t : Nat) (next : Option FrameId) : State :=
  let r := s.rtrk t
  match r.held with
  | none => s
  | some h =>
    let s := s.setRtrk t { r with held := none }
    match r.prev, next with
    | some p, some n =>
      if p.dsn = n.dsn ∧ p.frame + 2 = n.frame ∧ n.frame < s.framesOf k ∧ p.rewrite = 0 ∧ n.rewrite = 0 then
        s.frameDeliver k t ⟨p.dsn, p.copy, p.frame + 1, 0⟩ h.cws
      else s.frameDiscard
    | _, _ => s.frameDiscard

/-- A frame of track `t` has been read: its header, where readable, and its codewords. -/
def State.frameTake (s : State) (k t : Nat) (header : Option FrameId) (cws : List (Option (List Int))) : State :=
  let after := (s.rtrk t).held.isSome
  let s := s.heldSettle k t header
  match header with
  | some f => (s.setRtrk t { s.rtrk t with prev := some f }).frameDeliver k t f cws
  | none =>
    let r := s.rtrk t
    s.setRtrk t { r with held := some ⟨none, cws, false⟩, prev := if after then none else r.prev }

/-- A frame whose position follows a held frame is lost: what was held is settled without it. -/
def State.frameLost (s : State) (k t : Nat) : State :=
  let s := s.heldSettle k t none
  let s := s.setRtrk t { s.rtrk t with prev := none }
  (s.cntSat pFmt (Reg.FMT_SPOIL 2) 0 32 1).raise pFmt 5

/-! ### Reading: frames -/

/-- A frame of the pass has passed on track `t` (R90, R114): the frames of the lead-in and of acquisition are counted, and event 11 comes once
every track has had its lead-in. -/
def State.leadInStep (s : State) (k t : Nat) : State :=
  let f := s.fmt
  let n := mapGet (fun _ => 0) f.leadIn t
  let lead := s.ff k 3 0xD 1
  if max lead 2 ≤ n then s
  else
    let m := mapSet (fun _ => 0) f.leadIn t (n + 1)
    let s := s.setFmt { f with leadIn := m }
    let done := (List.range s.ntrk).all fun u => (s.inputOf u).isNone || lead ≤ mapGet (fun _ => 0) m u
    if done ∧ n < lead then s.raise pFmt 11 else s

/-- The track map takes the inputs of format `k` (R98, R100, R108; log entry 142). -/
def State.mapTracks (s : State) (k : Nat) : State :=
  (List.range (s.trksOf k)).foldl (fun s t => s.fset (pTdt + 3) (Reg.TDT_MAP t) 0 7 (s.ff k 1 (4 + t) 1)) s

/-- A frame of a pass that no active read format matches is not decoded (R130). -/
def State.frameUndecoded (s : State) : State := s.cntSat pFmt (Reg.FMT_SPOIL 2) 0 32 1

/-- A lead-in header, read under format `k` as FORMAT_ID `id`, selects the read format, or finds that none matches (R130; log entry 33). -/
def State.selectFormat (s : State) (k id : Nat) : State :=
  if s.fmt.rslot.isSome ∨ s.fmt.mismatch then s
  else if (s.table pFmt k).any (·.id == id) then (s.setFmt { s.fmt with rslot := some k }).mapTracks k
  else ((s.setFmt { s.fmt with mismatch := true }).raise pFmt 9).frameUndecoded

/-- Re-detection of track `t`'s header and codeword 1 starts, from channel bit `first` (R116, R117). -/
def State.startRedetect (s : State) (k t first : Nat) (h : HeldFrame) : State :=
  let s := s.setRtrk t { s.rtrk t with redet := (s.rtrk t).redet ++ [h] }
  s.redetRequest ⟨t, first, s.redetSpan k, true⟩

/-- What TDT delivers of the frame of track `t` under format `k`, from WIN channel bits before its expected start (R115). -/
def State.frameSoft (s : State) (k t : Nat) : List Int :=
  let win := s.ff k 4 0x15 1
  let st := (s.rtrk t).start
  List.replicate (win - st) 0 ++ s.delivered t (st - win) (s.frameLen k + 2 * win + s.ff k 4 0x14 1 - (win - st))

/-- The active read formats that may apply to a frame of the lead-in: all of them until one is selected (R130). -/
def State.leadFormats (s : State) : List Nat :=
  match s.fmt.rslot with
  | some k => [k]
  | none => s.readSlots

/-- The format under which a frame of track `t` aligns, with its soft decisions and alignment: the first whose own FORMAT_ID its header
gives, else the first under which a header reads, else the first; `opens_` tells that it is the first frame of the pass. -/
def State.frameFormat (s : State) (t : Nat) (opens_ : Bool) : Option (Nat × List Int × Option Alignment) :=
  let c := s.leadFormats.map fun k => let l := s.frameSoft k t; (k, l, s.align k l opens_ (s.rtrk t).aligned)
  let idOf (x : Nat × List Int × Option Alignment) : Option Nat := x.2.2.bind fun a => (s.headerAt x.1 x.2.1 a.head).map (·.1)
  match c.find? fun x => (idOf x).any fun id => (s.table pFmt x.1).any (·.id == id) with
  | some x => some x
  | none => match c.find? fun x => (idOf x).isSome with
    | some x => some x
    | none => c.head?

/-- A frame of track `t` that lies in the lead-in or in the acquisition frames: its header alone is read (R90, R116, R130); `base` is its
expected start. -/
def State.frameLead (s : State) (k t base : Nat) (l : List Int) (al : Option Alignment) : State :=
  match al with
  | none => s.frameUndecoded.raise pFmt 5
  | some a =>
    if a.redetect then s.startRedetect k t (base + a.head - s.ff k 4 0x15 1) ⟨none, [], true⟩
    else match s.headerAt k l a.head with
      | some (id, f) => (s.selectFormat k id).setRtrk t { (s.selectFormat k id).rtrk t with prev := some f }
      | none => s

/-- A data frame of track `t` (R115 to R118). -/
def State.frameData (s : State) (k t base : Nat) (l : List Int) (al : Option Alignment) : State :=
  match al with
  | none => s.frameLost k t
  | some a =>
    let after := s.ff k 3 7 1
    let rest := s.cwInputs k l a.rest (s.ncw k - after)
    if a.redetect then s.startRedetect k t (base + a.head - s.ff k 4 0x15 1) ⟨none, rest, false⟩
    else
      let head := s.cwInputs k l (a.head + s.modLen k (s.ff k 3 4 2)) after
      s.frameTake k t ((s.headerAt k l a.head).map (·.2)) (head ++ rest)

/-- FMT takes the next frame of track `t` once its channel bits have been detected (R115 to R118, R130; log entry 143). -/
def State.frameAlign (s : State) (t : Nat) : State :=
  match s.frameFormat t (mapGet (fun _ => 0) s.fmt.leadIn t == 0), s.tape.pass with
  | some (k, l, al), some _ =>
    let r := s.rtrk t
    let len := s.frameLen k
    if (s.cpl t).done < r.start + len then s else
    let n := mapGet (fun _ => 0) s.fmt.leadIn t
    let al := if (s.inputOf t).any s.locked && !s.dead t && !s.rateErr then al else none
    let next := match al with
      | some a => r.start + a.head + len - (s.ff k 4 0x15 1 + 64 + s.ff k 3 0 2)
      | none => r.start + len
    let s := s.setRtrk t { r with start := next, aligned := r.aligned || al.any (·.aFound) }
    let s := s.leadInStep k t
    let s := match al with
      | some a =>
        let s := s.trackRevive t a.aFound
        let s := if a.redetect && a.aFound then (s.errCnt pFmt 0).raise pFmt 6 else s
        if !a.aFound then s.errCnt pFmt 1 else s
      | none => s
    if s.fmt.mismatch then s.frameUndecoded
    else if n < max (s.ff k 3 0xD 1) 2 then s.frameLead k t r.start l al
    else (s.setFmt { s.fmt with rslot := some k }).frameData k t r.start l al
  | _, _ => s

/-- A re-detection of track `t` has ended with soft decisions `l`, or was refused (R117). -/
def State.redetDone (s : State) (t : Nat) (l : Option (List Int)) : State :=
  match s.readFmt, (s.rtrk t).redet with
  | some k, h :: r =>
    let s := s.setRtrk t { s.rtrk t with redet := r }
    let after := s.ff k 3 7 1
    if h.lead then
      match l.bind fun l => s.headerAt k l 0 with
      | some (id, _) => s.selectFormat k id
      | none => s
    else match l with
    | some l =>
      s.frameTake k t ((s.headerAt k l 0).map (·.2)) (s.cwInputs k l (s.modLen k (s.ff k 3 4 2)) after ++ h.cws)
    | none => s.frameTake k t none (List.replicate after none ++ h.cws)
  | _, _ => s

/-! ### Reading: separators and delivery (R122, R194) -/

/-- The divert area is full: HELD is SIZE, or fewer than 96 rows are free (R224). -/
def State.divFull (s : State) : Bool :=
  s.fget pFtm Reg.FTM_DIV 0 16 ≤ s.tpi.divert.length || s.flash.free.length < 96

/-- The program backlog is above BUSY_LVL MiB (R224). -/
def State.divBusy (s : State) : Bool :=
  s.fget pFtm Reg.FTM_DIV 16 16 * 2 ^ 20 < (s.flash.progs.length + s.flash.moves.length) * 16384

/-- FTM_DIV_STAT.HELD shows the divert area; FULL and BUSY are computed when they are read. -/
def State.showDivert (s : State) : State := s.fset pFtm Reg.FTM_DIV_STAT 0 16 s.tpi.divert.length

/-- Event 9 of FTM where the area has filled since it was `full` or not. -/
def State.divertFills (s : State) (full : Bool) : State := if s.divFull && !full then s.raise pFtm 9 else s

/-- A Stage Zone transfer is the consumer (R195): such a command has been taken up and has not ended. -/
def State.stageRuns (s : State) : Bool := s.cmds.any fun e => e.2.e.opc == 0xC8 && e.2.sq != 0 && e.2.accepted && !e.2.ended

/-- FTM can absorb a diverted data set (R224), and divert is allowed (R195). -/
def State.canAbsorb (s : State) : Bool :=
  !s.stageRuns && !s.divFull && !s.divBusy

/-- A data set goes to the ring through port 1 (R17, R238; log entry 34). -/
def State.toRing (s : State) (dsn : Nat) (b : List Byte) (bad : List Nat) : State :=
  let t := s.tpi
  let l := s.ringPieces t.tail b.length
  let k := (l.headD (0, 0)).2
  let s := s.setFmt { s.fmt with out := s.fmt.out ++ (l.zip [b.take k, b.drop k]).map fun x => (x.1.1, x.2) }
  let s := s.fmtFeed (s.fmt.out.length + 1)
  (s.setTpi { t with ring := t.ring ++ [⟨some dsn, t.tail, b.length, bad, none, []⟩], tail := (t.tail + b.length) % s.ringSize }).showRing

/-- A data set goes to the flash tier (R194): its units wait to be written (R224; log entry 145). -/
def State.toDivert (s : State) (dsn : Nat) (b : List Byte) (bad : List Nat) : State :=
  let t := s.tpi
  let units := (chunks 16384 b).zipIdx.map fun x => (⟨Config.divertUnit dsn x.2, padTo 16384 x.1, none, false, 0, some dsn⟩ : Relocate)
  let full := s.divFull
  let s := { s with flash := { s.flash with moves := s.flash.moves ++ units } }
  (((s.setTpi { t with divert := t.divert ++ [⟨some dsn, 0, b.length, bad, none, b⟩] }).cntSat pTpi Reg.TPI_DIV_CNT 0 32 1).showDivert).divertFills
    full

/-- A data set arrives (*Destination of an arriving data set*): true where it was delivered. At STOP or above it is the margin of the ring
that takes it while it fits (R196; log entry 149). -/
def State.setArrives (s : State) (dsn : Nat) (b : List Byte) (bad : List Nat) : State × Bool :=
  let absorb := s.canAbsorb
  let onLvl := s.ringAtLeast (s.fget pTpi Reg.TPI_DIV 0 7)
  let stop := s.ringAtLeast (s.fget pTpi Reg.TPI_DIV 16 7)
  if absorb && (s.divertOn || onLvl) then
    let s := if s.divertOn then s else (s.fset pTpi Reg.TPI_STAT 19 1 1).raise pTpi 8
    (s.toDivert dsn b bad, true)
  else if s.ringSize < s.ringFill + b.length then (s.backhitch, false)
  else if stop then (s.backhitch.toRing dsn b bad, true)
  else (s.toRing dsn b bad, true)

/-- The outer decode of an open data set: its user area and the groups that failed. -/
def State.outerDecode (s : State) (k : Nat) (o : OpenSet) : List Byte × List Nat :=
  let gs := (List.range (s.groups k)).map fun g => s.outerGroup k g (mapFind o.cells)
  let bad := (List.range (s.groups k)).filter fun g => (gs.getD g none).isNone
  let zero := List.replicate (s.cwBytes k) (0 : Byte)
  ((List.range (s.outerK k * s.groups k)).flatMap fun d =>
    (((gs.getD (d % s.groups k) none).map fun l => l.getD (d / s.groups k) zero).getD zero), bad)

/-- The first of the open data sets in DSN order. -/
def firstOpen (l : List OpenSet) : Option OpenSet :=
  l.foldl (fun (m : Option OpenSet) o => match m with
    | some x => if o.dsn < x.dsn then some o else some x
    | none => some o) none

/-- Where the tape data set was read: the cartridge. -/
def State.cartId (s : State) : Nat := s.tpi.cart.getD 0

/-- AUX of a media log entry of the tape: DSN, band and copy (R577). -/
def State.tapeAux (s : State) (dsn copy : Nat) : Nat := dsn % 2 ^ 32 + (s.tape.pass.map (·.band)).getD 0 % 256 * 2 ^ 32 + copy % 256 * 2 ^ 40

/-- Data sets that are due close and are delivered in DSN order (R122), at most `n` of them; delivery is held while port 1 has not taken the
one before (R240). -/
def State.closeDue (s : State) (k : Nat) : Nat → State
  | 0 => s
  | n + 1 =>
    match firstOpen s.fmt.opens with
    | none => s
    | some o =>
      if s.fmt.interval < o.interval + 1 then s
      else
        let (b, bad) := s.outerDecode k o
        if !bad.isEmpty && s.fmt.interval < o.interval + 3 then
          s.setFmt { s.fmt with opens := s.fmt.opens.map fun x => if x.dsn = o.dsn then { x with failed := true } else x }
        else if !s.fmt.out.isEmpty then s.rtShort 1
        else
          match s.setArrives o.dsn b bad with
          | (s, false) => s
          | (s, true) =>
            let s := (s.setFmt { s.fmt with opens := s.fmt.opens.filter fun x => x.dsn ≠ o.dsn, last := some o.dsn }).showFmt
            let s := if bad.isEmpty then s
              else ((s.cntSat pFmt (Reg.FMT_SPOIL 3) 0 32 1).raise pFmt 8).mediaAdd 0x12 1024 0 0 1 s.cartId (s.tapeAux o.dsn 0)
            s.closeDue k n

/-- The head-wear part of AGM's summaries (R540): the largest CH_WEAR value and its input; crossing its threshold raises
AGM event 6. -/
def State.headWear (s : State) (wr : Nat) : State :=
  let val (n : Nat) : Int := signedOf 16 (s.fget (pCh n) Reg.CH_WEAR (16 * wr) 16)
  let n := (List.range 70).foldl (fun b n => if val b < val n then n else b) 0
  let old := signedOf 16 (s.fget pAgm (Reg.AGM_WEAR 0) 0 16)
  let thr : Int := s.fget pAgm Reg.AGM_WTHR 0 8
  let s := (s.fset pAgm (Reg.AGM_WEAR 0) 0 16 (unsignedOf 16 (val n))).fset pAgm (Reg.AGM_WEAR 0) 16 7 n
  if old < thr ∧ thr ≤ val n then s.raise pAgm 6 else s

/-- Frames held at the end of the band pass have no frame after them: they are discarded (R118). -/
def State.heldEnd (s : State) : State :=
  (List.range 64).foldl (fun s t =>
    if (s.rtrk t).held.isSome then (s.setRtrk t { s.rtrk t with held := none }).frameDiscard else s) s

/-- The band pass is over: the jobs of TFE, TDT and, in a read, of FMT end, and the gate drops. -/
def State.passOver (s : State) : State :=
  match s.tape.pass with
  | none => s
  | some p =>
    let s := (s.endJob pTfe p.tfe).endJob pTdt p.tdt
    let s := if p.write then s else s.endJob pFmt p.fmt
    let s := { s with tape := { s.tape with pass := none } }
    ((s.fset pFmt Reg.FMT_STAT 1 1 0).writeGate false).resCheck

/-- The band pass ends (R93, R185): wear is written, the jobs of TFE, TDT and FMT end, and the loops are idle. -/
def State.passEnd (s : State) : State :=
  match s.tape.pass with
  | none => s
  | some p =>
    let mode := s.tfeF pTfe Reg.TFE_CTRL 0 2
    let s := if mode = 1 ∨ mode = 2 then
        ((List.range 70).foldl (fun s n =>
          if s.chEn n && (mode == 1 || n < 66) then
            s.fset (pCh n) Reg.CH_WEAR (16 * (mode - 1)) 16 (unsignedOf 16 (Int.fdiv (s.chan n).wear (2 ^ 24)))
          else s) s).headWear (mode - 1)
      else s
    let s := s.raise pTfe 8
    let s := (List.range 70).foldl (fun s n => (s.fset (pCh n) Reg.CH_STAT 1 2 0).setTim n 8 1 2 0) s
    (if p.write then s else s.heldEnd).passOver

/-- A data-set separator on read (R122, R185): the pass ends where STREAM was 0 before it (R196). -/
def State.separator (s : State) : State :=
  match s.tape.pass, s.readFmt with
  | some p, some k =>
    if p.write then s
    else
      let go := s.streaming
      let s := s.closeDue k 4
      let s := s.setFmt { s.fmt with interval := s.fmt.interval + 1 }
      if go then s else s.passEnd
  | _, _ => s

/-! ### Writing (R124 to R128) -/

/-- The write format in force for the data set in progress. -/
def State.writeFmt (s : State) : Option Nat :=
  let w := match s.fmt.job with
    | some e => s.setting pFmt e pFmt Reg.FMT_WFMT
    | none => s.rg pFmt Reg.FMT_WFMT
  if bitsOf w 7 1 = 1 then some (bitsOf w 0 3) else none

/-- The data codeword that a cell holds; none for parity (R119, R120). -/
def State.dataOf (s : State) (k cell : Nat) : Option Nat :=
  let (g, j) := s.symbolOf k cell
  if j < s.outerK k then some (j * s.groups k + g) else none

/-- The data codewords of a data set in the order in which its frames need them. -/
def State.needOrder (s : State) (k : Nat) : List Nat :=
  (List.range (s.framesOf k)).flatMap fun f => (List.range (s.trksOf k)).flatMap fun t =>
    (List.range (s.ncw k)).filterMap fun i => s.dataOf k (s.frameCell k t f i)

/-- FMT names the codewords of the data set at place `ofs` of the ring to port 0 (R15, R238). -/
def State.fetchName (s : State) (k ofs : Nat) : State :=
  let l := s.needOrder k
  let s := s.setFmt { s.fmt with named := s.fmt.named ++ l.map fun d => (ofs, d) }
  s.rtName 0 (l.flatMap fun d => s.ringPieces (ofs + d * s.cwBytes k) (s.cwBytes k))

/-- The codewords that FMT has taken of the data set at place `ofs`. -/
def State.takenOf (s : State) (ofs : Nat) : FMap (List Byte) := mapGet (fun _ => []) s.fmt.taken ofs

/-- FMT takes codewords from the buffer of port 0 in order until it has all of `want` of the data set at place `ofs`; false where the buffer
runs empty first (R240). -/
def State.fetchUntil (s : State) (k ofs : Nat) (want : List Nat) : Nat → State × Bool
  | 0 => (s, want.all fun d => (mapFind (s.takenOf ofs) d).isSome)
  | n + 1 =>
    if want.all fun d => (mapFind (s.takenOf ofs) d).isSome then (s, true) else
    match s.fmt.named with
    | (o, d) :: q =>
      if s.rtFillOf 0 < s.cwBytes k then (s, false)
      else
        let (s, b) := s.rtTake 0 (s.cwBytes k)
        let t := if s.tpi.ring.any (·.ofs == o) then mapPut s.fmt.taken o (mapPut (s.takenOf o) d b) else s.fmt.taken
        (s.setFmt { s.fmt with named := q, taken := t }).fetchUntil k ofs want n
    | [] => (s, false)

/-- The user area of a data set from the codewords taken. -/
def State.takenUser (s : State) (k ofs : Nat) : List Byte :=
  let m := s.takenOf ofs
  (List.range (s.outerK k * s.groups k)).flatMap fun d => (mapFind m d).getD (List.replicate (s.cwBytes k) 0)

/-- FMT forgets what it has taken of data sets that have left the ring. -/
def State.forgetTaken (s : State) : State :=
  s.setFmt { s.fmt with taken := s.fmt.taken.filter fun e => s.tpi.ring.any (·.ofs == e.1) }

/-- Data sets that zone capacity takes under write format `k` (R127). -/
def State.zoneSets (s : State) (k : Nat) : Nat := ceilDiv (s.ff k 11 4 4 * s.ff k 11 0xC 2) (max 1 (s.userArea k))

/-- Data set `i` of zone `z`: its bytes in LBA order; blocks that hold nothing are zeros (R127, R439). -/
def State.zoneSet (s : State) (k z i : Nat) : List Byte :=
  let u := s.userArea k
  let base := 1024 * 2 ^ 64 + z * s.ff k 11 0 4
  let z4 := max 1 (s.ff k 11 0xC 2)
  let lo := i * u / z4
  let hi := ceilDiv ((i + 1) * u) z4
  let bytes := (List.range (hi - lo)).flatMap fun j =>
    let b := if lo + j < s.ff k 11 4 4 then mapFind s.blocks (base + lo + j) else none
    match b with
    | some x => padTo z4 x.data
    | none => List.replicate z4 0
  (bytes.drop (i * u - lo * z4)).take u

/-- The destage of zone `z` puts data sets into the ring while it has room for them. -/
def State.zoneFill (s : State) (k z : Nat) : Nat → State
  | 0 => s
  | n + 1 =>
    match mapFind s.zones z with
    | some x =>
      let u := s.userArea k
      if s.zoneSets k ≤ x.sent ∨ s.ringSize < s.ringFill + u then s
      else
        let t := s.tpi
        let s := s.ringWrite t.tail (s.zoneSet k z x.sent)
        let s := (s.setTpi { t with ring := t.ring ++ [⟨none, t.tail, u, [], some z, []⟩], tail := (t.tail + u) % s.ringSize }).showRing
        let s := s.fetchName k t.tail
        State.zoneFill { s with zones := mapPut s.zones z { x with sent := x.sent + 1 } } k z n
    | none => s

/-- The destage of zone `z` starts: its places are counted anew, and its first data sets go to the ring (R15, R127). -/
def State.destageBegin (s : State) (k z : Nat) (x : Zone) : State :=
  let s := s.setFmt { s.fmt with places := mapDel s.fmt.places z }
  State.zoneFill { s with zones := mapPut s.zones z { x with destaging := true, sent := 0 } } k z (s.zoneSets k)

/-- Data set `dsn` is written and verified: it leaves the ring, which takes the zone's next ones, and the zone is destaged once
it was the last. -/
def State.setWritten (s : State) (k dsn : Nat) : State :=
  match s.tpi.ring.find? (·.dsn == some dsn) with
  | none => s
  | some r =>
    let s := (s.setTpi { s.tpi with ring := s.tpi.ring.filter fun x => x.dsn ≠ some dsn }).showRing.forgetTaken
    match r.zone with
    | none => s
    | some z =>
      let s := s.zoneFill k z (s.zoneSets k)
      if s.tpi.ring.any (·.zone == some z) then s
      else match mapFind s.zones z with
        | some x => if x.destaging then { s with zones := mapPut s.zones z { x with destaging := false, destaged := true } } else s
        | none => s

/-- A whole-data-set rewrite of `w` is scheduled (R125); its other rewrites are dropped (log entry 44). -/
def State.wholeRewrite (s : State) (w : WriteSet) : State :=
  let f := s.fmt
  let drop (l : List (FrameId × Nat)) := l.filter fun x => x.1.dsn ≠ w.dsn
  let nw : WriteSet := ⟨w.dsn, w.copy + 1, 0, w.zone⟩
  let s := s.setFmt { f with
    late := f.late.filter fun x => x.dsn ≠ w.dsn
    whole := (f.whole.filter fun x => x.dsn < w.dsn) ++ [nw] ++ (f.whole.filter fun x => w.dsn < x.dsn)
    tracks := f.tracks.map fun t => (t.1, { t.2 with rewrites := drop t.2.rewrites }) }
  let s := ((s.cntSat pFmt (Reg.FMT_SPOIL 1) 0 32 1).errCnt pFmt 3).raise pFmt 7
  (s.mediaAdd 0x11 1024 0 0 1 s.cartId (s.tapeAux w.dsn nw.copy)).showFmt

/-- Every track has written all original frames of the current data set, and as many slots as every other track (R124). -/
def State.intervalDone (s : State) (k : Nat) : Bool :=
  (List.range (s.trksOf k)).all fun t => s.framesOf k ≤ (s.wtrk t).next && (s.wtrk t).slots == (s.wtrk 0).slots

/-- Frames of data set `dsn` wait for their verify, or to be rewritten. -/
def State.unjudged (s : State) (dsn : Nat) : Bool :=
  s.fmt.tracks.any fun t => (t.2.rewrites.map (·.1) ++ t.2.issued).any (·.dsn == dsn)

/-- No data set follows the last one written: it is done once none of its frames waits. -/
def State.lastDone (s : State) (k : Nat) : State :=
  match s.fmt.prev with
  | some p =>
    if s.unjudged p.dsn ∨ s.fmt.whole.any (·.dsn == p.dsn) then s
    else (s.setFmt { s.fmt with prev := none }).setWritten k p.dsn
  | none => s

/-- The interval of the data set in progress ends: its separator goes to all tracks (R114), its places are counted (R127, R128), rewrites
that would fall after interval N + 1 become a whole rewrite, and the data set before it is done.  The zone whose destage fails for want of
places, if any. -/
def State.intervalEnd (s : State) (k : Nat) : State × Option Nat :=
  match s.fmt.cur with
  | none => (s, none)
  | some w =>
    let s := (List.range (s.trksOf k)).foldl (fun s t => s.trackOut t (s.separatorBits k)) s
    let f := s.fmt
    let band := (s.tape.pass.map (·.band)).getD 0
    let lpos := (s.rg pSvd Reg.SVD_LPOS).toInt
    let used := max 1 (ceilDiv (lpos - f.sepAt).natAbs (s.ff k 11 0x10 2))
    let before := mapGet (fun _ => 0) f.places w.zone
    let places := before + used
    let limit := s.ff k 11 8 2
    let spills := mapGet (fun _ => 0) f.spills band + (places - max limit before)
    let first := limit < places && before ≤ limit
    let s := s.setFmt { f with
      places := mapSet (fun _ => 0) f.places w.zone places, spills := mapSet (fun _ => 0) f.spills band spills, sepAt := lpos }
    let s := if first then s.raise pFmt 10 else s
    let fail := s.ff k 11 0xA 2 < spills
    let s := f.job.elim s (s.endJob pFmt)
    let s := match f.prev with
      | some p =>
        if f.tracks.any fun t => t.2.rewrites.any (·.1.dsn == p.dsn) then s.wholeRewrite p
        else if w.dsn = p.dsn ∨ f.whole.any (·.dsn == p.dsn) then s
        else if s.unjudged p.dsn then s.setFmt { s.fmt with late := s.fmt.late ++ [p] }
        else s.setWritten k p.dsn
      | none => s
    (s.setFmt { s.fmt with prev := some w, cur := none, job := none }, if fail then some w.zone else none)

/-- The next data set is to be written on all tracks (R124): a whole rewrite before the next one in DSN order. -/
def State.setStart (s : State) : State :=
  let f := s.fmt
  let begin_ (s : State) (w : WriteSet) : State :=
    (s.setFmt { s.fmt with
      cur := some w, job := none
      tracks := s.fmt.tracks.map fun t => (t.1, { t.2 with next := 0, slots := 0 }) }).showFmt
  match f.whole with
  | w :: r => begin_ (s.setFmt { f with whole := r }) w
  | [] =>
    match s.tpi.ring.find? (·.dsn == none) with
    | none => s
    | some r =>
      let dsn := (s.rg pFmt Reg.FMT_DSN).toNat
      let s := s.setTpi { s.tpi with ring := s.tpi.ring.map fun x => if x.ofs = r.ofs then { x with dsn := some dsn } else x }
      begin_ (s.rset pFmt Reg.FMT_DSN (BitVec.ofNat 32 (dsn + 1))) ⟨dsn, 0, 0, r.zone.getD 0⟩

/-- The data set in progress is accepted as a job when its first frame is issued (R101). -/
def State.jobStart (s : State) : State :=
  if s.fmt.job.isSome then s else (s.accept pFmt).setFmt { s.fmt with job := some (s.epoch pFmt) }

/-- The DSN and the format of a data set that this device writes to the cartridge (R192). -/
def State.noteWrote (s : State) (k dsn : Nat) : State :=
  s.setTpi { s.tpi with wrote := some ⟨(s.tpi.wrote.map (·.first)).getD dsn, dsn, s.formatWord k⟩ }

/-- A frame goes to track `t`'s write output (R94). -/
def State.frameSend (s : State) (k t : Nat) (f : FrameId) (cws : List (List Byte)) : State :=
  let band := (s.tape.pass.map (·.band)).getD 0
  s.trackOut t (s.frameBits k (s.headerBytes k t f band) (cws.map (s.innerBits k)))

/-- The user bytes of the codewords of frame `f` on track `t`: a frame with parity needs the whole data set; none where port 0 has not
brought them (R240; log entry 33). -/
def State.frameUser (s : State) (k t : Nat) (f : FrameId) : State × Option (List (List Byte)) :=
  let cells := (List.range (s.ncw k)).map (s.frameCell k t f.frame)
  match s.tpi.ring.find? (·.dsn == some f.dsn) with
  | none => (s, some (cells.map (s.cwUser k [])))
  | some r =>
    let ds := cells.map (s.dataOf k)
    let want := if ds.contains none then List.range (s.outerK k * s.groups k) else ds.filterMap id
    match s.fetchUntil k r.ofs want s.fmt.named.length with
    | (s, true) => let user := s.takenUser k r.ofs; (s, some (cells.map (s.cwUser k user)))
    | (s, false) => (s, none)

/-- An underrun of port 0 (R21, R197, R240): FMT abandons the data set in progress, which is to be written again. -/
def State.writeUnderrun (s : State) : State :=
  match s.fmt.cur, s.tpi.underrun with
  | some w, none =>
    let s := (s.rtShort 0).setTpi { s.tpi with underrun := some s.tb.toNat }
    let s := ((s.errCnt pTpi 1).cntSat pTpi Reg.TPI_UNDER_CNT 0 32 1).cntSat pFmt (Reg.FMT_SPOIL 1) 0 32 1
    let f := s.fmt
    let s := f.job.elim s (s.endJob pFmt)
    let nw : WriteSet := ⟨w.dsn, w.copy + 1, 0, w.zone⟩
    let s := s.setFmt { f with
      cur := none
      job := none
      whole := nw :: f.whole
      tracks := f.tracks.map fun t => (t.1, { t.2 with rewrites := t.2.rewrites.filter fun x => x.1.dsn ≠ w.dsn }) }
    (s.mediaAdd 0x11 1024 0 0 1 s.cartId (s.tapeAux w.dsn nw.copy)).showFmt.raise pTpi 11
  | _, _ => s

/-- A frame rewrite of track `t`: it is counted, and its record is queued or counted as lost (R126). -/
def State.rewriteRecord (s : State) (t : Nat) (f : FrameId) (cause : Nat) : State :=
  let m := s.fmt
  let s := (s.cntSat pFmt (Reg.FMT_SPOIL 0) 0 32 1).mediaAdd 0x10 1024 0 0 1 s.cartId (s.tapeAux f.dsn f.copy)
  if 64 ≤ m.queue.length then (s.setFmt { m with lost := min 255 (m.lost + 1) }).showFmt
  else ((s.setFmt { m with queue := m.queue ++ [⟨f.dsn, f.frame + t * 2 ^ 8 + cause * 2 ^ 14⟩] }).showFmt).raise pFmt 12

/-- Track `t` writes frame `f` of a data set. -/
def State.slotIssue (s : State) (k t : Nat) (f : FrameId) : State :=
  match s.frameUser k t f with
  | (s, some u) =>
    let x := s.wtrk t
    (s.setWtrk t { x with issued := x.issued ++ [f] }).frameSend k t f u
  | (s, none) => s.writeUnderrun

/-- Track `t` writes the oldest rewrite that waits on it. -/
def State.slotRewrite (s : State) (k t : Nat) (f : FrameId × Nat) (r : List (FrameId × Nat)) : State :=
  ((s.setWtrk t { s.wtrk t with rewrites := r }).slotIssue k t f.1).rewriteRecord t f.1 f.2

/-- A frame slot of track `t` while data set `w` is written: lead-in, a rewrite, the next original or a pad; the headers of lead-in and pad
frames carry the DSN and COPY of the data set, and their payload is zeros (R114, R124; log entry 143). -/
def State.slotWrite (s : State) (k t : Nat) (w : WriteSet) : State :=
  let s := s.writeGate true
  let zero := List.replicate (s.ncw k) (List.replicate (s.cwBytes k) (0 : Byte))
  if mapGet (fun _ => 0) s.fmt.leadIn t < s.ff k 3 0xD 1 then (s.leadInStep k t).frameSend k t ⟨w.dsn, w.copy, 0x7E, 0⟩ zero
  else
    let x := s.wtrk t
    let s := s.setWtrk t { x with slots := x.slots + 1 }
    match x.rewrites with
    | f :: r => s.slotRewrite k t f r
    | [] =>
      if x.next < s.framesOf k then
        let s := s.jobStart.noteWrote k w.dsn
        (s.setWtrk t { s.wtrk t with next := x.next + 1 }).slotIssue k t ⟨w.dsn, w.copy, x.next, 0⟩
      else s.frameSend k t ⟨w.dsn, w.copy, 0x7F, 0⟩ zero

/-- Track `t` writes its next frame slot (R114, R124, R185); the zone whose destage fails, if any. -/
def State.frameSlot (s : State) (t : Nat) : State × Option Nat :=
  match s.writeFmt, s.tape.pass with
  | some k, some p =>
    if !p.write || s.trksOf k ≤ t then (s, none)
    else if !s.streaming then ((s.writeGate false).passEnd, none)
    else if s.tpi.underrun.isSome then (s.writeGate false, none)
    else
      let (s, failed) := if s.fmt.cur.isSome ∧ s.intervalDone k then s.intervalEnd k else (s, none)
      let s := if s.fmt.cur.isNone then s.setStart else s
      match s.fmt.cur, (s.wtrk t).rewrites with
      | some w, _ => (s.slotWrite k t w, failed)
      | none, f :: r => (s.slotRewrite k t f r, failed)
      | none, [] => (s.lastDone k, failed)
  | _, _ => (s, none)

/-- The signal quality metric is below SQM_MIN quarters of a dB, exactly: (h1² ÷ σ̂²)⁴⁰ < 10^SQM_MIN, σ̂² in 2⁻²⁴. -/
def sqmLow (h1 : Int) (sig m : Nat) : Bool := (Int.natAbs h1 ^ 2 * 2 ^ 24) ^ 40 < 10 ^ m * sig ^ 40

/-- The cause bits of a frame that fails its verify (R123): A missed, B missed, iterations, signal quality. -/
def State.verifyCause (s : State) (k : Nat) (aMiss bMiss : Bool) (res : List (Nat × Nat)) (sig : Nat) : Nat :=
  (if aMiss then 1 else 0) + (if bMiss then 2 else 0)
    + (if res.any fun r => r.1 ≠ 0 ∨ s.ff k 5 5 1 < r.2 then 4 else 0)
    + (if sqmLow (s.target 1) sig (s.ff k 10 2 1) then 8 else 0)

/-- FMT judges the oldest frame of track `t` that waits for its verify (R123, R125, R126). -/
def State.frameVerify (s : State) (t : Nat) (aMiss bMiss : Bool) (res : List (Nat × Nat)) (sig : Nat) : State :=
  let x := s.wtrk t
  match s.writeFmt, x.issued with
  | some k, f :: r =>
    let s := s.setWtrk t { x with issued := r }
    let cause := s.verifyCause k aMiss bMiss res sig
    if cause = 0 ∨ ¬ s.bit pFmt Reg.FMT_CTRL 2 ∨ s.fmt.whole.any (·.dsn == f.dsn) then
      if s.fmt.late.any (·.dsn == f.dsn) ∧ ¬ s.unjudged f.dsn then
        (s.setFmt { s.fmt with late := s.fmt.late.filter fun w => w.dsn ≠ f.dsn }).setWritten k f.dsn
      else s
    else if s.fmt.late.any fun w => w.dsn = f.dsn ∧ w.copy = f.copy then
      (s.fmt.late.filter fun w => w.dsn = f.dsn ∧ w.copy = f.copy).foldl State.wholeRewrite s
    else
      let charge (w : WriteSet) : WriteSet := if w.dsn = f.dsn ∧ w.copy = f.copy then { w with charged := w.charged + 1 } else w
      let s := s.setFmt { s.fmt with cur := s.fmt.cur.map charge, prev := s.fmt.prev.map charge }
      match (s.fmt.cur.toList ++ s.fmt.prev.toList).find? fun w => w.dsn = f.dsn ∧ w.copy = f.copy with
      | none => s.showFmt
      | some w =>
        if s.ff k 10 0 1 < w.charged then s.wholeRewrite w
        else
          let y := s.wtrk t
          (s.setWtrk t { y with rewrites := y.rewrites ++ [({ f with rewrite := min 255 (f.rewrite + 1) }, cause)] }).showFmt
  | _, _ => s

end Sys2Proof.Machine
end

