-- ==== Sys2Proof/Machine/Flash.lean ====
section
/-! DEFINITION. The flash tier (chapter 8): the map, stripes, thresholds, read escalation, programs and map-out. -/

namespace Sys2Proof.Machine

def State.setFlash (s : State) (f : Flash) : State := { s with flash := f }

/-! ### Work tags (R22)

A piece of flash work holds the tag in the low 16 bits of its number; the slices, stripe members and parity programs of one piece of work share
its tag (log entry 145). -/

/-- A read, program or patrol of the flash tier holds tag `t`. -/
def State.flashTag (s : State) (t : Nat) : Bool :=
  (s.flash.reads.map Prod.fst ++ s.flash.progs.map Prod.fst ++ s.flash.patrols.map Prod.fst).any (· % 65536 == t)

/-- Firmware work of fixed tags beside the open band pass: 0 the destage of a zone, 2 to 129 the migrations of slots 0 to 127. -/
def destageTag : Nat := 0
def migTag (k : Nat) : Nat := 2 + k % 128

def State.fixedTag (s : State) (t : Nat) : Bool :=
  (t == destageTag && s.zones.any (·.2.destaging)) || (t == passTag && s.tape.pass.isSome)
    || (s.funcs.any fun e => migTag e.1 == t && (e.2.mig == .saving || e.2.mig == .restoring))

/-- Work tag `t` is free (R22). -/
def State.tagFree (s : State) (t : Nat) : Bool :=
  t < 65536 && (mapFind s.jobs t).isNone && (mapFind s.cmds t).isNone && !(s.rings.any fun e => (e.2.hold.map (·.1)) == some t)
    && !s.flashTag t && !s.fixedTag t

/-- A free tag of those kept for firmware's work. -/
def State.firmTag (s : State) : Option Nat := (List.range 256).find? s.tagFree

/-- The number of a stripe member's read. -/
def memberOp (op p : Nat) : Nat := op % 2 ^ 24 + 2 ^ 24 * (p + 1)

/-- The number of slice `k`'s read of a unit under patrol. -/
def patrolOp (job k : Nat) : Nat := job % 65536 + 65536 * (k + 1)

/-! ### Tables in DRAM (R205, R213) -/

/-- The map entry of unit `u`; zero where it cannot be read. -/
def State.mapEntry (s : State) (u : Nat) : State × Nat :=
  let (s, b) := s.busRead (s.ftmBase Reg.FTM_MAP_LO + 8 * u) 8
  (s, leNat (b.getD []))

def State.setMapEntry (s : State) (u v : Nat) : State := (s.busWrite (s.ftmBase Reg.FTM_MAP_LO + 8 * u) (leBytes 8 v)).1

/-- A location as a map entry holds it. -/
def FlashLoc.word (l : FlashLoc) : Nat :=
  l.die / 32 + l.die / 4 % 8 * 2 ^ 4 + l.die % 4 * 2 ^ 7 + l.block * 2 ^ 9 + l.page * 2 ^ 27 + l.slot * 2 ^ 39

/-- The location that a map entry names. -/
def locOf (w : Nat) : FlashLoc :=
  ⟨natBits w 0 4 * 32 + natBits w 4 3 * 4 + natBits w 7 2, natBits w 9 18, natBits w 27 12, natBits w 39 2⟩

/-- Address of a block info entry. -/
def State.blkAddr (s : State) (d b : Nat) : Nat := s.ftmBase Reg.FTM_BLK_LO + 8 * (d * s.flash.geom.blocks + b)

/-- The block table entry of block `b` of die `d` (R208; log entry 52). -/
def State.blkInfo (s : State) (d b : Nat) : State × Nat :=
  let (s, x) := s.busRead (s.blkAddr d b) 8
  (s, leNat (x.getD []))

def State.setBlkInfo (s : State) (d b v : Nat) : State := (s.busWrite (s.blkAddr d b) (leBytes 8 v)).1

/-- A number with bits [lo + len - 1 : lo] replaced. -/
def natPut (w lo len v : Nat) : Nat := w - natBits w lo len * 2 ^ lo + v % 2 ^ len * 2 ^ lo

/-- FTM sets BAD of a block on a program or erase failure (R218). -/
def State.setBad (s : State) (d b : Nat) : State :=
  let (s, w) := s.blkInfo d b
  let s := if natBits w 55 1 = 0 then s.cntSat pFtm (Reg.FTM_SPOIL 3) 0 32 1 else s
  s.setBlkInfo d b (natPut w 55 1 1)

/-! ### Dies (R201, R207) -/

def State.dieReg (s : State) (d lo len : Nat) : Nat := s.fget (pFtm + 1) (Reg.FTM_DIE d) lo len

/-- The live die at position `p` of group `g`. -/
def State.dieAt (s : State) (g p : Nat) : Option Nat :=
  (List.range 512).find? fun d => s.dieLive d && s.dieReg d 7 5 == g && s.dieReg d 12 4 == p

/-- Units of a page (R204). -/
def Geometry.units (g : Geometry) : Nat := min 4 ((g.page + g.spare) / 18448)

/-- Units of a die. -/
def Geometry.dieUnits (g : Geometry) : Nat := g.blocks * g.pages * g.units

/-- FTM_CAP: the data units of the live dies, 15 of 16 (log entry 12). -/
def State.showCap (s : State) : State :=
  let n := ((List.range 512).filter s.dieLive).length * s.flash.geom.dieUnits * 15 / 16
  (s.rset pFtm Reg.FTM_CAP_LO (BitVec.ofNat 32 n)).rset pFtm Reg.FTM_CAP_HI (BitVec.ofNat 32 (n / 2 ^ 32 % 256))

/-- Units whose map entries are listed in memory. -/
def State.mappedUnits (s : State) : List Nat :=
  let base := s.ftmBase Reg.FTM_MAP_LO
  let cap := (s.rg pFtm Reg.FTM_CAP_LO).toNat + s.fget pFtm Reg.FTM_CAP_HI 0 8 * 2 ^ 32
  ((s.mem.filter fun c => base ≤ c.1 && c.1 < base + 8 * cap).map fun c => (c.1 - base) / 8).eraseDups

/-- Live units of die `d` (log entry 46). -/
def State.unitsOn (s : State) (d : Nat) : List Nat :=
  s.mappedUnits.filter fun u => let w := (s.mapEntry u).2; natBits w 41 1 == 1 && (locOf w).die == d

/-! ### Namespaces and blocks of a unit -/

/-- LBA size of an LBA format (R436). -/
def lbaSize (lbaf : Nat) : Nat := if lbaf ≤ 1 then 512 else 4096

/-- LBA size and zone size of the tape-backed namespace, as the write format gives them (R108, R128). -/
def State.tapeLba (s : State) : Nat := (s.writeFmt.map fun k => s.ff k 11 0xC 2).getD 4096
def State.tapeZsze (s : State) : Nat := (s.writeFmt.map fun k => s.ff k 11 0 4).getD 0

/-- The namespace that holds unit `u`, with the first LBA of its slice `k` and the LBAs of a slice. -/
def State.nsOfUnit (s : State) (u k : Nat) : Option (Nat × Nat × Nat) :=
  s.nss.findSome? fun e =>
    let ns := e.2
    if e.1 ≠ 1024 ∧ ns.firstUnit ≤ u ∧ u < ns.firstUnit + ns.units then
      let z := lbaSize ns.lbaf
      some (e.1, ((u - ns.firstUnit) * 16384 + k * 4096) / z, 4096 / z)
    else none

def blockKey (nsid lba : Nat) : Nat := nsid * 2 ^ 64 + lba

/-- The blocks of a range that hold data. -/
def State.blocksIn (s : State) (nsid slba n : Nat) : List (Nat × Block) :=
  (List.range n).filterMap fun i => (mapFind s.blocks (blockKey nsid (slba + i))).map fun b => (slba + i, b)

/-- Mark the blocks of a range as unreadable. -/
def State.badBlocks (s : State) (nsid slba n : Nat) : State :=
  (s.blocksIn nsid slba n).foldl (fun s e =>
    { s with blocks := mapPut s.blocks (blockKey nsid e.1) { e.2 with bad := true } }) s

/-! ### Records (R220, R221) -/

/-- Show the head record. -/
def State.showUnrec (s : State) : State :=
  let full := 64 ≤ s.flash.unrec.length
  match s.flash.unrec with
  | (u, sl, k, d, b) :: _ =>
    let s := s.rset pFtm (Reg.FTM_UNREC 0) (BitVec.ofNat 32 u)
    let s := s.rset pFtm (Reg.FTM_UNREC 1) (BitVec.ofNat 32
      (u / 2 ^ 32 % 256 + sl * 2 ^ 8 + k * 2 ^ 12 + (if full then 2 ^ 14 else 0) + 2 ^ 31))
    s.rset pFtm (Reg.FTM_UNREC 2) (BitVec.ofNat 32 (d + b * 2 ^ 9))
  | [] => ((s.rset pFtm (Reg.FTM_UNREC 0) 0).rset pFtm (Reg.FTM_UNREC 1) 0).rset pFtm (Reg.FTM_UNREC 2) 0

/-- Push a record; a full queue shows OVERFLOW and raises event 10. -/
def State.pushUnrec (s : State) (unit slices kind : Nat) (l : FlashLoc) : State :=
  let f := s.flash
  if 64 ≤ f.unrec.length then s
  else
    let s := (s.setFlash { f with unrec := f.unrec ++ [(unit, slices, kind, l.die, l.block)] }).showUnrec
    if f.unrec.length + 1 = 64 then s.raise pFtm 10 else s

/-- The blocks that slice `k` of unit `u` holds: namespace, first LBA and number (R15, R205). -/
def State.blocksOf (s : State) (u k : Nat) : Option (Nat × Nat × Nat) :=
  match s.nsOfUnit u k with
  | some x => some x
  | none => (mapFind s.flash.staged u).map fun lba => (1024, lba + k * (4096 / max 1 s.tapeLba), 4096 / max 1 s.tapeLba)

/-- Slice `k` of live unit `u` at `l` is unrecoverable (R220, steps 1 and 2): the mark, the record and the event. -/
def State.markUnrec (s : State) (u k : Nat) (l : FlashLoc) : State :=
  let (s, w) := s.mapEntry u
  if natBits w 41 1 = 0 ∨ locOf w ≠ l then s
  else
    let s := s.setMapEntry u (natPut w (42 + k) 1 1)
    let s := ((s.pushUnrec u (2 ^ k) 0 l).cntSat pFtm (Reg.FTM_SPOIL 1) 0 32 1).errCnt pFtm 2
    let s := s.raise pFtm 6
    match s.blocksOf u k with
    | some (ns, lba, n) => s.badBlocks ns lba n
    | none => s

/-- A map entry without the mark of slice `k`; LOGGED goes with the last mark. -/
def unmark (w k : Nat) : Nat :=
  let w := natPut w (42 + k) 1 0
  if natBits w 42 4 = 0 then natPut w 46 1 0 else w

/-- Blocks of a range can be read again. -/
def State.goodBlocks (s : State) (nsid slba n : Nat) : State :=
  (s.blocksIn nsid slba n).foldl (fun s e =>
    { s with blocks := mapPut s.blocks (blockKey nsid e.1) { e.2 with bad := false } }) s

/-- The data of a staged unit from its other copy, the destaged one on tape. -/
def State.tapeCopy (s : State) (lba : Nat) : List Byte :=
  let z := max 1 s.tapeLba
  (List.range (16384 / z)).flatMap fun i => match mapFind s.blocks (blockKey 1024 (lba + i)) with
    | some b => padTo z b.data
    | none => List.replicate z 0

/-- Firmware deals with the marked slices `mask` of unit `u` in block `b` of die `d` (R220, steps 3 to 5): where the unit stages blocks that
have been destaged, it writes them back, conditioned on the old location, which clears the marks, so that a host write stands whichever of the
two comes later (R206, R223); else it logs the slices and sets LOGGED (log entry 147). -/
def State.firmwareLogs (s : State) (u mask d b : Nat) : State :=
  let (s, w) := s.mapEntry u
  let l := locOf w
  let ks := (List.range 4).filter fun k => mask.testBit k && natBits w (42 + k) 1 == 1
  if natBits w 41 1 = 0 ∨ l.die ≠ d ∨ l.block ≠ b ∨ ks.isEmpty then s else
  let log (kind : Nat) (s : State) (k : Nat) : State := match s.blocksOf u k with
    | some (ns, lba, n) => s.mediaAdd kind ns lba n 1 (d + b * 2 ^ 9) u
    | none => s.mediaAdd kind 0 0 0 1 (d + b * 2 ^ 9) u
  match (mapFind s.flash.staged u).filter fun lba => s.zones.any fun e => e.2.destaged && e.1 == lba / max 1 s.tapeZsze with
  | some lba =>
    let s := s.setMapEntry u (ks.foldl unmark w)
    let s := s.setFlash { s.flash with moves := s.flash.moves ++ [⟨u, s.tapeCopy lba, some l, false, 0, none⟩] }
    let s := ks.foldl (fun s k => match s.blocksOf u k with
      | some (ns, a, n) => s.goodBlocks ns a n
      | none => s) s
    ks.foldl (log 2) s
  | none => (ks.foldl (log 1) s).setMapEntry u (natPut w 46 1 1)

/-- Marked slices of which no record could be pushed: firmware finds their entries with UNREC set and LOGGED at 0 (R221). -/
def State.firmwareScan (s : State) : State :=
  s.mappedUnits.foldl (fun s u =>
    let w := (s.mapEntry u).2
    let l := locOf w
    if natBits w 42 4 = 0 ∨ natBits w 46 1 = 1 ∨ s.flash.unrec.any (fun e => e.1 == u && e.2.2.1 == 0) then s
    else s.firmwareLogs u (natBits w 42 4) l.die l.block) s

/-! ### Thresholds (R211 to R214) -/

/-- The threshold section of the curve table of die `d`. -/
def State.curveSec (s : State) (d : Nat) : List Byte := s.tsec pFtm (s.dieReg d 5 2) 0x0301

def State.nretry (s : State) (d : Nat) : Nat := fieldAt (s.curveSec d) 1 1

/-- The largest index below `n` whose breakpoint is at most `v`, or 0. -/
def bpIndex (n : Nat) (bp : Nat → Int) (v : Int) : Nat := (List.range n).foldl (fun m i => if bp i ≤ v then i else m) 0

/-- The offsets at retry step `st` for a block with info `info`; `extra` shifts every level (soft reads). -/
def State.offsets (s : State) (d info st : Nat) (extra : Int) : List Int :=
  let sec := s.curveSec d
  let f := fieldAt sec
  let i := bpIndex (f 4 1 % 16) (fun i => (f (8 + 2 * i) 2 : Nat)) (natBits info 0 16 : Nat)
  let hours : Int := (s.rg pFtm Reg.FTM_HOURS).toNat - (natBits info 16 32 : Int)
  let j := bpIndex (f 5 1 % 16) (fun j => (f (0x18 + 4 * j) 4 : Nat)) hours
  let k := bpIndex (f 6 1 % 16) (fun k => signedOf 8 (f (0x38 + k) 1)) (signedOf 8 (s.fget pFtm Reg.FTM_TEMP 0 8))
  (List.range (f 0 1)).map fun l =>
    let o := signedOf 8 (f (0x40 + 512 * i + 64 * j + 16 * k + l) 1)
    let r := if st = 0 then 0 else signedOf 8 (f (0x1040 + 16 * (st - 1) + l) 1)
    clampI (o + r + extra) (-128) 127

/-! ### Channel operations -/

def chanOf (d : Nat) : Nat := d / 32

/-- An ONFI operation enters channel `c`'s queue: it is a job of its FLC (R226; log entry 113). -/
def State.flcAdd (s : State) (c : Nat) : State :=
  let n := mapGet (fun _ => 0) s.flash.ops c + 1
  ((s.setFlash { s.flash with ops := mapPut s.flash.ops c n }).fset (pFlc c) Reg.FLC_STAT 16 8 (min n 255)).accept (pFlc c)

/-- It ends. -/
def State.flcDone (s : State) (c : Nat) (epoch : RegWord) : State :=
  let n := mapGet (fun _ => 0) s.flash.ops c - 1
  ((s.setFlash { s.flash with ops := mapSet (fun _ => 0) s.flash.ops c n }).fset (pFlc c) Reg.FLC_STAT 16 8 (min n 255)).endJob (pFlc c) epoch

def State.flcQueued (s : State) (c : Nat) : Bool := mapGet (fun _ => 0) s.flash.ops c != 0

/-- Channel `c` takes operations: its intake is open and no training runs on it (R203). -/
def State.flcIntake (s : State) (c : Nat) : Bool := s.intake (pFlc c) && s.fget (pFlc c) Reg.FLC_TRAIN 16 4 != 1

/-- The soft-read shift of the `i`-th read of stage 3: -SOFT_D, 0, +SOFT_D. -/
def State.softShift (s : State) (d i : Nat) : Int := ((i : Int) - 1) * fieldAt (s.curveSec d) 3 1

/-- The Set Features commands that bring the levels of die `d` from `old` to `new`: parameters P1 to P4 at address FEAT + n, only where they
differ (R214). -/
def State.setLevels (s : State) (d : Nat) (old new : List Int) : State :=
  (List.range (ceilDiv new.length 4)).foldl (fun s n =>
    let p (l : List Int) : List Nat := (List.range 4).map fun i => unsignedOf 8 (l.getD (4 * n + i) 0)
    if !old.isEmpty && p old == p new then s
    else s.emit (.issue "SET_FEATURES" (d :: (fieldAt (s.curveSec d) 2 1 + n) :: p new))) s

/-- Issue the page read that slice read `op` now needs, setting the levels of its die where they differ (R214). -/
def State.issueRead (s : State) (op : Nat) (r : SliceRead) : State :=
  let d := r.loc.die
  let (s, info) := s.blkInfo d r.loc.block
  let off := s.offsets d info r.step (if r.stage = 3 then s.softShift d r.raw.length else 0)
  let s := s.setLevels d ((mapFind s.flash.levels d).getD []) off
  let s := s.setFlash { s.flash with levels := mapPut s.flash.levels d off }
  let s := (s.cntWrap (pFlc (chanOf d)) Reg.FLC_RD_CNT 0 32 1).flcAdd (chanOf d)
  let s := s.setFlash { s.flash with reads := mapPut s.flash.reads op { r with reading := true, flcEpoch := s.epoch (pFlc (chanOf d)) } }
  s.emit (.issue "READ_PAGE" [d, r.loc.block, r.loc.page, r.loc.slot, r.slice])

/-! ### The FTM_IN area (R209)

Each slice read has one place there, of the 13,824 bytes that an LLR3 input fills (log entry 145). -/

def inCellBytes : Nat := 13824

/-- Address of place `k` of the area. -/
def State.inCell (s : State) (k : Nat) : Nat := sramGeneral + s.fget pFtm Reg.FTM_IN 0 9 * 65536 + inCellBytes * k

/-- The first free place. -/
def State.freeCell (s : State) : Option Nat :=
  let used := s.flash.reads.filterMap fun e => e.2.cell
  (List.range (s.fget pFtm Reg.FTM_IN 16 9 * 65536 / inCellBytes)).find? fun k => !used.contains k

/-- The oldest reads that wait for a place take one and issue their page read, at most `n` of them. -/
def State.grantCells (s : State) : Nat → State
  | 0 => s
  | n + 1 =>
    match s.flash.inWait, s.freeCell with
    | op :: q, some c =>
      let s := s.setFlash { s.flash with inWait := q }
      (match mapFind s.flash.reads op with
        | some r => s.issueRead op { r with cell := some c }
        | none => s).grantCells n
    | _, _ => s

/-- A slice read starts its escalation (R215, R217) once it has a place in the FTM_IN area. -/
def State.startRead (s : State) (op unit slice : Nat) (l : FlashLoc) (u : SliceUse) : State :=
  let (s, info) := s.blkInfo l.die l.block
  let hint := natBits info 54 1 == 1
  let sweep := natBits info 56 1 == 0 && !hint
  let st := if hint then natBits info 48 6 else 0
  let s := s.accept pFtm
  let r : SliceRead := ⟨unit, slice, l, u, 1, st, st, [], [], sweep, [], false, none, none, 0, [], s.epoch pFtm, 0⟩
  let f := s.flash
  (s.setFlash { f with reads := mapPut f.reads op r, inWait := f.inWait ++ [op] }).grantCells 1

/-- Reads in flight of a block (R210). -/
def State.readsOf (s : State) (d b : Nat) : Nat := (s.flash.reads.filter fun e => e.2.loc.die == d && e.2.loc.block == b).length

/-! ### Transit and overflow slots (R209) -/

/-- The first free transit slot, or else overflow slot (numbered from 8,192). -/
def State.freeSlot (s : State) : Option Nat :=
  let used := s.flash.slots
  if used.length < 8192 + s.ovfSlots then (List.range (8192 + s.ovfSlots)).find? fun k => !used.contains k else none

/-- Where a slot lies. -/
def State.slotAddr (s : State) (k : Nat) : Nat :=
  if k < 8192 then sramBase + 4096 * k else s.ftmBase Reg.FTM_OVF_LO + 4096 * (k - 8192)

/-- The LLR3 input of stage 3 from the raw bytes of its three reads: 3 bits for each coded bit (R142, R216). -/
def softInput (raw : List (List Byte)) : List Byte :=
  let vals := raw.map leNat
  bitsToBytes inCellBytes ((List.range 36864).flatMap fun i =>
    let zeros := (vals.filter fun v => natBits v i 1 == 0).length
    let u := unsignedOf 3 (2 * (zeros : Int) - 3)
    (List.range 3).map u.testBit)

/-- What a read has of raw bytes goes to its place in FTM_IN, and class-H or class-B decoding is requested (R141, R215, R216): a host slice to its
slot, background data to its address; what patrol and rebuilds read FTM takes from the result (log entry 144). -/
def State.requestDecode (s : State) (op : Nat) (r : SliceRead) : State :=
  let cls := match r.use_ with
    | .host _ _ => 1
    | _ => 2
  let a := s.inCell (r.cell.getD 0)
  let soft := r.stage == 3
  let (s, _) := s.sramWrite a (if soft then softInput r.raw else r.raw.getD 0 [])
  let (dst, wr) := match r.use_, r.tslot with
    | .host _ _, some k => (s.slotAddr k, true)
    | .background d, _ => (d, true)
    | _, _ => (0, false)
  s.setDcf { s.dcf with want := s.dcf.want ++ [⟨0x0F01, cls, if soft then 2 else 1, a, dst, op % 65536, 0, .flash op, [], wr⟩] }

/-- Host read `op` has its data in slot `k`, which HIB then moves to the host; `cls` is the status class of the read.  Data that no tile has
written there is `data`. -/
def State.hostSlice (s : State) (op : Nat) (r : SliceRead) (f k cls : Nat) (data : Option (List Byte)) : State :=
  let s := match data with
    | some b => (s.cwOut (s.slotAddr k) b).1
    | none => s
  let s := s.setFlash { s.flash with reads := mapPut s.flash.reads op { r with stage := 7, tslot := some k, cell := none, raw := [] } }
  ((s.endJob pFtm r.epoch).emit (.issue "SLICE_READY" [op, f, k, cls])).grantCells 1

/-- Slices that wait take free slots in arrival order. -/
def State.grantSlots (s : State) : Nat → State
  | 0 => s
  | n + 1 =>
    match s.flash.waiting, s.freeSlot with
    | op :: q, some k =>
      let f := s.flash
      match mapFind f.reads op with
      | some r =>
        let r := { r with tslot := some k }
        let s := s.setFlash { f with waiting := q, slots := k :: f.slots, reads := mapPut f.reads op r }
        match r.use_, r.stage with
        | .host g _, 6 => (match r.raw with
          | d :: _ => s.hostSlice op r g k 0x00 (some d)
          | [] => s).grantSlots n
        | _, _ => (s.requestDecode op r).grantSlots n
      | none => (s.setFlash { f with waiting := q }).grantSlots n
    | _, _ => s

/-- A page read of slice read `op` has ended with raw bytes `b`, now in FTM_IN. -/
def State.pageRead (s : State) (op : Nat) (b : List Byte) : State :=
  match mapFind s.flash.reads op with
  | none => s
  | some r =>
    if !r.reading then s else
    let s := s.flcDone (chanOf r.loc.die) r.flcEpoch
    let r := { r with reading := false, raw := r.raw ++ [padTo 4608 b] }
    let s := s.setFlash { s.flash with reads := mapPut s.flash.reads op r }
    if r.stage = 3 ∧ r.raw.length < 3 then s.issueRead op r
    else match r.use_, r.tslot with
      | .host _ _, none =>
        (s.setFlash { s.flash with waiting := s.flash.waiting ++ [op] }).grantSlots 1
      | _, _ => s.requestDecode op r

/-! ### Programs and stripes (R206 to R208) -/

/-- Address of a stripe accumulator: they follow the FTM_IN area. -/
def State.accAddr (s : State) (k : Nat) : Nat :=
  sramGeneral + (s.fget pFtm Reg.FTM_IN 0 9 + s.fget pFtm Reg.FTM_IN 16 9) * 65536 + 16384 * k

def xorPad (a b : List Byte) : List Byte :=
  (List.range (max a.length b.length)).map fun i => a.getD i 0 ^^^ b.getD i 0

/-- FTM_FREE_LVL and FTM_STRIPE.OPEN show rows and stripes. -/
def State.showRows (s : State) : State :=
  ((s.fset pFtm Reg.FTM_FREE_LVL 0 11 s.flash.free.length).fset pFtm Reg.FTM_STRIPE 0 9 s.flash.stripes.length).showDivert

/-- The 16-byte tag of a unit (R204). -/
def unitTag (unit seq : Nat) : List Byte :=
  let b := leBytes 8 unit ++ leBytes 4 seq
  b ++ leBytes 4 (crc32c b)

/-- The number of a parity program that belongs to the work of `op`. -/
def State.parityOp (s : State) (op : Nat) : Nat :=
  let t := op % 65536
  ((List.range (s.flash.progs.length + 1)).map fun i => t + 65536 * (i + 1)).find? (fun k => (mapFind s.flash.progs k).isNone) |>.getD t

/-- The page that a program writes: the unit's four codewords at 18,432 × SLOT and its tag at 18,432 × n + 16 × SLOT; the other bytes are 0xFF
(R204). -/
def State.pageImage (s : State) (l : FlashLoc) (enc tag : List Byte) : List Byte :=
  let g := s.flash.geom
  let at_ (o : Nat) (b : List Byte) (i : Nat) : Option Byte := if o ≤ i then b[i - o]? else none
  (List.range (g.page + g.spare)).map fun i =>
    ((at_ (18432 * l.slot) enc i).orElse fun _ => at_ (18432 * g.units + 16 * l.slot) tag i).getD 0xFF

/-- A program goes to a die: four codewords of the unit's data, and its tag; firmware must keep code 0x0F01 enabled, and data goes without parity
where it is not (log entry 143). -/
def State.issueProgram (s : State) (op : Nat) (l : FlashLoc) (r : Relocate) (parity : Bool) : State :=
  let c := chanOf l.die
  let s := ((s.accept pFtm).cntWrap (pFlc c) Reg.FLC_PG_CNT 0 32 1).flcAdd c
  let seq := s.flash.wseq
  let p : Program := ⟨r.unit, l, r.data, parity, r.refresh, r.rebuilt, r.divert, s.epoch pFtm, s.epoch (pFlc c)⟩
  let s := s.setFlash { s.flash with progs := mapPut s.flash.progs op p, wseq := seq + 1 }
  let enc := (chunks 4096 r.data).flatMap fun x =>
    let u := bytesToBits x
    match s.codeSlot 0x0F01 with
    | some k => bitsToBytes 4608 (u ++ (s.code k).parity u)
    | none => bitsToBytes 4608 u
  s.emit (.issue "PROGRAM" ([l.die, l.block, l.page] ++ (s.pageImage l enc (unitTag r.unit seq)).map (·.toNat)))

/-- The stripe at (page, slot) of a row has closed: the row is done with once all of its stripes have. -/
def State.rowClosed (s : State) (x : Stripe) : State :=
  let all := s.flash.geom.pages * s.flash.geom.units
  let rows := s.flash.rows.filterMap fun r =>
    if r.group ≠ x.group ∨ r.block ≠ x.block then some r
    else if all ≤ r.closed.length + 1 then none
    else some { r with closed := (x.page, x.slot) :: r.closed }
  s.setFlash { s.flash with rows := rows }

/-- A stripe closes in the work of `op`: its gaps are zero members for good, and its parity is programmed. -/
def State.closeStripe (s : State) (op : Nat) (x : Stripe) : State :=
  let par := x.page % 16
  let gaps := (List.range 16).filterMap fun p =>
    if p = par ∨ x.written.contains p then none
    else (s.dieAt x.group p).map fun d => (⟨d, x.block, x.page, x.slot⟩ : FlashLoc)
  let (s, acc) := s.sramRead (s.accAddr x.acc) 16384
  let s := s.setFlash { s.flash with stripes := s.flash.stripes.filter (· ≠ x), gaps := gaps ++ s.flash.gaps }
  let s := s.rowClosed x
  let s := match s.dieAt x.group par with
    | some d => s.issueProgram (s.parityOp op) ⟨d, x.block, x.page, x.slot⟩ ⟨2 ^ 64 - 1, acc.getD [], none, false, 0, none⟩ true
    | none => s
  s.showRows

/-- Is position `l` a zero member (R207)? -/
def State.zeroMember (s : State) (l : FlashLoc) : State × Bool :=
  if !s.dieLive l.die ∨ s.flash.gaps.contains l then (s, true)
  else
    let (s, w) := s.blkInfo l.die l.block
    (s, natBits w 55 1 == 1)

/-- Every data position of a stripe has been written or is a zero member (R207, R208). -/
def State.stripeFull (s : State) (x : Stripe) : State × Bool :=
  (List.range 16).foldl (fun (a : State × Bool) p =>
    if !a.2 || p == x.page % 16 || x.written.contains p then a else
    match a.1.dieAt x.group p with
    | none => a
    | some d => a.1.zeroMember ⟨d, x.block, x.page, x.slot⟩) (s, true)

/-- A full stripe writes its parity. -/
def State.stripeCheck (s : State) (op : Nat) (x : Stripe) : State :=
  match s.stripeFull x with
  | (s, true) => s.closeStripe op x
  | (s, false) => s

/-- The open stripe of a location. -/
def State.stripeAt (s : State) (l : FlashLoc) : Option Stripe :=
  s.flash.stripes.find? fun x => x.group == s.dieReg l.die 7 5 && x.block == l.block && x.page == l.page && x.slot == l.slot

/-- A unit of an open stripe has failed to be written, and its place has become a zero member: the accumulator loses its data (R207). -/
def State.unstripe (s : State) (op : Nat) (p : Program) : State :=
  if p.parity then s else
  match s.stripeAt p.loc with
  | none => s
  | some x =>
    let (s, acc) := s.sramRead (s.accAddr x.acc) 16384
    let (s, _) := s.sramWrite (s.accAddr x.acc) (xorPad (acc.getD []) (padTo 16384 p.data))
    s.stripeCheck op x

/-- The map entry that a placed unit gets: it keeps the marks of the old one. -/
def placedEntry (w : Nat) (l : FlashLoc) : Nat := l.word + 2 ^ 41 + natBits w 42 5 * 2 ^ 42

/-- The accumulator takes the data, the map names the new place, and a full stripe writes its parity. -/
def State.placeAcc (s : State) (op : Nat) (l : FlashLoc) (r : Relocate) (k : Nat) (acc : List Byte) : State :=
  let (s, _) := s.sramWrite (s.accAddr k) (xorPad acc (padTo 16384 r.data))
  let (s, w) := if r.divert.isSome then (s, 0) else s.mapEntry r.unit
  let stale := r.cond.any fun old => natBits w 41 1 = 0 ∨ locOf w ≠ old
  let s := if r.divert.isSome ∨ stale then s else s.setMapEntry r.unit (placedEntry w l)
  let s := s.issueProgram op l r false
  match s.flash.stripes.find? (·.acc == k) with
  | some x => s.stripeCheck op x
  | none => s

/-- Place unit `r` at location `l` in the work of `op` (R206 to R208): a free position of a row that is being written or of the next free
row. -/
def State.placeUnit (s : State) (op : Nat) (l : FlashLoc) (r : Relocate) : State :=
  let g := s.dieReg l.die 7 5
  let p := s.dieReg l.die 12 4
  let f := s.flash
  let row := f.rows.find? fun x => x.group == g && x.block == l.block
  let isHead := f.free.head? == some (g, l.block)
  let geo := f.geom
  if !s.dieLive l.die || p == l.page % 16 || geo.pages ≤ l.page || geo.units ≤ l.slot || (row.isNone && !isHead)
    || row.any (·.closed.contains (l.page, l.slot)) then s else
  let (s, zero) := s.zeroMember l
  if zero then s else
  let f := s.flash
  let f := if row.isSome then f else { f with rows := f.rows ++ [⟨g, l.block, []⟩], free := f.free.drop 1 }
  match s.stripeAt l with
  | none =>
    match (List.range 256).find? fun k => !f.stripes.any (·.acc == k) with
    | none => s
    | some k =>
      let full := s.divFull
      let s := s.setFlash { f with stripes := f.stripes ++ [⟨g, l.block, l.page, l.slot, k, [p]⟩] }
      ((s.placeAcc op l r k (List.replicate 16384 0)).showRows).divertFills full
  | some x =>
    if x.written.contains p then s
    else
      let (s, acc) := (s.setFlash { f with stripes := f.stripes.map fun y => if y = x then { x with written := p :: x.written } else y }).sramRead (s.accAddr x.acc) 16384
      (s.placeAcc op l r x.acc (acc.getD [])).showRows

/-- An acknowledged unit finds no free position (R218, R432): its blocks are deferred write faults (log entry 49). -/
def State.unitLost (s : State) (u : Nat) : State :=
  match s.nss.find? fun e => e.1 ≠ 1024 && e.2.firstUnit ≤ u && u < e.2.firstUnit + e.2.units with
  | none => s
  | some (nsid, ns) =>
    let z := lbaSize ns.lbaf
    let slba := (u - ns.firstUnit) * 16384 / z
    (s.blocksIn nsid slba (16384 / z)).foldl (fun s e =>
      ({ s with blocks := mapPut s.blocks (blockKey nsid e.1) { e.2 with bad := true } }).deferFault
        e.2.ctrl nsid 0x4002 e.1 1 e.2.sqid e.2.cid) s

/-- No position is free: FTM_FREE is empty, and no row is being written. -/
def State.noRow (s : State) : Bool := s.flash.free.isEmpty && s.flash.rows.isEmpty

/-- A unit waits to be written at a new position. -/
def State.moveUnit (s : State) (r : Relocate) : State := s.setFlash { s.flash with moves := s.flash.moves ++ [r] }

/-- The unit of a failed program is written again from its write-buffer copy; where FTM_FREE is empty it is lost (R218). -/
def State.rewriteProgram (s : State) (p : Program) : State :=
  if p.parity then s
  else if s.noRow then (if p.divert.isSome then s else s.unitLost p.unit)
  else s.moveUnit ⟨p.unit, p.data, if p.divert.isSome then none else some p.loc, p.refresh, p.rebuilt, p.divert⟩

/-- The write-buffer copy of a unit whose program at `l` is in flight, or has failed and waits to be repeated (R210). -/
def State.bufferAt (s : State) (l : FlashLoc) : Option (List Byte) :=
  match s.flash.progs.find? (·.2.loc == l) with
  | some e => some e.2.data
  | none => (s.flash.moves.find? (·.cond == some l)).map (·.data)

/-! ### Map-out (R201, R218) -/

/-- Die `d` is mapped out with `cause`: events 5 and 11, capacity, the log; its programs in flight fail, and its other live units wait to be
rebuilt. -/
def State.mapOut (s : State) (d cause : Nat) : State :=
  if !s.dieLive d then s else
  let units := s.unitsOn d
  let s := (s.fset (pFtm + 1) (Reg.FTM_DIE d) 1 1 1).fset (pFtm + 1) (Reg.FTM_DIE d) 2 3 cause
  let s := ((s.errCnt pFtm 3).raise pFtm 5).showCap
  let s := (s.raise pFtm 11).mediaAdd 3 0 0 0 1 d 0
  let lost := s.flash.progs.filter fun e => e.2.loc.die == d
  let s := lost.foldl (fun s e =>
    let s := s.setFlash { s.flash with progs := mapDel s.flash.progs e.1 }
    let s := (s.flcDone (chanOf d) e.2.flcEpoch).endJob pFtm e.2.epoch
    (s.unstripe e.1 e.2).rewriteProgram e.2) s
  let todo := (units.filter fun u => !lost.any (·.2.unit == u)).map fun u => (u, locOf (s.mapEntry u).2)
  s.setFlash { s.flash with rebuilds := s.flash.rebuilds ++ todo }

/-- An operation of die `d` failed: the fourth within 1 s maps it out. -/
def State.dieFailed (s : State) (d : Nat) : State :=
  let now := s.tb.toNat
  let l := now :: ((mapGet (fun _ => []) s.flash.fails d).filter fun t => now < t + 1000000000)
  let s := s.setFlash { s.flash with fails := mapPut s.flash.fails d l }
  if 4 ≤ l.length then s.mapOut d 5 else s

/-! ### Read escalation (R215, R217, R219, R225) -/

/-- RETRY_AVG of die `d` moves towards 4 × `step` (R225). -/
def State.retryAvg (s : State) (d step : Nat) : State :=
  let a := mapGet (fun _ => 0) s.flash.avg d
  let t : Nat := 4 * min step 33 * 2 ^ 16
  let v := (a : Int) + Int.fdiv ((t : Int) - (a : Int)) 256
  (s.setFlash { s.flash with avg := mapSet (fun _ => 0) s.flash.avg d v.toNat }).fset (pFtm + 1) (Reg.FTM_DIE d) 16 8 (v.toNat / 2 ^ 16)

/-- A successful step is written into HINT. -/
def State.setHint (s : State) (l : FlashLoc) (step : Nat) : State :=
  let (s, w) := s.blkInfo l.die l.block
  s.setBlkInfo l.die l.block (natPut (natPut w 48 6 step) 54 1 1)

/-- End a slice read's bookkeeping. -/
def State.readGone (s : State) (op : Nat) (r : SliceRead) : State :=
  let f := s.flash
  let s := s.setFlash { f with
    reads := mapDel f.reads op, waiting := f.waiting.filter (· ≠ op), inWait := f.inWait.filter (· ≠ op) }
  let s := if r.reading then s.flcDone (chanOf r.loc.die) r.flcEpoch else s
  (s.endJob pFtm r.epoch).grantCells 1

/-- A patrolled unit has all its slices (*Patrol outcomes*), or a unit of a mapped-out die what could be rebuilt (R218): it is moved where it must
be, with its marks; where no position is free, rebuilt slices are marked as in stage 5 (log entry 49). -/
def State.patrolDone (s : State) (job : Nat) (p : Patrol) : State :=
  let s := s.setFlash { s.flash with patrols := mapDel s.flash.patrols job }
  if !p.live || p.parity || p.got.isEmpty || !(p.refresh || !p.rebuilt.isEmpty) then s
  else if s.noRow then p.rebuilt.foldl (fun s k => s.markUnrec p.unit k p.loc) s
  else
    let data := (List.range 4).flatMap fun k => ((p.got.find? (·.1 == k)).map (·.2)).getD (List.replicate 4096 0)
    s.moveUnit ⟨p.unit, data, some p.loc, p.refresh, p.rebuilt.length, none⟩

/-- A slice of a patrolled unit is settled: with its data, or as a failure. -/
def State.patrolSlice (s : State) (job : Nat) (r : SliceRead) (stage step : Nat) (data : Option (List Byte)) : State :=
  match mapFind s.flash.patrols job with
  | none => s
  | some p =>
    let fail := data.isNone
    let (s, w) := s.mapEntry p.unit
    let live := p.parity || (natBits w 41 1 == 1 && locOf w == p.loc)
    let s :=
      if !fail then s
      else if !live then s.cntSat pFtm Reg.FTM_PSTALE 0 32 1
      else if p.parity then s.pushUnrec p.unit (2 ^ r.slice) 1 r.loc
      else s.markUnrec r.unit r.slice r.loc
    let late := stage = 3 ∨ (stage = 2 ∧ s.fget pFtm Reg.FTM_PATROL 8 5 ≤ step)
    let p := { p with
      live := live
      got := match data with
        | some b => (r.slice, b) :: p.got
        | none => p.got
      left := p.left - 1
      refresh := p.refresh || (!fail && decide late)
      rebuilt := if stage = 4 ∧ !fail then r.slice :: p.rebuilt else p.rebuilt }
    let s := s.setFlash { s.flash with patrols := mapPut s.flash.patrols job p }
    if p.left = 0 then s.patrolDone job p else s

/-- Host read `op` has its data, with status class `cls`: in its slot, or it waits for one; `data` is what no tile has written. -/
def State.giveHost (s : State) (op : Nat) (r : SliceRead) (f cls : Nat) (data : List Byte) (written : Bool) : State :=
  match r.tslot with
  | some k => s.hostSlice op r f k cls (if written then none else some data)
  | none =>
    (s.setFlash { s.flash with reads := mapPut s.flash.reads op { r with stage := 6, raw := [data] },
                               waiting := s.flash.waiting ++ [op] }).grantSlots 1

/-- The host reads that have joined the rebuild of read `op` (R223; log entry 47). -/
def State.joined (s : State) (op : Nat) : List (Nat × SliceRead) :=
  s.flash.reads.filter fun e => e.2.stage == 6 && e.2.first == op && e.2.raw.isEmpty

/-- They return its data, -/
def State.joinOk (s : State) (op : Nat) (data : List Byte) : State :=
  (s.joined op).foldl (fun s e => match e.2.use_ with
    | .host f _ => s.giveHost e.1 e.2 f 0x00 data false
    | _ => s) s

/-- or end with it. -/
def State.joinLost (s : State) (op : Nat) : State :=
  (s.joined op).foldl (fun s e => match e.2.use_ with
    | .host f _ => (s.readGone e.1 e.2).emit (.issue "SLICE_UNRECOVERED" [e.1, f, 2, 0x81])
    | _ => s) s

/-- Is a slice read the patrol's? -/
def SliceUse.isPatrol (u : SliceUse) : Bool :=
  match u with
  | .patrol _ => true
  | _ => false

/-- A slice read succeeds with `data`, with status class 0x01 at stages 2 and 3 (R215); a rebuild is counted, but that of a patrolled unit once
its new copy is written (R219, R227).  `n` guards the nesting of stripe members. -/
def State.readOk (s : State) (n op : Nat) (r : SliceRead) (data : List Byte) : State :=
  let s := if r.stage = 2 ∨ r.stage = 3 then (s.errCnt pFtm 0).setHint r.loc r.step
    else if r.stage = 4 then
      let s := (s.errCnt pFtm 1).joinOk op data
      if r.use_.isPatrol then s else (s.cntSat pFtm (Reg.FTM_SPOIL 0) 0 32 1).raise pFtm 7
    else if r.sweep then s.setHint r.loc r.step else s
  let s := s.retryAvg r.loc.die (if r.stage ≤ 2 then r.step else s.nretry r.loc.die + 1)
  let written := r.stage ≠ 4 && !r.sweep
  match n, r.use_ with
  | _, .host f _ => s.giveHost op r f (if r.stage = 2 ∨ r.stage = 3 then 0x01 else 0x00) data written
  | _, .background dst => (if written then s else (s.cwOut dst data).1).readGone op r
  | _, .patrol j => (s.readGone op r).patrolSlice j r r.stage r.step (some data)
  | 0, .member _ => s.readGone op r
  | n + 1, .member par =>
    let s := s.readGone op r
    match mapFind s.flash.reads par with
    | none => s
    | some q =>
      let q := { q with left := q.left - 1, acc := xorPad q.acc data }
      let s := s.setFlash { s.flash with reads := mapPut s.flash.reads par q }
      if q.left = 0 then s.readOk n par q q.acc else s

/-- A slice read reaches stage 5 (log entry 47). -/
def State.readLost (s : State) (n op : Nat) (r : SliceRead) : State :=
  let s := (s.joinLost op).retryAvg r.loc.die (s.nretry r.loc.die + 1)
  match n, r.use_ with
  | _, .host f _ =>
    let s := match r.tslot with
      | some k => s.setFlash { s.flash with slots := s.flash.slots.erase k }
      | none => s
    (((s.readGone op r).markUnrec r.unit r.slice r.loc).emit (.issue "SLICE_UNRECOVERED" [op, f, 2, 0x81])).grantSlots 1
  | _, .background _ => ((s.readGone op r).markUnrec r.unit r.slice r.loc).emit (.issue "SLICE_UNRECOVERED" [op])
  | _, .patrol j => (s.readGone op r).patrolSlice j r 5 0 none
  | 0, .member _ => s.readGone op r
  | n + 1, .member par =>
    let s := s.readGone op r
    match mapFind s.flash.reads par with
    | none => s
    | some q =>
      let s := (s.flash.reads.filter fun e => e.2.use_ = .member par).foldl (fun s e => s.readGone e.1 e.2) s
      s.readLost n par q

/-- A decode of slice read `op` ends for a cause other than the data (*Status mapping*): bad input or an internal failure, which the read ends
with; a rebuild that it is a member of ends with it.  `n` guards the nesting. -/
def State.readFailed (s : State) (n op : Nat) (r : SliceRead) (cls : Nat) : State :=
  let s := (s.joined op).foldl (fun s e => (s.readGone e.1 e.2).emit (.issue "SLICE_FAILED" [e.1, cls])) s
  match n, r.use_ with
  | _, .host _ _ =>
    let s := match r.tslot with
      | some k => s.setFlash { s.flash with slots := s.flash.slots.erase k }
      | none => s
    ((s.readGone op r).emit (.issue "SLICE_FAILED" [op, cls])).grantSlots 1
  | _, .background _ => (s.readGone op r).emit (.issue "SLICE_FAILED" [op, cls])
  | _, .patrol j => (s.readGone op r).setFlash { (s.readGone op r).flash with patrols := mapDel s.flash.patrols j }
  | 0, .member _ => s.readGone op r
  | n + 1, .member par =>
    let s := s.readGone op r
    match mapFind s.flash.reads par with
    | none => s
    | some q =>
      let s := (s.flash.reads.filter fun e => e.2.use_ = .member par).foldl (fun s e => s.readGone e.1 e.2) s
      s.readFailed n par q cls

/-- Stage 4 of slice read `op`: slice i of every other non-zero member of its stripe is read, from the write-buffer copy while its program is
in flight (R207, R210, R215; log entry 47). -/
def State.startRebuild (s : State) (op : Nat) (r : SliceRead) : State :=
  let g := s.dieReg r.loc.die 7 5
  let p0 := s.dieReg r.loc.die 12 4
  let (s, ms) := (List.range 16).foldl (fun (a : State × List (Nat × FlashLoc)) p =>
    if p = p0 then a else
    match a.1.dieAt g p with
    | none => a
    | some d =>
      let l : FlashLoc := ⟨d, r.loc.block, r.loc.page, r.loc.slot⟩
      let (s, z) := a.1.zeroMember l
      (s, if z then a.2 else a.2 ++ [(p, l)])) (s, [])
  let at_ (l : FlashLoc) : Option (List Byte) := (s.bufferAt l).map fun b => padTo 4096 ((b.drop (4096 * r.slice)).take 4096)
  let acc := ms.foldl (fun a m => xorPad a ((at_ m.2).getD [])) (List.replicate 4096 (0 : Byte))
  let ms := ms.filter fun m => (at_ m.2).isNone
  let r := { r with stage := 4, reading := false, cell := none, left := ms.length, acc := acc, raw := [] }
  let s := s.setFlash { s.flash with reads := mapPut s.flash.reads op r }
  if ms.isEmpty then s.readOk 1 op r r.acc
  else ms.foldl (fun s m => s.startRead (memberOp op m.1) (2 ^ 64 - 1) r.slice m.2 (.member op)) s

/-- Stages 1 to 3 of slice read `op` have failed (R215, R219, R221): a parity unit under patrol has no rebuild, and the patrol's
rebuilds pause while the record queue is full. -/
def State.toRebuild (s : State) (op : Nat) (r : SliceRead) : State :=
  if !r.use_.isPatrol then s.startRebuild op r
  else if r.unit = 2 ^ 64 - 1 then s.readLost 1 op r
  else if 64 ≤ s.flash.unrec.length then
    s.setFlash { s.flash with reads := mapPut s.flash.reads op { r with stage := 5, reading := false } }
  else s.startRebuild op r

/-- The next retry step after `st` that stage 2 reads. -/
def nextStep (nretry first st : Nat) : Option Nat :=
  ((List.range (nretry + 1)).filter fun k => st < k && k ≠ 0 && k ≠ first).head?

/-- The step with the lowest syndrome weight so far, the earliest on a tie. -/
def bestStep (l : List (Nat × Nat)) : Nat :=
  ((l.foldl (fun (m : Option (Nat × Nat)) x => match m with
    | some y => if x.2 < y.2 then some x else some y
    | none => some x) none).map (·.1)).getD 0

/-- The step that stage 2 of a read goes on with: in a full sweep every step in turn. -/
def State.followStep (s : State) (r : SliceRead) : Option Nat :=
  nextStep (s.nretry r.loc.die) (if r.sweep then 0 else r.first) (if r.stage = 1 then 0 else r.step)

/-- The next page read of slice read `op`: a die that has been mapped out takes none, and the read goes on with its rebuild (R201, R215). -/
def State.readOn (s : State) (op : Nat) (r : SliceRead) : State :=
  if s.dieLive r.loc.die then s.issueRead op r else
  match r.use_ with
  | .member _ => s.readLost 1 op r
  | _ => s.toRebuild op r

/-- A decode of slice read `op` has ended with `res` (R143, R215, R217). -/
def State.sliceDecoded (s : State) (op : Nat) (res : CwResult) : State :=
  match mapFind s.flash.reads op with
  | none => s
  | some r =>
    let ok := res.status == 0
    let step (s : State) (r : SliceRead) (k : Nat) : State := s.readOn op { r with stage := 2, step := k, raw := [] }
    if res.cls = 0x10 ∨ res.cls = 0x70 then s.readFailed 1 op r res.cls
    else if r.stage ≤ 2 ∧ r.sweep then
      let r := if ok then { r with good := r.good ++ [(r.step, res.out)] } else { r with tried := r.tried ++ [(r.step, res.synw)] }
      match s.followStep r with
      | some k => step s r k
      | none =>
        match r.good with
        | (k, d) :: _ => s.readOk 1 op { r with step := k, stage := if k = 0 then 1 else 2 } d
        | [] => s.readOn op { r with stage := 3, step := bestStep r.tried, raw := [] }
    else if ok then s.readOk 1 op r res.out
    else if r.stage ≤ 2 then
      let r := { r with tried := r.tried ++ [(r.step, res.synw)] }
      match s.followStep r with
      | some k => step s r k
      | none => s.readOn op { r with stage := 3, step := bestStep r.tried, raw := [] }
    else match r.use_ with
      | .member _ => s.readLost 1 op r
      | _ => s.toRebuild op r

/-- Units of mapped-out dies are rebuilt by stripe one after another, while the record queue has room, each under a firmware tag (R218, R221);
at most `n` of them start. -/
def State.rebuildNext (s : State) : Nat → State
  | 0 => s
  | n + 1 =>
    match s.flash.rebuilds, s.firmTag with
    | (u, l) :: q, some tag =>
      if 64 ≤ s.flash.unrec.length ∨ s.flash.patrols.any (·.2.mapout) then s else
      let s := s.setFlash { s.flash with rebuilds := q }
      let (s, w) := s.mapEntry u
      let todo := (List.range 4).filter fun k => natBits w (42 + k) 1 == 0
      if natBits w 41 1 = 0 ∨ locOf w ≠ l ∨ todo.isEmpty then s.rebuildNext n else
      let s := s.setFlash { s.flash with patrols := mapPut s.flash.patrols tag ⟨u, l, false, true, [], todo.length, false, [], true⟩ }
      let s := todo.foldl (fun s k =>
        let s := s.accept pFtm
        s.startRebuild (patrolOp tag k) ⟨u, k, l, .patrol tag, 4, 0, 0, [], [], false, [], false, none, none, 0, [], s.epoch pFtm, 0⟩) s
      s.rebuildNext n
    | _, _ => s

/-- Rebuilds that wait go on. -/
def State.rebuildsRun (s : State) : State := s.rebuildNext s.flash.rebuilds.length

/-- A codeword's result goes to who asked for it (R143). -/
def State.cwDeliver (s : State) (e : Ended) : State :=
  match e.1.owner with
  | .bus => s.emit (.data (resultBytes e.1.tag e.2))
  | .tape dsn cell => if e.2.cls ≤ 0x01 then s.cellStore dsn cell e.2.out else s
  | .flash op => (s.sliceDecoded op e.2).rebuildsRun

end Sys2Proof.Machine
end

