-- ==== Sys2Proof/Machine/Cores.lean ====
section
/-! DEFINITION. What the rest of the device does with a core and with a Bench: registers, windows, the bit space, images,
dispatch and switch-out, stops, and the runs of a Bench (chapters 10 to 12 and 18). -/

namespace Sys2Proof.Machine

/-! ### Registers of a core -/

def Core.gr (c : Core) (r : Nat) : Word := if r = 0 then 0 else mapGet zeroWord c.g r

/-- g0 ignores writes (R256). -/
def Core.setG (c : Core) (r : Nat) (v : Word) : Core := if r = 0 then c else { c with g := mapSet zeroWord c.g r v }

def Core.vr (c : Core) (r : Nat) : VecWord := mapGet zeroWord c.v r

def Core.setV (c : Core) (r : Nat) (v : VecWord) : Core := { c with v := mapSet zeroWord c.v r v }

def Core.wb (c : Core) (n : Nat) : Nat := (mapGet zeroWord c.wbase n : Word).toNat
def Core.wl (c : Core) (n : Nat) : Nat := (mapGet zeroWord c.wlim n : Word).toNat
def Core.wa (c : Core) (n : Nat) : Word := mapGet zeroWord c.wattr n

def Core.setWin (c : Core) (n : Nat) (b l a : Word) : Core :=
  { c with wbase := mapSet zeroWord c.wbase n b, wlim := mapSet zeroWord c.wlim n l, wattr := mapSet zeroWord c.wattr n a }

/-- ps.M: Bench mode. -/
def Core.benchMode (c : Core) : Bool := c.ps.getLsbD 4

/-- ps.CW. -/
def Core.cw (c : Core) : Nat := (c.ps >>> 20).toNat % 16

/-- Bits of ps that are defined (R258). -/
def psMask : Word := 0xF0_FF3F

def isCompute (k : Nat) : Bool := k < 32

/-- The register page of the core entry of core number `k`, and the entry's index; none for the Keeper. -/
def coreEntry (k : Nat) : Option (Nat × Nat) :=
  if k < 32 then some (pCcl (k / 8), k % 8) else if k < 40 then some (pRtx, k - 32) else none

/-- The core named by an encoding of CORE (R262, R297). -/
def coreNamed (v : Nat) : Option Nat :=
  let n := v % 256
  match v / 256 % 4 with
  | 0 => if n < 32 then some n else none
  | 1 => if n < 8 then some (32 + n) else none
  | 2 => if n = 0 then some 40 else none
  | _ => none

/-- Core number `k` executes: it is out of reset and not stopped. -/
def State.coreOn (s : State) (k : Nat) : Bool :=
  match (s.core k).mode with
  | .running => true
  | .waiting _ => true
  | _ => false

/-! ### Bench contexts -/

def benchDefault (_ : Nat) : Bench := ⟨0, 0, 0, [0, 0, 0, 0], none, none, [], 0, 0, 0, 0, 0, [], [], []⟩

/-- Bench context `x`: 64 × cluster + Bench. -/
def State.benchOf (s : State) (x : Nat) : Bench := mapGet benchDefault s.benches x

def State.setBench (s : State) (x : Nat) (b : Bench) : State := { s with benches := mapSet benchDefault s.benches x b }

/-- The context dispatched on core number `k`. -/
def State.ctxOn (s : State) (k : Nat) : Option Nat := (s.core k).bench.map fun r => 64 * (k / 8) + r.b

/-- The core on which context `x` is dispatched. -/
def State.coreOfCtx (s : State) (x : Nat) : Option Nat :=
  (s.cores.find? fun e => (e.2.bench.map fun r => 64 * (e.1 / 8) + r.b) == some x).map (·.1)

/-- First byte of the image area of cluster `n`, as an offset in cluster SRAM. -/
def State.ctxBase (s : State) (n : Nat) : Nat := s.fget (pCcl n) Reg.CCL_CTX_BASE 11 11 * 2048

/-- Model address of image `i` of cluster `n`. -/
def State.imageAt (s : State) (n i : Nat) : Nat := clusterBase n + s.ctxBase n + 2048 * i

/-- Read a field of an image. What the dispatch logic takes from an uncorrectable word the manual does not say: its bytes are free
(log entry 128). -/
def State.imgGet (s : State) (a off n : Nat) : State × Nat :=
  match s.sramRead (a + off) n with
  | (s, some b) => (s, leNat b)
  | (s, none) => ({ s with free := s.free + n }, leNat ((List.range n).map fun i => Config.freeByte (s.free + i)))

def State.imgPut (s : State) (a off n v : Nat) : State := (s.sramWrite (a + off) (leBytes n v)).1

/-! ### Windows (R267, R268, R333) -/

/-- A trap before it is taken: vector, TADDR and DETAIL. -/
structure TrapInfo where
  vec : Nat
  addr : Nat
  detail : Nat
deriving DecidableEq, Repr

/-- The kinds of access that R268 tells apart. -/
inductive Access where
  | read | write | fetch | xchg | xadd | clwb
deriving DecidableEq, Repr

/-- DETAIL [5:4] of a window fault (log entry 62). -/
def Access.code (a : Access) : Nat :=
  match a with
  | .read => 0
  | .write => 1
  | .fetch => 2
  | .xchg => 3
  | .xadd => 3
  | .clwb => 0

/-- Does a window with attributes `w` grant the access? -/
def Access.granted (a : Access) (w : Word) : Bool :=
  let r := w.getLsbD 1
  let wr := w.getLsbD 2
  match a with
  | .read => r
  | .write => wr
  | .fetch => w.getLsbD 3
  | .xchg => r && wr
  | .xadd => wr
  | .clwb => r || wr

def streamDefault (_ : Nat) : Stream := ⟨0, 0, false⟩

def State.streamOf (s : State) (i : Nat) : Stream := mapGet streamDefault s.streams i

def State.setStream (s : State) (i : Nat) (x : Stream) : State := { s with streams := mapSet streamDefault s.streams i x }

/-- A field of the entry of stream `i`. -/
def State.strFld (s : State) (i w lo len : Nat) : Nat := s.fget (pCcl (i / 64) + 3) (Reg.STREAM (i % 64) w) lo len

/-- Control block and buffer addresses of stream `i`. -/
def State.strCb (s : State) (i : Nat) : Nat := s.strFld i 0 6 26 * 64 + s.strFld i 4 0 16 * 2 ^ 32
def State.strBuf (s : State) (i : Nat) : Nat := s.strFld i 8 12 20 * 4096 + s.strFld i 0xC 0 16 * 2 ^ 32

/-- Window `n` of core `k` is that of stream entry `i`, which the Bench dispatched there owns (R333). -/
def State.strOwned (s : State) (k n i : Nat) : Bool :=
  let c := s.core k
  match c.bench with
  | some r => i / 64 == k / 8 && s.strFld i 0x10 16 1 == 1 && s.strFld i 0x10 8 6 == r.b && s.strBuf i == c.wb n
      && 2 ^ s.strFld i 0x10 0 5 == c.wl n + 1
  | none => false

/-- The stream of window `n`. -/
def Core.stream (c : Core) (n : Nat) : Nat := (c.wa n >>> 8).toNat % 256

/-- Bytes `off` to `off + size - 1` of the window's stream have been filled and not released. -/
def State.strOk (s : State) (k n off size : Nat) : Bool :=
  let i := (s.core k).stream n
  let x := s.streamOf i
  let sz := (s.core k).wl n + 1
  let rel := x.rel.toNat
  s.strOwned k n i && rel + ((((off : Int) - (rel : Int)) % (sz : Int)).toNat) + size ≤ x.fill.toNat

/-- The checks of R268 in order: the space and the address within it. -/
def State.winCheck (s : State) (k n : Nat) (a : Access) (off size : Nat) : Except TrapInfo (Nat × Nat) :=
  let c := s.core k
  let w := c.wa n
  let space := (w >>> 4).toNat % 4
  let fault (d : Nat) : Except TrapInfo (Nat × Nat) := .error ⟨1, off, n + 16 * a.code + 64 * d⟩
  let img := s.ctxBase (k / 8)
  if c.benchMode && n < 4 then fault 0
  else if !w.getLsbD 0 then fault 1
  else if !a.granted w then fault 2
  else if c.benchMode && space == 2 && c.wb n + off < img + 147456 && img < c.wb n + off + size then fault 2
  else if off % size ≠ 0 then .error ⟨3, off, n⟩
  else if w.getLsbD 7 then
    let o := off % (c.wl n + 1)
    if s.strOk k n o size then .ok (space, c.wb n + o) else fault 3
  else if c.wl n < off || c.wl n - off < size - 1 then fault 3
  else .ok (space, c.wb n + off)

/-- The model's address of an address within a space of core `k`; none: beyond the space (R269). -/
def spaceAddr (k space addr size : Nat) : Option Nat :=
  match space with
  | 0 => if addr + size ≤ 2 ^ 48 then some addr else none
  | 1 => if addr + size ≤ localSizeOf k then some (localBase k + addr) else none
  | _ => if addr + size ≤ 2 ^ 22 then some (clusterBase (k / 8) + addr) else none

/-! ### Job rings as the bit space shows them (R327) -/

def ringDefault : Ring := ⟨false, none, 0, 0, 0, 3, 0, 0, 0, false, 0, none, none⟩

def State.ringOf (s : State) (r : RingId) : Ring := ((s.rings.find? (·.1 == r)).map (·.2)).getD ringDefault

def State.setRing (s : State) (r : RingId) (x : Ring) : State :=
  { s with rings := if s.rings.any (·.1 == r) then s.rings.map fun e => if e.1 = r then (r, x) else e else s.rings ++ [(r, x)] }

/-- Ring `r` of the context that runs on core `k` (log entry 76). -/
def State.ringId (s : State) (k r : Nat) : RingId :=
  match s.ctxOn k with
  | some x => .bench x r
  | none => .core (if h : k < 32 then .compute ⟨k, h⟩ else if h : k - 32 < 8 then .rt ⟨k - 32, h⟩ else .keeper) r

/-- PROD and CCONS as the header in memory holds them. -/
def State.ringWord (s : State) (x : Ring) (off : Nat) : Nat :=
  match x.hdr with
  | some a => leNat (memRead s.mem (a + off) 4)
  | none => 0

/-! ### The bit space (R275 to R277) -/

/-- A peripheral bit. -/
def State.periphBit (s : State) (k i : Nat) : Bool :=
  let c := s.core k
  if i < 16 then (c.wa i).getLsbD 0
  else if i < 32 then (c.wa (i - 16)).getLsbD 7 && (let x := s.streamOf (c.stream (i - 16)); x.rel != x.fill)
  else if i < 48 then (c.wa (i - 32)).getLsbD 7 && (s.streamOf (c.stream (i - 32))).closed
  else if 64 ≤ i ∧ i < 80 then
    let x := s.ringOf (s.ringId k ((i - 64) / 4))
    match (i - 64) % 4 with
    | 0 => (x.armed || x.halt) && x.hdr.isSome && (s.ringWord x 0 + 2 ^ 32 - s.ringWord x 4) % 2 ^ 32 < 2 ^ x.log2n
    | 1 => (x.armed || x.halt) && x.hdr.isSome && x.cprod != s.ringWord x 4
    | 2 => x.halt
    | _ => false
  else false

/-- May the core name bit `bn` (R275)? -/
def Core.bitOk (c : Core) (bn : Nat) : Bool :=
  if bn < 2048 then !c.benchMode
  else if bn < 4096 then true
  else if bn < 4352 then !c.benchMode || 4320 ≤ bn
  else if bn < 8192 then !c.benchMode
  else bn < 16384

/-- The value of bit `bn`. -/
def State.bitGet (s : State) (k bn : Nat) : Bool :=
  let c := s.core k
  if bn < 4096 then (mapGet zeroWord c.bits (bn / 32) : RegWord).getLsbD (bn % 32)
  else if bn < 4352 then (mapGet zeroWord c.evt ((bn - 4096) / 32) : RegWord).getLsbD (bn % 32)
  else if bn < 8192 then false
  else s.periphBit k (bn - 8192)

/-- Write bit `bn`; bits that read zero or are read only keep their values (R287). -/
def State.bitSet (s : State) (k bn : Nat) (v : Bool) : State :=
  let c := s.core k
  let f (w : RegWord) : RegWord := putBits w (bn % 32) 1 (if v then 1 else 0)
  if bn < 4096 then s.setCore k { c with bits := mapUpd zeroWord c.bits (bn / 32) f }
  else if bn < 4352 then s.setCore k { c with evt := mapUpd zeroWord c.evt ((bn - 4096) / 32) f }
  else s

/-! ### Images (R316, R317) -/

def rangeFold (n : Nat) (f : State → Nat → State) (s : State) : State := (List.range n).foldl f s

/-- Save what a supervisor's and a Bench's image have in common: g and v registers, WSEL, WSTK, w4 to w15, and the pc and ps
given. -/
def State.saveCommon (s : State) (a k : Nat) (pc ps : Word) : State :=
  let c := s.core k
  let s := rangeFold 32 (fun s i => s.imgPut a (8 * i) 8 (c.gr i).toNat) s
  let s := rangeFold 16 (fun s i => s.imgPut a (0x100 + 32 * i) 32 (c.vr i).toNat) s
  let s := ((s.imgPut a 0x300 8 pc.toNat).imgPut a 0x308 8 ps.toNat).imgPut a 0x310 8 c.wsel.toNat
  let s := s.imgPut a 0x318 8 c.wstk.toNat
  rangeFold 12 (fun s i =>
    ((s.imgPut a (0x340 + 24 * i) 8 (c.wb (4 + i))).imgPut a (0x348 + 24 * i) 8 (c.wl (4 + i))).imgPut a (0x350 + 24 * i) 8
      (c.wa (4 + i)).toNat) s

/-- Load the same, with the pc and ps of the image; bits that the registers do not have are dropped. -/
def State.loadCommon (s : State) (a k : Nat) : State :=
  let s := rangeFold 32 (fun s i =>
    let (s, v) := s.imgGet a (8 * i) 8
    s.setCore k ((s.core k).setG i (BitVec.ofNat 64 v))) s
  let s := rangeFold 16 (fun s i =>
    let (s, v) := s.imgGet a (0x100 + 32 * i) 32
    s.setCore k ((s.core k).setV i (BitVec.ofNat 256 v))) s
  let (s, pc) := s.imgGet a 0x300 8
  let (s, ps) := s.imgGet a 0x308 8
  let (s, wsel) := s.imgGet a 0x310 8
  let (s, wstk) := s.imgGet a 0x318 8
  let c := s.core k
  let s := s.setCore k { c with
    pc := BitVec.ofNat 64 (pc % 2 ^ 48), ps := BitVec.ofNat 64 ps &&& psMask
    wsel := BitVec.ofNat 4 wsel, wstk := BitVec.ofNat 4 wstk }
  rangeFold 12 (fun s i =>
    let (s, b) := s.imgGet a (0x340 + 24 * i) 8
    let (s, l) := s.imgGet a (0x348 + 24 * i) 8
    let (s, w) := s.imgGet a (0x350 + 24 * i) 8
    s.setCore k ((s.core k).setWin (4 + i) (BitVec.ofNat 64 (b % 2 ^ 48 / 64 * 64)) (BitVec.ofNat 64 (l % 2 ^ 48))
      (BitVec.ofNat 64 (w % 2 ^ 16)))) s

/-! ### Runs of a Bench (R454 to R457) -/

/-- Write zeros and data to device memory. -/
def State.fillMem (s : State) (a n : Nat) (b : List Byte) : State :=
  (s.busWrite a (b.take n ++ List.replicate (n - b.length) 0)).1

/-- The next run of context `x` starts from the image's initial state (R324, R456; log entry 67). -/
def State.benchStart (s : State) (x : Nat) : State :=
  let b := s.benchOf x
  match (if b.state = 4 then none else b.prog), b.run, b.waiting with
  | some p, none, t :: q =>
    let a := s.imageAt (x / 64) (x % 64)
    let s := (s.fillMem p.dataAt (p.data.length + p.bss) p.data).fillMem p.stackAt p.stack []
    let pad := ceilDiv t.input.length 4096 * 4096
    let s := (s.fillMem t.inAt pad t.input).fillMem t.resAt t.resLen []
    let s := if t.scrLen = 0 then s else s.fillMem t.scrAt t.scrLen []
    let s := rangeFold 32 (fun s i => s.imgPut a (8 * i) 8
      (if i = 1 then t.arg else if i = 2 then t.input.length else if i = 3 then t.resLen else if i = 4 then t.scrLen
        else if i = 31 then p.stack else 0)) s
    let s := rangeFold 16 (fun s i => s.imgPut a (0x100 + 32 * i) 32 0) s
    let s := (((s.imgPut a 0x300 8 p.entry).imgPut a 0x308 8 (2 ^ 4 + 2 ^ 5 + 4 * 2 ^ 20)).imgPut a 0x310 8 0).imgPut a 0x318 8 6
    let win (s : State) (n base len attr : Nat) : State :=
      ((s.imgPut a (0x340 + 24 * (n - 4)) 8 base).imgPut a (0x348 + 24 * (n - 4)) 8 (len - 1)).imgPut a (0x350 + 24 * (n - 4)) 8
        (if len = 0 then 0 else attr)
    let s := win s 4 p.codeAt p.code.length 0x0B
    let s := win s 5 p.dataAt (p.data.length + p.bss) 0x07
    let s := win s 6 p.stackAt p.stack 0x07
    let s := win s 7 t.inAt pad 0x03
    let s := win s 8 t.resAt t.resLen 0x07
    let s := win s 9 t.scrAt t.scrLen 0x07
    let s := rangeFold 6 (fun s i =>
      let n := 10 + i
      match (if n = t.strWin then mapFind b.streams n else none) with
      | some (st, _) => win s n (s.strBuf st) (2 ^ s.strFld st 0x10 0 5) (0x83 + 256 * st)
      | none => win s n 0 0 0) s
    let s := (s.imgPut a 0x468 8 (if t.eBudget = 0 then 2 ^ 63 - 1 else t.eBudget * 1000000)).imgPut a 0x470 8
      (if t.tBudget = 0 then 2 ^ 64 - 1 else t.tBudget * 1000000)
    let s := (s.imgPut a 0x460 4 0).sramWrite (a + 0x500) (List.replicate 256 0) |>.1
    let (s, used) := s.imgGet a 0x478 8
    s.setBench x { b with run := some t, waiting := q, state := 1, eStart := used }
  | _, _, _ => s

/-- Energy that context `x` has used since its binding, nJ. -/
def State.benchUsed (s : State) (x : Nat) : State × Nat :=
  match s.coreOfCtx x with
  | some k => (s, (((s.core k).bench.map BenchRun.eUsed).getD 0).toNat)
  | none => s.imgGet (s.imageAt (x / 64) (x % 64)) 0x478 8

/-- Energy of the run in progress, that of command `tag`, in µJ, as DW0 takes it: what its Bench has used and what the meters
have charged to the command (R449; log entry 68). -/
def State.runEnergy (s : State) (x tag : Nat) : State × Nat :=
  let b := s.benchOf x
  let (s, used) := s.benchUsed x
  (s, min (2 ^ 32 - 1) ((used - b.eStart + ((mapFind s.cmds tag).map Cmd.nj).getD 0) / 1000))

/-- The run in progress of context `x` is over. -/
def State.runOver (s : State) (x : Nat) : State :=
  let b := s.benchOf x
  let s := s.setBench x { b with run := none, runs := satAdd (2 ^ 32 - 1) b.runs 1 }
  if (s.coreOfCtx x).isSome then s else s.benchStart x

/-- A Program Fault (R457): the run in progress ends with C3h (log entry 65). -/
def State.runFault (s : State) (x cause vec exit : Nat) : State :=
  let b := s.benchOf x
  match b.run with
  | none => s
  | some t =>
    let (s, e) := s.runEnergy x t.tag
    let s := s.complete t.tag 7 0xC3 true e (cause + vec * 2 ^ 8 + exit % 65536 * 2 ^ 16) 0
    let b := s.benchOf x
    (s.setBench x { b with lastCause := cause, lastVec := vec }).runOver x

/-- Every run of context `x`, running or waiting, ends with C3h and `cause` without running on. -/
def State.runsEnd (s : State) (x cause : Nat) : State :=
  let b := s.benchOf x
  let tags := (b.run.toList ++ b.waiting).map (·.tag)
  let (s, e) := s.runEnergy x (tags.headD 0)
  let n := if b.run.isSome then satAdd (2 ^ 32 - 1) b.runs 1 else b.runs
  let s := s.setBench x (if tags.isEmpty then b else { b with run := none, waiting := [], lastCause := cause, lastVec := 0, runs := n })
  tags.foldl (fun s t => s.complete t 7 0xC3 true (if b.run.any (·.tag == t) then e else 0) cause 0) s

/-- The rings of context `x` fetch nothing more. -/
def State.ringsStop (s : State) (x : Nat) : State :=
  (List.range 4).foldl (fun s r => s.setRing (.bench x r) { s.ringOf (.bench x r) with armed := false, wait := none, hold := none }) s

/-- Context `x` is killed. -/
def State.benchKilled (s : State) (x : Nat) : State :=
  (s.setBench x { s.benchOf x with state := 4 }).ringsStop x

/-- The Bench dispatched on core `k` is lost with it (R321; log entry 66). -/
def State.benchLost (s : State) (k : Nat) : State :=
  match s.ctxOn k with
  | none => s
  | some x =>
    let s := s.setCore k { s.core k with bench := none }
    (s.benchKilled x).runsEnd x 7

/-! ### Dispatch and switch-out (R317, R319) -/

/-- Put a field of the CORE_RUN word of core `k`. -/
def State.coreFld (s : State) (k w lo len : Nat) : Nat :=
  match coreEntry k with
  | some (pg, c) => s.fget (pg + 1) (Reg.CORE c w) lo len
  | none => 0

def State.setCoreFld (s : State) (k w lo len v : Nat) : State :=
  match coreEntry k with
  | some (pg, c) => s.fset (pg + 1) (Reg.CORE c w) lo len v
  | none => s

/-- T_REM of a Bench at the present TB. -/
def State.tRemNow (s : State) (r : BenchRun) : Word :=
  if r.tRem = BitVec.allOnes 64 then r.tRem
  else BitVec.ofNat 64 (r.tRem.toNat - (s.tb.toNat - r.tFrom.toNat))

/-- The Bench on core `k` leaves: its state goes into its image with the pc and ps given, and the supervisor's comes back. -/
def State.switchOut (s : State) (k reason : Nat) (pc ps : Word) : State :=
  match (s.core k).bench with
  | none => s
  | some r =>
    let x := 64 * (k / 8) + r.b
    let a := s.imageAt (k / 8) r.b
    let s := s.saveCommon a k pc ps
    let c := s.core k
    let s := (s.imgPut a 0x460 4 (mapGet zeroWord c.evt 7 : RegWord).toNat).imgPut a 0x468 8 r.eRem.toNat
    let s := (s.imgPut a 0x470 8 (s.tRemNow r).toNat).imgPut a 0x478 8 r.eUsed.toNat
    let s := rangeFold 64 (fun s i => s.imgPut a (0x500 + 4 * i) 4 (mapGet zeroWord c.bits (64 + i) : RegWord).toNat) s
    let b := s.benchOf x
    let stale := (s.func b.func).epoch.toNat ≠ b.fepoch
    let s := s.setBench x { b with state := if stale then 4 else 3, tUsed := b.tUsed + (s.tb.toNat - r.since.toNat) }
    let s := if stale then s.ringsStop x else s
    let s := s.setCore k { s.core k with bench := none }
    let s := s.loadCommon (s.imageAt (k / 8) (64 + k % 8)) k
    let s := s.setCore k { s.core k with mode := .running }
    let s := s.setCoreFld k 0xC 16 4 reason
    let s := (if reason = 3 then s.runFault x 3 0 0 else s).benchStart x
    if reason = 3 ∨ reason = 4 then s.raise (pCcl (k / 8)) 5 else s

/-- A switch-out cause 2 to 4 arises on core `k`: at once in Bench mode; at the handler's TRET or OUT otherwise. A wait is saved
at the waiting instruction, which pc still names. -/
def State.switchCause (s : State) (k reason : Nat) : State :=
  let c := s.core k
  match c.bench with
  | none => s
  | some r =>
    if c.benchMode then s.switchOut k reason c.pc c.ps
    else if r.late = 0 then s.setCore k { c with bench := some { r with late := reason } } else s

/-- A function's epoch advances (R320): every Bench bound to it leaves its core and is killed, and its runs end: `complete` posts
nothing for a function whose epoch has advanced. -/
def State.benchKill (s : State) (f : Nat) : State :=
  (s.benches.filter fun e => e.2.func == f && e.2.state != 0).foldl (fun s e =>
    let s := match s.coreOfCtx e.1 with
      | some k => s.switchCause k 4
      | none => s
    (s.benchKilled e.1).runsEnd e.1 7) s

/-- What a ring of a Bench does at a dispatch: its value in the image, and whether it is to be armed afresh. -/
def State.benchRings (s : State) (x : Nat) : State × List (Nat × Word) :=
  let a := s.imageAt (x / 64) (x % 64)
  (List.range 4).foldl (fun (acc : State × List (Nat × Word)) r =>
    let (s, v) := acc.1.imgGet a (0x600 + 8 * r) 8
    let w := BitVec.ofNat 64 v
    (s, if (s.benchOf x).rings.getD r 0 = w then acc.2 else acc.2 ++ [(r, w)])) (s, [])

/-- May core `k` dispatch Bench `b` of its cluster (R317)? -/
def State.mayDispatch (s : State) (k b : Nat) : Bool :=
  let c := s.core k
  let st := (s.benchOf (64 * (k / 8) + b)).state
  isCompute k && !c.benchMode && c.bench.isNone && s.coreOn k && b < 64 && (st == 1 || st == 3)

/-- Core `k` dispatches Bench `b`: the supervisor's state is saved with pc + 4, the Bench's is loaded. The rings to arm are left
to who calls. -/
def State.dispatch (s : State) (k b : Nat) : State :=
  let x := 64 * (k / 8) + b
  let c := s.core k
  let s := s.saveCommon (s.imageAt (k / 8) (64 + k % 8)) k (c.pc + 4) c.ps
  let a := s.imageAt (k / 8) b
  let s := s.loadCommon a k
  let (s, evt7) := s.imgGet a 0x460 4
  let (s, eRem) := s.imgGet a 0x468 8
  let (s, tRem) := s.imgGet a 0x470 8
  let (s, eUsed) := s.imgGet a 0x478 8
  let c := s.core k
  let s := s.setCore k { c with
    ps := c.ps ||| 0x30
    mode := .running
    evt := mapSet zeroWord c.evt 7 (BitVec.ofNat 32 evt7)
    bench := some ⟨b, BitVec.ofNat 64 eRem, BitVec.ofNat 64 tRem, BitVec.ofNat 64 eUsed, s.tb, s.tb, 0⟩ }
  let s := rangeFold 64 (fun s i =>
    let (s, v) := s.imgGet a (0x500 + 4 * i) 4
    let c := s.core k
    s.setCore k { c with bits := mapSet zeroWord c.bits (64 + i) (BitVec.ofNat 32 v) }) s
  let s := s.setBench x { s.benchOf x with state := 2 }
  s.cntSat (pCcl (k / 8) + 2) (Reg.BENCH b 4) 0 32 1

/-- Binding of Bench `b` of cluster `n` (R316): firmware sets or clears BOUND. -/
def State.bindBench (s : State) (n b : Nat) (bound : Bool) : State :=
  let x := 64 * n + b
  let o := s.benchOf x
  if bound then
    if o.state = 0 then
      let (s, f) := s.imgGet (s.imageAt n b) 0x480 2
      s.setBench x { benchDefault x with state := 1, func := f, fepoch := (s.func f).epoch.toNat }
    else s
  else (s.ringsStop x).setBench x { benchDefault x with streams := o.streams }

/-! ### Reset, run and stop (R313, R301, R305, R321) -/

/-- Core `k` returns to reset; its local store stays (log entry 66). -/
def State.coreReset (s : State) (k : Nat) : State :=
  let s := s.benchLost k
  (s.setCore k { coreDefault k with storeErr := [] }).setCoreFld k 0 0 1 0

/-- Core `k` starts at its START offset. -/
def State.coreRun (s : State) (k : Nat) : State :=
  let s := s.setCoreFld k 0 0 1 1
  if (s.core k).mode = .inReset then
    let start := match coreEntry k with
      | some (pg, c) => (s.rg (pg + 1) (Reg.CORE c 4)).toNat
      | none => 0
    s.setCore k { coreDefault k with mode := .running, pc := BitVec.ofNat 64 start }
  else s

/-- Core `k` stops: cause 1 a double trap, 2 a second watchdog expiry. Its block counts and reports it, and a Bench dispatched on
it is lost. -/
def State.coreStop (s : State) (k cause : Nat) : State :=
  let lost := (s.core k).bench.isSome
  let s := (s.setCore k { s.core k with mode := .stopped cause })
  let s := if lost then s.benchLost k else s
  match coreEntry k with
  | some (pg, _) => (s.errCnt pg 0).raise pg 4
  | none => if cause = 1 then s.fatal 3 else s

/-! ### LOAD (R314) -/

/-- The LOAD registers of a block: local-store offset and core, and the core's number. -/
def State.loadTarget (s : State) (pg : Nat) : Nat × Nat :=
  let w := s.rg pg Reg.CCL_LOAD
  if pg = pRtx then (bitsOf w 3 16 * 8, 32 + bitsOf w 19 3)
  else (bitsOf w 3 15 * 8, 8 * ((pg - 0x400) / 16) + bitsOf w 19 3)

/-- A LOAD ends with `status`: GO reads 0 and event 7 is raised. -/
def State.loadOver (s : State) (pg status : Nat) : State :=
  ({ s with loads := mapDel s.loads pg }.fset pg Reg.CCL_LOAD 22 1 0).fset pg Reg.CCL_LOAD 24 4 status |>.raise pg 7

end Sys2Proof.Machine
end

