-- ==== Sys2Proof/Machine/Rings.lean ====
section
/-! DEFINITION. Job rings, descriptors, completions, the engine intakes and the streams (R325 to R335, R353, R467, R472). -/

namespace Sys2Proof.Machine

/-! ### Accesses of engines and DMA units, host memory apertures included (R31, R467) -/

/-- Status of a job whose DMA meets an aperture entry with V at 0. -/
def stMiss : Nat := 0x1014

/-- Status of a job with an access that ends in any other bus error (R576). -/
def stBus : Nat := 0x7010

/-- Run `f` while host memory delivers the bytes `host` to its reads, in order. -/
def withHost (host : List Byte) (f : State → State) (s : State) : State := { f { s with inp := host } with inp := [] }

/-- Does the range start in a host memory aperture (R31)? -/
def inApt (a : Nat) : Bool := aptBase ≤ a && a < 0x0300_0000_0000

/-- Every aperture entry of function `func` that `n` bytes from `a` need has V set; 0, or the status (log entry 72). -/
def State.aptCheck (s : State) (func a n : Nat) : State × Nat :=
  if 256 ≤ func ∨ 0x0300_0000_0000 < a + n then (s, stMiss) else
  let e0 := (a - aptBase) / 2 ^ 31
  let e1 := (a - aptBase + (n - 1)) / 2 ^ 31
  let base := s.fget pImg Reg.IMG_APT_LO 20 12 * 2 ^ 20 + s.fget pImg Reg.IMG_APT_HI 0 16 * 2 ^ 32 + 4096 * func
  (List.range (e1 + 1 - e0)).foldl (fun (acc : State × Nat) i =>
    if acc.2 ≠ 0 then acc else
    match acc.1.busRead (base + 8 * (e0 + i)) 8 with
    | (s, none) => (s, stBus)
    | (s, some b) => (s, if leNat b % 2 = 1 then 0 else stMiss)) (s, 0)

/-- Where the data of a Barlis command's engine job lies while the job runs; no descriptor's address reaches it. -/
def cmdBuf : Nat := 2 ^ 52

/-- Read `n` bytes for function `func`: from the device, or through its aperture. -/
def State.dmaRead (s : State) (func a n : Nat) : State × Except Nat (List Byte) :=
  if n = 0 then (s, .ok []) else
  if cmdBuf ≤ a then (s, .ok (memRead s.mem a n)) else
  if inApt a then
    match s.aptCheck func a n with
    | (s, 0) => ({ s with inp := s.inp.drop n }, .ok ((s.inp ++ List.replicate n 0).take n))
    | (s, e) => (s, .error e)
  else
    match s.busRead a n with
    | (s, some b) => (s, .ok b)
    | (s, none) => (s, .error stBus)

/-- Write bytes for function `func`: 0, or the status. -/
def State.dmaWrite (s : State) (func a : Nat) (b : List Byte) : State × Nat :=
  if b.isEmpty then (s, 0) else
  if cmdBuf ≤ a then ({ s with mem := memWrite s.mem a b }, 0) else
  if inApt a then
    match s.aptCheck func a b.length with
    | (s, 0) => (s.emit (.hostData func b), 0)
    | (s, e) => (s, e)
  else
    match s.busWrite a b with
    | (s, true) => (s, 0)
    | (s, false) => (s, stBus)

/-! ### Whose ring -/

/-- First page of the CCL or RTX that holds a ring. -/
def ringBlock : RingId → Nat
  | .core (.compute n) _ => pCcl (n.val / 8)
  | .core _ _ => pRtx
  | .bench x _ => pCcl (x / 64)

/-- The function for which the ring unit itself reads and writes: that of the Bench's image; device work for a core. -/
def State.ringFunc (s : State) : RingId → Nat
  | .core _ _ => 0xFFFF
  | .bench x _ => leNat (memRead s.mem (s.imageAt (x / 64) (x % 64) + 0x480) 2)

/-- Base, limit and attributes of window `n` of Bench context `x`: on its core while dispatched, else in its image. -/
def State.benchWin (s : State) (x n : Nat) : Nat × Nat × Word :=
  match s.coreOfCtx x with
  | some k => let c := s.core k; (c.wb n, c.wl n, c.wa n)
  | none =>
    let a := s.imageAt (x / 64) (x % 64) + 0x340 + 24 * (n - 4)
    (leNat (memRead s.mem a 8) % 2 ^ 48 / 64 * 64, leNat (memRead s.mem (a + 8) 8) % 2 ^ 48,
      BitVec.ofNat 64 (leNat (memRead s.mem (a + 16) 8) % 2 ^ 16))

/-- Resolve a range of a descriptor or ring header (R329); none: it fails its check. -/
def State.ringResolve (s : State) (r : RingId) (a len : Nat) (need : Access) : Option Nat :=
  match r with
  | .core _ _ => if a < 2 ^ 48 then some a else none
  | .bench x _ =>
    let n := a / 2 ^ 60
    let off := a % 2 ^ 48
    if natBits a 48 12 ≠ 0 ∨ n < 4 then none else
    let (b, l, w) := s.benchWin x n
    if !w.getLsbD 0 || !need.granted w || (w >>> 4).toNat % 4 != 0 || w.getLsbD 7 then none
    else if l < off ∨ l - off + 1 < len then none
    else some (b + off)

/-- Jobs accepted from a ring and not complete. -/
def State.ringBusy (s : State) (r : RingId) : Bool := s.jobs.any fun e => e.2.ring == r

/-- The tags a ring's jobs take: firmware tags for a real-time core, host tags for the others (R22, R326). -/
def ringTag (r : RingId) (t : Nat) : Bool :=
  match r with
  | .core (.rt _) _ => t < 256
  | _ => 256 ≤ t && t < 65536

/-! ### Halts and arming (R325, R328) -/

/-- Put a 32-bit word of the ring header; false when the write fails. -/
def State.hdrPut (s : State) (r : RingId) (off v : Nat) : State × Bool :=
  match (s.ringOf r).hdr with
  | none => (s, false)
  | some a =>
    let (s, e) := s.dmaWrite (s.ringFunc r) (a + off) (leBytes 4 v)
    (s, e == 0)

/-- Ring `r` halts with `cause`. -/
def State.ringHalt (s : State) (r : RingId) (cause : Nat) : State :=
  let s := s.setRing r { s.ringOf r with halt := true, haltCause := cause, armed := false }
  let s := match (s.ringOf r).hdr with
    | none => s
    | some a =>
      match s.dmaRead (s.ringFunc r) (a + 0x28) 4 with
      | (s, .ok b) => (s.hdrPut r 0x28 (leNat b % 2 ^ 24 / 2 ^ 17 * 2 ^ 17 + leNat b % 2 ^ 16 + 2 ^ 16 + cause * 2 ^ 24)).1
      | (s, .error _) => s
  (s.errCnt (ringBlock r) 1).raise (ringBlock r) 6

/-- Do the fields of a ring header `h` pass the checks of HALT_CAUSE 0x04? -/
def State.hdrOk (s : State) (r : RingId) (h : List Byte) : Bool :=
  let log2n := fieldAt h 0x28 1 % 16
  let eng := fieldAt h 0x29 1
  let chain := fieldAt h 0x20 8
  let form := match r with
    | .core _ _ => chain < 2 ^ 48
    | .bench _ _ => natBits chain 48 12 == 0 && 4 ≤ chain / 2 ^ 60
  let w := fieldAt h 0x28 4
  3 ≤ log2n && log2n ≤ 12 && 0x13 ≤ eng && eng ≤ 0x16 && natBits w 4 4 == 0 && natBits w 17 7 == 0
    && (h.drop 0x2C).all (· == 0) && (chain == 0 || (form && chain % 16 == 0))
    && ((s.ringResolve r (fieldAt h 0x10 8) (64 * 2 ^ log2n) .read).map (· % 64)) == some 0
    && ((s.ringResolve r (fieldAt h 0x18 8) (32 * 2 ^ log2n) .write).map (· % 32)) == some 0

/-- Arm ring `r`, none of whose jobs is outstanding, with the word `w`, or disarm it. -/
def State.ringArmNow (s : State) (r : RingId) (w : Word) : State :=
  let a := w.toNat / 64 * 64
  let s := s.setRing r { s.ringOf r with armed := false, wait := none, hold := none }
  if !w.getLsbD 0 then s else
  match s.ringResolve r a 64 .read, s.ringResolve r a 64 .write with
  | some h, some _ =>
    let s := s.setRing r { ringDefault with hdr := some h }
    match s.dmaRead (s.ringFunc r) h 64 with
    | (s, .error _) => s.ringHalt r 1
    | (s, .ok b) =>
      if !s.hdrOk r b then s.ringHalt r 4 else
      let (s, ok) := s.hdrPut r 0x28 (fieldAt b 0x28 2)
      let s := s.setRing r { ringDefault with
        armed := true, hdr := some h, chain := fieldAt b 0x20 8, log2n := fieldAt b 0x28 1 % 16, engine := fieldAt b 0x29 1
        desc := (s.ringResolve r (fieldAt b 0x10 8) 0 .read).getD 0, cpl := (s.ringResolve r (fieldAt b 0x18 8) 0 .write).getD 0
        cons := fieldAt b 8 4, cprod := fieldAt b 0xC 4 }
      if ok then s else s.ringHalt r 2
  | _, _ => (s.setRing r ringDefault).ringHalt r 4

/-- Arm ring `r`, once its accepted jobs have completed (log entry 69). -/
def State.ringArm (s : State) (r : RingId) (w : Word) : State :=
  if s.ringBusy r then s.setRing r { s.ringOf r with wait := some w } else s.ringArmNow r w

/-! ### Descriptors (R329 to R331) -/

/-- The lengths and places of an engine's further range, which PARAM0 or PARAM1 addresses: address, length and access. -/
def auxWant (eng op eflags srcLen p0 p1 : Nat) : Option (Nat × Nat × List Access) :=
  match eng with
  | 0x13 =>
    let kib := natBits p0 16 13
    if op = 1 ∧ natBits eflags 1 1 = 1 ∧ kib ≠ 0 then some (p1, 8 * ceilDiv srcLen (1024 * kib), [.write]) else none
  | 0x14 => match op with
    | 3 => some (p0, 32, [.write])
    | 4 => some (p0, 32, [.read])
    | 5 => some (p0, 32, [.write])
    | 6 => some (p0, 32, [.read])
    | 7 => some (p0, 16, [.read])
    | _ => none
  | 0x15 =>
    if op ≤ 2 ∧ eflags % 4 ≠ 0 then
      some (p0, 256, (if natBits eflags 0 1 = 1 then [.read] else []) ++ (if natBits eflags 1 1 = 1 then [.write] else []))
    else none
  | _ => none

/-- Read `cnt` chain entries at a descriptor address: their ADDR, LEN and reserved word, or status and DETAIL. -/
def State.chainRead (s : State) (r : RingId) (func a cnt : Nat) : State × Except (Nat × Nat) (List (Nat × Nat × Nat)) :=
  match s.ringResolve r a (16 * cnt) .read with
  | none => (s, .error (0x1000, 1))
  | some d =>
    match s.dmaRead func d (16 * cnt) with
    | (s, .error e) => (s, .error (e, 0))
    | (s, .ok b) => (s, .ok ((List.range cnt).map fun i => (fieldAt b (16 * i) 8, fieldAt b (16 * i + 8) 4, fieldAt b (16 * i + 12) 4)))

/-- Resolve the buffers of a list; a buffer of length 0 names no range. -/
def State.buffers (s : State) (r : RingId) (need : Access) (l : List (Nat × Nat × Nat)) : Option (List Range) :=
  l.mapM fun e => if e.2.1 = 0 then some ⟨0, 0⟩ else (s.ringResolve r e.1 e.2.1 need).map fun a => ⟨a, e.2.1⟩

/-- The further range, resolved: none inside when the engine needs none, none outside when it fails (log entry 73). -/
def State.auxOf (s : State) (r : RingId) (d : List Byte) : Option (Option Range) :=
  match auxWant (fieldAt d 1 1) (fieldAt d 0 1) (fieldAt d 3 1) (fieldAt d 0x18 4) (fieldAt d 0x30 8) (fieldAt d 0x38 8) with
  | none => some none
  | some (a, n, need) =>
    if n = 0 then some none
    else if need.all fun x => (s.ringResolve r a n x).isSome then
      (s.ringResolve r a n (need.headD .read)).map fun x => some ⟨x, n⟩
    else none

/-- The reserved fields and values of a descriptor are as they must be. -/
def descReserved (r : RingId) (d : List Byte) : Bool :=
  let w := fieldAt d 0 4
  let cnt := fieldAt d 0x1C 4
  let zeroFunc := match r with
    | .bench _ _ => fieldAt d 4 4 == 0
    | .core _ _ => true
  natBits w 19 5 == 0 && cnt < 32 && cnt ≤ 16 && (natBits w 18 1 == 1 || fieldAt d 0x2C 4 == 0) && zeroFunc

/-- The engine of a descriptor is the ring's and, for a Bench, lies in ENG. -/
def State.descEngine (s : State) (r : RingId) (d : List Byte) : Bool :=
  let e := fieldAt d 1 1
  let eng := match r with
    | .bench x _ => natBits (leNat (memRead s.mem (s.imageAt (x / 64) (x % 64) + 0x484) 1)) (e - 0x13) 1 == 1
    | .core _ _ => true
  e == (s.ringOf r).engine && eng

/-- The source buffers, as the descriptor lists them. -/
def State.descSrc (s : State) (r : RingId) (func : Nat) (d : List Byte) : State × Except (Nat × Nat) (List (Nat × Nat × Nat)) :=
  let cnt := fieldAt d 0x1C 4
  if cnt = 0 then (s, .ok [(fieldAt d 0x10 8, fieldAt d 0x18 4, 0)]) else s.chainRead r func (fieldAt d 0x10 8) cnt

/-- The destination buffers, as the descriptor lists them. -/
def State.descDst (s : State) (r : RingId) (func : Nat) (d : List Byte) : State × Except (Nat × Nat) (List (Nat × Nat × Nat)) :=
  let first := (fieldAt d 0x20 8, fieldAt d 0x28 4, 0)
  let c := fieldAt d 0x2C 4
  let chain := (s.ringOf r).chain
  if natBits (fieldAt d 0 4) 18 1 = 0 then (s, .ok [first])
  else if chain = 0 then (s, .error (0x1000, 1))
  else if c % 16 = 0 then (s, .ok [first])
  else match s.chainRead r func (chain + 16 * (c / 16)) (c % 16) with
    | (s, .ok l) => (s, .ok (first :: l))
    | (s, .error e) => (s, .error e)

/-- The addresses of a descriptor, in the order of R331: its sources, destinations and further range. -/
def State.descRanges (s : State) (r : RingId) (d : List Byte) (src dst : List (Nat × Nat × Nat)) :
    Except (Nat × Nat) (List Range × List Range × Option Range) :=
  let need : Access := if fieldAt d 1 1 = 0x15 ∧ fieldAt d 0 1 = 2 then .read else .write
  match s.buffers r .read src, s.buffers r need dst, s.auxOf r d with
  | some a, some b, some x =>
    if (src ++ dst).any fun e => e.2.2 != 0 then .error (0x1000, 3)
    else if fieldAt d 0x1C 4 ≠ 0 ∧ (src.map (·.2.1)).sum ≠ fieldAt d 0x18 4 then .error (0x1000, 4)
    else .ok (a, b, x)
  | _, _, _ => .error (0x1000, 1)

/-- Every check of a descriptor: its buffers, or the status and DETAIL that refuse it. -/
def State.descCheck (s : State) (r : RingId) (func : Nat) (d : List Byte) :
    State × Except (Nat × Nat) (List Range × List Range × Option Range) :=
  if !descReserved r d then (s, .error (0x1000, 3))
  else if !s.descEngine r d then (s, .error (0x1000, 2))
  else match s.descSrc r func d with
    | (s, .error e) => (s, .error e)
    | (s, .ok src) =>
      match s.descDst r func d with
      | (s, .error e) => (s, .error e)
      | (s, .ok dst) => (s, s.descRanges r d src dst)

/-- The job of a descriptor, before its buffers are known. -/
def State.descJob (s : State) (r : RingId) (d : List Byte) : Job :=
  let w := fieldAt d 0 4
  let (func, fepoch) := match r with
    | .bench x _ =>
      let a := s.imageAt (x / 64) (x % 64) + 0x480
      (leNat (memRead s.mem a 2), leNat (memRead s.mem (a + 2) 2))
    | .core _ _ => (fieldAt d 4 2, fieldAt d 6 2)
  { ring := r, engine := natBits w 8 8, opcode := natBits w 0 8, notify := natBits w 17 1 == 1, chainDst := natBits w 18 1 == 1
    eflags := natBits w 24 8, func := func, fepoch := fepoch, tag := fieldAt d 8 4, cfgEpoch := fieldAt d 0xC 4
    src := [], srcLen := fieldAt d 0x18 4, dstAddr := fieldAt d 0x20 8, dst := [], aux := none
    param0 := fieldAt d 0x30 8, param1 := fieldAt d 0x38 8, since := s.tb.toNat, cclEpoch := s.epoch (ringBlock r)
    inst := none, slot := none, released := 0, result := none }

/-- The job's function epoch has advanced since its descriptor named it (R23). -/
def State.jobStale (s : State) (j : Job) : Bool := j.func != 0xFFFF && (s.func j.func).epoch.toNat != j.fepoch

/-! ### Completions (R326, R327, R332) -/

/-- Event bit b4320 + r of the ring's context is set. -/
def State.notify (s : State) : RingId → State
  | .core c r => s.setEvt (coreNum c) (224 + r)
  | .bench x r =>
    match s.coreOfCtx x with
    | some k => s.setEvt k (224 + r)
    | none =>
      let a := s.imageAt (x / 64) (x % 64)
      let (s, v) := s.imgGet a 0x460 4
      s.imgPut a 0x460 4 ((v ||| 2 ^ r) % 2 ^ 32)

/-- The energy of a completion is charged to a Bench (R319). -/
def State.charge (s : State) (r : RingId) (nJ : Nat) : State :=
  match r with
  | .core _ _ => s
  | .bench x _ =>
    match s.coreOfCtx x with
    | some k =>
      let c := s.core k
      s.setCore k { c with bench := c.bench.map fun b =>
        { b with eRem := b.eRem - BitVec.ofNat 64 nJ, eUsed := b.eUsed + BitVec.ofNat 64 nJ } }
    | none =>
      let a := s.imageAt (x / 64) (x % 64)
      let (s, v) := s.imgGet a 0x468 8
      let s := s.imgPut a 0x468 8 ((v + 2 ^ 64 - nJ) % 2 ^ 64)
      let (s, v) := s.imgGet a 0x478 8
      s.imgPut a 0x478 8 ((v + nJ) % 2 ^ 64)

/-- The energy of block type `code` joins what a Bench has used since its binding (R465). -/
def State.noteBench (s : State) (r : RingId) (code nJ : Nat) : State :=
  match r with
  | .core _ _ => s
  | .bench x _ => let b := s.benchOf x; s.setBench x { b with nj := mapUpd (fun _ => 0) b.nj code (· + nJ) }

/-- The bytes of a completion. -/
def State.cplBytes (s : State) (j : Job) (x : JobResult) (nJ : Nat) : List Byte :=
  leBytes 4 j.tag ++ leBytes 2 x.status ++ leBytes 2 x.detail ++ leBytes 8 x.bytesIn ++ leBytes 8 x.bytesOut
    ++ leBytes 4 (min nJ (2 ^ 32 - 1)) ++ leBytes 4 (min ((s.tb.toNat - j.since) / 1024) (2 ^ 32 - 1))

/-- Write the completion of job `j`; a job with a stale function epoch writes none (R23). -/
def State.ringComplete (s : State) (j : Job) (x : JobResult) (nJ : Nat) : State :=
  if s.jobStale j then s else
  let r := j.ring
  let g := s.ringOf r
  let (s, e) := s.dmaWrite (s.ringFunc r) (g.cpl + 32 * (g.cprod % 2 ^ g.log2n)) (s.cplBytes j x nJ)
  if e ≠ 0 then s.ringHalt r 2 else
  let p := (g.cprod + 1) % 2 ^ 32
  let s := s.setRing r { s.ringOf r with cprod := p }
  let (s, ok) := s.hdrPut r 0xC p
  let s := if ok then s else s.ringHalt r 2
  let s := if j.notify then s.notify r else s
  (s.charge r (min nJ (2 ^ 32 - 1))).noteBench r j.engine nJ

/-! ### The intakes (R353, R472) -/

def intakeDefault (_ : Nat) : Intake := ⟨[], [], 0⟩

def State.intakeOf (s : State) (e : Nat) : Intake := mapGet intakeDefault s.intakes e

def State.setIntake (s : State) (e : Nat) (x : Intake) : State := { s with intakes := mapSet intakeDefault s.intakes e x }

/-- The instances of an engine, by first page. -/
def engInsts (e : Nat) : List Nat :=
  match e with
  | 0x13 => [pCxe 0, pCxe 1, pCxe 2, pCxe 3]
  | 0x14 => [pAee 0, pAee 1]
  | 0x15 => [pHse]
  | 0x16 => [pAse]
  | _ => []

/-- Epoch a is older than epoch b (R60). -/
def epochOlder (a b : Nat) : Bool :=
  let d := (b + 2 ^ 32 - a) % 2 ^ 32
  1 ≤ d && d ≤ 2 ^ 31 - 1

/-- The instance at `pg` satisfies CFG_EPOCH. -/
def State.satisfies (s : State) (pg cfg : Nat) : Bool := cfg == 0 || !epochOlder (s.epoch pg).toNat cfg

/-- An engine that is enabled in some instance, none of which satisfies a waiting job's CFG_EPOCH, ends that job with 0x5002. -/
def State.unsatisfied (s : State) (e tag : Nat) : Bool :=
  let on := (engInsts e).filter fun pg => s.bit pg Reg.BLK_CTRL 0
  match mapFind s.jobs tag with
  | some j => !on.isEmpty && !on.any fun pg => s.satisfies pg j.cfgEpoch
  | none => false

/-- Job `tag` is over: its block and its engine instance are free of it. -/
def State.jobGone (s : State) (tag : Nat) : State :=
  match mapFind s.jobs tag with
  | none => s
  | some j =>
    let s := { s with jobs := mapDel s.jobs tag, ase := { s.ase with run := s.ase.run.filter fun e => e.2.tag != tag } }
    let s := s.endJob (ringBlock j.ring) j.cclEpoch
    let i := s.intakeOf j.engine
    let s := s.setIntake j.engine { i with queue := i.queue.filter (· != tag) }
    match j.inst with
    | some (pg, e) => s.endJob pg e
    | none => s

/-- The descriptor `d` of ring `r` is accepted under work tag `tag`: it waits at its engine's intake, or completes at once. -/
def State.ringAccept (s : State) (r : RingId) (tag : Nat) (d : List Byte) : State :=
  let j := s.descJob r d
  match s.descCheck r j.func d with
  | (s, .error (st, det)) =>
    let s := if st = 0x1000 then s.errCnt (ringBlock r) 2 else s
    s.ringComplete j ⟨st, det, 0, 0⟩ 0
  | (s, .ok (src, dst, aux)) =>
    if s.jobStale j then s else
    let s := { s with jobs := mapPut s.jobs tag { j with src := src, dst := dst, aux := aux } }.accept (ringBlock r)
    let i := s.intakeOf j.engine
    let s := s.setIntake j.engine { i with queue := i.queue ++ [tag] }
    if s.unsatisfied j.engine tag then
      ((s.jobGone tag).errCnt (ringBlock r) 2).ringComplete j ⟨0x5002, 0, 0, 0⟩ 0
    else s

/-- After a job of ring `r` has completed: an arming or a fenced descriptor that waited for the last of them. -/
def State.ringAfter (s : State) (r : RingId) : State :=
  if s.ringBusy r then s else
  let g := s.ringOf r
  match g.wait, g.hold with
  | some w, _ => s.ringArmNow r w
  | none, some (tag, d) => (s.setRing r { g with hold := none }).ringAccept r tag d
  | none, none => s

/-- Job `tag` ends with its result. -/
def State.jobEnd (s : State) (tag : Nat) (x : JobResult) (nJ : Nat) : State :=
  match mapFind s.jobs tag with
  | none => s
  | some j => (((s.jobGone tag).chargeFunc j.func j.engine nJ).ringComplete j x nJ).ringAfter j.ring

/-- The waiting jobs of an engine are judged again, when BLK_CTRL of an instance changes (R353; log entry 125). -/
def State.intakeJudge (s : State) (e : Nat) : State :=
  (s.intakeOf e).queue.foldl (fun s tag =>
    if s.unsatisfied e tag then
      match mapFind s.jobs tag with
      | some j => (s.errCnt (ringBlock j.ring) 2).jobEnd tag ⟨0x5002, 0, 0, 0⟩ 0
      | none => s
    else s) s

/-- A function's epoch advances: its jobs are gone, their Shutter slots with them (R23, R366). -/
def State.jobsDrop (s : State) (f : Nat) : State :=
  (s.jobs.filter fun e => e.2.func == f).foldl (fun s e => (s.jobGone e.1).ringAfter e.2.ring) s

/-! ### Service between functions (R472) -/

/-- SHARE of a function at an intake; 0 while it is over its energy cap. -/
def State.engShare (s : State) (f : Nat) : Nat :=
  if f = 0xFFFF then s.fget pImg Reg.IMG_DEVSHARE 0 10 else if (s.func f).overCap then 0 else (s.func f).ctl.share

/-- The width of table `t` of the ASE: units per entry, of its enabled banks; 0 when it has none. -/
def State.aseWidth (s : State) (t : Nat) : Nat :=
  match (List.range 64).find? fun b =>
    s.bit (pAse + 1) (Reg.ASE_ENT b) 0 && s.fget (pAse + 1) (Reg.ASE_ENT b) 1 4 == t with
  | some b => 2 ^ s.fget (pAse + 1) (Reg.ASE_ENT b) 5 2
  | none => 0

/-- What a job costs: max(SRC_LEN, 4,096), or 64 per key or update of the ASE. -/
def State.jobCost (s : State) (j : Job) : Nat :=
  if j.engine ≠ 0x16 then max j.srcLen 4096
  else
    let w := max 1 (s.aseWidth (j.param0 % 16))
    let n := match j.opcode with
      | 0x01 => j.srcLen / (16 * w)
      | 0x10 => j.srcLen / (32 * w + 8)
      | _ => 1
    64 * max 1 n

/-- One round robin position: the function, its quantum, its credit and the cost of its oldest job. -/
structure Turn where
  func : Nat
  quantum : Nat
  credit : Nat
  cost : Nat
  tag : Nat
deriving DecidableEq, Repr

/-- Visits a position needs before it can pay; the function served last may pay without a new visit. -/
def Turn.visits (t : Turn) (here : Bool) : Nat :=
  if here && t.cost ≤ t.credit then 0 else max 1 (ceilDiv (t.cost - t.credit) t.quantum)

/-- The position that pays first: index, and its visits. `off` is 0 when the first position is the function served last. -/
def turnsBest (n off : Nat) (l : List (Nat × Nat)) : Option (Nat × Nat × Nat) :=
  l.foldl (fun (b : Option (Nat × Nat × Nat)) e =>
    let o := e.1 + off
    let a := if e.2 = 0 then 0 else if o = 0 then e.2 * n else o + (e.2 - 1) * n
    match b with
    | some (a', i, v) => if a < a' then some (a, e.1, e.2) else some (a', i, v)
    | none => some (a, e.1, e.2)) none

/-- Deficit round robin over the positions in turn order: the position that pays first, and the credits after it has (log entry 71). -/
def turnsPick (off : Nat) (l : List Turn) : Option (Turn × List (Nat × Nat)) :=
  let n := l.length
  let vs := (List.range n).map fun i => (i, ((l.getD i ⟨0, 1, 0, 0, 0⟩).visits (i + off == 0)))
  match turnsBest n off vs with
  | none => none
  | some (a, i, _) =>
    let w := l.getD i ⟨0, 1, 0, 0, 0⟩
    some (w, (List.range n).map fun k =>
      let t := l.getD k ⟨0, 1, 0, 0, 0⟩
      let o := k + off
      let visits := if k = i then (vs.getD k (0, 0)).2
        else if o = 0 then (if a = 0 then 0 else (a - 1) / n)
        else if o < a then ceilDiv (a - o) n else 0
      (t.func, t.credit + visits * t.quantum - (if k = i then t.cost else 0)))

/-- The functions with a candidate job, each with the oldest of them. -/
def State.turns (s : State) (i : Intake) (cands : List Nat) : List Turn :=
  let fs := (cands.filterMap fun t => (mapFind s.jobs t).map (·.func)).mergeSort.dedup
  fs.filterMap fun f =>
    (cands.find? fun t => ((mapFind s.jobs t).map (·.func)) == some f).bind fun t =>
      (mapFind s.jobs t).map fun j => ⟨f, s.engShare f * 4096, mapGet (fun _ => 0) i.credit f, s.jobCost j, t⟩

/-- The job that an intake hands over among its candidates, in acceptance order, and the intake after it. A function that has
nothing waiting keeps no credit (log entry 71). -/
def State.choose (s : State) (i : Intake) (cands : List Nat) : Option (Nat × Intake) :=
  let waiting := i.queue.any fun t => ((mapFind s.jobs t).map fun j => s.engShare j.func != 0) == some true
  let after (tag : Nat) (i : Intake) : Intake :=
    let q := i.queue.filter (· != tag)
    { i with queue := q, credit := i.credit.filter fun e => q.any fun t => ((mapFind s.jobs t).map (·.func)) == some e.1 }
  if !waiting then cands.head?.map fun t => (t, after t i)
  else
    let ts := (s.turns i cands).filter (·.quantum != 0)
    let ts := ts.filter (i.last ≤ ·.func) ++ ts.filter (·.func < i.last)
    let off := if (ts.head?.map (·.func)) == some i.last then 0 else 1
    match turnsPick off ts with
    | none => none
    | some (t, cr) =>
      some (t.tag, after t.tag { i with
        credit := cr.foldl (fun m e => mapSet (fun _ => 0) m e.1 e.2) i.credit, last := t.func })

/-! ### Streams (R333 to R335) -/

/-- The streams of the Bench that runs on core `k`. -/
def State.coreStreams (s : State) (k : Nat) : List Nat :=
  match s.ctxOn k with
  | some x => ((List.range 64).map (64 * (x / 64) + ·)).filter fun i => s.strFld i 0x10 16 1 == 1 && s.strFld i 0x10 8 6 == x % 64
  | none => []

/-- A store of core `k` to `n` bytes at device address `a` has left it: REL of the streams of the running Bench (log entry 115). -/
def State.storeSeen (s : State) (k a n : Nat) : State :=
  (s.coreStreams k).foldl (fun s i =>
    let w := s.strCb i + 8
    if a + n ≤ w ∨ w + 8 ≤ a then s else
    match s.busRead w 8 with
    | (s, some b) =>
      let x := s.streamOf i
      let v := leNat b
      if v < x.rel.toNat ∨ x.fill.toNat < v then (s.errCnt (pCcl (i / 64)) 3).raise (pCcl (i / 64)) 8
      else s.setStream i { x with rel := BitVec.ofNat 64 v }
    | (s, none) => s) s

/-- Write bytes at stream position `p`, in a buffer of `sz` bytes. -/
def State.strWrite (s : State) (i p sz : Nat) (b : List Byte) : State :=
  let o := p % sz
  let k := min b.length (sz - o)
  let s := (s.busWrite (s.strBuf i + o) (b.take k)).1
  if k = b.length then s else (s.busWrite (s.strBuf i) (b.drop k)).1

/-- The producer of stream `i` puts bytes into it, as far as there is room, and closes it after the last (log entry 115). -/
def State.strFill (s : State) (i : Nat) (b : List Byte) (close : Bool) : State :=
  let x := s.streamOf i
  if s.strFld i 0x10 16 1 = 0 ∨ x.closed then s else
  let sz := 2 ^ s.strFld i 0x10 0 5
  let n := min b.length (sz - (x.fill.toNat - x.rel.toNat))
  let s := s.strWrite i x.fill.toNat sz (b.take n)
  let fill := x.fill + BitVec.ofNat 64 n
  let s := s.setStream i { x with fill := fill }
  let s := (s.busWrite (s.strCb i) (leBytes 8 fill.toNat)).1
  if close ∧ n = b.length then
    let s := (s.busWrite (s.strCb i + 0x10) (leBytes 4 1)).1
    s.setStream i { s.streamOf i with closed := true }
  else s

end Sys2Proof.Machine
end

