-- ==== Sys2Proof/Machine/Deflate.lean ====
section
/-! DEFINITION. The Deflate family as CXE decodes and stores it (R338 to R341, R345): RFC 1951, RFC 1950 and RFC 1952, with the
status codes of *CXE status codes* for what the decoder refuses. The formats themselves are the standards' (log entry 9). -/

namespace Sys2Proof.Machine

/-- What the decoder has made of one frame, stream or member: its bytes, the source bytes used, and whether it was unchecked or
a skippable frame. -/
structure Unpacked where
  out : Array Byte
  used : Nat
  unchk : Bool
  skip : Bool

/-- Status codes of the decoder: malformed, beyond the limits, truncated, check value, header check or size. -/
def stMalformed : Nat := 0x1010
def stLimit : Nat := 0x1011
def stTruncated : Nat := 0x1012
def stCheck : Nat := 0x3010
def stHeader : Nat := 0x3011

/-- Most bytes that one frame, stream or member may decode to (R341). -/
def unpackLimit : Nat := 4194304

/-- Bit `p` of a byte array, least significant bit of a byte first. -/
def arrBit (b : Array Byte) (p : Nat) : Nat := (b.getD (p / 8) 0).toNat / 2 ^ (p % 8) % 2

/-- `n` bits from bit `p`, the first least significant. -/
def arrBits (b : Array Byte) (p n : Nat) : Nat := (List.range n).foldl (fun v i => v + arrBit b (p + i) * 2 ^ i) 0

def takeBits (b : Array Byte) (p n : Nat) : Except Nat (Nat × Nat) :=
  if p + n ≤ 8 * b.size then .ok (arrBits b p n, p + n) else .error stTruncated

/-- A little-endian number of `n` bytes from byte `p`. -/
def takeLe (b : Array Byte) (p n : Nat) : Except Nat Nat :=
  if p + n ≤ b.size then .ok (arrBits b (8 * p) (8 * n)) else .error stTruncated

/-! ### Prefix codes of RFC 1951 -/

/-- A prefix code: how many codes of each length, and the symbols in order of length and value. -/
structure Prefix where
  counts : Array Nat
  syms : Array Nat

def prefixOf (lens : List Nat) : Prefix where
  counts := ((List.range 16).map fun l => (lens.filter (· == l)).length).toArray
  syms := ((List.range 15).flatMap fun l => (List.range lens.length).filter fun i => lens.getD i 0 == l + 1).toArray

/-- Codes left unused by a code: negative when it is over-subscribed. -/
def Prefix.left (h : Prefix) : Int :=
  (List.range 15).foldl (fun (a : Int) l => 2 * a - (h.counts.getD (l + 1) 0 : Nat)) 1

/-- Decode one symbol from bit `p`: `n` lengths remain to be tried. -/
def Prefix.decodeN (h : Prefix) (b : Array Byte) : Nat → Nat → Nat → Nat → Nat → Nat → Except Nat (Nat × Nat)
  | 0, _, _, _, _, _ => .error stMalformed
  | n + 1, p, len, code, first, index =>
    if 8 * b.size ≤ p then .error stTruncated
    else
      let code := code + arrBit b p
      let c := h.counts.getD len 0
      if code < first + c then .ok (h.syms.getD (index + (code - first)) 0, p + 1)
      else Prefix.decodeN h b n (p + 1) (len + 1) (2 * code) (2 * (first + c)) (index + c)

def Prefix.decode (h : Prefix) (b : Array Byte) (p : Nat) : Except Nat (Nat × Nat) := h.decodeN b 15 p 1 0 0 0

def lenBase : List Nat := [3, 4, 5, 6, 7, 8, 9, 10, 11, 13, 15, 17, 19, 23, 27, 31, 35, 43, 51, 59, 67, 83, 99, 115, 131, 163, 195, 227, 258]
def lenExtra (i : Nat) : Nat := if i < 8 ∨ i = 28 then 0 else i / 4 - 1
def distBase (i : Nat) : Nat := if i < 4 then i + 1 else (2 + i % 2) * 2 ^ (i / 2 - 1) + 1
def distExtra (i : Nat) : Nat := if i < 4 then 0 else i / 2 - 1

/-- Copy `n` bytes from `d` bytes back. -/
def copyBack (out : Array Byte) (d : Nat) : Nat → Array Byte
  | 0 => out
  | n + 1 => copyBack (out.push (out.getD (out.size - d) 0)) d n

/-- The symbols of one compressed block, up to its end. -/
def inflateCodes (b : Array Byte) (lit dist : Prefix) : Nat → Nat → Array Byte → Except Nat (Array Byte × Nat)
  | 0, _, _ => .error stTruncated
  | n + 1, p, out =>
    match lit.decode b p with
    | .error e => .error e
    | .ok (sym, p) =>
      if sym < 256 then
        if unpackLimit ≤ out.size then .error stLimit else inflateCodes b lit dist n p (out.push (BitVec.ofNat 8 sym))
      else if sym = 256 then .ok (out, p)
      else if 285 < sym then .error stMalformed
      else
        match takeBits b p (lenExtra (sym - 257)) with
        | .error e => .error e
        | .ok (x, p) =>
          let len := lenBase.getD (sym - 257) 0 + x
          match dist.decode b p with
          | .error e => .error e
          | .ok (ds, p) =>
            if 29 < ds then .error stMalformed else
            match takeBits b p (distExtra ds) with
            | .error e => .error e
            | .ok (y, p) =>
              let d := distBase ds + y
              if out.size < d then .error stMalformed
              else if unpackLimit < out.size + len then .error stLimit
              else inflateCodes b lit dist n p (copyBack out d len)

def fixedLit : Prefix := prefixOf ((List.range 288).map fun i => if i < 144 then 8 else if i < 256 then 9 else if i < 280 then 7 else 8)
def fixedDist : Prefix := prefixOf (List.replicate 30 5)

def codeOrder : List Nat := [16, 17, 18, 0, 8, 7, 9, 6, 10, 5, 11, 4, 12, 3, 13, 2, 14, 1, 15]

/-- The code lengths of a dynamic block. -/
def readLens (b : Array Byte) (h : Prefix) (total : Nat) : Nat → Nat → List Nat → Except Nat (List Nat × Nat)
  | 0, _, _ => .error stMalformed
  | n + 1, p, lens =>
    if total ≤ lens.length then (if lens.length = total then .ok (lens, p) else .error stMalformed)
    else
      match h.decode b p with
      | .error e => .error e
      | .ok (sym, p) =>
        if sym < 16 then readLens b h total n p (lens ++ [sym])
        else
          let (ex, base) := if sym = 16 then (2, 3) else if sym = 17 then (3, 3) else (7, 11)
          match takeBits b p ex with
          | .error e => .error e
          | .ok (x, p) =>
            if sym = 16 ∧ lens = [] then .error stMalformed
            else readLens b h total n p (lens ++ List.replicate (base + x) (if sym = 16 then lens.getLast?.getD 0 else 0))

/-- The codes of a dynamic block. -/
def dynamicCodes (b : Array Byte) (p : Nat) : Except Nat (Prefix × Prefix × Nat) := do
  let (nl, p) ← takeBits b p 5
  let (nd, p) ← takeBits b p 5
  let (nc, p) ← takeBits b p 4
  if 29 < nl ∨ 29 < nd then .error stMalformed
  else
    let _ ← takeBits b p (3 * (nc + 4))
    let cl := (List.range 19).map fun s => match codeOrder.findIdx? (· == s) with
      | some i => if i < nc + 4 then arrBits b (p + 3 * i) 3 else 0
      | none => 0
    let p := p + 3 * (nc + 4)
    let ch := prefixOf cl
    if ch.left ≠ 0 then .error stMalformed
    else
      let (lens, p) ← readLens b ch (nl + 257 + nd + 1) 400 p []
      let lit := prefixOf (lens.take (nl + 257))
      let dist := prefixOf (lens.drop (nl + 257))
      let few (h : Prefix) (n : Nat) : Bool := h.left == 0 || (0 < h.left && h.counts.getD 1 0 + h.counts.getD 0 0 == n)
      if lens.getD 256 0 = 0 ∨ ¬ few lit (nl + 257) ∨ ¬ few dist (nd + 1) then .error stMalformed
      else .ok (lit, dist, p)

/-- Blocks of a raw Deflate stream from bit `p`, up to the final one. -/
def inflateN (b : Array Byte) : Nat → Nat → Array Byte → Except Nat (Array Byte × Nat)
  | 0, _, _ => .error stTruncated
  | n + 1, p, out =>
    match takeBits b p 3 with
    | .error e => .error e
    | .ok (h, p) =>
      let r : Except Nat (Array Byte × Nat) := match h / 2 with
        | 0 =>
          let q := (p + 7) / 8
          match takeLe b q 4 with
          | .error e => .error e
          | .ok v =>
            let len := v % 65536
            if v / 65536 ≠ 65535 - len then .error stMalformed
            else if b.size < q + 4 + len then .error stTruncated
            else if unpackLimit < out.size + len then .error stLimit
            else .ok (out ++ b.extract (q + 4) (q + 4 + len), 8 * (q + 4 + len))
        | 1 => inflateCodes b fixedLit fixedDist (8 * b.size + 1) p out
        | 2 => match dynamicCodes b p with
          | .error e => .error e
          | .ok (l, d, p) => inflateCodes b l d (8 * b.size + 1) p out
        | _ => .error stMalformed
      match r with
      | .error e => .error e
      | .ok (out, p) => if h % 2 = 1 then .ok (out, p) else inflateN b n p out

/-- A raw Deflate stream from byte `at_`: its bytes, and the byte after it. -/
def inflate (b : Array Byte) (at_ : Nat) : Except Nat (Array Byte × Nat) :=
  match inflateN b (8 * b.size + 1) (8 * at_) #[] with
  | .error e => .error e
  | .ok (out, p) => .ok (out, (p + 7) / 8)

/-! ### zlib and gzip -/

def adler32 (b : List Byte) : Nat :=
  let (x, y) := b.foldl (fun (s : Nat × Nat) c => let x := (s.1 + c.toNat) % 65521; (x, (s.2 + x) % 65521)) (1, 0)
  y * 65536 + x

def crc32 (b : List Byte) : Nat := crcRefl 0xEDB8_8320 0xFFFF_FFFF b ^^^ 0xFFFF_FFFF

def unpackDeflate (b : Array Byte) (at_ : Nat) : Except Nat Unpacked :=
  match inflate b at_ with
  | .error e => .error e
  | .ok (out, q) => .ok ⟨out, q - at_, true, false⟩

def unpackZlib (b : Array Byte) (at_ : Nat) : Except Nat Unpacked := do
  let h ← takeLe b at_ 2
  let cmf := h % 256
  let flg := h / 256
  if (cmf * 256 + flg) % 31 ≠ 0 ∨ cmf % 16 ≠ 8 ∨ 7 < cmf / 16 then .error stMalformed
  else if flg / 32 % 2 = 1 then .error stLimit
  else
    let (out, q) ← inflate b (at_ + 2)
    let v ← takeLe b q 4
    if beNat (leBytes 4 v) ≠ adler32 out.toList then .error stCheck
    else .ok ⟨out, q + 4 - at_, false, false⟩

/-- The byte after a zero-terminated field. -/
def skipZero (b : Array Byte) : Nat → Nat → Except Nat Nat
  | 0, _ => .error stTruncated
  | n + 1, p => if b.size ≤ p then .error stTruncated else if b.getD p 0 = 0 then .ok (p + 1) else skipZero b n (p + 1)

def unpackGzip (b : Array Byte) (at_ : Nat) : Except Nat Unpacked := do
  let id ← takeLe b at_ 4
  let _ ← takeLe b at_ 10
  let flg := id / 2 ^ 24
  if id % 2 ^ 24 ≠ 0x088B1F ∨ 32 ≤ flg then .error stMalformed
  else
    let p := at_ + 10
    let p ← if flg / 4 % 2 = 1 then (do let n ← takeLe b p 2; let _ ← takeLe b (p + 2) n; pure (p + 2 + n)) else pure p
    let p ← if flg / 8 % 2 = 1 then skipZero b b.size p else pure p
    let p ← if flg / 16 % 2 = 1 then skipZero b b.size p else pure p
    let p ← if flg / 2 % 2 = 1 then (do
        let v ← takeLe b p 2
        if v = crc32 (b.extract at_ p).toList % 65536 then pure (p + 2) else .error stHeader) else pure p
    let (out, q) ← inflate b p
    let crc ← takeLe b q 4
    let size ← takeLe b (q + 4) 4
    if size ≠ out.size % 2 ^ 32 then .error stHeader
    else if crc ≠ crc32 out.toList then .error stCheck
    else .ok ⟨out, q + 8 - at_, false, false⟩

/-! ### The stored forms (R340, R345) -/

/-- A Deflate stream of stored blocks. -/
def storedDeflate (b : List Byte) : List Byte :=
  let cs := if b.isEmpty then [[]] else chunks 65535 b
  (List.range cs.length).flatMap fun i =>
    let c := cs.getD i []
    (if i + 1 = cs.length then 1 else 0) :: (leBytes 2 c.length ++ leBytes 2 (65535 - c.length) ++ c)

/-- The header and trailer that a level's output of a format carries about a Deflate stream (R340). -/
def wrapDeflate (fmt level : Nat) (src body : List Byte) : List Byte :=
  match fmt with
  | 2 =>
    let flevel := if level = 1 then 0 else if level ≤ 5 then 1 else if level ≤ 9 then 2 else 3
    let h := 0x78 * 256 + flevel * 64
    [0x78, BitVec.ofNat 8 (flevel * 64 + (31 - h % 31) % 31)] ++ body ++ beBytes 4 (adler32 src)
  | 3 =>
    let xfl : Byte := if level = 1 then 4 else if 10 ≤ level then 2 else 0
    [0x1F, 0x8B, 8, 0, 0, 0, 0, 0, xfl, 255] ++ body ++ leBytes 4 (crc32 src) ++ leBytes 4 src.length
  | _ => body

end Sys2Proof.Machine
end

