-- ==== Sys2Proof/Machine/Zstd.lean ====
section
/-! DEFINITION. Zstandard frames as CXE decodes and stores them (R338 to R341, R345): RFC 8878 (log entry 9). -/

namespace Sys2Proof.Machine

/-! ### XXH64 -/

def xxM : Nat := 2 ^ 64
def xxP1 : Nat := 0x9E3779B185EBCA87
def xxP2 : Nat := 0xC2B2AE3D27D4EB4F
def xxP3 : Nat := 0x165667B19E3779F9
def xxP4 : Nat := 0x85EBCA77C2B2AE63
def xxP5 : Nat := 0x27D4EB2F165667C5

def xxRound (acc v : Nat) : Nat := rotl64 31 ((acc + v * xxP2) % xxM) * xxP1 % xxM
def xxMerge (acc v : Nat) : Nat := ((acc ^^^ xxRound 0 v) * xxP1 + xxP4) % xxM

/-- XXH64 with seed 0. -/
def xxh64 (b : List Byte) : Nat :=
  let n := b.length
  let big := n / 32 * 32
  let acc : List Nat := (chunks 32 (b.take big)).foldl (fun v blk =>
    (List.range 4).map fun i => xxRound (v.getD i 0) (leNat ((blk.drop (8 * i)).take 8)))
    [(xxP1 + xxP2) % xxM, xxP2, 0, xxM - xxP1]
  let h := if n < 32 then xxP5
    else
      let g i := acc.getD i 0
      let h := (rotl64 1 (g 0) + rotl64 7 (g 1) + rotl64 12 (g 2) + rotl64 18 (g 3)) % xxM
      acc.foldl xxMerge h
  let h := (h + n) % xxM
  let rest := b.drop big
  let r8 := rest.length / 8 * 8
  let h := (chunks 8 (rest.take r8)).foldl (fun h w => (rotl64 27 (h ^^^ xxRound 0 (leNat w)) * xxP1 + xxP4) % xxM) h
  let rest := rest.drop r8
  let r4 := rest.length / 4 * 4
  let h := (chunks 4 (rest.take r4)).foldl (fun h w => (rotl64 23 (h ^^^ leNat w * xxP1 % xxM) * xxP2 + xxP3) % xxM) h
  let h := (rest.drop r4).foldl (fun h w => rotl64 11 (h ^^^ w.toNat * xxP5 % xxM) * xxP1 % xxM) h
  let h := (h ^^^ h / 2 ^ 33) * xxP2 % xxM
  let h := (h ^^^ h / 2 ^ 29) * xxP3 % xxM
  h ^^^ h / 2 ^ 32

/-! ### Backward bit streams -/

/-- A bit stream that is read from its end: its bytes, and the bits left below the end mark. -/
structure Back where
  b : Array Byte
  left : Nat

/-- The stream in a byte string: none where the last byte has no end mark. -/
def backOf (b : Array Byte) : Except Nat Back :=
  let l := (b.getD (b.size - 1) 0).toNat
  if b.size = 0 ∨ l = 0 then .error stMalformed else .ok ⟨b, 8 * (b.size - 1) + l.log2⟩

/-- The next `n` bits without taking them; bits beyond the start read zero. -/
def Back.peek (s : Back) (n : Nat) : Nat :=
  if n ≤ s.left then arrBits s.b (s.left - n) n else arrBits s.b 0 s.left * 2 ^ (n - s.left)

def Back.take (s : Back) (n : Nat) : Except Nat (Nat × Back) :=
  if n ≤ s.left then .ok (s.peek n, { s with left := s.left - n }) else .error stMalformed

/-! ### FSE -/

/-- One state of an FSE table: symbol, bits to read and base of the next state. -/
structure FseState where
  sym : Nat
  bits : Nat
  base : Nat
deriving Inhabited

structure Fse where
  log : Nat
  states : Array FseState
deriving Inhabited

/-- The table of a normalised distribution; -1 marks a probability below 1. -/
def fseTable (log : Nat) (norm : List Int) : Fse :=
  let size := 2 ^ log
  let low := (List.range norm.length).filter fun i => norm.getD i 0 == -1
  let high := size - low.length
  let syms : Array Nat := Array.replicate size 0
  let syms := (List.range low.length).foldl (fun (a : Array Nat) i => a.setIfInBounds (size - 1 - i) (low.getD i 0)) syms
  let step := size / 2 + size / 8 + 3
  let next (p : Nat) : Nat := (p + step) % size
  let place (a : Array Nat × Nat) (s : Nat) : Array Nat × Nat :=
    let a' := a.1.setIfInBounds a.2 s
    (a', (List.range size).foldl (fun q _ => if q < high then q else next q) (next a.2))
  let (syms, _) := (List.range norm.length).foldl (fun (a : Array Nat × Nat) s =>
    (List.range (norm.getD s 0).toNat).foldl (fun a _ => place a s) a) (syms, 0)
  let start : Array Nat := (norm.map fun v => if v = -1 then 1 else v.toNat).toArray
  let (states, _) := (List.range size).foldl (fun (a : Array FseState × Array Nat) i =>
    let s := syms.getD i 0
    let x := a.2.getD s 1
    let nb := log - x.log2
    (a.1.push ⟨s, nb, x * 2 ^ nb - size⟩, a.2.setIfInBounds s (x + 1))) (#[], start)
  ⟨log, states⟩

/-- Runs of zero probabilities: 2-bit counts until one is below 3. -/
def fseZeros (b : Array Byte) : Nat → Nat → Nat → Nat × Nat
  | 0, p, k => (k, p)
  | n + 1, p, k =>
    let r := arrBits b p 2
    if r = 3 then fseZeros b n (p + 2) (k + 3) else (k + r, p + 2)

/-- The distribution of an FSE header: `rem` is what the probabilities still have to add up to. -/
def fseNorm (b : Array Byte) (maxSym : Nat) : Nat → Nat → Nat → List Int → Except Nat (List Int × Nat)
  | 0, _, _, _ => .error stMalformed
  | n + 1, p, rem, norm =>
    if rem = 0 then .ok (norm, p)
    else if maxSym < norm.length then .error stMalformed
    else
      let bits := (rem + 1).log2 + 1
      let v := arrBits b p bits
      let lower := 2 ^ (bits - 1)
      let thr := 2 ^ bits - 1 - (rem + 1)
      let (v, used) := if v % lower < thr then (v % lower, bits - 1) else if lower ≤ v then (v - thr, bits) else (v, bits)
      let pr : Int := (v : Int) - 1
      let take := pr.natAbs
      if rem < take then .error stMalformed
      else if pr = 0 then
        let (z, p) := fseZeros b 200 (p + used) 0
        fseNorm b maxSym n p rem (norm ++ List.replicate (z + 1) 0)
      else fseNorm b maxSym n (p + used) (rem - take) (norm ++ [pr])

/-- An FSE table description from byte `at_`: the table and the byte after it. -/
def fseRead (b : Array Byte) (at_ maxLog maxSym : Nat) : Except Nat (Fse × Nat) :=
  let log := arrBits b (8 * at_) 4 + 5
  if maxLog < log then .error stMalformed else
  match fseNorm b maxSym 300 (8 * at_ + 4) (2 ^ log) [] with
  | .error e => .error e
  | .ok (norm, p) =>
    if maxSym + 1 < norm.length then .error stMalformed
    else if 8 * b.size < p then .error stTruncated
    else .ok (fseTable log norm, (p + 7) / 8)

def Fse.at_ (f : Fse) (i : Nat) : FseState := f.states.getD i ⟨0, 0, 0⟩

/-! ### Huffman codes of literals -/

/-- A Huffman table: for every value of `log` bits the symbol and its length. -/
structure Huf where
  log : Nat
  tab : Array (Nat × Nat)
deriving Inhabited

/-- The table of the weights of all symbols but the last, whose weight follows from the sum. -/
def hufOf (w : List Nat) : Except Nat Huf :=
  let sum := w.foldl (fun a x => if x = 0 then a else a + 2 ^ (x - 1)) 0
  if sum = 0 then .error stMalformed else
  let log := sum.log2 + 1
  let rest := 2 ^ log - sum
  if 11 < log ∨ rest ≠ 2 ^ rest.log2 ∨ 255 < w.length then .error stMalformed else
  let w := w ++ [rest.log2 + 1]
  let tab := (List.range 12).foldl (fun (a : Array (Nat × Nat)) x =>
    if x = 0 then a else
    (List.range w.length).foldl (fun a s =>
      if w.getD s 0 = x then a ++ (Array.replicate (2 ^ (x - 1)) (s, log + 1 - x)) else a) a) #[]
  .ok ⟨log, tab⟩

/-- The weights that two interleaved FSE states decode, up to the end of the stream. -/
def hufWeights (f : Fse) : Nat → Nat → Nat → Back → List Nat → Except Nat (List Nat)
  | 0, _, _, _, _ => .error stMalformed
  | n + 1, a, c, s, acc =>
    let x := f.at_ a
    if s.left < x.bits then .ok (acc ++ [x.sym, (f.at_ c).sym])
    else
      let v := s.peek x.bits
      hufWeights f n c (x.base + v) { s with left := s.left - x.bits } (acc ++ [x.sym])

/-- A Huffman tree description from byte `at_`. -/
def hufRead (b : Array Byte) (at_ : Nat) : Except Nat (Huf × Nat) := do
  let h ← takeLe b at_ 1
  if 128 ≤ h then
    let n := h - 127
    let _ ← takeLe b (at_ + 1) ((n + 1) / 2)
    let w := (List.range n).map fun i =>
      let x := (b.getD (at_ + 1 + i / 2) 0).toNat
      if i % 2 = 0 then x / 16 else x % 16
    let t ← hufOf w
    .ok (t, at_ + 1 + (n + 1) / 2)
  else
    let _ ← takeLe b (at_ + 1) h
    let sub := b.extract (at_ + 1) (at_ + 1 + h)
    let (f, q) ← fseRead sub 0 6 255
    let s ← backOf (sub.extract q sub.size)
    let (x, s) ← s.take f.log
    let (y, s) ← s.take f.log
    let w ← hufWeights f 256 x y s []
    let t ← hufOf w
    .ok (t, at_ + 1 + h)

/-- `n` literals of one stream, which must end exactly with them. -/
def hufDecodeN (h : Huf) : Nat → Back → Array Byte → Except Nat (Array Byte)
  | 0, s, out => if s.left = 0 then .ok out else .error stMalformed
  | n + 1, s, out =>
    let (sym, len) := h.tab.getD (s.peek h.log) (0, 0)
    if s.left < len then .error stMalformed
    else hufDecodeN h n { s with left := s.left - len } (out.push (BitVec.ofNat 8 sym))

def hufStream (h : Huf) (b : Array Byte) (n : Nat) : Except Nat (Array Byte) := do
  let s ← backOf b
  hufDecodeN h n s #[]

/-! ### The state of a frame's decoding -/

structure ZCtx where
  out : Array Byte
  huf : Option Huf
  ll : Option Fse
  of_ : Option Fse
  ml : Option Fse
  /-- the repeat offsets -/
  rep : Nat × Nat × Nat

/-! ### Literals -/

/-- The literals section from byte 0 of a block: literals, table for later blocks, and the byte after it. -/
def literals (b : Array Byte) (huf : Option Huf) : Except Nat (Array Byte × Option Huf × Nat) := do
  let h ← takeLe b 0 1
  let typ := h % 4
  let sf := h / 4 % 4
  if typ < 2 then
    let n := if sf % 2 = 0 then 1 else if sf = 1 then 2 else 3
    let v ← takeLe b 0 n
    let size := if n = 1 then v / 8 else v / 16
    if 131072 < size then .error stMalformed
    else if typ = 0 then
      if b.size < n + size then .error stMalformed else .ok (b.extract n (n + size), huf, n + size)
    else
      if b.size < n + 1 then .error stMalformed
      else .ok (Array.replicate size (b.getD n 0), huf, n + 1)
  else
    let n := if sf < 2 then 3 else sf + 2
    let w := if sf < 2 then 10 else if sf = 2 then 14 else 18
    let v ← takeLe b 0 n
    let regen := v / 16 % 2 ^ w
    let comp := v / 2 ^ (4 + w) % 2 ^ w
    if 131072 < regen ∨ b.size < n + comp then .error stMalformed
    else
      let part := b.extract n (n + comp)
      let (t, q) ← if typ = 2 then hufRead part 0
        else match huf with
          | some t => .ok (t, 0)
          | none => .error stMalformed
      let s := part.extract q part.size
      let out ← if sf = 0 then hufStream t s regen
        else do
          let v ← takeLe s 0 6
          let a := v % 65536
          let c := v / 65536 % 65536
          let d := v / 2 ^ 32
          let k := (regen + 3) / 4
          if s.size < 6 + a + c + d ∨ regen < 3 * k then .error stMalformed
          else
            let x ← hufStream t (s.extract 6 (6 + a)) k
            let y ← hufStream t (s.extract (6 + a) (6 + a + c)) k
            let z ← hufStream t (s.extract (6 + a + c) (6 + a + c + d)) k
            let u ← hufStream t (s.extract (6 + a + c + d) s.size) (regen - 3 * k)
            pure (x ++ y ++ z ++ u)
      .ok (out, some t, n + comp)

/-! ### Sequences -/

def llBits (c : Nat) : Nat := if c < 16 then 0 else if c < 20 then 1 else if c < 22 then 2 else if c < 24 then 3 else if c = 24 then 4 else c - 19
def llBase (c : Nat) : Nat :=
  if c < 16 then c else ([16, 18, 20, 22, 24, 28, 32, 40, 48] : List Nat).getD (c - 16) (2 ^ (c - 19))
def mlBits (c : Nat) : Nat :=
  if c < 32 then 0 else if c < 36 then 1 else if c < 38 then 2 else if c < 40 then 3 else if c < 42 then 4 else if c = 42 then 5 else c - 36
def mlBase (c : Nat) : Nat :=
  if c < 32 then c + 3 else ([35, 37, 39, 41, 43, 47, 51, 59, 67, 83, 99] : List Nat).getD (c - 32) (2 ^ (c - 36) + 3)

def llDefault : List Int :=
  [4, 3, 2, 2, 2, 2, 2, 2, 2, 2, 2, 2, 2, 1, 1, 1, 2, 2, 2, 2, 2, 2, 2, 2, 2, 3, 2, 1, 1, 1, 1, 1, -1, -1, -1, -1]
def mlDefault : List Int := [1, 4, 3, 2, 2, 2, 2, 2, 2] ++ List.replicate 37 1 ++ List.replicate 7 (-1)
def ofDefault : List Int := [1, 1, 1, 1, 1, 1, 2, 2, 2] ++ List.replicate 15 1 ++ List.replicate 5 (-1)

/-- The table of one of the three codes by its mode: predefined, RLE, described, or the one before. -/
def seqTable (b : Array Byte) (p mode : Nat) (def_ : Nat × List Int) (maxLog maxSym : Nat) (old : Option Fse) :
    Except Nat (Fse × Nat) :=
  match mode with
  | 0 => .ok (fseTable def_.1 def_.2, p)
  | 1 =>
    match takeLe b p 1 with
    | .error e => .error e
    | .ok v => if maxSym < v then .error stMalformed else .ok (⟨0, #[⟨v, 0, 0⟩]⟩, p + 1)
  | 2 => fseRead b p maxLog maxSym
  | _ => match old with
    | some t => .ok (t, p)
    | none => .error stMalformed

/-- The offset that an offset value stands for, and the repeat offsets after it. -/
def offsetOf (v ll : Nat) (r : Nat × Nat × Nat) : Nat × (Nat × Nat × Nat) :=
  if 3 < v then (v - 3, (v - 3, r.1, r.2.1))
  else
    let k := if ll = 0 then v + 1 else v
    match k with
    | 1 => (r.1, r)
    | 2 => (r.2.1, (r.2.1, r.1, r.2.2))
    | 3 => (r.2.2, (r.2.2, r.1, r.2.1))
    | _ => (r.1 - 1, (r.1 - 1, r.1, r.2.1))

/-- Execute sequences: `n` remain; `lit` is the next literal. -/
def sequences (tl to_ tm : Fse) (lits : Array Byte) : Nat → Nat × Nat × Nat → Back → Nat → ZCtx → Except Nat (Nat × ZCtx)
  | 0, _, s, lit, z => if s.left = 0 then .ok (lit, z) else .error stMalformed
  | n + 1, (sl, so, sm), s, lit, z => do
    let xl := tl.at_ sl
    let xo := to_.at_ so
    let xm := tm.at_ sm
    if 31 < xo.sym then .error stMalformed
    else
      let (ov, s) ← s.take xo.sym
      let (me, s) ← s.take (mlBits xm.sym)
      let (le, s) ← s.take (llBits xl.sym)
      let ll := llBase xl.sym + le
      let ml := mlBase xm.sym + me
      let (off, rep) := offsetOf (2 ^ xo.sym + ov) ll z.rep
      let out := z.out ++ lits.extract lit (lit + ll)
      if lits.size < lit + ll ∨ off = 0 ∨ out.size < off then .error stMalformed
      else if unpackLimit < out.size + ml then .error stLimit
      else
        let z := { z with out := copyBack out off ml, rep := rep }
        if n = 0 then sequences tl to_ tm lits n (0, 0, 0) s (lit + ll) z
        else
          let (a, s) ← s.take xl.bits
          let (c, s) ← s.take xm.bits
          let (d, s) ← s.take xo.bits
          sequences tl to_ tm lits n (xl.base + a, xo.base + d, xm.base + c) s (lit + ll) z

/-- A compressed block. -/
def zBlock (b : Array Byte) (z : ZCtx) : Except Nat ZCtx := do
  let (lits, huf, p) ← literals b z.huf
  let z := { z with huf := huf }
  let h ← takeLe b p 1
  let (n, p) ← if h < 128 then pure (h, p + 1)
    else if h < 255 then do let v ← takeLe b p 2; pure ((h - 128) * 256 + v / 256, p + 2)
    else do let v ← takeLe b p 3; pure (v / 256 + 0x7F00, p + 3)
  if n = 0 then
    if p ≠ b.size then .error stMalformed
    else if unpackLimit < z.out.size + lits.size then .error stLimit
    else .ok { z with out := z.out ++ lits }
  else
    let m ← takeLe b p 1
    if m % 4 ≠ 0 then .error stMalformed
    else
      let (tl, p) ← seqTable b (p + 1) (m / 64) (6, llDefault) 9 35 z.ll
      let (to_, p) ← seqTable b p (m / 16 % 4) (5, ofDefault) 8 31 z.of_
      let (tm, p) ← seqTable b p (m / 4 % 4) (6, mlDefault) 9 52 z.ml
      let s ← backOf (b.extract p b.size)
      let (sl, s) ← s.take tl.log
      let (so, s) ← s.take to_.log
      let (sm, s) ← s.take tm.log
      let (lit, z) ← sequences tl to_ tm lits n (sl, so, sm) s 0 { z with ll := some tl, of_ := some to_, ml := some tm }
      let out := z.out ++ lits.extract lit lits.size
      if unpackLimit < out.size then .error stLimit else .ok { z with out := out }

/-- The blocks of a frame from byte `p`; `bmax` is Block_Maximum_Size. -/
def zBlocks (b : Array Byte) (bmax : Nat) : Nat → Nat → ZCtx → Except Nat (ZCtx × Nat)
  | 0, _, _ => .error stTruncated
  | n + 1, p, z => do
    let h ← takeLe b p 3
    let size := h / 8
    let p := p + 3
    let before := z.out.size
    let (z, p) ← match h / 2 % 4 with
      | 0 =>
        if bmax < size then .error stMalformed
        else if b.size < p + size then .error stTruncated
        else if unpackLimit < z.out.size + size then .error stLimit
        else .ok ({ z with out := z.out ++ b.extract p (p + size) }, p + size)
      | 1 =>
        if bmax < size then .error stMalformed
        else if b.size < p + 1 then .error stTruncated
        else if unpackLimit < z.out.size + size then .error stLimit
        else .ok ({ z with out := z.out ++ Array.replicate size (b.getD p 0) }, p + 1)
      | 2 =>
        if bmax < size then .error stMalformed
        else if b.size < p + size then .error stTruncated
        else match zBlock (b.extract p (p + size)) z with
          | .error e => .error (if e = stTruncated then stMalformed else e)
          | .ok z => if bmax < z.out.size - before then .error stMalformed else .ok (z, p + size)
      | _ => .error stMalformed
    if h % 2 = 1 then .ok (z, p) else zBlocks b bmax n p z

/-- One frame from byte `at_`, or one skippable frame. -/
def unpackZstd (b : Array Byte) (at_ : Nat) : Except Nat Unpacked := do
  let magic ← takeLe b at_ 4
  if magic / 16 = 0x184D2A5 then
    let n ← takeLe b (at_ + 4) 4
    if b.size < at_ + 8 + n then .error stTruncated else .ok ⟨#[], 8 + n, false, true⟩
  else if magic ≠ 0xFD2FB528 then .error stMalformed
  else
    let d ← takeLe b (at_ + 4) 1
    let p := at_ + 5
    let single := d / 32 % 2 = 1
    let fcsn := match d / 64 with
      | 0 => if single then 1 else 0
      | 1 => 2
      | 2 => 4
      | _ => 8
    let (win, p) ← if single then pure (0, p) else do
      let w ← takeLe b p 1
      let base := 2 ^ (10 + w / 8)
      pure (base + base / 8 * (w % 8), p + 1)
    let dn := if d % 4 = 3 then 4 else d % 4
    let dict ← takeLe b p dn
    let p := p + dn
    let fcs ← takeLe b p fcsn
    let fcs := if fcsn = 2 then fcs + 256 else fcs
    let p := p + fcsn
    let win := if single then fcs else win
    if d / 8 % 2 = 1 then .error stMalformed
    else if dict ≠ 0 ∨ 8388608 < win ∨ (fcsn ≠ 0 ∧ unpackLimit < fcs) then .error stLimit
    else
      let (z, p) ← zBlocks b (min win 131072) (b.size + 1) p ⟨#[], none, none, none, none, (1, 4, 8)⟩
      let sum := d / 4 % 2 = 1
      let v ← if sum then takeLe b p 4 else pure 0
      if fcsn ≠ 0 ∧ fcs ≠ z.out.size then .error stHeader
      else if sum ∧ v ≠ xxh64 z.out.toList % 2 ^ 32 then .error stCheck
      else .ok ⟨z.out, (if sum then p + 4 else p) - at_, !sum, false⟩

/-- The stored form of a block: one frame of raw blocks (R340). -/
def storedZstd (b : List Byte) : List Byte :=
  let cs := if b.isEmpty then [[]] else chunks 131072 b
  let body := (List.range cs.length).flatMap fun i =>
    let c := cs.getD i []
    leBytes 3 ((if i + 1 = cs.length then 1 else 0) + 8 * c.length) ++ c
  leBytes 4 0xFD2FB528 ++ [0xA4] ++ leBytes 4 b.length ++ body ++ leBytes 4 (xxh64 b % 2 ^ 32)

end Sys2Proof.Machine
end

