-- ==== Sys2Proof/Machine/Engines.lean ====
section
/-! DEFINITION. What the engines share, and the compression engines CXE (chapter 13). -/

namespace Sys2Proof.Machine

/-! ### Taking a job (R353) -/

/-- HSE lane class of an algorithm: SHA-2, SHA-3 or CRC, with the number of its lanes (R370). -/
def hseLanes (alg : Nat) : Nat × Nat := if alg ≤ 3 then (0, 8) else if alg ≤ 5 then (1, 2) else (2, 4)

/-- Is an ASE job a search job, of which a table runs one at a time beside one update job (R389)? -/
def aseSearches (op : Nat) : Bool := op < 0x10

/-- Does the AEE job name a key slot that must be free of other jobs: a key job (R359)? -/
def isKeyJob (op : Nat) : Bool := 0x10 ≤ op && op ≤ 0x13

/-- Jobs that an instance has taken and that are not complete. -/
def State.taken (s : State) (pg : Nat) : List Job :=
  (s.jobs.filter fun e => (e.2.inst.map (·.1)) == some pg).map (·.2)

/-- Is the instance at `pg` free to take job `j`? A GCM_DEC job that holds only its Shutter slot keeps no instance busy. -/
def State.instFree (s : State) (pg : Nat) (j : Job) : Bool :=
  let run := (s.taken pg).filter (·.result.isSome)
  match j.engine with
  | 0x15 =>
    let (c, n) := hseLanes (j.param1 % 16)
    (run.filter fun x => (hseLanes (x.param1 % 16)).1 == c).length < n
  | 0x16 => !run.any fun x => x.param0 % 16 == j.param0 % 16 && aseSearches x.opcode == aseSearches j.opcode
  | _ => run.isEmpty

/-- Nothing but its turn keeps job `j`, with work tag `tag`, at the intake: the rules of R359 and R361 for AEE. -/
def State.ripe (s : State) (tag : Nat) (j : Job) : Bool :=
  if j.engine ≠ 0x14 then true else
  let slot := j.param1 % 512
  let others := s.jobs.filter fun e => e.1 != tag && e.2.engine == 0x14 && e.2.param1 % 512 == slot
  let q := (s.intakeOf 0x14).queue
  let earlier (t : Nat) : Bool := !q.contains t || (q.takeWhile (· != tag)).contains t
  let seeded := s.kpr.seeded || !(j.opcode == 3 || j.opcode == 5 || j.opcode == 0x10)
  seeded && !others.any fun e => earlier e.1 && (isKeyJob j.opcode || isKeyJob e.2.opcode)

/-- Bits [lo + len - 1 : lo] as a mask. -/
def bitMask (lo len : Nat) : Nat := (2 ^ len - 1) * 2 ^ lo

/-- Bits of PARAM1 that an AEE job uses (*AEE parameters*). -/
def aeeMask (op : Nat) : Nat :=
  bitMask 0 9 + (if op = 1 ∨ op = 2 then bitMask 12 4 else 0) + (if op = 3 ∨ op = 4 then bitMask 16 16 else 0)
    + (if op = 0x11 ∨ op = 0x12 then bitMask 32 12 else 0) + (if op = 0x10 then bitMask 44 4 + bitMask 48 6 else 0)

/-- Bytes of additional data of a cipher job (R362). -/
def aeeAad (j : Job) : Nat := if j.opcode = 3 ∨ j.opcode = 4 then natBits j.param1 16 16 else 0

/-- Are the parameters of an AEE job in their ranges (R368)? A destination shorter than the text is a bad parameter. -/
def aeeParamsOk (j : Job) : Bool :=
  let op := j.opcode
  let dst := (j.dst.map (·.len)).sum
  (j.param1 &&& aeeMask op) == j.param1 && j.eflags ≤ (if op = 4 then 1 else 0)
    && (!j.chainDst || op ≤ 4 || op == 7)
    && (if op = 1 ∨ op = 2 then 9 ≤ natBits j.param1 12 4 && j.srcLen ≤ dst else true)
    && (if op = 3 ∨ op = 4 then aeeAad j ≤ j.srcLen && j.srcLen - aeeAad j ≤ dst else true)
    && (if op = 5 ∨ op = 6 then dst == 0 else true)
    && (if op = 7 then j.srcLen ≤ dst else true)
    && (if isKeyJob op then j.param0 == 0 && j.srcLen == 0 && dst == 0 else true)
    && (if op = 0x10 then 1 ≤ natBits j.param1 44 4 && natBits j.param1 44 4 ≤ 4 else true)

/-- The least k with 2 ^ k 16 KiB units for `n` bytes, up to 6. -/
def shutLog (n : Nat) : Nat := ((List.range 6).find? fun k => n ≤ 16384 * 2 ^ k).getD 6

/-- The Shutter slot that a GCM_DEC job takes on the instance at `pg`, as log2 of its units; none: it takes none (R363, R364). -/
def State.slotWant (s : State) (pg : Nat) (j : Job) : Option Nat :=
  let p := j.srcLen - aeeAad j
  if j.opcode ≠ 4 ∨ !aeeParamsOk j then none
  else if p ≤ 2 ^ 20 then some (shutLog p)
  else if j.eflags = 1 ∧ s.bit pg Reg.AEE_CTRL 0 then some 4
  else none

/-- The first unit of a free Shutter slot of 2 ^ k units, buddy-fashion. -/
def State.shutFind (s : State) (pg k : Nat) : Option Nat :=
  let used := s.jobs.filterMap fun e => if (e.2.inst.map (·.1)) = some pg then e.2.slot else none
  ((List.range (64 / 2 ^ k)).map (· * 2 ^ k)).find? fun o =>
    used.all fun u => o + 2 ^ k ≤ u.1 || u.1 + 2 ^ u.2 ≤ o

/-- A GCM_DEC job that needs a Shutter slot finds one on the instance. -/
def State.shutRoom (s : State) (pg : Nat) (j : Job) : Bool :=
  if j.engine ≠ 0x14 then true else
  match s.slotWant pg j with
  | none => true
  | some k => (s.shutFind pg k).isSome

/-- The instance that takes a job now, the job, and the intake after it. -/
def State.pickJob (s : State) (e : Nat) : Option (Nat × Nat × Intake) :=
  let i := s.intakeOf e
  (engInsts e).findSome? fun pg =>
    if !s.intake pg || s.intakeShare pg = 0 then none else
    let cands := i.queue.filter fun t => match mapFind s.jobs t with
      | some j => s.satisfies pg j.cfgEpoch && s.instFree pg j && s.ripe t j && s.shutRoom pg j
      | none => false
    (s.choose i cands).map fun x => (pg, x.1, x.2)

/-- Job `tag`, if the intake of engine `e` hands it over now and its OPCODE passes `p`: the job is then its instance's. -/
def State.takeJob (s : State) (e tag : Nat) (p : Nat → Bool) : Option (State × Nat × Job) :=
  match s.pickJob e, mapFind s.jobs tag with
  | some (pg, t, i), some j =>
    if t = tag ∧ p j.opcode then
      let j := { j with inst := some (pg, s.epoch pg) }
      some (({ s with jobs := mapPut s.jobs tag j }.setIntake e i).accept pg, pg, j)
    else none
  | _, _ => none

/-! ### Data of a job -/

/-- Read the ranges of a list, in order. -/
def State.readRanges (s : State) (func : Nat) : List Range → State × Except Nat (List Byte)
  | [] => (s, .ok [])
  | r :: l =>
    match s.dmaRead func r.addr r.len with
    | (s, .error e) => (s, .error e)
    | (s, .ok b) =>
      match s.readRanges func l with
      | (s, .ok c) => (s, .ok (b ++ c))
      | (s, .error e) => (s, .error e)

/-- Write bytes as one stream across the ranges: 0, or the status. -/
def State.writeRanges (s : State) (func : Nat) : List Range → List Byte → State × Nat
  | [], _ => (s, 0)
  | r :: l, b =>
    if b.isEmpty then (s, 0) else
    match s.dmaWrite func r.addr (b.take r.len) with
    | (s, 0) => s.writeRanges func l (b.drop r.len)
    | (s, e) => (s, e)

/-- Bytes that a list of ranges holds. -/
def rangesLen (l : List Range) : Nat := (l.map (·.len)).sum

/-- Do two ranges share a byte? -/
def Range.meets (a b : Range) : Bool := a.len != 0 && b.len != 0 && a.addr < b.addr + b.len && b.addr < a.addr + a.len

/-- Does a range of one list share a byte with one of the other? -/
def rangesMeet (a b : List Range) : Bool := a.any fun x => b.any x.meets

/-- `n` bytes that the manual leaves undefined (log entry 3). -/
def State.freeBytes (s : State) (n : Nat) : State × List Byte :=
  ({ s with free := s.free + n }, (List.range n).map fun i => Config.freeByte (s.free + i))

/-- Write the valid bytes of a destination, and leave the rest of it undefined. -/
def State.writePart (s : State) (func : Nat) (dst : List Range) (b : List Byte) : State × Nat :=
  let (s, r) := s.freeBytes (rangesLen dst - b.length)
  s.writeRanges func dst (b ++ r)

/-- Set the result of a job that its instance has taken (log entry 74). -/
def State.setResult (s : State) (tag : Nat) (x : JobResult) : State :=
  match mapFind s.jobs tag with
  | some j => { s with jobs := mapPut s.jobs tag { j with result := some x } }
  | none => s

/-- The result of a job that an access or a soft reset has ended on its way: how many bytes it has consumed and written by then
is open. -/
def State.openEnd (s : State) (tag : Nat) (x : JobResult) : State × JobResult :=
  match mapFind s.jobs tag with
  | some j =>
    if x.status = stMiss ∨ x.status / 256 = 0x70 then
      ({ s with free := s.free + 2 }, { x with
        bytesIn := (Config.freeWord s.free).toNat % (j.srcLen + 1)
        bytesOut := (Config.freeWord (s.free + 1)).toNat % ((j.dst.map (·.len)).sum + 1) })
    else (s, x)
  | none => (s, x)

/-- Add to a pair of byte counters, low word at `off`. -/
def State.addPair (s : State) (pg off n : Nat) : State := s.rset64 pg off ((s.rg64 pg off + n) % 2 ^ 64)

/-! ### CXE: parameters and blocks (R339, R340, R351) -/

/-- Are the parameters of a CXE job in their ranges (R351)? -/
def cxeParamsOk (j : Job) : Bool :=
  let fmt := natBits j.param0 0 3 < 4
  let rest := natBits j.param0 3 5 == 0 && natBits j.param0 12 4 == 0 && j.param0 < 2 ^ 29
  let lvl := natBits j.param0 8 4
  let kib := natBits j.param0 16 13
  match j.opcode with
  | 1 => fmt && rest && 1 ≤ lvl && lvl ≤ 12 && 4 ≤ kib && kib ≤ 4096 && j.eflags < 4
      && (natBits j.eflags 1 1 == 1 || j.param1 == 0)
  | 2 => fmt && j.param0 < 8 && j.param1 == 0 && j.eflags == 0
  | 3 => fmt && j.param0 < 8 && j.param1 == 0 && j.eflags == 0 && j.dstAddr == 0 && rangesLen j.dst == 0 && !j.chainDst
  | _ => false

/-- One frame, stream or member from byte `at_` (R338, R341). -/
def cxeUnpack (fmt : Nat) (b : Array Byte) (at_ : Nat) : Except Nat Unpacked :=
  match fmt with
  | 0 => unpackZstd b at_
  | 1 => unpackDeflate b at_
  | 2 => unpackZlib b at_
  | _ => unpackGzip b at_

/-- The stored form of a block (R345). -/
def cxeStored (fmt level : Nat) (b : List Byte) : List Byte :=
  if fmt = 0 then storedZstd b else wrapDeflate fmt level b (storedDeflate b)

/-- A form decodes to the block and is used up by it. -/
def cxeDecodes (fmt : Nat) (b enc : List Byte) : Bool :=
  match cxeUnpack fmt enc.toArray 0 with
  | .ok u => u.out.toList == b && u.used == enc.length && !u.skip
  | .error _ => false

/-- The output of a block: the compressed form, or the stored form where that is shorter. What the encoder's search finds is
open; it is a form that decodes to the block. -/
def cxeBlock (fmt level : Nat) (entry : RegWord) (b : List Byte) : List Byte :=
  let body := Config.cxeEncode fmt entry b
  let enc := if fmt = 0 then leBytes 4 0xFD2FB528 ++ [0xA4] ++ leBytes 4 b.length ++ body ++ leBytes 4 (xxh64 b % 2 ^ 32)
    else wrapDeflate fmt level b body
  let st := cxeStored fmt level b
  if st.length < enc.length || !cxeDecodes fmt b enc then st else enc

/-- One compressed block: its output and the source bytes in it. -/
structure CxeOut where
  out : List Byte
  n : Nat

def CxeOut.grew (x : CxeOut) : Bool := x.n < x.out.length

/-- The index entries of blocks (R342). -/
def cxeIndex (l : List CxeOut) : List Byte :=
  l.flatMap fun x => leBytes 4 x.out.length ++ leBytes 4 (x.n + if x.grew then 2 ^ 23 else 0)

/-- The blocks whose output fits, in order, into `room` bytes. -/
def cxeFit (room : Nat) : List CxeOut → List CxeOut
  | [] => []
  | x :: l => if x.out.length ≤ room then x :: cxeFit (room - x.out.length) l else []

/-! ### CXE: ends -/

/-- The result of a CXE job, with what it counts and raises (R356). -/
def State.cxeEnd (s : State) (pg tag : Nat) (x : JobResult) : State :=
  let (s, x) := s.openEnd tag x
  let s := s.setResult tag x
  let s := match x.status / 256 with
    | 0x30 => (s.errCnt pg 0).raise pg 4
    | 0x10 => s.errCnt pg 1
    | _ => s
  let s := if x.status = 0x1010 ∨ x.status = 0x1011 ∨ x.status = 0x1012 then s.raise pg 5 else s
  let s := if x.status = 0x2010 then (s.errCnt pg 2).raise pg 6 else s
  let s := if x.status = 0x0102 then s.errCnt pg 3 else s
  (s.addPair pg Reg.CXE_IN_LO x.bytesIn).addPair pg Reg.CXE_OUT_LO x.bytesOut

/-- COMPRESS after its checks (R345 to R348). -/
def State.cxeCompress (s : State) (pg tag : Nat) (j : Job) : State :=
  match s.readRanges j.func j.src with
  | (s, .error e) => s.cxeEnd pg tag ⟨e, 0, 0, 0⟩
  | (s, .ok b) =>
    let fmt := natBits j.param0 0 3
    let lvl := natBits j.param0 8 4
    let size := 1024 * natBits j.param0 16 13
    let epoch := match j.inst with
      | some (_, e) => e
      | none => 0
    let entry := s.setting pg epoch pg (Reg.CXE_LVL lvl)
    let all : List CxeOut := ((chunks size b).filter (!·.isEmpty)).map fun c => ⟨cxeBlock fmt lvl entry c, c.length⟩
    let total := (all.map (·.out.length)).sum
    if natBits j.eflags 0 1 = 1 ∧ b.length ≤ total then
      let (s, e) := s.writePart j.func j.dst []
      if e = 0 then s.cxeEnd pg tag ⟨0x0102, 0, b.length, 0⟩ else s.cxeEnd pg tag ⟨e, 0, 0, 0⟩
    else
      let fit := cxeFit (rangesLen j.dst) all
      let out := fit.flatMap (·.out)
      let used := (fit.map (·.n)).sum
      let grown := (fit.filter (·.grew)).length
      let full := fit.length = all.length
      let (s, e) := if full then s.writeRanges j.func j.dst out else s.writePart j.func j.dst out
      if e ≠ 0 then s.cxeEnd pg tag ⟨e, 0, 0, 0⟩ else
      let (s, e) := match natBits j.eflags 1 1, j.aux with
        | 1, some r => s.dmaWrite j.func r.addr (cxeIndex fit)
        | _, _ => (s, 0)
      if e ≠ 0 then s.cxeEnd pg tag ⟨e, 0, 0, 0⟩ else
      let s := s.cntSat pg Reg.CXE_GREW 0 32 grown
      s.cxeEnd pg tag ⟨if !full then 0x2010 else if grown = 0 then 0 else 0x0101, min grown 65535, used, out.length⟩

/-- What decoding a whole source gives: the status that ends it (0: the end), the source bytes and output of the good
blocks, and whether one was unchecked or skipped. -/
structure CxeIn where
  status : Nat
  used : Nat
  out : List Byte
  unchk : Bool
  skip : Bool

/-- Decode from byte `at_`, with `room` bytes of destination left; a check has no destination. -/
def cxeDecodeN (fmt : Nat) (b : Array Byte) (write : Bool) : Nat → Nat → Nat → CxeIn → CxeIn
  | 0, _, _, a => a
  | n + 1, p, room, a =>
    if b.size ≤ p then a else
    match cxeUnpack fmt b p with
    | .error e => { a with status := e }
    | .ok u =>
      if write ∧ room < u.out.size then { a with status := 0x2010 }
      else cxeDecodeN fmt b write n (p + max 1 u.used) (room - u.out.size)
        { a with used := p + u.used, out := a.out ++ u.out.toList, unchk := a.unchk || u.unchk, skip := a.skip || u.skip }

/-- DECOMPRESS and CHECK after their checks (R341, R348, R349). -/
def State.cxeDecompress (s : State) (pg tag : Nat) (j : Job) (write : Bool) : State :=
  match s.readRanges j.func j.src with
  | (s, .error e) => s.cxeEnd pg tag ⟨e, 0, 0, 0⟩
  | (s, .ok b) =>
    let d := cxeDecodeN (natBits j.param0 0 3) b.toArray write (b.length + 1) 0 (rangesLen j.dst) ⟨0, 0, [], false, false⟩
    let det := (if d.unchk then 1 else 0) + (if d.skip then 2 else 0)
    if !write then s.cxeEnd pg tag ⟨d.status, det, d.used, 0⟩ else
    let (s, e) := if d.status = 0 then s.writeRanges j.func j.dst d.out else s.writePart j.func j.dst d.out
    if e ≠ 0 then s.cxeEnd pg tag ⟨e, 0, 0, 0⟩
    else s.cxeEnd pg tag ⟨d.status, det, d.used, d.out.length⟩

/-- What every CXE job is checked for before it runs: its parameters, and no overlap (R351, R352). -/
def cxeRefusal (j : Job) : Option Nat :=
  if !cxeParamsOk j then some 0x1001
  else if rangesMeet j.src (j.dst ++ j.aux.toList) then some 0x1013
  else none

/-- A CXE job that the intake hands over: refused, or run by `run`. -/
def State.cxeJob (s : State) (tag op : Nat) (host : List Byte) (run : State → Nat → Job → State) : State :=
  match s.takeJob 0x13 tag (· == op) with
  | none => s
  | some (s, pg, j) =>
    match cxeRefusal j with
    | some e => s.cxeEnd pg tag ⟨e, 0, 0, 0⟩
    | none => withHost host (fun s => run s pg j) s

/-- COMPRESS: encode the source into compression blocks. -/
def execCompress (tag : Nat) (host : List Byte) (s : State) : Host.Outcome State Fault Refusal :=
  next (fun s => s.cxeJob tag 1 host fun s pg j => s.cxeCompress pg tag j) s

/-- DECOMPRESS: decode the source to the destination. -/
def execDecompress (tag : Nat) (host : List Byte) (s : State) : Host.Outcome State Fault Refusal :=
  next (fun s => s.cxeJob tag 2 host fun s pg j => s.cxeDecompress pg tag j true) s

/-- CHECK: decode and verify every check value, writing nothing. -/
def execCheck (tag : Nat) (host : List Byte) (s : State) : Host.Outcome State Fault Refusal :=
  next (fun s => s.cxeJob tag 3 host fun s pg j => s.cxeDecompress pg tag j false) s

end Sys2Proof.Machine
end

