-- ==== Sys2Proof/Machine/Cipher.lean ====
section
/-! DEFINITION. The cipher engines AEE: key store, nonces, cipher jobs, the Shutter and key jobs (chapter 14). -/

namespace Sys2Proof.Machine

/-- Key bytes of a key type (R357). -/
def keyLen (typ : Nat) : Nat :=
  match typ with
  | 1 => 16
  | 2 => 32
  | 3 => 32
  | 4 => 64
  | _ => 0

/-- Usage bits that a cipher job needs: its direction's and its mode's. -/
def usageNeeds (op : Nat) : List Nat :=
  match op with
  | 1 => [0, 2]
  | 2 => [1, 2]
  | 3 => [0, 3]
  | 4 => [1, 3]
  | 5 => [0, 3]
  | 6 => [1, 3]
  | 7 => [4]
  | 0x12 => [5]
  | _ => []

/-- Does a key of type `typ` serve the job? -/
def typeServes (op typ : Nat) : Bool := if op = 1 ∨ op = 2 then typ == 3 || typ == 4 else if op ≤ 7 then typ == 1 || typ == 2 else true

/-- The key of a job's slot, or the status that refuses the job (R357, R367). A CTR job needs a direction's bit as well. -/
def State.keyFor (s : State) (j : Job) : Except Nat KeySlot :=
  match mapFind s.kpr.keys (j.param1 % 512) with
  | none => .error 0x6011
  | some k =>
    if k.owner ≠ j.func then .error 0x6012
    else if !typeServes j.opcode k.typ || !(usageNeeds j.opcode).all (fun i => natBits k.usage i 1 == 1)
      || (j.opcode == 7 && natBits k.usage 0 2 == 0) then .error 0x6013
    else .ok k

/-- The result of an AEE job, with what it counts and raises (R374). -/
def State.aeeEnd (s : State) (pg tag : Nat) (x : JobResult) : State :=
  let (s, x) := s.openEnd tag x
  let s := s.setResult tag x
  let s := match mapFind s.jobs tag with
    | some j => { s with jobs := mapPut s.jobs tag { j with slot := none } }
    | none => s
  let s := if x.status = 0x3020 ∨ x.status = 0x3021 then (s.errCnt pg 0).raise pg 4 else s
  let s := if x.status = 0x3021 then s.raise pg 5 else s
  let s := if x.status / 256 = 0x60 then s.errCnt pg 1 else s
  let s := if x.status = 0x2020 ∨ x.status = 0x2030 then s.errCnt pg 2 else s
  let s := if x.status = 0x3021 ∧ x.detail = 0 then s.errCnt pg 3 else s
  (s.addPair pg Reg.AEE_IN_LO x.bytesIn).addPair pg Reg.AEE_OUT_LO x.bytesOut

/-- An AEE job that ends without running. -/
def State.aeeFail (s : State) (pg tag st : Nat) : State := s.aeeEnd pg tag ⟨st, 0, 0, 0⟩

/-- What every AEE job is checked for before it runs (R362, R368; log entry 75). -/
def aeeRefusal (j : Job) : Option Nat :=
  let same := (j.opcode == 1 || j.opcode == 2 || j.opcode == 7) && j.src == j.dst
  let rec_ := if j.opcode = 7 then [] else j.aux.toList
  if !aeeParamsOk j then some 0x1001
  else if (!same && rangesMeet j.src j.dst) || rangesMeet rec_ (j.src ++ j.dst) then some 0x1013
  else if (j.opcode = 1 ∨ j.opcode = 2) ∧ j.srcLen % 2 ^ natBits j.param1 12 4 ≠ 0 then some 0x1020
  else none

/-- The next nonce of a slot (R360): SALT and the invocation counter; none when its space is used up. -/
def State.nonce (s : State) (slot : Nat) (k : KeySlot) : State × Option (List Byte) :=
  if k.seq * 2 ^ 32 + 2 ^ 32 - 1 < k.inv + 1 then (s, none)
  else ({ s with kpr := { s.kpr with keys := mapPut s.kpr.keys slot { k with inv := k.inv + 1 } } },
    some (leBytes 4 s.kpr.salt ++ leBytes 8 k.inv))

/-- A cipher job whose source has been read as `b`: write `out` to the destination, and end. -/
def State.aeeDeliver (s : State) (pg tag : Nat) (j : Job) (out : List Byte) : State :=
  match s.writeRanges j.func j.dst out with
  | (s, 0) => s.aeeEnd pg tag ⟨0, 0, j.srcLen, out.length⟩
  | (s, e) => s.aeeFail pg tag e

/-- XTS in either direction (R362). -/
def State.aeeXts (s : State) (pg tag : Nat) (j : Job) (enc : Bool) : State :=
  match s.keyFor j with
  | .error e => s.aeeFail pg tag e
  | .ok k =>
    match s.readRanges j.func j.src with
    | (s, .error e) => s.aeeFail pg tag e
    | (s, .ok b) => s.aeeDeliver pg tag j (xts enc k.key (2 ^ natBits j.param1 12 4) j.param0 b)

/-- CTR with the counter block that PARAM0 addresses. -/
def State.aeeCtr (s : State) (pg tag : Nat) (j : Job) : State :=
  match s.keyFor j with
  | .error e => s.aeeFail pg tag e
  | .ok k =>
    match s.readRanges j.func j.aux.toList with
    | (s, .error e) => s.aeeFail pg tag e
    | (s, .ok icb) =>
      match s.readRanges j.func j.src with
      | (s, .error e) => s.aeeFail pg tag e
      | (s, .ok b) => s.aeeDeliver pg tag j (ctrCrypt k.key icb b)

/-- GCM encryption, and GMAC generation as GCM with no text: a nonce from hardware, and the tag record. -/
def State.aeeSeal (s : State) (pg tag : Nat) (j : Job) : State :=
  match s.keyFor j with
  | .error e => s.aeeFail pg tag e
  | .ok k =>
    match s.nonce (j.param1 % 512) k with
    | (s, none) => s.aeeFail pg tag 0x2030
    | (s, some iv) =>
      match s.readRanges j.func j.src with
      | (s, .error e) => s.aeeFail pg tag e
      | (s, .ok b) =>
        let aad := if j.opcode = 5 then b else b.take (aeeAad j)
        let ct := if j.opcode = 5 then [] else gcmCrypt k.key iv (b.drop (aeeAad j))
        match s.writeRanges j.func j.aux.toList (iv ++ leBytes 4 0 ++ gcmTag k.key iv aad ct) with
        | (s, 0) => s.aeeDeliver pg tag j ct
        | (s, e) => s.aeeFail pg tag e

/-- GMAC verification: the whole source is additional data. -/
def State.aeeGmacVer (s : State) (pg tag : Nat) (j : Job) : State :=
  match s.keyFor j with
  | .error e => s.aeeFail pg tag e
  | .ok k =>
    match s.readRanges j.func j.aux.toList with
    | (s, .error e) => s.aeeFail pg tag e
    | (s, .ok r) =>
      match s.readRanges j.func j.src with
      | (s, .error e) => s.aeeFail pg tag e
      | (s, .ok b) =>
        if gcmTag k.key (r.take 12) b [] = r.drop 16 then s.aeeEnd pg tag ⟨0, 0, j.srcLen, 0⟩
        else s.aeeEnd pg tag ⟨0x3020, 0, j.srcLen, 0⟩

/-- The first `n` bytes of a destination, as ranges. -/
def rangesTake : Nat → List Range → List Range
  | _, [] => []
  | n, r :: l => if n ≤ r.len then [⟨r.addr, n⟩] else r :: rangesTake (n - r.len) l

/-- Overwrite released plaintext with zeros: whether every write succeeded (R365). -/
def State.aeeZero (s : State) (j : Job) (n : Nat) : State × Bool :=
  (rangesTake n j.dst).foldl (fun (a : State × Bool) r =>
    let (s, e) := a.1.dmaWrite j.func r.addr (List.replicate r.len 0)
    (s, a.2 && e == 0)) (s, true)

/-- Bytes of plaintext that early release writes before the tag is compared (R364). -/
def earlyBytes (p : Nat) : Nat := (p - 1) / 262144 * 262144

/-- GCM decryption of a job that holds its Shutter slot (R363 to R365). -/
def State.aeeGcmDec (s : State) (pg tag : Nat) (j : Job) : State :=
  match s.keyFor j with
  | .error e => s.aeeFail pg tag e
  | .ok k =>
    match s.readRanges j.func j.aux.toList with
    | (s, .error e) => s.aeeFail pg tag e
    | (s, .ok r) =>
      match s.readRanges j.func j.src with
      | (s, .error e) => s.aeeFail pg tag e
      | (s, .ok b) =>
        let aad := b.take (aeeAad j)
        let ct := b.drop (aeeAad j)
        let iv := r.take 12
        let pt := gcmCrypt k.key iv ct
        let early := if 2 ^ 20 < ct.length then earlyBytes ct.length else 0
        if gcmTag k.key iv aad ct = r.drop 16 then
          let s := { s with jobs := mapPut s.jobs tag { j with released := early } }
          s.aeeDeliver pg tag j pt
        else if early = 0 then s.aeeEnd pg tag ⟨0x3020, 0, j.srcLen, 0⟩
        else
          match s.writeRanges j.func j.dst (pt.take early) with
          | (s, 0) =>
            let (s, ok) := s.aeeZero j early
            s.aeeEnd pg tag ⟨0x3021, if ok then 1 else 0, j.srcLen, early⟩
          | (s, e) => s.aeeFail pg tag e

/-! ### Key jobs (R358, R359) -/

/-- Fill a key slot: a load, which gives the slot its counter (R360). -/
def State.fillSlot (s : State) (slot typ usage owner : Nat) (key : List Byte) : State :=
  let n := s.kpr.loadSeq + 1
  { s with kpr := { s.kpr with
      loadSeq := n, keys := mapPut s.kpr.keys slot ⟨typ, usage, owner, key, n * 2 ^ 32 % 2 ^ 64, n⟩ } }

/-- The slot of a key job is empty, or the job's own: 0, or the status. -/
def State.slotOwn (s : State) (j : Job) : Nat :=
  match mapFind s.kpr.keys (j.param1 % 512) with
  | none => 0
  | some k => if k.owner ≠ j.func ∨ k.owner = 0xFFFF then 0x6012 else 0

/-- The device wrap key. -/
def wrapKeyBytes : List Byte := (List.range 32).map Config.wrapKey

/-- Address of entry `i` of the wrapped-key table. -/
def State.wktAt (s : State) (i : Nat) : Nat :=
  s.fget (pAee 0) Reg.AEE_WKT_LO 12 20 * 4096 + s.fget (pAee 0) Reg.AEE_WKT_HI 0 16 * 2 ^ 32 + 128 * i

/-- One generate request of the DRBG (R361). -/
def State.generate (s : State) : State := { s with kpr := { s.kpr with generated := s.kpr.generated + 1 } }

/-- KEY_GEN. -/
def State.aeeKeyGen (s : State) (pg tag : Nat) (j : Job) : State :=
  let e := s.slotOwn j
  if e ≠ 0 then s.aeeFail pg tag e else
  let typ := natBits j.param1 44 4
  let (s, b) := s.generate.freeBytes (keyLen typ)
  (s.fillSlot (j.param1 % 512) typ (natBits j.param1 48 6) j.func b).aeeEnd pg tag ⟨0, 0, 0, 0⟩

/-- The plain fields and tag of a wrapped record are right. -/
def wrapOk (r : List Byte) : Bool :=
  let iv := (r.drop 0x10).take 12
  let ct := (r.drop 0x20).take 64
  fieldAt r 0 4 == 0x4B574147 && fieldAt r 4 1 == 1 && fieldAt r 5 1 < 16 && fieldAt r 9 3 == 0 && fieldAt r 0x1C 4 == 0
    && fieldAt r 0x70 16 == 0 && gcmTag wrapKeyBytes iv (r.take 0x20) ct == (r.drop 0x60).take 16

/-- KEY_LOAD. No record opens once the wrap key's input is destroyed (R496). -/
def State.aeeKeyLoad (s : State) (pg tag : Nat) (j : Job) : State :=
  let e := s.slotOwn j
  if e ≠ 0 then s.aeeFail pg tag e else
  match s.dmaRead 0xFFFF (s.wktAt (natBits j.param1 32 12)) 128 with
  | (s, .error e) => s.aeeFail pg tag e
  | (s, .ok r) =>
    let typ := fieldAt r 5 1 % 16
    if !wrapOk r || s.kpr.fuses.lcs == 4 then s.aeeFail pg tag 0x6014
    else if fieldAt r 6 2 ≠ j.func then s.aeeFail pg tag 0x6015
    else
      let key := gcmCrypt wrapKeyBytes ((r.drop 0x10).take 12) ((r.drop 0x20).take 64)
      (s.fillSlot (j.param1 % 512) typ (fieldAt r 8 1) j.func (key.take (keyLen typ))).aeeEnd pg tag ⟨0, 0, 0, 0⟩

/-- The wrapped record of a slot (R358). -/
def State.wrapRecord (s : State) (k : KeySlot) : List Byte :=
  let iv := leBytes 4 s.kpr.salt ++ leBytes 8 s.kpr.wraps
  let h := leBytes 4 0x4B574147 ++ [1] ++ leBytes 1 k.typ ++ leBytes 2 k.owner ++ leBytes 4 k.usage ++ leBytes 4 s.kpr.wraps ++ iv
    ++ leBytes 4 0
  let ct := gcmCrypt wrapKeyBytes iv (k.key ++ List.replicate (64 - k.key.length) 0)
  h ++ ct ++ gcmTag wrapKeyBytes iv h ct ++ List.replicate 16 0

/-- KEY_WRAP. -/
def State.aeeKeyWrap (s : State) (pg tag : Nat) (j : Job) : State :=
  match s.keyFor j with
  | .error e => s.aeeFail pg tag e
  | .ok k =>
    let b := s.wrapRecord k
    let s := { s with kpr := { s.kpr with wraps := s.kpr.wraps + 1 } }
    match s.dmaWrite 0xFFFF (s.wktAt (natBits j.param1 32 12)) b with
    | (s, 0) => s.aeeEnd pg tag ⟨0, 0, 0, 0⟩
    | (s, e) => s.aeeFail pg tag e

/-- KEY_ERASE (log entry 75). -/
def State.aeeKeyErase (s : State) (pg tag : Nat) (j : Job) : State :=
  let e := s.slotOwn j
  if e ≠ 0 then s.aeeFail pg tag e
  else { s with kpr := { s.kpr with keys := mapDel s.kpr.keys (j.param1 % 512) } }.aeeEnd pg tag ⟨0, 0, 0, 0⟩

/-! ### Seeding, alarms and the Shutter -/

/-- The DRBG is seeded: `first` of a boot or after an alarm draws SALT (R361). -/
def State.drbgSeed (s : State) (salt : Nat) : State :=
  let s := { s with kpr := { s.kpr with seeded := true, generated := 0, salt := salt } }
  (s.fset (pAee 0) Reg.AEE_DRBG 0 1 1).raise (pAee 0) 6

/-- An alarm is active (KPR_ALARM.ACTIVE, R519). -/
def State.alarmOn (s : State) : Bool := s.fget pKpr Reg.KPR_ALARM 0 4 != 0

/-- An AEE job that the intake hands over with OPCODE `op`: refused, or run by `run`. While an alarm is active a key job ends with
0x6010 (R519). -/
def State.aeeJob (s : State) (tag op : Nat) (host : List Byte) (run : State → Nat → Job → State) : State :=
  match s.takeJob 0x14 tag (· == op) with
  | none => s
  | some (s, pg, j) =>
    match aeeRefusal j with
    | some e => s.aeeFail pg tag e
    | none => if isKeyJob op ∧ s.alarmOn then s.aeeFail pg tag 0x6010 else withHost host (fun s => run s pg j) s

/-- A GCM_DEC job is taken with the Shutter slot it needs, where one is free (R363). -/
def State.shutTake (s : State) (tag : Nat) : State :=
  match s.takeJob 0x14 tag (· == 4) with
  | none => s
  | some (s', pg, j) =>
    match s.slotWant pg j with
    | none => s
    | some k =>
      match s.shutFind pg k with
      | none => s
      | some o => { s' with jobs := mapPut s'.jobs tag { j with slot := some (o, k) } }

/-- GCM_DEC: a job that takes no Shutter slot ends at once; one that holds its slot runs when its instance is free. -/
def State.aeeGcmDecJob (s : State) (tag : Nat) (host : List Byte) : State :=
  match mapFind s.jobs tag with
  | none => s
  | some j =>
    match j.inst, j.slot, j.result with
    | some (pg, _), some _, none =>
      if j.opcode ≠ 4 ∨ !s.instFree pg j then s else
      match aeeRefusal j with
      | some e => s.aeeFail pg tag e
      | none => withHost host (fun s => s.aeeGcmDec pg tag j) s
    | none, _, _ =>
      match s.takeJob 0x14 tag (· == 4) with
      | none => s
      | some (s', pg, j) =>
        if (s.slotWant pg j).isSome then s
        else s'.aeeFail pg tag ((aeeRefusal j).getD 0x2020)
    | _, _, _ => s

/-- XTS_ENC (R357, R362, R368). -/
def execXtsEnc (tag : Nat) (host : List Byte) (s : State) : Host.Outcome State Fault Refusal :=
  next (fun s => s.aeeJob tag 1 host fun s pg j => s.aeeXts pg tag j true) s

/-- XTS_DEC (R362). -/
def execXtsDec (tag : Nat) (host : List Byte) (s : State) : Host.Outcome State Fault Refusal :=
  next (fun s => s.aeeJob tag 2 host fun s pg j => s.aeeXts pg tag j false) s

/-- GCM_ENC (R357, R360, R362). -/
def execGcmEnc (tag : Nat) (host : List Byte) (s : State) : Host.Outcome State Fault Refusal :=
  next (fun s => s.aeeJob tag 3 host fun s pg j => s.aeeSeal pg tag j) s

/-- GCM_DEC (R363, R362, R364, R365). -/
def execGcmDec (tag : Nat) (host : List Byte) (s : State) : Host.Outcome State Fault Refusal :=
  next (fun s => s.aeeGcmDecJob tag host) s

/-- A waiting GCM_DEC job gets its Shutter slot. -/
def execShutterSlotAllocate (tag : Nat) (s : State) : Host.Outcome State Fault Refusal :=
  next (fun s => s.shutTake tag) s

/-- GMAC_GEN (R360, R362). -/
def execGmacGen (tag : Nat) (host : List Byte) (s : State) : Host.Outcome State Fault Refusal :=
  next (fun s => s.aeeJob tag 5 host fun s pg j => s.aeeSeal pg tag j) s

/-- GMAC_VER (R362). -/
def execGmacVer (tag : Nat) (host : List Byte) (s : State) : Host.Outcome State Fault Refusal :=
  next (fun s => s.aeeJob tag 6 host fun s pg j => s.aeeGmacVer pg tag j) s

/-- CTR (R362). -/
def execCtr (tag : Nat) (host : List Byte) (s : State) : Host.Outcome State Fault Refusal :=
  next (fun s => s.aeeJob tag 7 host fun s pg j => s.aeeCtr pg tag j) s

/-- KEY_GEN (R359, R361, R368, R493). -/
def execKeyGen (tag : Nat) (s : State) : Host.Outcome State Fault Refusal :=
  next (fun s => s.aeeJob tag 0x10 [] fun s pg j => s.aeeKeyGen pg tag j) s

/-- KEY_LOAD (R357, R358, R359, R493). -/
def execKeyLoad (tag : Nat) (s : State) : Host.Outcome State Fault Refusal :=
  next (fun s => s.aeeJob tag 0x11 [] fun s pg j => s.aeeKeyLoad pg tag j) s

/-- KEY_WRAP (R358, R359). -/
def execKeyWrap (tag : Nat) (s : State) : Host.Outcome State Fault Refusal :=
  next (fun s => s.aeeJob tag 0x12 [] fun s pg j => s.aeeKeyWrap pg tag j) s

/-- KEY_ERASE (R359). -/
def execKeyErase (tag : Nat) (s : State) : Host.Outcome State Fault Refusal :=
  next (fun s => s.aeeJob tag 0x13 [] fun s pg j => s.aeeKeyErase pg tag j) s

/-- After 2³² generate requests the DRBG reseeds itself; SALT stays (R361). -/
def execDrbgReseed (s : State) : Host.Outcome State Fault Refusal :=
  next (fun s =>
    if s.kpr.seeded ∧ 2 ^ 32 ≤ s.kpr.generated then
      { s with kpr := { s.kpr with generated := 0 } }.cntSat (pAee 0) Reg.AEE_DRBG 8 8 1
    else s) s

end Sys2Proof.Machine
end

