-- ==== Sys2Proof/Machine/HashJobs.lean ====
section
/-! DEFINITION. The hash engine HSE: digests, comparisons, CRCs of blocks and state records (R370 to R373). -/

namespace Sys2Proof.Machine

/-- Block size of a CRC_BLOCKS job. -/
def hseBlock (j : Job) : Nat := 2 ^ (9 + natBits j.param1 16 4)

/-- Are the parameters of an HSE job in their ranges (R371, R372)? -/
def hseParamsOk (j : Job) : Bool :=
  let alg := j.param1 % 16
  let out := algOut alg
  let cont := natBits j.eflags 0 1 == 1
  let more := natBits j.eflags 1 1 == 1
  let dst := rangesLen j.dst
  out != 0 && j.eflags < 4 && (cont || more || j.param0 == 0)
    && (if j.opcode = 3 then
          8 ≤ alg && j.eflags == 0 && natBits j.param1 4 12 == 0 && j.param1 < 2 ^ 19
            && out * ceilDiv j.srcLen (hseBlock j) ≤ dst
        else j.param1 < 16
          && (if more then j.srcLen % algBlock alg == 0 && j.dstAddr == 0 && dst == 0 && !j.chainDst
              else if j.opcode = 1 then out ≤ dst else dst == out))

/-- The result of an HSE job, with what it counts and raises (R375). -/
def State.hseEnd (s : State) (tag : Nat) (x : JobResult) : State :=
  let (s, x) := s.openEnd tag x
  let s := s.setResult tag x
  let s := if x.status / 256 = 0x10 then s.errCnt pHse 2 else s
  let s := if x.status = 0x1021 then s.errCnt pHse 1 else s
  let s := if x.status = 0x3030 then ((s.errCnt pHse 0).cntSat pHse Reg.HSE_MISMATCH 0 32 1).raise pHse 5 else s
  s.addPair pHse Reg.HSE_IN_LO x.bytesIn

/-- The state words and LENGTH of a state record `r` that is valid for algorithm `alg` (R372). -/
def recordOf (alg : Nat) (r : List Byte) : Option (List Nat × Nat) :=
  let used := if alg = 8 then 4 else algStateLen alg
  let len := fieldAt r 8 8
  if fieldAt r 0 4 = alg + 256 && fieldAt r 4 4 == crc32c (r.drop 8) && len % algBlock alg == 0
    && (r.drop (0x10 + used)).all (· == 0) then some (algStateOf alg (r.drop 0x10), len)
  else none

/-- A state record. -/
def recordBytes (alg : Nat) (st : List Nat) (len : Nat) : List Byte :=
  let b := algStateBytes alg st
  let body := leBytes 8 len ++ b ++ List.replicate (240 - b.length) 0
  leBytes 4 (alg + 256) ++ leBytes 4 (crc32c body) ++ body

/-- The state that a job continues: the record for CONT, the algorithm's own beginning otherwise. -/
def State.hseStart (s : State) (j : Job) : State × Except Nat (List Nat × Nat) :=
  let alg := j.param1 % 16
  if natBits j.eflags 0 1 = 0 then (s, .ok (algInit alg, 0)) else
  match s.readRanges j.func j.aux.toList with
  | (s, .error e) => (s, .error e)
  | (s, .ok r) => (s, match recordOf alg r with
    | some x => .ok x
    | none => .error 0x1021)

/-- Digest or comparison after its checks. -/
def State.hseMessage (s : State) (tag : Nat) (j : Job) : State :=
  let alg := j.param1 % 16
  let fail (s : State) (e : Nat) : State := s.hseEnd tag ⟨e, 0, 0, 0⟩
  match s.readRanges j.func j.src with
  | (s, .error e) => fail s e
  | (s, .ok b) =>
    match s.hseStart j with
    | (s, .error e) => fail s e
    | (s, .ok (st, len)) =>
      let n := b.length
      if natBits j.eflags 1 1 = 1 then
        match s.writeRanges j.func j.aux.toList (recordBytes alg (algAbsorb alg st b) (len + n)) with
        | (s, 0) => s.hseEnd tag ⟨0, 0, n, 0⟩
        | (s, e) => fail s e
      else
        let out := algFinish alg st b (len + n)
        if j.opcode = 1 then
          match s.writeRanges j.func j.dst out with
          | (s, 0) => s.hseEnd tag ⟨0, 0, n, out.length⟩
          | (s, e) => fail s e
        else
          match s.readRanges j.func j.dst with
          | (s, .error e) => fail s e
          | (s, .ok x) => s.hseEnd tag ⟨if x = out then 0 else 0x3030, 0, n, 0⟩

/-- CRC_BLOCKS after its checks. -/
def State.hseBlocks (s : State) (tag : Nat) (j : Job) : State :=
  match s.readRanges j.func j.src with
  | (s, .error e) => s.hseEnd tag ⟨e, 0, 0, 0⟩
  | (s, .ok b) =>
    let out := ((chunks (hseBlock j) b).filter (!·.isEmpty)).flatMap (algDigest (j.param1 % 16))
    match s.writeRanges j.func j.dst out with
    | (s, 0) => s.hseEnd tag ⟨0, 0, b.length, out.length⟩
    | (s, e) => s.hseEnd tag ⟨e, 0, 0, 0⟩

/-- An HSE job that the intake hands over: refused, or run by `run`. -/
def State.hseJob (s : State) (tag op : Nat) (host : List Byte) (run : State → Job → State) : State :=
  match s.takeJob 0x15 tag (· == op) with
  | none => s
  | some (s, _, j) =>
    if hseParamsOk j then withHost host (fun s => run s j) s else s.hseEnd tag ⟨0x1001, 0, 0, 0⟩

/-- DIGEST: compute a digest or CRC and write it. -/
def execDigest (tag : Nat) (host : List Byte) (s : State) : Host.Outcome State Fault Refusal :=
  next (fun s => s.hseJob tag 1 host fun s j => s.hseMessage tag j) s

/-- VERIFY: compute and compare. -/
def execHseVerify (tag : Nat) (host : List Byte) (s : State) : Host.Outcome State Fault Refusal :=
  next (fun s => s.hseJob tag 2 host fun s j => s.hseMessage tag j) s

/-- CRC_BLOCKS: one CRC per block. -/
def execCrcBlocks (tag : Nat) (host : List Byte) (s : State) : Host.Outcome State Fault Refusal :=
  next (fun s => s.hseJob tag 3 host fun s j => s.hseBlocks tag j) s

end Sys2Proof.Machine
end

