-- ==== Sys2Proof/Machine/Search.lean ====
section
/-! DEFINITION. The associative search engine ASE: banks, searches, contexts and updates (chapter 15). -/

namespace Sys2Proof.Machine

/-! ### Banks and entries (R376 to R379) -/

/-- Units per entry of bank `b`. -/
def State.bankWidth (s : State) (b : Nat) : Nat := 2 ^ s.fget (pAse + 1) (Reg.ASE_ENT b) 5 2

/-- Bank `b` is enabled and belongs to table `t`. -/
def State.bankIn (s : State) (b t : Nat) : Bool :=
  s.bit (pAse + 1) (Reg.ASE_ENT b) 0 && s.fget (pAse + 1) (Reg.ASE_ENT b) 1 4 == t

/-- The enabled banks of table `t`, in the order of R379. -/
def State.tableBanks (s : State) (t : Nat) : List Nat :=
  (List.range 16).flatMap fun p =>
    (List.range 64).filter fun b => s.bankIn b t && s.fget (pAse + 1) (Reg.ASE_ENT b) 8 4 == p

/-- Table `t` is searchable (R378). -/
def State.searchable (s : State) (t : Nat) : Bool := s.bit (pAse + 2) (Reg.ASE_ENT t) 16 && !(s.tableBanks t).isEmpty

/-- The valid units of bank `b`, by unit number. -/
def State.bankUnits (s : State) (b : Nat) : FMap AseUnit :=
  (s.ase.units.filter fun e => e.1 / 1024 == b).map fun e => (e.1 % 1024, e.2)

/-- Perform the writes of one cycle (log entry 121). -/
def unitsStep (m : FMap AseUnit) (st : List (Nat × Option AseUnit)) : FMap AseUnit :=
  st.foldl (fun m e => match e.2 with
    | some u => mapPut m e.1 u
    | none => mapDel m e.1) m

/-- The units of bank `b` as a search that enters table `t` in cycle `cyc` of its running update sees them (R389); without an
update, or after it, the units as they are (log entry 121). -/
def State.unitsAt (s : State) (t b : Nat) (cyc : Option Nat) : FMap AseUnit :=
  match mapFind s.ase.run t, cyc with
  | some r, some c => if r.bank = b then (r.steps.take (c + 1)).foldl unitsStep r.before else s.bankUnits b
  | _, _ => s.bankUnits b

/-- The search enters in the first cycle of a move. -/
def State.shiftAt (s : State) (t : Nat) (cyc : Option Nat) : Bool :=
  match mapFind s.ase.run t, cyc with
  | some r, some c => r.moves.contains c
  | _, _ => false

/-- The units of the entry at slot `sl`, if all are valid. -/
def entryUnits (m : FMap AseUnit) (w sl : Nat) : Option (List AseUnit) := (List.range w).mapM fun u => mapFind m (w * sl + u)

/-- Does an entry match a search key (R377)? -/
def entryMatches (us : List AseUnit) (key : Nat) : Bool :=
  (List.range us.length).all fun u =>
    let x := us.getD u ⟨0, 0, 0⟩
    (natBits key (128 * u) 128 ^^^ x.key) &&& x.care == 0

/-- The entry at a slot, if it matches. -/
def matchAt (m : FMap AseUnit) (w key sl : Nat) : Option Nat :=
  (entryUnits m w sl).bind fun us => if entryMatches us key then some ((us.headD ⟨0, 0, 0⟩).data) else none

/-- The matches of a table for a key in the order of R379: bank, slot and associated data. -/
def State.tableMatches (s : State) (t key : Nat) (cyc : Option Nat) : List (Nat × Nat × Nat) :=
  (s.tableBanks t).flatMap fun b =>
    let m := s.unitsAt t b cyc
    let w := s.bankWidth b
    (List.range (1024 / w)).filterMap fun sl => (matchAt m w key sl).map fun d => (b, sl, d)

/-- A result record (R381). -/
def resultRecord (hit : Option (Nat × Nat × Nat)) (count ctx : Nat) (shift stale last : Bool) : List Byte :=
  let f (b : Bool) (k : Nat) : Nat := if b then 2 ^ k else 0
  let (b, sl, d) := hit.getD (0, 0, 0)
  leBytes 4 (f hit.isSome 0 + f (2 ≤ count) 1 + f shift 2 + f stale 3 + f last 4 + min count 255 * 2 ^ 8 + ctx * 2 ^ 16)
    ++ leBytes 4 (b + sl * 2 ^ 16) ++ leBytes 8 d

/-- Count one search of table `t`. -/
def State.countSearch (s : State) (t : Nat) (shift : Bool) : State :=
  let s := (s.addPair pAse Reg.ASE_SRCH_LO 1).cntSat (pAse + 2) (Reg.ASE_ENT t + 4) 0 32 1
  if shift then s.errCnt pAse 3 else s

/-! ### Ends and checks of jobs (R391) -/

/-- The result of an ASE job, with what it counts and raises (R393). -/
def State.aseEnd (s : State) (tag : Nat) (x : JobResult) : State :=
  let (s, x) := s.openEnd tag x
  let s := s.setResult tag x
  let s := match x.status / 256 with
    | 0x10 => s.errCnt pAse 0
    | 0x60 => s.errCnt pAse 1
    | 0x20 => s.errCnt pAse 2
    | _ => s
  let s := if x.status = 0x2040 then s.raise pAse 5 else s
  if x.status = 0x6040 then s.raise pAse 6 else s

def State.aseFail (s : State) (tag st : Nat) : State := s.aseEnd tag ⟨st, 0, 0, 0⟩

/-- Bits of PARAM1 that an ASE job uses (*ASE parameters*). -/
def aseMask (op : Nat) : Nat :=
  (if 0x10 ≤ op then bitMask 0 6 else 0) + (if 0x10 ≤ op ∧ op ≤ 0x14 then bitMask 8 11 else 0)
    + (if op = 0x10 then bitMask 20 11 else 0) + (if op = 3 ∨ op = 4 then bitMask 32 5 else 0)
    + (if op = 3 then bitMask 48 16 else 0)

def aseTable (j : Job) : Nat := j.param0 % 16
def aseBank (j : Job) : Nat := natBits j.param1 0 6
def aseSlot (j : Job) : Nat := natBits j.param1 8 11
def aseHoles (j : Job) : Nat := natBits j.param1 20 11
def aseCtxOf (j : Job) : Nat := natBits j.param1 32 5
def aseN (j : Job) : Nat := natBits j.param1 48 16

/-- Are the parameters of an ASE job in their ranges? -/
def State.aseParamsOk (s : State) (j : Job) : Bool :=
  let op := j.opcode
  let cap := 1024 / s.bankWidth (aseBank j)
  j.param0 < 16 && (j.param1 &&& aseMask op) == j.param1 && j.eflags == 0
    && (if op = 3 then aseN j != 0 else true)
    && (if op = 0x10 then aseHoles j != 1 && aseHoles j ≤ 1024 else true)
    && (if 0x10 ≤ op ∧ op ≤ 0x14 then aseSlot j < cap || (op == 0x11 && aseSlot j == cap) else true)

/-- The lengths of source and destination fit the job. -/
def State.aseLensOk (s : State) (j : Job) : Bool :=
  let w := s.aseWidth (aseTable j)
  let r := 32 * s.bankWidth (aseBank j) + 8
  let dst := rangesLen j.dst
  match j.opcode with
  | 0x01 => j.srcLen % (16 * w) == 0 && j.srcLen / (16 * w) * 16 ≤ dst
  | 0x02 => j.srcLen == 16 * w && 16 ≤ dst
  | 0x03 => j.srcLen == 0 && 16 * aseN j ≤ dst
  | 0x10 => j.srcLen % r == 0
  | 0x11 => j.srcLen == r
  | 0x12 => j.srcLen == r
  | 0x14 => j.srcLen == 0 && r ≤ dst
  | _ => j.srcLen == 0

/-- A job may name the table: its owner, or device work of a supervisor ring. -/
def State.aseOwns (s : State) (j : Job) : Bool :=
  let device := match j.ring with
    | .core _ _ => j.func == 0xFFFF
    | .bench _ _ => false
  device || s.fget (pAse + 2) (Reg.ASE_ENT (aseTable j)) 0 16 == j.func

/-- What every ASE job is checked for before it runs. -/
def State.aseRefusal (s : State) (j : Job) : Option Nat :=
  let t := aseTable j
  if !s.aseParamsOk j then some 0x1001
  else if !s.aseOwns j then some 0x6040
  else if (j.opcode ≤ 2 ∧ !s.searchable t) ∨ (0x10 ≤ j.opcode ∧ !s.bankIn (aseBank j) t) then some 0x1042
  else if !s.aseLensOk j then some 0x1040
  else if (j.opcode = 3 ∨ j.opcode = 4) ∧ ((mapFind s.ase.ctxs (aseCtxOf j)).map (·.func)) ≠ some j.func then some 0x1041
  else none

/-! ### Searches and contexts (R380 to R384) -/

/-- Deliver result records, and end. -/
def State.aseDeliver (s : State) (tag : Nat) (j : Job) (out : List Byte) : State :=
  match s.writeRanges j.func j.dst out with
  | (s, 0) => s.aseEnd tag ⟨0, 0, j.srcLen, out.length⟩
  | (s, e) => s.aseFail tag e

/-- SEARCH: one record per key; key i enters in cycle `cycs[i]` of the update that runs in the table. -/
def State.aseSearch (s : State) (tag : Nat) (j : Job) (cycs : List (Option Nat)) : State :=
  let t := aseTable j
  match s.readRanges j.func j.src with
  | (s, .error e) => s.aseFail tag e
  | (s, .ok b) =>
    let keys := ((chunks (16 * s.aseWidth t) b).filter (!·.isEmpty)).map leNat
    let (s, out) := (List.range keys.length).foldl (fun (a : State × List Byte) i =>
      let s := a.1
      let cyc := (cycs.getD i none)
      let ms := s.tableMatches t (keys.getD i 0) cyc
      let sh := s.shiftAt t cyc
      (s.countSearch t sh, a.2 ++ resultRecord ms.head? ms.length 0 sh false false)) (s, [])
    s.aseDeliver tag j out

/-- SEARCH_CTX: one search whose further matches a free context latches. -/
def State.aseSearchCtx (s : State) (tag : Nat) (j : Job) (cyc : Option Nat) : State :=
  let t := aseTable j
  match (List.range 32).find? fun c => (mapFind s.ase.ctxs c).isNone with
  | none => s.aseFail tag 0x2040
  | some c =>
    match s.readRanges j.func j.src with
    | (s, .error e) => s.aseFail tag e
    | (s, .ok b) =>
      let key := leNat b
      let ms := s.tableMatches t key cyc
      let sh := s.shiftAt t cyc
      let ctx : AseCtx := ⟨t, j.func, key, ms.tail.map fun m => (m.1, m.2.1), false⟩
      let s := { s with ase := { s.ase with ctxs := mapPut s.ase.ctxs c ctx } }.countSearch t sh
      s.aseDeliver tag j (resultRecord ms.head? ms.length c sh false false)

/-- The next positions of a context whose entries still match: at most `n` of them with their data and END, and what is left. Positions
after the last that still matches go with it (R383, R384; log entry 127). -/
def State.ctxNext (s : State) (key : Nat) : Nat → List (Nat × Nat) → List (Nat × Nat × Nat × Bool) × List (Nat × Nat)
  | _, [] => ([], [])
  | 0, l => ([], l)
  | n + 1, (b, sl) :: l =>
    match matchAt (s.bankUnits b) (s.bankWidth b) key sl with
    | some d =>
      if l.any fun p => (matchAt (s.bankUnits p.1) (s.bankWidth p.1) key p.2).isSome then
        let r := s.ctxNext key n l; ((b, sl, d, false) :: r.1, r.2)
      else ([(b, sl, d, true)], [])
    | none => s.ctxNext key (n + 1) l

/-- STEP: further matches of a context, one record each; one record with MATCH 0 and END 1 where none is left. -/
def State.aseStep (s : State) (tag : Nat) (j : Job) : State :=
  let c := aseCtxOf j
  match mapFind s.ase.ctxs c with
  | none => s.aseFail tag 0x1041
  | some x =>
    let (l, left) := s.ctxNext x.key (aseN j) x.pos
    let count := (s.tableMatches x.table x.key none).length
    let out := if l.isEmpty then resultRecord none 0 c false x.stale true
      else l.flatMap fun e => resultRecord (some (e.1, e.2.1, e.2.2.1)) count c false x.stale e.2.2.2
    let s := { s with ase := { s.ase with ctxs := mapPut s.ase.ctxs c { x with pos := left } } }
    s.aseDeliver tag j out

/-- Free a context. -/
def State.ctxFree (s : State) (c : Nat) : State := { s with ase := { s.ase with ctxs := mapDel s.ase.ctxs c } }

/-- A function's epoch advances: its contexts are freed (R392). -/
def State.ctxDrop (s : State) (f : Nat) : State :=
  { s with ase := { s.ase with ctxs := s.ase.ctxs.filter fun e => e.2.func != f } }

/-! ### Updates (R385 to R389) -/

/-- The units of an entry record for width `w` (R385). -/
def recordUnits (w : Nat) (r : List Byte) : List AseUnit :=
  (List.range w).map fun u =>
    ⟨fieldAt r (16 * u) 16, fieldAt r (16 * w + 16 * u) 16, if u = 0 then fieldAt r (32 * w) 8 else 0⟩

/-- Writes that put an entry at slot `sl`. -/
def putEntry (w sl : Nat) (us : List AseUnit) : List (Nat × Option AseUnit) :=
  (List.range w).map fun u => (w * sl + u, us[u]?)

/-- Writes that invalidate slot `sl`. -/
def dropEntry (w sl : Nat) : List (Nat × Option AseUnit) := (List.range w).map fun u => (w * sl + u, none)

/-- Write an entry so that it is never seen partly written: its other units, then its first. -/
def wholeEntry (w sl : Nat) (us : List AseUnit) : List (List (Nat × Option AseUnit)) :=
  [(putEntry w sl us).drop 1, (putEntry w sl us).take 1]

/-- An update runs in the table: its bank changes cycle by cycle, and every context of the table is stale. -/
def State.aseUpdate (s : State) (tag : Nat) (j : Job) (steps : List (List (Nat × Option AseUnit))) (moves : List Nat) : State :=
  let b := aseBank j
  let t := aseTable j
  let place (st : List (Nat × Option AseUnit)) := st.map fun e => (1024 * b + e.1, e.2)
  { s with ase := { s.ase with
      units := steps.foldl (fun m st => unitsStep m (place st)) s.ase.units
      ctxs := s.ase.ctxs.map fun e => (e.1, if e.2.table = t then { e.2 with stale := true } else e.2)
      run := mapPut s.ase.run t ⟨tag, b, s.bankUnits b, steps, moves⟩ } }

/-- The slots that LOAD fills and the holes it leaves from slot `sl`, for `n` records; none: they do not fit. -/
def loadSlots (cap holes : Nat) : Nat → Nat → Nat → Option (List (Nat × Bool))
  | 0, _, _ => none
  | _ + 1, 0, _ => some []
  | f + 1, n + 1, sl =>
    if cap ≤ sl then none
    else if holes ≠ 0 ∧ sl % holes = holes - 1 then (loadSlots cap holes f (n + 1) (sl + 1)).map ((sl, false) :: ·)
    else (loadSlots cap holes f n (sl + 1)).map ((sl, true) :: ·)

/-- LOAD (R386). -/
def State.aseLoad (s : State) (tag : Nat) (j : Job) : State :=
  let w := s.bankWidth (aseBank j)
  match s.readRanges j.func j.src with
  | (s, .error e) => s.aseFail tag e
  | (s, .ok b) =>
    let recs := ((chunks (32 * w + 8) b).filter (!·.isEmpty)).map (recordUnits w)
    match loadSlots (1024 / w) (aseHoles j) 2049 recs.length (aseSlot j) with
    | none => s.aseFail tag 0x2041
    | some l =>
      let filled := (l.filter (·.2)).map (·.1)
      let steps := l.map fun e => if e.2 then putEntry w e.1 (recs.getD (filled.idxOf e.1) []) else dropEntry w e.1
      (s.aseUpdate tag j steps []).aseEnd tag ⟨0, 0, j.srcLen, 0⟩

/-- The moves of an insertion at slot `p` into bank contents `m`: pairs of old and new slot in order, and the final slot. -/
def insertPlan (m : FMap AseUnit) (w p : Nat) : Option (List (Nat × Nat) × Nat) :=
  let cap := 1024 / w
  let free := (List.range cap).filter fun sl => (entryUnits m w sl).isNone
  let up := free.find? (p < ·)
  let down := (free.filter (· < p)).getLast?
  let above (h : Nat) := ((List.range (h - p)).map fun i => (h - 1 - i, h - i), p)
  let below (h : Nat) := ((List.range (p - 1 - h)).map fun i => (h + 1 + i, h + i), p - 1)
  if free.contains p then some ([], p)
  else match up, down with
    | some h, none => some (above h)
    | none, some h => some (below h)
    | some h, some l => some (if h - p ≤ p - 1 - l then above h else below l)
    | none, none => none

/-- INSERT (R387): the hole is found in 4 cycles, each move takes two, and the new entry two. -/
def State.aseInsert (s : State) (tag : Nat) (j : Job) : State :=
  let w := s.bankWidth (aseBank j)
  match s.readRanges j.func j.src with
  | (s, .error e) => s.aseFail tag e
  | (s, .ok b) =>
    let m := s.bankUnits (aseBank j)
    match insertPlan m w (aseSlot j) with
    | none => (s.aseFail tag 0x2041).raise pAse 4
    | some (mv, at_) =>
      let find : List (List (Nat × Option AseUnit)) :=
        if (entryUnits m w (aseSlot j)).isNone ∧ aseSlot j < 1024 / w then [] else [[], [], [], []]
      let steps := find ++ (mv.flatMap fun e =>
        [putEntry w e.2 ((entryUnits m w e.1).getD []), dropEntry w e.1]) ++ wholeEntry w at_ (recordUnits w b)
      let s := s.aseUpdate tag j steps ((List.range mv.length).map fun i => find.length + 2 * i)
      (s.cntSat pAse Reg.ASE_MOVES 0 32 mv.length).aseEnd tag ⟨0, at_, j.srcLen, 0⟩

/-- WRITE (R388): the first unit is invalidated in the first cycle and rewritten, valid, in the last (log entry 121). -/
def State.aseWrite (s : State) (tag : Nat) (j : Job) : State :=
  let w := s.bankWidth (aseBank j)
  match s.readRanges j.func j.src with
  | (s, .error e) => s.aseFail tag e
  | (s, .ok b) =>
    let es := wholeEntry w (aseSlot j) (recordUnits w b)
    let steps := [(w * aseSlot j, none)] :: (if w = 1 then es.drop 1 else es)
    (s.aseUpdate tag j steps []).aseEnd tag ⟨0, 0, j.srcLen, 0⟩

/-- READ (R388). -/
def State.aseRead (s : State) (tag : Nat) (j : Job) : State :=
  let w := s.bankWidth (aseBank j)
  let us := (entryUnits (s.bankUnits (aseBank j)) w (aseSlot j)).getD (List.replicate w ⟨0, 0, 0⟩)
  s.aseDeliver tag j (us.flatMap (fun u => leBytes 16 u.key) ++ us.flatMap (fun u => leBytes 16 u.care)
    ++ leBytes 8 ((us.headD ⟨0, 0, 0⟩).data))

/-- DELETE (R388): the slot becomes a hole. -/
def State.aseDelete (s : State) (tag : Nat) (j : Job) : State :=
  (s.aseUpdate tag j [dropEntry (s.bankWidth (aseBank j)) (aseSlot j)] []).aseEnd tag ⟨0, 0, 0, 0⟩

/-- CLEAR (R388): every unit of the bank, one a cycle. -/
def State.aseClear (s : State) (tag : Nat) (j : Job) : State :=
  (s.aseUpdate tag j ((List.range 1024).map fun u => [(u, none)]) []).aseEnd tag ⟨0, 0, 0, 0⟩

/-- An ASE job that the intake hands over: refused, or run by `run`. -/
def State.aseJob (s : State) (tag op : Nat) (host : List Byte) (run : State → Job → State) : State :=
  match s.takeJob 0x16 tag (· == op) with
  | none => s
  | some (s, _, j) =>
    match s.aseRefusal j with
    | some e => s.aseFail tag e
    | none => withHost host (fun s => run s j) s

/-- SEARCH: one result record per key. -/
def execAseSearch (tag : Nat) (host : List Byte) (cycs : List (Option Nat)) (s : State) : Host.Outcome State Fault Refusal :=
  next (fun s => s.aseJob tag 1 host fun s j => s.aseSearch tag j cycs) s

/-- SEARCH_CTX. -/
def execAseSearchCtx (tag : Nat) (host : List Byte) (cyc : Option Nat) (s : State) : Host.Outcome State Fault Refusal :=
  next (fun s => s.aseJob tag 2 host fun s j => s.aseSearchCtx tag j cyc) s

/-- STEP. -/
def execAseStep (tag : Nat) (s : State) : Host.Outcome State Fault Refusal :=
  next (fun s => s.aseJob tag 3 [] fun s j => s.aseStep tag j) s

/-- CTX_FREE. -/
def execAseCtxFree (tag : Nat) (s : State) : Host.Outcome State Fault Refusal :=
  next (fun s => s.aseJob tag 4 [] fun s j => (s.ctxFree (aseCtxOf j)).aseEnd tag ⟨0, 0, 0, 0⟩) s

/-- LOAD. -/
def execAseLoad (tag : Nat) (host : List Byte) (s : State) : Host.Outcome State Fault Refusal :=
  next (fun s => s.aseJob tag 0x10 host fun s j => s.aseLoad tag j) s

/-- INSERT. -/
def execAseInsert (tag : Nat) (host : List Byte) (s : State) : Host.Outcome State Fault Refusal :=
  next (fun s => s.aseJob tag 0x11 host fun s j => s.aseInsert tag j) s

/-- WRITE. -/
def execAseWrite (tag : Nat) (host : List Byte) (s : State) : Host.Outcome State Fault Refusal :=
  next (fun s => s.aseJob tag 0x12 host fun s j => s.aseWrite tag j) s

/-- DELETE: the slot becomes a hole. -/
def execAseDelete (tag : Nat) (s : State) : Host.Outcome State Fault Refusal :=
  next (fun s => s.aseJob tag 0x13 [] fun s j => s.aseDelete tag j) s

/-- READ. -/
def execAseRead (tag : Nat) (s : State) : Host.Outcome State Fault Refusal :=
  next (fun s => s.aseJob tag 0x14 [] fun s j => s.aseRead tag j) s

/-- CLEAR: every unit of the bank, one a cycle. -/
def execAseClear (tag : Nat) (s : State) : Host.Outcome State Fault Refusal :=
  next (fun s => s.aseJob tag 0x15 [] fun s j => s.aseClear tag j) s

/-- Firmware writes the FREE bit of context entry `n`. -/
def execContextFree (n : Fin 32) (s : State) : Host.Outcome State Fault Refusal := next (fun s => s.ctxFree n.val) s

end Sys2Proof.Machine
end

