-- ==== Sys2Proof/Machine/CoreCommands.lean ====
section
/-! DEFINITION. The commands that start, load, stop and switch cores and Benches, and those of rings and streams
(chapter 12). -/

namespace Sys2Proof.Machine

/-! ### Rings, jobs and streams -/

/-- A supervisor writes RING_LO of ring `r` of its core: the ring is armed with RING_HI as it stands, or disarmed (R325; log entry 69). -/
def State.supRing (s : State) (c : CoreId) (r : Nat) (lo : RegWord) : State :=
  match coreEntry (coreNum c) with
  | none => s
  | some (pg, e) =>
    let v := lo &&& 0xFFFF_FFC1
    let s := s.rset (pg + 1) (Reg.CORE e (0x20 + 8 * r)) v
    s.ringArm (.core c r) (BitVec.ofNat 64 ((s.rg (pg + 1) (Reg.CORE e (0x24 + 8 * r))).toNat * 2 ^ 32 + v.toNat))

/-- RING_ARM (R325, R328). -/
def execRingArm (c : CoreId) (r : Fin 4) (lo : RegWord) (s : State) : Host.Outcome State Fault Refusal :=
  next (fun s => s.supRing c r.val lo) s

/-- PROD differs from CONS, a completion slot and a work tag are free: the next descriptor is fetched (R326); the rings of a
function that drains or is frozen fetch nothing (R484; log entries 70 and 76). -/
def State.ringFetch (s : State) (r : RingId) (tag : Nat) : State :=
  let g := s.ringOf r
  let f := s.ringFunc r
  let held := match r with
    | .bench x _ => (s.func (s.benchOf x).func).mig != .running
    | .core _ _ => false
  if !g.armed || g.halt || g.wait.isSome || g.hold.isSome || held || !s.intake (ringBlock r) then s else
  match g.hdr with
  | none => s
  | some h =>
    match s.dmaRead f h 8 with
    | (s, .error _) => s.ringHalt r 1
    | (s, .ok b) =>
      let prod := fieldAt b 0 4
      let n := 2 ^ g.log2n
      if n < (prod + 2 ^ 32 - g.cons) % 2 ^ 32 then s.ringHalt r 3
      else if prod = g.cons ∨ n ≤ (g.cons + 2 ^ 32 - fieldAt b 4 4) % 2 ^ 32 then s
      else if !s.tagFree tag || !ringTag r tag then s
      else match s.dmaRead f (g.desc + 64 * (g.cons % n)) 64 with
        | (s, .error _) => s.ringHalt r 1
        | (s, .ok d) =>
          let cons := (g.cons + 1) % 2 ^ 32
          let s := s.setRing r { g with cons := cons }
          let (s, ok) := s.hdrPut r 8 cons
          let s := if fieldAt d 2 1 % 2 = 1 ∧ s.ringBusy r then s.setRing r { s.ringOf r with hold := some (tag, d) }
            else s.ringAccept r tag d
          if ok then s else s.ringHalt r 2

/-- DESCRIPTOR_FETCH (R326, R9, R22, R54). -/
def execDescriptorFetch (ring : RingId) (tag : Nat) (host : List Byte) (s : State) : Host.Outcome State Fault Refusal :=
  next (fun s => withHost host (fun s => s.ringFetch ring tag) s) s

/-- The OPCODEs of an engine. -/
def engKnows (e op : Nat) : Bool :=
  match e with
  | 0x13 => 1 ≤ op && op ≤ 3
  | 0x14 => (1 ≤ op && op ≤ 7) || isKeyJob op
  | 0x15 => 1 ≤ op && op ≤ 3
  | _ => (1 ≤ op && op ≤ 4) || (0x10 ≤ op && op ≤ 0x15)

/-- A job whose OPCODE its engine does not know is taken in its turn and ends with 0x1001 (R350, R368, R371, R391). -/
def State.badOpcode (s : State) (tag : Nat) : State :=
  match mapFind s.jobs tag with
  | none => s
  | some j =>
    match s.takeJob j.engine tag fun op => !engKnows j.engine op with
    | none => s
    | some (s, pg, _) =>
      match j.engine with
      | 0x13 => s.cxeEnd pg tag ⟨0x1001, 0, 0, 0⟩
      | 0x14 => s.aeeFail pg tag 0x1001
      | 0x15 => s.hseEnd tag ⟨0x1001, 0, 0, 0⟩
      | _ => s.aseFail tag 0x1001

/-- A job that its engine has ended, or whose OPCODE is unknown, writes its completion and is charged `nJ` (R332; log entry 74). -/
def State.jobComplete (s : State) (tag nJ : Nat) : State :=
  let s := match mapFind s.jobs tag with
    | some j => if j.result.isNone ∧ j.inst.isNone then s.badOpcode tag else s
    | none => s
  match mapFind s.jobs tag with
  | none => s
  | some j =>
    match j.result with
    | none => s
    | some x =>
      let s := match j.engine, j.inst with
        | 0x13, some (pg, _) => s.cntSat pg Reg.CXE_JOBS 0 32 1
        | _, _ => s
      s.jobEnd tag x nJ

/-- ENGINE_JOB_COMPLETE (R332, R23, R318, R319). -/
def execEngineJobComplete (tag nJ : Nat) (host : List Byte) (s : State) : Host.Outcome State Fault Refusal :=
  next (fun s => withHost host (fun s => s.jobComplete tag nJ) s) s

/-! ### Cores (R313, R314) -/

/-- CORE_RUN (R264, R313). -/
def execCoreRun (c : CoreId) (s : State) : Host.Outcome State Fault Refusal :=
  next (fun s => if (coreEntry (coreNum c)).isSome then s.coreRun (coreNum c) else s) s

/-- CORE_RESET (R264, R313, R546). -/
def execCoreReset (c : CoreId) (s : State) : Host.Outcome State Fault Refusal :=
  next (fun s => if (coreEntry (coreNum c)).isSome then s.coreReset (coreNum c) else s) s

/-- Page of CCL 0 to 3, or of RTX. -/
def loadPage (blk : Nat) : Nat := if blk < 4 then pCcl blk else pRtx

/-- GO of a LOAD: busy, or refused when it names a running core or a range beyond the local store. -/
def State.loadGo (s : State) (pg : Nat) : State :=
  if (mapFind s.loads pg).isSome then s else
  let (dst, k) := s.loadTarget pg
  let len := s.fget pg Reg.CCL_LOAD_LEN 3 16 * 8
  let src := (s.rg pg Reg.CCL_LOAD_LO).toNat + s.fget pg Reg.CCL_LOAD_HI 0 16 * 2 ^ 32
  if (s.core k).mode ≠ .inReset ∨ localSizeOf k < dst + len then s.loadOver pg 3
  else
    let c := if h : k < 32 then CoreId.compute ⟨k, h⟩ else if h : k - 32 < 8 then .rt ⟨k - 32, h⟩ else .keeper
    ({ s with loads := mapPut s.loads pg ⟨src, dst, c, len⟩ }.fset pg Reg.CCL_LOAD 22 1 1).fset pg Reg.CCL_LOAD 24 4 1

/-- CCL_LOAD (R314). -/
def execCclLoad (blk : Fin 5) (s : State) : Host.Outcome State Fault Refusal := next (fun s => s.loadGo (loadPage blk.val)) s

/-- Read the source of a LOAD in bursts of 64 bytes, up to the first bus error: the bytes read, and whether all were. -/
def State.loadRead : Nat → State → Nat → Nat → State × List Byte × Bool
  | 0, s, _, _ => (s, [], true)
  | f + 1, s, a, n =>
    if n = 0 then (s, [], true) else
    let k := min n (64 - a % 64)
    match s.busRead a k with
    | (s, none) => (s, [], false)
    | (s, some b) =>
      let (s, r, ok) := State.loadRead f s (a + k) (n - k)
      (s, b ++ r, ok)

/-- Each byte of a list, or what the place held before: an undefined mix (R314; log entry 3). -/
def State.mixBytes (s : State) (old new : List Byte) : State × List Byte :=
  ({ s with free := s.free + new.length }, (List.range new.length).map fun i =>
    if (Config.freeByte (s.free + i)).getLsbD 0 then new.getD i 0 else old.getD i 0)

/-- The LOAD in progress ends: the bytes are in the local store, or a read of the source has failed. -/
def State.cclLoadEnd (s : State) (pg : Nat) : State :=
  match mapFind s.loads pg with
  | none => s
  | some l =>
    let a := localBase (coreNum l.core) + l.dst
    let (s, b, ok) := State.loadRead (l.len / 8 + 1) s l.src l.len
    let (s, b) := if ok then (s, b) else s.mixBytes (memRead s.mem a b.length) b
    let (s, _) := s.sramWrite a b
    s.loadOver pg (if ok then 2 else 4)

/-- CCL_LOAD_END (R314). -/
def execCclLoadEnd (blk : Fin 5) (s : State) : Host.Outcome State Fault Refusal := next (fun s => s.cclLoadEnd (loadPage blk.val)) s

/-! ### Dispatch and switch-out (R317) -/

/-- Core `k` itself writes GO naming Bench `b`, in supervisor mode: the Bench is dispatched, and its rings whose words have
changed are armed afresh; or the write is a reserved encoding. -/
def State.coreGo (s : State) (k b : Nat) : State :=
  match coreEntry k with
  | none => s
  | some (pg, c) =>
    if k < 32 ∧ s.mayDispatch k b then
      let x := 64 * (k / 8) + b
      let s := (s.fset (pg + 1) (Reg.CORE c 0xC) 0 6 b).dispatch k b
      let (s, rs) := s.benchRings x
      let y := s.benchOf x
      let s := s.setBench x { y with rings := (List.range 4).map fun r => ((rs.find? (·.1 == r)).map (·.2)).getD (y.rings.getD r 0) }
      let s := rs.foldl (fun s e => s.ringArm (.bench x e.1) e.2) s
      let y := s.benchOf x
      if (s.func y.func).epoch.toNat ≠ y.fepoch then s.switchCause k 4 else s
    else if k < 32 then s.badWrite pg (Reg.CORE c 0xC) 1 else s

/-- BENCH_GO (R265, R266, R316, R317). -/
def execBenchGo (c : CoreId) (b : Fin 64) (s : State) : Host.Outcome State Fault Refusal :=
  next (fun s => if s.coreOn (coreNum c) then s.coreGo (coreNum c) b.val else s) s

/-- Core `k` itself writes OUT while its trap handler runs for a Bench: the Bench leaves; or the write is a reserved encoding. -/
def State.coreOut (s : State) (k : Nat) : State :=
  match coreEntry k with
  | none => s
  | some (pg, e) =>
    let c := s.core k
    match c.bench with
    | some r =>
      if !c.benchMode && c.tcause.getLsbD 16 && c.tps.getLsbD 4 then
        let s := s.setCore k { c with tcause := c.tcause &&& ~~~ (1 <<< 16 : Word) }
        s.switchOut k (if r.late = 0 then 1 else r.late) c.tpc c.tps
      else if k < 32 then s.badWrite pg (Reg.CORE e 0xC) 1 else s
    | none => if k < 32 then s.badWrite pg (Reg.CORE e 0xC) 1 else s

/-- BENCH_OUT (R317). -/
def execBenchOut (c : CoreId) (s : State) : Host.Outcome State Fault Refusal :=
  next (fun s => if s.coreOn (coreNum c) then s.coreOut (coreNum c) else s) s

/-- SLICE microseconds have passed since the dispatch. -/
def execSliceExpiry (c : CoreId) (s : State) : Host.Outcome State Fault Refusal :=
  next (fun s =>
    let k := coreNum c
    let slice := s.coreFld k 0x10 0 20
    match (s.core k).bench with
    | some r => if slice = 0 then s else (s.reach (r.since.toNat + slice * 1000)).switchCause k 2
    | none => s) s

/-- T_REM of the dispatched Bench reaches zero. -/
def execTRemExpiry (c : CoreId) (s : State) : Host.Outcome State Fault Refusal :=
  next (fun s =>
    let k := coreNum c
    match (s.core k).bench with
    | some r => if r.tRem = BitVec.allOnes 64 then s else (s.reach (r.tFrom.toNat + r.tRem.toNat)).switchCause k 3
    | none => s) s

end Sys2Proof.Machine
end

