-- ==== Sys2Proof/Machine/Functions.lean ====
section
/-! DEFINITION. Functions and instances: Transom pages, controls, freezing, function resets and the pools of queues and
vectors (chapter 19). -/

namespace Sys2Proof.Machine

/-! ### Transom pages (R476 to R480) -/

/-- Address of offset `o` of the Transom page of slot `k` (log entry 120). -/
def State.mbox (s : State) (k o : Nat) : Nat := sramGeneral + s.fget pImg Reg.IMG_MBX 0 9 * 65536 + 4096 * k + o

/-- The 64-bit word at offset `o` of the page (log entry 120). -/
def State.tGet (s : State) (k o : Nat) : Nat := leNat (memRead s.mem (s.mbox k o) 8)

/-- The 64-bit word at offset `o` as both sides read it: M2T_CLR reads M2T_DB, and T2M_CLR reads T2M_DB (R476, R477). -/
def State.tRead (s : State) (k o : Nat) : Nat := s.tGet k (if o = 0x10 then 0x48 else if o = 0x50 then 8 else o)

/-- An 8-byte word of a mailbox page is written (R480; log entry 120). -/
def State.tPut (s : State) (k o v : Nat) : State := (s.sramWrite (s.mbox k o) (leBytes 8 v)).1

/-- Put a field of the 64-bit word at offset `o`. -/
def State.tFld (s : State) (k o lo len x : Nat) : State := s.tPut k o (natPut (s.tGet k o) lo len x)

/-- AGREED: the protocol version agreed; 0 none. -/
def State.agreed (s : State) (k : Nat) : Nat := s.tGet k 0x60 % 2 ^ 16

/-- The agreement is gone: AGREED, NEG_FAIL and both doorbell fields are clear (R479; log entry 79). -/
def State.unagree (s : State) (k : Nat) : State := ((s.tFld k 0x60 0 17 0).tPut k 8 0).tPut k 0x48 0

/-- Set RESULT, in IMG_MIG and in the page. -/
def State.migResult (s : State) (k r : Nat) : State :=
  (s.setFunc k { s.func k with result := r }).tFld k 0x70 12 4 r

/-- The doorbell bits `rise` went from 0 to 1: one message each on the receiving side's vector, if it is enabled, and event 8
(R478). -/
def State.tRing (s : State) (k rise : Nat) (toManager : Bool) : State :=
  let w := s.tGet k (if toManager then 0x58 else 0x18)
  (List.range 64).foldl (fun s b =>
    if natBits rise b 1 = 0 then s else
    let s := if natBits w 16 1 = 1 then s.msix (if toManager then s.parent k else k) (w % 2 ^ 16) else s
    s.raise pImg 8) s

/-- Set bits of a doorbell field, and ring for those that were clear. -/
def State.tBell (s : State) (k bits : Nat) (toManager : Bool) : State :=
  let o := if toManager then 8 else 0x48
  let old := s.tGet k o
  (s.tPut k o (old ||| bits)).tRing k ((old ||| bits) ^^^ old) toManager

/-- A notice of the device to the tenant under protocol 1.1 (R480). -/
def State.notice (s : State) (k code : Nat) : State :=
  if s.agreed k ≠ 0x0101 then s else
  let f := s.func k
  let s := s.setFunc k { f with seq := f.seq + 1 }
  let s := ((s.tFld k 0xFC0 0 16 code).tPut k 0xFC8 s.tb.toNat).tFld k 0xFD0 0 32 (f.seq + 1).toNat
  s.tBell k (2 ^ 63) false

/-- Negotiation (R479): the highest version that both sides and the device speak. -/
def State.negotiate (s : State) (k : Nat) : State :=
  let t := s.tGet k 0
  let m := s.tGet k 0x40
  if natBits t 32 1 = 0 ∨ natBits m 32 1 = 0 then s.unagree k
  else if s.agreed k ≠ 0 then s
  else
    let lo := max (max (t % 2 ^ 16) (m % 2 ^ 16)) 0x0100
    let hi := min (min (natBits t 16 16) (natBits m 16 16)) 0x0101
    if lo ≤ hi then s.tFld k 0x60 0 17 hi else (s.tFld k 0x60 16 1 1).raise pImg 9

/-- Who writes a slot of the page: 0 the tenant, 1 the manager, 2 the device (R476). -/
def State.slotWriter (s : State) (k slot : Nat) : Nat :=
  if slot = 0 ∨ (2 ≤ slot ∧ slot ≤ 32) then 0 else if slot = 63 ∧ s.agreed k = 0x0101 then 2 else 1

/-! ### Function epochs and resets (R481, R482, R402, R404) -/

/-- Streams attached to the Benches of function `f`. -/
def State.funcStreams (s : State) (f : Nat) : List Nat :=
  ((s.benches.filter fun e => e.2.func == f && e.2.state != 0).flatMap fun e => e.2.streams.map fun w => w.2.1)

/-- Stream `i` closes for good: it is no longer attached to a producer. -/
def State.strShut (s : State) (i : Nat) : State :=
  let s := s.fset (pCcl (i / 64) + 3) (Reg.STREAM (i % 64) 0x10) 16 1 0
  s.setStream i { s.streamOf i with closed := true }

/-- The controller of slot `k` is reset: its queues, requests and features are gone, and its Barlis version is 1.0 (R445); its
Deferred Error log, pending flags and Error Information log stay (R433), and CSTS.CFS of a device that is fatal or stopped (R553, R571). -/
def State.ctrlReset (s : State) (k : Nat) : State :=
  let x := s.ctrl k
  let s := s.setCtrl k { ctrlDefault k with
    cfs := s.bit pEvf Reg.EVF_FATAL 0 || s.bit pPcr Reg.PCR_BOOT 8, errLog := x.errLog, errCount := x.errCount
    defer := x.defer, deferOvf := x.deferOvf, deferGen := x.deferGen, pend := x.pend }
  { s with
    cmds := s.cmds.filter fun e => e.2.ctrl != k
    qen := { s.qen with burst := if s.qen.burst.any fun b => b.1 == k then none else s.qen.burst } }

/-- A pending flexible allocation of a PF takes effect at its controller reset (R469). -/
def State.flexApply (s : State) (k : Nat) : State :=
  let f := s.func k
  if s.isPf k then s.setFunc k { f with
    vq := (f.flexVq.map fun n => 65 + n).getD f.vq, vi := (f.flexVi.map fun n => 64 + n).getD f.vi
    flexVq := none, flexVi := none }
  else s

/-- The function's epoch advances, and everything that carries the old one is gone: steps 1 to 3 of R481. -/
def State.epochUp (s : State) (k : Nat) : State :=
  let f := s.func k
  let strs := s.funcStreams k
  let s := (s.setFunc k { f with epoch := f.epoch + 1 }).benchKill k
  let s := (strs.foldl State.strShut ((s.jobsDrop k).ctxDrop k))
  let s := s.ctrlReset k
  { s with kpr := { s.kpr with keys := s.kpr.keys.filter fun e => e.2.owner != k } }

/-- The killed Benches of function `k` that no core still holds are unbound, once their jobs have ended (R481). -/
def State.benchFree (s : State) (k : Nat) : State :=
  (s.benches.filter fun e => e.2.func == k && e.2.state == 4 && (s.coreOfCtx e.1).isNone).foldl (fun s e =>
    (s.bindBench (e.1 / 64) (e.1 % 64) false).setBench e.1 (benchDefault e.1)) s

/-- What a reset does to function `k` (R481): a migration operation in progress ends with RESULT 0xB. -/
def State.funcReset (s : State) (k : Nat) : State :=
  let f := s.func k
  let s := ((s.epochUp k).benchFree k).flexApply k
  let s := s.setFunc k { s.func k with
    mig := .running, frzAt := none, d3 := false, owes5 := false, unmasked := [], entries := [], msixPend := [] }
  let s := (s.sramWrite (s.mbox k 0) (List.replicate 64 0)).1
  let s := ((s.sramWrite (s.mbox k 128) (List.replicate 1984 0)).1).unagree k
  if f.mig = .draining ∨ f.mig = .saving ∨ f.mig = .restoring then s.migResult k 0xB else s

/-- The VFs of PF `p` that exist. -/
def State.vfsOf (s : State) (p : Nat) : List Nat :=
  (List.range 256).filter fun k => !s.isPf k && s.parent k == p && s.slotEnabled k

/-- The functions of port `p`: its PF and the VFs that exist. -/
def State.portFuncs (s : State) (p : Nat) : List Nat := if s.isPf p then p :: s.vfsOf p else []

/-- PF `p` has no VF any more: each is reset with it (R482). -/
def State.vfsGone (s : State) (p : Nat) : State :=
  { (s.vfsOf p).foldl State.funcReset s with numVfs := mapDel s.numVfs p }

/-- A Function Level Reset of slot `k` (log entry 77). -/
def State.flr (s : State) (k : Nat) : State :=
  let f := s.func k
  let s := (s.setFunc k { f with flrCnt := satAdd 65535 f.flrCnt 1 }).errCnt pImg 3
  let s := s.funcReset k
  let s := if s.isPf k then s.vfsGone k else s
  s.raise pImg 4

/-- FLR (R481, R23, R210, R320). -/
def execFlr (func : Fin 256) (s : State) : Host.Outcome State Fault Refusal :=
  next (fun s => if s.slotEnabled func.val then s.flr func.val else s) s

/-- The functions of port `p` are reset, with what their BARs hold; the PF's controls return to the defaults of a PF reset (R402, R471; log
entry 77). -/
def State.portReset (s : State) (p : Nat) : State :=
  if s.isPf p then
    let s := (s.vfsGone p).funcReset p
    { s.setFunc p { s.func p with ctl := (funcDefault p).ctl } with bank := mapDel s.bank p }
  else s

/-- VF Enable and NumVFs of PF `p`: VFs come into existence, or with 0 are removed. -/
def State.numVfsWrite (s : State) (p n : Nat) : State :=
  let total := if s.x8 then 255 else if p = 0 then s.n0 else 254 - s.n0
  let old := mapGet (fun _ => 0) s.numVfs p
  if !s.isPf p then s
  else if n = 0 then s.vfsGone p
  else if old = 0 ∧ n ≤ total then { s with numVfs := mapPut s.numVfs p n }
  else s

/-- NUMVFS_WRITE (R466). -/
def execNumvfsWrite (pf : Fin 2) (n : Nat) (s : State) : Host.Outcome State Fault Refusal :=
  next (fun s => s.numVfsWrite pf.val n) s

/-- The host clears the mask of a vector, whose entry holds an address and data: its pending message is sent (R566). -/
def State.unmask (s : State) (k v addr data : Nat) : State :=
  let f := s.func k
  if !s.slotEnabled k || s.msixSize k ≤ v then s else
  let s := s.setFunc k { f with
    unmasked := mapPut f.unmasked v (addr, data), entries := mapSet (fun _ => (0, 0)) f.entries v (addr, data), msixPend := f.msixPend.filter (· != v) }
  if f.msixPend.contains v then s.msix k v else s

/-- MSIX_UNMASK (R566). -/
def execMsixUnmask (func : Fin 256) (vec : Fin 2048) (addr : BitVec 64) (data : BitVec 32) (s : State) :
    Host.Outcome State Fault Refusal :=
  next (fun s => s.unmask func.val vec.val addr.toNat data.toNat) s

/-! ### Controls (R471 to R475, R489) -/

/-- The units of every bank of table `t` are cleared. -/
def State.tableClear (s : State) (t : Nat) : State :=
  let bs := s.tableBanks t
  { s with ase := { s.ase with
      units := s.ase.units.filter fun e => !bs.contains (e.1 / 1024)
      ctxs := s.ase.ctxs.map fun e => (e.1, if e.2.table = t then { e.2 with stale := true } else e.2) } }

/-- Owner of an ASE table (log entry 53). -/
def State.tableOwner (s : State) (t : Nat) : Nat := s.fget (pAse + 2) (Reg.ASE_ENT t) 0 16

/-- Grant the requested tables that no other function owns, and release those no longer requested after clearing them (log entry 53). -/
def State.grantTables (s : State) (k want : Nat) : State :=
  let s := (List.range 16).foldl (fun s t =>
    let own := s.tableOwner t
    if natBits want t 1 = 1 then (if own = 0xFFFF then s.fset (pAse + 2) (Reg.ASE_ENT t) 0 16 k else s)
    else if own = k then (s.tableClear t).fset (pAse + 2) (Reg.ASE_ENT t) 0 16 0xFFFF else s) s
  s.setFunc k { s.func k with granted := ((List.range 16).map fun t => if s.tableOwner t = k then 2 ^ t else 0).sum }

/-- The controls that slot 1 of the page asks for: those in range, else the ones of `c`; and whether one was out of range. -/
def State.wantControls (s : State) (k : Nat) (c : Controls) : Controls × Bool :=
  let w := s.tGet k 0x60
  let e := s.tGet k 0x68
  let bq := natBits w 48 9
  let ecap := natBits e 0 24
  let ecapOk := ecap = 0 || (100 ≤ ecap && ecap ≤ 36000)
  (⟨natBits w 32 10, if ecapOk then ecap else c.ecap, if bq ≤ 256 then bq else c.bquota, natBits e 32 16⟩, 256 < bq || !ecapOk)

/-- Controls come into force. -/
def State.setControls (s : State) (k : Nat) (c : Controls) : State :=
  (s.setFunc k { s.func k with ctl := c, later := none }).grantTables k c.tables

/-- Apply the controls of slot 1, or store them while the function stays frozen or saved; false: one was out of range. -/
def State.takeControls (s : State) (k : Nat) (store : Bool) : State × Bool :=
  let f := s.func k
  let (c, bad) := s.wantControls k (f.later.getD f.ctl)
  let s := if store then s.setFunc k { f with later := some c } else s.setControls k c
  (if bad then s.errCnt pImg 1 else s, !bad)

/-! ### Migration operations (R483 to R485) -/

/-- The drain has ended (R484). -/
def State.drained (s : State) (k : Nat) : Bool :=
  !(s.cmds.any fun e => e.2.ctrl == k && e.2.sq != 0) && !(s.jobs.any fun e => e.2.func == k)
    && !(s.benches.any fun e => e.2.func == k && e.2.state == 2)
    && !((s.funcStreams k).any fun i => s.strFld i 0x10 16 1 == 1 && !(s.streamOf i).closed)

/-- The state that MIG_OP `op` moves the function from its present one to; none: it is not listed (*Migration operations*). -/
def State.migTarget (s : State) (k op : Nat) : Option MigState :=
  let f := s.func k
  match op, f.mig with
  | 1, .running => some .draining
  | 1, .draining => some .draining
  | 2, .draining => some .running
  | 2, .frozen => some .running
  | 2, .saved => some .running
  | 3, .frozen => some .saving
  | 5, .saved => some .running
  | 4, .running => if !s.isPf k && s.slotEnabled k && !f.online then some .restoring else none
  | _, _ => none

/-- The reserved bits of the 64-bit words of the manager's control slot, by offset (R477). -/
def ctrlReserved : List (Nat × Nat) := [
  (0x40, 2 ^ 64 - 2 ^ 33), (0x58, 2 ^ 64 - 2 ^ 17), (0x60, 2 ^ 64 - 2 ^ 57 + (2 ^ 48 - 2 ^ 42) + (2 ^ 32 - 2 ^ 17)),
  (0x68, 2 ^ 64 - 2 ^ 48 + (2 ^ 32 - 2 ^ 24)), (0x70, 0xEF8)]

/-- A reserved field of the manager's control slot is not zero (R9). -/
def State.ctrlDirty (s : State) (k : Nat) : Bool := ctrlReserved.any fun e => s.tGet k e.1 &&& e.2 != 0

/-- A request of the manager at CTRL_GO (R471, R483; log entry 79); one with a non-zero reserved field is rejected (R9; log entry 135). -/
def State.ctrlGo (s : State) (k : Nat) : State :=
  let op := natBits (s.tGet k 0x70) 0 3
  let f := s.func k
  if f.result = 1 then s.errCnt pImg 1
  else if s.ctrlDirty k then (s.errCnt pImg 1).migResult k 3
  else if op = 0 then
    let (s, ok) := s.takeControls k (f.mig == .frozen || f.mig == .saved)
    s.migResult k (if ok then 2 else 3)
  else match s.migTarget k op with
    | none => (s.errCnt pImg 1).migResult k 3
    | some m =>
      let s := s.setFunc k { f with mig := m, frzAt := none }
      let (s, ok) := s.takeControls k (m == .saving)
      match op with
      | 1 =>
        let w := natBits (s.tGet k 0x70) 16 16
        let ms := if w = 0 then 1000 else w
        ((s.setFunc k { s.func k with frzAt := some (s.tb.toNat + 1000000 * ms) }).migResult k 1).notice k 1
      | 2 =>
        let s := (s.migResult k (if ok then 2 else 3)).notice k 2
        if f.owes5 then (s.setFunc k { s.func k with owes5 := false }).notice k 5 else s
      | 5 => (s.funcReset k).migResult k (if ok then 2 else 3)
      | _ => s.migResult k 1

/-! ### Writes to the page (R476 to R478) -/

/-- The bits of a word of slots 0 and 1 that a write stores (*Control slots*): all but doorbells, clears, CTRL_GO and what the device
writes.  The manager's reserved bits are stored, so that a request can be rejected for them (R9; log entry 135). -/
def tMask (o : Nat) : Nat :=
  match o with
  | 0x00 => 2 ^ 32 - 1
  | 0x04 => 1
  | 0x18 => 2 ^ 17 - 1
  | 0x60 => 2 ^ 32 - 2 ^ 17
  | 0x70 => 0xFFFF0EFF
  | _ => if 0x40 ≤ o then 2 ^ 32 - 1 else 0

/-- Doorbell bits that the tenant or the manager may set (R476, R477). -/
def State.bellMask (s : State) (k : Nat) (tenant : Bool) : Nat :=
  if tenant then 0x1_FFFF_FFFC else if s.agreed k = 0x0101 then 0x7FFF_FFFE_0000_0000 else 0xFFFF_FFFE_0000_0000

/-- One side writes the 32-bit word at offset `o` of the page. -/
def State.transomWrite (s : State) (k : Nat) (tenant : Bool) (o v : Nat) : State :=
  let o := o % 4096 / 4 * 4
  let slot := o / 64
  let word := o / 8 * 8
  let sh := if o % 8 = 4 then 32 else 0
  let s := (s.sramCheck [s.mbox k word]).1
  if s.slotWriter k slot ≠ (if tenant then 0 else 1) then s.errCnt pImg 0
  else if 2 ≤ slot then s.tFld k word sh 32 v
  else
    let bits := v % 2 ^ 32 * 2 ^ sh
    match word with
    | 0x08 => if s.agreed k = 0 then s else s.tBell k (bits &&& s.bellMask k true) true
    | 0x48 => if s.agreed k = 0 then s else s.tBell k (bits &&& s.bellMask k false) false
    | 0x10 => s.tPut k 0x48 (s.tGet k 0x48 ^^^ (s.tGet k 0x48 &&& bits))
    | 0x50 => s.tPut k 8 (s.tGet k 8 ^^^ (s.tGet k 8 &&& bits))
    | _ =>
      let m := tMask o
      let old := natBits (s.tGet k word) sh 32
      let s := s.tFld k word sh 32 (old ^^^ (old &&& m) ||| (v &&& m))
      if o = 4 ∨ o = 0x44 ∨ o = 0 ∨ o = 0x40 then s.negotiate k
      else if o = 0x70 ∧ natBits v 8 1 = 1 then s.ctrlGo k else s

/-- A list of writes of one side, in order. -/
def State.transomWrites (s : State) (k : Nat) (tenant : Bool) (l : List (Nat × RegWord)) : State :=
  l.foldl (fun s e => s.transomWrite k tenant e.1 e.2.toNat) s

/-- The manager writes `l` and then CTRL_GO with MIG_OP `op` and FRZ_TO `t`. -/
def State.manage (s : State) (k op t : Nat) (l : List (Nat × RegWord)) : State :=
  (s.transomWrites k false l).transomWrite k false 0x70 (op + 0x100 + t * 2 ^ 16)

/-- TRANSOM_DOORBELL (R476, R478). -/
def execTransomDoorbell (k : Fin 256) (tenant : Bool) (writes : List (Nat × RegWord)) (db : BitVec 64) (s : State) :
    Host.Outcome State Fault Refusal :=
  next (fun s =>
    let o := if tenant then 8 else 0x48
    let s := (s.transomWrites k.val tenant writes).transomWrite k.val tenant o (db.toNat % 2 ^ 32)
    s.transomWrite k.val tenant (o + 4) (db.toNat / 2 ^ 32)) s

/-- TRANSOM_READY (R479). -/
def execTransomReady (k : Fin 256) (tenant : Bool) (writes : List (Nat × RegWord)) (ready : Bool) (s : State) :
    Host.Outcome State Fault Refusal :=
  next (fun s =>
    (s.transomWrites k.val tenant writes).transomWrite k.val tenant (if tenant then 4 else 0x44) (if ready then 1 else 0)) s

/-- APPLY_CONTROLS (R471, R475, R489). -/
def execApplyControls (k : Fin 256) (writes : List (Nat × RegWord)) (s : State) : Host.Outcome State Fault Refusal :=
  next (fun s => s.manage k.val 0 0 writes) s

/-- FREEZE (R484, R480, R483). -/
def execFreeze (k : Fin 256) (writes : List (Nat × RegWord)) (frzTo : BitVec 16) (s : State) : Host.Outcome State Fault Refusal :=
  next (fun s => s.manage k.val 1 frzTo.toNat writes) s

/-- THAW (R480, R483, R489). -/
def execThaw (k : Fin 256) (writes : List (Nat × RegWord)) (s : State) : Host.Outcome State Fault Refusal :=
  next (fun s => s.manage k.val 2 0 writes) s

/-- SAVE (R483, R485, R486). -/
def execSave (k : Fin 256) (writes : List (Nat × RegWord)) (s : State) : Host.Outcome State Fault Refusal :=
  next (fun s => s.manage k.val 3 0 writes) s

/-- RESTORE (R323, R483, R488). -/
def execRestore (k : Fin 256) (writes : List (Nat × RegWord)) (s : State) : Host.Outcome State Fault Refusal :=
  next (fun s => s.manage k.val 4 0 writes) s

/-- RELEASE (R483). -/
def execRelease (k : Fin 256) (writes : List (Nat × RegWord)) (s : State) : Host.Outcome State Fault Refusal :=
  next (fun s => s.manage k.val 5 0 writes) s

/-- The drain of slot `k` ends (R484). -/
def execFreezeDrained (k : Fin 256) (s : State) : Host.Outcome State Fault Refusal :=
  next (fun s =>
    let f := s.func k.val
    if f.mig = .draining ∧ f.frzAt.isSome ∧ s.drained k.val then
      ((s.setFunc k.val { f with mig := .frozen, frzAt := none, overCap := false }).migResult k.val 2).raise pImg 5
    else s) s

/-- FRZ_TO of slot `k` runs out before its drain ends (R484). -/
def execFreezeTimeout (k : Fin 256) (s : State) : Host.Outcome State Fault Refusal :=
  next (fun s =>
    let f := s.func k.val
    match f.frzAt with
    | some t =>
      if s.drained k.val then s else ((s.reach t).setFunc k.val { f with frzAt := none }).migResult k.val 4
    | none => s) s

/-! ### Energy caps (R473) -/

/-- Mean power of slot `k`, and whether it is over its cap (log entry 80). -/
def State.capEval (s : State) (k : Nat) : State :=
  let f := s.func k
  let nj := njSum f.nj
  if nj = 0 then s else
  let mean := (ratio ((nj - f.hist.getD 99 0 : Nat) : Int) 1000000).toNat
  let cap := f.ctl.ecap
  let above := if cap = 0 ∨ f.mig = .frozen ∨ f.mig = .saved then false
    else if f.overCap then cap * 95 < mean * 100 else cap < mean
  let s := s.setFunc k { f with hist := (nj :: f.hist).take 100, mean := mean, overCap := above }
  if above ∧ ¬ f.overCap then (s.raise pImg 10).notice k 3
  else if f.overCap ∧ ¬ above then s.notice k 4 else s

/-- What the Benches have used is noted at every evaluation, for their mean power (R465). -/
def State.benchHist (s : State) : State :=
  { s with benches := s.benches.map fun e => (e.1, { e.2 with hist := (njSum e.2.nj :: e.2.hist).take 100 }) }

/-- CAP_EVALUATION (R473, R480). -/
def execCapEvaluation (s : State) : Host.Outcome State Fault Refusal :=
  next (fun s => ((s.funcs.map (·.1)).foldl State.capEval s).benchHist) s

/-! ### Queues and vectors (R468 to R470) -/

/-- Resources of type `rt` (0 VQ, 1 VI) that the secondaries of PF `p` but `skip` draw from its flexible pool. -/
def State.drawn (s : State) (p rt skip : Nat) : Nat :=
  ((List.range 256).map fun k =>
    if k = skip ∨ s.isPf k ∨ s.parent k ≠ p then 0 else if rt = 0 then (s.func k).vq - 1 else (s.func k).vi).sum

/-- The flexible pool of PF `p`. -/
def State.pool (s : State) (p : Nat) : Nat :=
  let q0 := s.fget pImg Reg.IMG_SPLIT 16 13
  if s.x8 then 8128 else if p = 0 then q0 else 8064 - q0

/-- The PF's own flexible allocation, as last set. -/
def State.flexOf (s : State) (p rt : Nat) : Nat :=
  let f := s.func p
  if rt = 0 then f.flexVq.getD (f.vq - 65) else f.flexVi.getD (f.vi - 64)

/-- A slot that PF `p` may name as its secondary. -/
def State.isSecondary (s : State) (p k : Nat) : Bool :=
  k < 256 && !s.isPf k && s.parent k == p && s.pfIndex k ≤ (if s.x8 then 255 else if p = 0 then s.n0 else 254 - s.n0)

/-- Primary Flexible Allocation of PF `p`: status type and code, and DW0 (R469). -/
def State.primaryFlex (s : State) (p cntlid rt n : Nat) : State × (Nat × Nat × Nat) :=
  let f := s.func p
  if 1 < rt then (s, 1, 0x22, 0)
  else if cntlid ≠ p then (s, 1, 0x1F, 0)
  else if (rt = 1 ∧ 2048 < 64 + n) ∨ s.pool p < n + s.drawn p rt 256 then (s, 1, 0x21, 0)
  else (s.setFunc p (if rt = 0 then { f with flexVq := some n } else { f with flexVi := some n }), 0, 0, n)

/-- Secondary Offline: its epoch advances as at an FLR (R470; log entry 78). -/
def State.secOffline (s : State) (p k : Nat) : State × (Nat × Nat × Nat) :=
  let f := s.func k
  if !s.isSecondary p k then (s, 1, 0x1F, 0)
  else if f.mig = .draining ∨ f.mig = .saving ∨ f.mig = .restoring then (s, 0, 0x0C, 0)
  else if f.online then
    let s := (s.setFunc k { f with online := false }).epochUp k
    (s.benchFree k, 0, 0, 0)
  else (s, 0, 0, 0)

/-- Secondary Assign of `n` resources of type `rt`. -/
def State.secAssign (s : State) (p k rt n : Nat) : State × (Nat × Nat × Nat) :=
  let f := s.func k
  if 1 < rt then (s, 1, 0x22, 0)
  else if !s.isSecondary p k then (s, 1, 0x1F, 0)
  else if f.online then (s, 1, 0x20, 0)
  else if (if rt = 0 then 2049 else 2048) < n ∨ s.pool p < (if rt = 0 then n - 1 else n) + s.drawn p rt k + s.flexOf p rt then
    (s, 1, 0x21, 0)
  else (s.setFunc k (if rt = 0 then { f with vq := n } else { f with vi := n }), 0, 0, n)

/-- Secondary Online: at least VQ 2 and VI 1; its controls take their defaults (R469, R471). -/
def State.secOnline (s : State) (p k : Nat) : State × (Nat × Nat × Nat) :=
  let f := s.func k
  if !s.isSecondary p k then (s, 1, 0x1F, 0)
  else if f.online then (s, 0, 0, 0)
  else if f.vq < 2 ∨ f.vi < 1 then (s, 1, 0x21, 0)
  else ((s.setFunc k { f with online := true }).setControls k ⟨64, 0, 0, 0⟩, 0, 0, 0)

end Sys2Proof.Machine
end

