-- ==== Sys2Proof/Machine/Fetch.lean ====
section
/-! DEFINITION. QEN: doorbells, arbitration and fetching, completions held by full queues, and what every command is checked
for before it runs (chapter 17, R419 to R434). -/

namespace Sys2Proof.Machine

/-! ### Doorbells and completions (R419, R420) -/

/-- CSTS.RDY of a controller: it is enabled, usable, and the device has booted (R470, R551). -/
def State.rdy (s : State) (c : Nat) : Bool :=
  (s.ctrl c).en && s.slotOnline c && s.fget pPcr Reg.PCR_BOOT 0 4 == 6 && !s.bit pPcr Reg.PCR_BOOT 8

/-- A doorbell write with an invalid queue or value. -/
def State.badDoorbell (s : State) (c : Nat) : State := s.aen c 0 1 1

/-- The tail doorbell of SQ `q` of controller `c` is written. -/
def State.sqBell (s : State) (c q v : Nat) : State :=
  if !s.rdy c then s else
  let x := s.ctrl c
  match mapFind x.sqs q with
  | some k => if v < k.size then s.setCtrl c { x with sqs := mapPut x.sqs q { k with tail := v } } else s.badDoorbell c
  | none => s.badDoorbell c

/-- SQ_DOORBELL (R420). -/
def execSqDoorbell (func : Fin 256) (q v : Nat) (s : State) : Host.Outcome State Fault Refusal :=
  next (fun s => s.sqBell func.val q v) s

/-- A head value frees no more entries than are used. -/
def Cq.headOk (k : Cq) (v : Nat) : Bool := v < k.size && (v + k.size - k.head) % k.size ≤ (k.tail + k.size - k.head) % k.size

/-- The head doorbell of CQ `q` of controller `c` is written. -/
def State.cqBell (s : State) (c q v : Nat) : State :=
  if !s.rdy c then s else
  let x := s.ctrl c
  match mapFind x.cqs q with
  | some k => if k.headOk v then s.setCtrl c { x with cqs := mapPut x.cqs q { k with head := v } } else s.badDoorbell c
  | none => s.badDoorbell c

/-- CQ_DOORBELL (R420). -/
def execCqDoorbell (func : Fin 256) (q v : Nat) (s : State) : Host.Outcome State Fault Refusal :=
  next (fun s => s.cqBell func.val q v) s

/-- COMPLETION_POST (R420). -/
def execCompletionPost (func : Fin 256) (q : Nat) (s : State) : Host.Outcome State Fault Refusal :=
  next (fun s =>
    let c := func.val
    let x := s.ctrl c
    match mapFind x.cqs q with
    | some k => match k.held with
      | (tag, e) :: r => if k.room = 0 then s else (s.setCtrl c { x with cqs := mapPut x.cqs q { k with held := r } }).cqPut c q tag e
      | [] => s
    | none => s) s

/-- INTERRUPT_COALESCING_TIMEOUT (R419). -/
def execInterruptCoalescingTimeout (func : Fin 256) (q : Nat) (s : State) : Host.Outcome State Fault Refusal :=
  next (fun s =>
    let c := func.val
    let x := s.ctrl c
    match mapFind x.cqs q with
    | some k =>
      if k.coalesced = 0 then s
      else (s.setCtrl c { x with cqs := mapPut x.cqs q { k with coalesced := 0 } }).msix c k.vector
    | none => s) s

/-! ### Arbitration (R421 to R423) -/

/-- A queue holds a command. -/
def Sq.ready (k : Sq) : Bool := k.head != k.tail

/-- Commands of controller `c` can be fetched: it is ready and reachable and not in D3hot (R408). -/
def State.reachable (s : State) (c : Nat) : Bool := s.rdy c && !(s.func c).d3 && s.linkUp (s.portOf c)

/-- I/O queues of controller `c` that hold a command, lowest number first. -/
def Ctrl.readySqs (x : Ctrl) : List (Nat × Sq) := x.sqs.filter fun e => e.1 != 0 && e.2.ready

/-- The controller has a fetchable I/O command; what drains or is frozen fetches none (R484). -/
def State.fetchable (s : State) (c : Nat) : Bool :=
  s.reachable c && (s.func c).mig == .running && !(s.ctrl c).readySqs.isEmpty

/-- Credits of a round: the share, or one credit over the energy cap (R421, R473). -/
def State.roundCredit (s : State) (c : Nat) : Nat :=
  let f := s.func c
  if f.ctl.share = 0 then 0 else if f.overCap then 1 else f.ctl.share

/-- Queue in round robin after `last` among the candidates. -/
def roundRobin (last : Nat) (cands : List (Nat × Sq)) : Option Nat :=
  match cands.find? fun e => last < e.1 with
  | some e => some e.1
  | none => cands.head?.map (·.1)

/-- Class of a priority: 1 urgent, 2 high, 3 medium, 4 low; round robin is class 0. -/
def SqPrio.cls : SqPrio → Nat
  | .urgent => 1
  | .high => 2
  | .medium => 3
  | .low => 4

def listPut (l : List Nat) (n i v : Nat) : List Nat := (List.range n).map fun j => if j = i then v else l.getD j 0

/-- The controller's choice in class `k` among the candidates. -/
def Ctrl.pickIn (x : Ctrl) (k : Nat) (cands : List (Nat × Sq)) : Option (Nat × Ctrl) :=
  (roundRobin (x.last.getD k 0) cands).map fun q => (q, { x with last := listPut x.last 5 k q })

/-- Weighted round robin over high, medium and low: each class serves its weight in a turn. -/
def Ctrl.pickWeighted : Nat → Ctrl → List (Nat × Sq) → Option (Nat × Ctrl)
  | 0, _, _ => none
  | n + 1, x, ready =>
    match (List.range 3).findSome? fun i =>
      let cands := ready.filter fun e => e.2.prio.cls == i + 2
      if cands.isEmpty ∨ x.wrrLeft.getD i 0 = 0 then none else some (i, cands) with
    | some (i, cands) => { x with wrrLeft := listPut x.wrrLeft 3 i (x.wrrLeft.getD i 0 - 1) }.pickIn (i + 2) cands
    | none =>
      let f := mapGet (fun _ => 0) x.features 1
      Ctrl.pickWeighted n { x with wrrLeft := [natBits f 24 8 + 1, natBits f 16 8 + 1, natBits f 8 8 + 1] } ready

/-- The I/O queue that the controller's arbiter chooses (R422; log entry 84). -/
def Ctrl.arbitrate (x : Ctrl) : Option (Nat × Ctrl) :=
  let ready := x.readySqs
  if !x.wrr then x.pickIn 0 ready else
  let urgent := ready.filter fun e => e.2.prio == .urgent
  if urgent.isEmpty then x.pickWeighted 2 ready else x.pickIn 1 urgent

/-- One credit of `c` is spent. -/
def State.spend (s : State) (c : Nat) : State :=
  { s with qen := { s.qen with credit := mapUpd (fun _ => 0) s.qen.credit c (· - 1) } }

/-- The next controller of the round with credit and a fetchable command: its arbiter's queue, and the burst that starts (log entry 84). -/
def State.pickRound (s : State) : Option (State × Nat × Nat) :=
  ((List.range 256).map fun i => (s.qen.lastCtrl + 1 + i) % 256).findSome? fun c =>
    let w := mapGet (fun _ => 0) s.qen.credit c
    if w = 0 ∨ !s.fetchable c then none else
    (s.ctrl c).arbitrate.map fun r =>
      let ab := natBits (s.feature c 1) 0 3
      let n := if ab = 7 then w else min w (2 ^ ab)
      let s := (s.setCtrl c r.2).spend c
      ({ s with qen := { s.qen with lastCtrl := c, burst := some (c, r.1, n - 1) } }, c, r.1)

/-- A new round: every controller's credit is its share weight. -/
def State.newRound (s : State) : State :=
  { s with qen := { s.qen with
      burst := none, credit := ((List.range 256).map fun c => (c, s.roundCredit c)).filter (·.2 != 0) } }

/-- The I/O queue that QEN fetches from. -/
def State.pickIo (s : State) : Option (State × Nat × Nat) :=
  let go : Option (State × Nat × Nat) := match s.qen.burst with
    | some (c, q, n) =>
      if n = 0 ∨ mapGet (fun _ => 0) s.qen.credit c = 0 ∨ !s.fetchable c
          ∨ !((s.ctrl c).readySqs.any fun e => e.1 == q) then none
      else some ({ s.spend c with qen := { (s.spend c).qen with burst := some (c, q, n - 1) } }, c, q)
    | none => none
  match go with
  | some r => some r
  | none => match s.pickRound with
    | some r => some r
    | none => if (List.range 256).any s.fetchable then s.newRound.pickRound else none

/-- The admin queue served, outside the credits: that of `adm` if it holds a command, else the first that does. -/
def State.pickAdmin (s : State) (adm : Nat) : Option Nat :=
  let has (c : Nat) : Bool := s.reachable c && ((mapFind (s.ctrl c).sqs 0).any Sq.ready)
  if has adm then some adm else (s.ctrls.map (·.1)).find? has

/-! ### What a fetched command is refused for at once -/

/-- Barlis commands of a version (R444): the admin queue, or an I/O queue. -/
def barlisKnows (admin : Bool) (ver op : Nat) : Bool :=
  if admin then [0xC1, 0xC2, 0xC4, 0xC6].contains op
  else [0xC1, 0xC2, 0xC4, 0xC5, 0xC6, 0xC7, 0xC8, 0xC9].contains op || (ver == 0x0101 && [0xC0, 0xCC].contains op)

/-- The Barlis version of controller `c` (R445). -/
def State.barlisVer (s : State) (c : Nat) : Nat := if s.feature c 0xC0 = 0 then 0x0100 else s.feature c 0xC0

/-- Features that are implemented (R418). -/
def featureIds : List Nat := [1, 2, 4, 7, 8, 9, 0x0B, 0x0E, 0xC0]

/-- A command that no command of the device's set is: its status (R413, R414, R418, R439, R442, R469). -/
def State.unknownCmd (s : State) (c : Nat) (admin : Bool) (e : Sqe) : Option Nat :=
  if admin then
    let pf := s.isPf c
    if barlisKnows true 0 e.opc then none
    else if [0x0D, 0x15, 0x10, 0x11, 0x1C, 0x84].contains e.opc ∧ !pf then some 1
    else match e.opc with
      | 0x09 => if featureIds.contains (e.d10.toNat % 256) then none else some 2
      | 0x0A => if featureIds.contains (e.d10.toNat % 256) then none else some 2
      | 0x10 => if natBits e.d10.toNat 3 3 ≤ 3 then none else some 2
      | 0x1C => if [1, 7, 8, 9].contains (natBits e.d10.toNat 0 4) then none else some 2
      | 0x84 => if [2, 4].contains (natBits e.d10.toNat 0 3) then none else some 2
      | op => if [0x00, 0x01, 0x02, 0x04, 0x05, 0x06, 0x08, 0x0C, 0x0D, 0x11, 0x15, 0x80].contains op then none else some 1
  else if barlisKnows false (s.barlisVer c) e.opc then none
  else match e.opc with
    | 0x79 => if e.nsid ≠ 1024 then some 1 else if [1, 2, 3, 4].contains (e.d13.toNat % 256) then none else some 2
    | 0x7A => if e.nsid ≠ 1024 then some 1 else if [0, 1].contains (e.d13.toNat % 256) then none else some 2
    | op => if [0x00, 0x01, 0x02, 0x08, 0x09, 0x0C, 0x7D].contains op then none else some 1

/-! ### COMMAND_FETCH (R421, R424) -/

/-- A Barlis command has been fetched by controller `c` (R445). -/
def State.noteBarlis (s : State) (c : Nat) : State := s.setCtrl c { s.ctrl c with barlis := true }

/-- A command has come from queue `q` of controller `c` under work tag `tag`. -/
def State.fetched (s : State) (c q tag : Nat) (e : Sqe) : State :=
  let x := s.ctrl c
  match mapFind x.sqs q with
  | none => s
  | some k =>
    let s := s.setCtrl c { x with sqs := mapPut x.sqs q { k with head := if k.head + 1 = k.size then 0 else k.head + 1 } }
    let stamp := s.qen.stamp + 1
    let s := { s with
      qen := { s.qen with stamp := stamp }
      cmds := mapPut s.cmds tag ⟨c, q, k.cq, e, stamp, (s.func c).epoch, false, false, 0⟩ }
    let admin := q == 0
    let barlis := barlisKnows admin (s.barlisVer c) e.opc
    let s := if barlis then s.noteBarlis c else s
    if (s.ctrl c).preAbort.contains (q, e.cid) then
      (s.setCtrl c { s.ctrl c with preAbort := (s.ctrl c).preAbort.erase (q, e.cid) }).complete tag 0 7 false 0 0 0
    else match s.unknownCmd c admin e with
      | some sc => s.completeErr tag sc
      | none => if barlis ∧ (s.func c).overCap then s.completeVendor tag 0xC4 else s

/-- QEN may fetch now: enabled and not frozen, no stop in force, and a host tag is free (R22, R571, R560). -/
def State.mayFetch (s : State) (tag : Nat) : Bool :=
  s.intake pQen && !s.qen.stopped && s.boot.act.isNone && s.tagFree tag && 256 ≤ tag

/-- A fetch by controller `c` while an exit from L1.2 waits for one: a PF that requests a non-operational state is in its last
operational one again (R530). -/
def State.fetchWakes (s : State) (c : Nat) : State :=
  match s.power.idle with
  | none => s
  | some _ =>
    let s := { s with power := { s.power with idle := some s.tb.toNat } }
    let x := s.ctrl c
    if s.isPf c ∧ mapGet (fun _ => 0) x.features 2 = 2 then
      s.setCtrl c { x with features := mapSet (fun _ => 0) x.features 2 (mapGet (fun _ => 0) s.power.lastOp c) }
    else s

/-- COMMAND_FETCH (R421, R22, R405, R422). -/
def execCommandFetch (tag : Nat) (adm : Fin 256) (e : Sqe) (s : State) : Host.Outcome State Fault Refusal :=
  next (fun s =>
    if !s.mayFetch tag then s else
    match s.pickAdmin adm.val with
    | some c => (s.fetchWakes c).fetched c 0 tag e
    | none => match s.pickIo with
      | some (s, c, q) => (s.fetchWakes c).fetched c q tag e
      | none => s) s

/-! ### What every command is checked for before it runs -/

/-- The command of work tag `tag`, if it waits and is the one that a row stands for. -/
def State.cmdOf (s : State) (tag op : Nat) (admin : Bool) : Option Cmd :=
  match mapFind s.cmds tag with
  | some k => if k.e.opc = op ∧ (k.sq == 0) = admin ∧ !k.accepted ∧ !k.ended then some k else none
  | none => none

/-- A block has accepted the command: it runs on. -/
def State.takeCmd (s : State) (tag : Nat) : State :=
  match mapFind s.cmds tag with
  | some k => { s with cmds := mapPut s.cmds tag { k with accepted := true } }
  | none => s

/-- End with a status of type `sct`, DNR set. -/
def State.failCmd (s : State) (tag sct sc : Nat) : State := s.complete tag sct sc true 0 0 0

/-- The outcome of an operation that answers a status and DW0. -/
def State.answer (s : State) (tag : Nat) (r : Nat × Nat × Nat) : State :=
  if r.1 = 0 ∧ r.2.1 = 0 then s.complete tag 0 0 false r.2.2 0 0 else s.failCmd tag r.1 r.2.1

/-- An admin command: on a frozen controller all but Identify, Get Log Page and Get Features are refused (R443). -/
def State.admin (s : State) (tag op : Nat) (run : State → Cmd → State) : State :=
  match s.cmdOf tag op true with
  | none => s
  | some k =>
    let m := (s.func k.ctrl).mig
    if (m = .frozen ∨ m = .saving ∨ m = .saved) ∧ !([2, 6, 0x0A].contains op) then s.completeVendor tag 0xC6 else run s k

/-! ### The management endpoint (R410, R411) -/

/-- The endpoint hears management port `p`: PCIe P0 or P1 with its link up, P0 alone in ×8 mode, or SMBus with MI_EN (log entry 119). -/
def State.miPort (s : State) (p : Nat) : Bool :=
  if p = 2 then s.bit (pHib 0) Reg.HIB_MI 16 else s.linkUp p && (p == 0 || !s.x8)

/-- The HIB whose event 10 tells of a message. -/
def miHib (p : Nat) : Nat := pHib (if p = 1 then 1 else 0)

/-- An admin command comes from QEN under tag `tag`, or is tunnelled through the endpoint, which answers it (log entry 119). -/
def State.viaMi (s : State) (t : Option Tunnel) (tag : Nat) (f : Nat → State → State) : State :=
  match t with
  | none => f tag s
  | some t =>
    if !s.miPort t.port.val then s else
    let s := s.raise (miHib t.port.val) 10
    let tag := miTag + t.slot.val
    let c := t.ctrl.val
    if !s.slotEnabled c then s.emit (.data [4, 0, 0, 0]) else
    let s := f tag { s with cmds := mapPut s.cmds tag ⟨c, 0, 0, t.e, 0, (s.func c).epoch, false, false, 0⟩ }
    { s with cmds := mapDel s.cmds tag }

end Sys2Proof.Machine
end

