-- ==== Sys2Proof/Machine/Admin.lean ====
section
/-! DEFINITION. NVMe admin commands: queues, features, Abort, asynchronous event requests, virtualization, namespaces, Format and
Sanitize (chapter 17, R413 to R419, R434, R438, R442). -/

namespace Sys2Proof.Machine

/-! ### Queues (R413, R419) -/

/-- I/O queue pairs assigned to controller `c`. -/
def State.pairs (s : State) (c : Nat) : Nat := (s.func c).vq - 1

/-- I/O SQs and CQs granted: the assignment, until Set Features Number of Queues. -/
def State.grantSq (s : State) (c : Nat) : Nat := if (s.ctrl c).grantSq = 0 then s.pairs c else (s.ctrl c).grantSq
def State.grantCq (s : State) (c : Nat) : Nat := if (s.ctrl c).grantCq = 0 then s.pairs c else (s.ctrl c).grantCq

def prioOf (n : Nat) : SqPrio :=
  match n with
  | 0 => .urgent
  | 1 => .high
  | 2 => .medium
  | _ => .low

/-- CREATE_IO_CQ (R413, R419). -/
def execCreateIoCq (tag : Nat) (s : State) : Host.Outcome State Fault Refusal :=
  next (fun s => s.admin tag 5 fun s k =>
    let c := k.ctrl
    let x := s.ctrl c
    let q := natBits k.e.d10.toNat 0 16
    let n := natBits k.e.d10.toNat 16 16 + 1
    let v := natBits k.e.d11.toNat 16 16
    if q = 0 ∨ s.grantCq c < q ∨ (mapFind x.cqs q).isSome then s.failCmd tag 1 1
    else if n < 2 then s.failCmd tag 1 2
    else if !k.e.d11.getLsbD 0 then s.failCmd tag 0 2
    else if s.msixSize c ≤ v then s.failCmd tag 1 8
    else (s.setCtrl c { x with cqs := mapPut x.cqs q ⟨n, 0, 0, true, v, k.e.d11.getLsbD 1, k.e.prp1, [], 0⟩ }).completeOk tag) s

/-- CREATE_IO_SQ (R413, R419). -/
def execCreateIoSq (tag : Nat) (s : State) : Host.Outcome State Fault Refusal :=
  next (fun s => s.admin tag 1 fun s k =>
    let c := k.ctrl
    let x := s.ctrl c
    let q := natBits k.e.d10.toNat 0 16
    let n := natBits k.e.d10.toNat 16 16 + 1
    let cq := natBits k.e.d11.toNat 16 16
    if q = 0 ∨ s.grantSq c < q ∨ (mapFind x.sqs q).isSome then s.failCmd tag 1 1
    else if cq = 0 ∨ (mapFind x.cqs cq).isNone then s.failCmd tag 1 0
    else if n < 2 then s.failCmd tag 1 2
    else if !k.e.d11.getLsbD 0 then s.failCmd tag 0 2
    else (s.setCtrl c { x with
      sqs := mapPut x.sqs q ⟨n, 0, 0, cq, prioOf (natBits k.e.d11.toNat 1 2), k.e.prp1⟩ }).completeOk tag) s

/-- DELETE_IO_SQ (R413). -/
def execDeleteIoSq (tag : Nat) (s : State) : Host.Outcome State Fault Refusal :=
  next (fun s => s.admin tag 0 fun s k =>
    let x := s.ctrl k.ctrl
    let q := natBits k.e.d10.toNat 0 16
    if q = 0 ∨ (mapFind x.sqs q).isNone then s.failCmd tag 1 1
    else (s.setCtrl k.ctrl { x with sqs := mapDel x.sqs q }).completeOk tag) s

/-- DELETE_IO_CQ (R413). -/
def execDeleteIoCq (tag : Nat) (s : State) : Host.Outcome State Fault Refusal :=
  next (fun s => s.admin tag 4 fun s k =>
    let x := s.ctrl k.ctrl
    let q := natBits k.e.d10.toNat 0 16
    match mapFind x.cqs q with
    | none => s.failCmd tag 1 1
    | some g =>
      if q = 0 then s.failCmd tag 1 1
      else if x.sqs.any fun e => e.1 != 0 && e.2.cq == q then s.failCmd tag 1 0x0C
      else
        let s := s.setCtrl k.ctrl { x with cqs := mapDel x.cqs q }
        (g.held.foldl (fun s h => { s with cmds := mapDel s.cmds h.1 }) s).completeOk tag) s

/-! ### Abort and asynchronous event requests (R434, R416) -/

/-- Abort commands that a controller has outstanding. -/
def State.aborts (s : State) (c : Nat) : Nat :=
  (s.cmds.filter fun e => e.2.ctrl == c && e.2.sq == 0 && e.2.e.opc == 8 && !e.2.ended).length

/-- ABORT: `inSq` says that the named command is still in its SQ. -/
def execAbort (tag : Nat) (inSq : Bool) (s : State) : Host.Outcome State Fault Refusal :=
  next (fun s => s.admin tag 8 fun s k =>
    let c := k.ctrl
    let q := natBits k.e.d10.toNat 0 16
    let cid := natBits k.e.d10.toNat 16 16
    if 8 < s.aborts c then s.failCmd tag 1 3
    else if inSq ∧ (mapFind (s.ctrl c).sqs q).any Sq.ready then
      let x := s.ctrl c
      (s.setCtrl c { x with preAbort := (q, cid) :: x.preAbort.erase (q, cid) }).completeOk tag
    else
      match s.cmds.find? fun e => e.1 != tag && e.2.ctrl == c && e.2.sq == q && e.2.e.cid == cid && !e.2.accepted && !e.2.ended with
      | some e => (s.complete e.1 0 7 false 0 0 0).completeOk tag
      | none => s.complete tag 0 0 false 1 0 0) s

/-- ASYNCHRONOUS_EVENT_REQUEST (R413). -/
def execAsynchronousEventRequest (tag : Nat) (s : State) : Host.Outcome State Fault Refusal :=
  next (fun s => s.admin tag 0x0C fun s k =>
    let x := s.ctrl k.ctrl
    if 4 ≤ x.aers.length then s.failCmd tag 1 5
    else (s.takeCmd tag).setCtrl k.ctrl { x with aers := x.aers ++ [tag] }) s

/-! ### Features (R418, R419, R445, R525) -/

/-- A Set Features command with identifier `fid`; no feature can be saved. -/
def State.setFeat (s : State) (tag fid : Nat) (run : State → Cmd → State) : State :=
  match s.cmdOf tag 9 true with
  | none => s
  | some k =>
    if k.e.d10.toNat % 256 ≠ fid then s
    else s.admin tag 9 fun s k => if k.e.d10.getLsbD 31 then s.failCmd tag 1 0x0D else run s k

/-- Put the value of a feature. -/
def State.putFeat (s : State) (c id v : Nat) : State :=
  s.setCtrl c { s.ctrl c with features := mapSet (fun _ => 0) (s.ctrl c).features id v }

/-- SET_ARBITRATION (R422). -/
def execSetArbitration (tag : Nat) (tun : Option Tunnel) (s : State) : Host.Outcome State Fault Refusal :=
  next (fun s => s.viaMi tun tag fun tag s => s.setFeat tag 1 fun s k => (s.putFeat k.ctrl 1 k.e.d11.toNat).completeOk tag) s

/-- SET_POWER_MANAGEMENT (R525, R526). -/
def execSetPowerManagement (tag : Nat) (tun : Option Tunnel) (s : State) : Host.Outcome State Fault Refusal :=
  next (fun s => s.viaMi tun tag fun tag s => s.setFeat tag 2 fun s k =>
    let ps := k.e.d11.toNat % 32
    if (if s.isPf k.ctrl then 2 else 0) < ps then s.failCmd tag 0 2 else
      let s := if ps < 2 then { s with power := { s.power with lastOp := mapSet (fun _ => 0) s.power.lastOp k.ctrl ps } } else s
      (s.putFeat k.ctrl 2 ps).completeOk tag) s

/-- Key of a temperature threshold: over or under, and sensor. -/
def tempKey (d11 : Nat) : Nat := 0x400 + natBits d11 16 6

/-- SET_TEMPERATURE_THRESHOLD (R418). -/
def execSetTemperatureThreshold (tag : Nat) (tun : Option Tunnel) (s : State) : Host.Outcome State Fault Refusal :=
  next (fun s => s.viaMi tun tag fun tag s => s.setFeat tag 4 fun s k =>
    let w := k.e.d11.toNat
    if 1 < natBits w 20 2 then s.failCmd tag 0 2
    else (s.putFeat k.ctrl (tempKey w) (2 ^ 16 + w % 2 ^ 16)).completeOk tag) s

/-- SET_NUMBER_OF_QUEUES (R419). -/
def execSetNumberOfQueues (tag : Nat) (tun : Option Tunnel) (s : State) : Host.Outcome State Fault Refusal :=
  next (fun s => s.viaMi tun tag fun tag s => s.setFeat tag 7 fun s k =>
    let nsq := natBits k.e.d11.toNat 0 16
    let ncq := natBits k.e.d11.toNat 16 16
    if nsq = 65535 ∨ ncq = 65535 then s.failCmd tag 0 2 else
    let p := s.pairs k.ctrl
    let a := min (nsq + 1) p
    let b := min (ncq + 1) p
    (s.setCtrl k.ctrl { s.ctrl k.ctrl with grantSq := a, grantCq := b }).complete tag 0 0 false (a - 1 + (b - 1) * 2 ^ 16) 0 0) s

/-- SET_INTERRUPT_COALESCING (R419). -/
def execSetInterruptCoalescing (tag : Nat) (tun : Option Tunnel) (s : State) : Host.Outcome State Fault Refusal :=
  next (fun s => s.viaMi tun tag fun tag s => s.setFeat tag 8 fun s k => (s.putFeat k.ctrl 8 (k.e.d11.toNat % 2 ^ 16)).completeOk tag) s

/-- SET_INTERRUPT_VECTOR_CONFIGURATION (R418). -/
def execSetInterruptVectorConfiguration (tag : Nat) (tun : Option Tunnel) (s : State) : Host.Outcome State Fault Refusal :=
  next (fun s => s.viaMi tun tag fun tag s => s.setFeat tag 9 fun s k =>
    let v := natBits k.e.d11.toNat 0 16
    if s.msixSize k.ctrl ≤ v then s.failCmd tag 0 2 else
    let x := s.ctrl k.ctrl
    let l := x.noCoal.filter (· != v)
    (s.setCtrl k.ctrl { x with noCoal := if k.e.d11.getLsbD 16 then v :: l else l }).completeOk tag) s

/-- SET_ASYNC_EVENT_CONFIGURATION (R418). -/
def execSetAsyncEventConfiguration (tag : Nat) (tun : Option Tunnel) (s : State) : Host.Outcome State Fault Refusal :=
  next (fun s => s.viaMi tun tag fun tag s => s.setFeat tag 0x0B fun s k => (s.putFeat k.ctrl 0x0B k.e.d11.toNat).completeOk tag) s

/-- SET_TIMESTAMP: `data` is the eight bytes that the host gives. -/
def execSetTimestamp (tag : Nat) (data : List Byte) (tun : Option Tunnel) (s : State) : Host.Outcome State Fault Refusal :=
  next (fun s => s.viaMi tun tag fun tag s => s.setFeat tag 0x0E fun s k =>
    let v := fieldAt data 0 6
    ((s.putFeat k.ctrl 0x0E ((v + 2 ^ 48 - s.tbMs % 2 ^ 48) % 2 ^ 48)).putFeat k.ctrl 0xE00 1).completeOk tag) s

/-- SET_BARLIS_VERSION (R445). -/
def execSetBarlisVersion (tag : Nat) (tun : Option Tunnel) (s : State) : Host.Outcome State Fault Refusal :=
  next (fun s => s.viaMi tun tag fun tag s => s.setFeat tag 0xC0 fun s k =>
    let v := natBits k.e.d11.toNat 0 16
    if v < 0x0100 ∨ 0x0101 < v then s.failCmd tag 0 2
    else if v = s.barlisVer k.ctrl then s.completeOk tag
    else if (s.ctrl k.ctrl).barlis then s.failCmd tag 0 0x0C
    else (s.putFeat k.ctrl 0xC0 v).completeOk tag) s

/-- DW0 that Get Features returns for identifier `fid`. -/
def State.featDw0 (s : State) (c fid d11 : Nat) : Nat :=
  match fid with
  | 0x04 => s.feature c (tempKey d11) % 2 ^ 16
  | 0x07 => (s.grantSq c - 1) + (s.grantCq c - 1) * 2 ^ 16
  | 0x09 => d11 % 2 ^ 16 + if (s.ctrl c).noCoal.contains (d11 % 2 ^ 16) then 2 ^ 16 else 0
  | 0xC0 => s.barlisVer c
  | _ => s.feature c fid

/-- The Timestamp data: ms, and where it comes from. -/
def State.stampData (s : State) (c : Nat) : List Byte :=
  leBytes 6 (s.timestamp c) ++ [if s.feature c 0xE00 = 1 then 2 else 0, 0]

/-- GET_FEATURES (R411, R418, R445). -/
def execGetFeatures (tag : Nat) (tun : Option Tunnel) (s : State) : Host.Outcome State Fault Refusal :=
  next (fun s => s.viaMi tun tag fun tag s => s.admin tag 0x0A fun s k =>
    let fid := k.e.d10.toNat % 256
    if fid = 0x0E then (s.emit (.hostData k.ctrl (s.stampData k.ctrl))).completeOk tag
    else s.complete tag 0 0 false (s.featDw0 k.ctrl fid k.e.d11.toNat) 0 0) s

/-! ### CC.EN (R445, R469) -/

/-- The admin queue pair as AQA, ASQ and ACQ set it. -/
def adminCtrl (x : Ctrl) (wrr : Bool) (sqn cqn : Nat) : Ctrl :=
  { x with
    en := true, wrr := wrr
    sqs := [(0, ⟨sqn, 0, 0, 0, .urgent, 0⟩)]
    cqs := [(0, ⟨cqn, 0, 0, true, 0, true, 0, [], 0⟩)] }

/-- CONTROLLER_RESET: the host writes CC.EN: 0 resets the controller, 1 enables it with admin queues of `sqn` and `cqn` entries. -/
def execControllerReset (func : Fin 256) (en wrr : Bool) (sqn cqn : Nat) (s : State) : Host.Outcome State Fault Refusal :=
  next (fun s =>
    let c := func.val
    if !s.slotEnabled c then s
    else if !en then (if (s.ctrl c).en then (s.ctrlReset c).flexApply c else s)
    else if (s.ctrl c).en ∨ sqn < 2 ∨ 4096 < sqn ∨ cqn < 2 ∨ 4096 < cqn then s
    else s.setCtrl c (adminCtrl (s.ctrl c) wrr sqn cqn)) s

/-! ### Virtualization Management (R469, R470) -/

/-- A Virtualization Management command with action `act`. -/
def State.virt (s : State) (tag act : Nat) (run : State → Cmd → State) : State :=
  match s.cmdOf tag 0x1C true with
  | none => s
  | some k => if natBits k.e.d10.toNat 0 4 ≠ act then s else s.admin tag 0x1C run

def Cmd.cntlid (k : Cmd) : Nat := natBits k.e.d10.toNat 16 16
def Cmd.resType (k : Cmd) : Nat := natBits k.e.d10.toNat 8 3
def Cmd.resNum (k : Cmd) : Nat := natBits k.e.d11.toNat 0 16

/-- PRIMARY_FLEXIBLE_ALLOCATION (R469). -/
def execPrimaryFlexibleAllocation (tag : Nat) (s : State) : Host.Outcome State Fault Refusal :=
  next (fun s => s.virt tag 1 fun s k => let r := s.primaryFlex k.ctrl k.cntlid k.resType k.resNum; r.1.answer tag r.2) s

/-- SECONDARY_OFFLINE (R469, R470). -/
def execSecondaryOffline (tag : Nat) (s : State) : Host.Outcome State Fault Refusal :=
  next (fun s => s.virt tag 7 fun s k => let r := s.secOffline k.ctrl k.cntlid; r.1.answer tag r.2) s

/-- SECONDARY_ASSIGN (R469). -/
def execSecondaryAssign (tag : Nat) (s : State) : Host.Outcome State Fault Refusal :=
  next (fun s => s.virt tag 8 fun s k => let r := s.secAssign k.ctrl k.cntlid k.resType k.resNum; r.1.answer tag r.2) s

/-- SECONDARY_ONLINE (R469). -/
def execSecondaryOnline (tag : Nat) (s : State) : Host.Outcome State Fault Refusal :=
  next (fun s => s.virt tag 9 fun s k => let r := s.secOnline k.ctrl k.cntlid; r.1.answer tag r.2) s

/-! ### Namespaces (R438, R493, R497, R506) -/

/-- A change that awaits its journal entry (log entry 99). -/
def State.journal (s : State) (typ role : Nat) (arg : List Byte) (c : Change) : State :=
  { s with kpr := { s.kpr with queue := s.kpr.queue ++ [⟨typ, role, arg, c, 3, 0⟩] } }

/-- An NVMe command whose effect is a protected change: refused while the journal has a fault (R507), else it waits (log entry 87). -/
def State.journalCmd (s : State) (tag typ : Nat) (arg : List Byte) (c : Change) : State :=
  if s.kpr.jfault then s.failCmd tag 0 6 else (s.takeCmd tag).journal typ 0 arg c

/-- The lowest key slot that is empty (log entry 87). -/
def State.emptyKeySlot (s : State) : Option Nat := (List.range 512).find? fun i => (mapFind s.kpr.keys i).isNone

/-- The Keeper loads a namespace key into a device-owned slot for XTS in both directions (R493; log entry 96). -/
def State.loadNsKey (s : State) (nsid : Nat) : State :=
  match mapFind s.nss nsid, s.emptyKeySlot with
  | some n, some k =>
    { s.fillSlot k 4 7 0xFFFF n.key with nss := mapPut s.nss nsid { n with slot := some k } }
  | _, _ => s

/-- A namespace's slot is emptied (log entry 96). -/
def State.dropNsKey (s : State) (nsid : Nat) : State :=
  match mapFind s.nss nsid with
  | some n => match n.slot with
    | some k => { s with kpr := { s.kpr with keys := mapDel s.kpr.keys k }, nss := mapPut s.nss nsid { n with slot := none } }
    | none => s
  | none => s

/-- Firmware's entry of the namespace table (R205). -/
def State.putNsEntry (s : State) (nsid first units : Nat) : State :=
  (s.busWrite (s.ftmBase Reg.FTM_NS_LO + 16 * nsid) (leBytes 8 first ++ leBytes 8 units)).1

/-- First unit of the lowest run of `n` units that no flash namespace has. -/
def State.findUnits (s : State) (n : Nat) : Option Nat :=
  let used := (s.nss.filter (·.1 != 1024)).map fun e => (e.2.firstUnit, e.2.firstUnit + e.2.units)
  let cap := s.rg64 pFtm Reg.FTM_CAP_LO % 2 ^ 40
  (0 :: used.map (·.2)).foldl (fun best a =>
    if a + n ≤ cap ∧ used.all (fun u => a + n ≤ u.1 || u.2 ≤ a) ∧ (best.all fun b => a < b) then some a else best) none

/-- Units that `size` logical blocks of format `lbaf` take. -/
def unitsFor (lbaf size : Nat) : Nat := ceilDiv (size * lbaSize lbaf) 16384

/-- Is a combination of LBA format and protection type valid (R436, R437)? -/
def formatOk (lbaf pi : Nat) : Bool := lbaf ≤ 4 && pi ≤ 3 && (pi == 0 || lbaf == 1 || lbaf == 3 || lbaf == 4)

/-- The lowest NSID that is free (log entry 87). -/
def State.freeNsid (s : State) : Option Nat := ((List.range 1023).map (· + 1)).find? fun n => (mapFind s.nss n).isNone

/-- A namespace is created: its NSID (log entry 87). -/
def State.nsCreate (s : State) (tag lbaf pi size : Nat) (ext : Bool) : State :=
  let u := unitsFor lbaf size
  match s.freeNsid, s.findUnits u with
  | none, _ => s.failCmd tag 1 0x16
  | _, none => s.failCmd tag 1 0x15
  | some n, some first =>
    let (s, key) := s.freeBytes 64
    let (s, guid) := s.freeBytes 16
    let s := { s with nss := mapPut s.nss n ⟨lbaf, size, leNat guid, [], pi, ext, first, u, key, none⟩ }
    ((s.putNsEntry n first u).loadNsKey n).complete tag 0 0 false n 0 0

/-- Blocks of a namespace are gone, and its units are unmapped. -/
def State.nsErase (s : State) (nsid : Nat) : State :=
  match mapFind s.nss nsid with
  | none => s
  | some n =>
    let units := s.mappedUnits.filter fun u => nsid != 1024 && n.firstUnit ≤ u && u < n.firstUnit + n.units
    let s := units.foldl (fun s u => s.setMapEntry u 0) s
    { s with blocks := s.blocks.filter fun e => e.1 / 2 ^ 64 != nsid }

/-- Namespace `nsid` is deleted. -/
def State.nsRemove (s : State) (nsid : Nat) : State :=
  match mapFind s.nss nsid with
  | none => s
  | some n =>
    let s := ((s.nsErase nsid).dropNsKey nsid).putNsEntry nsid 0 0
    { s with nss := mapDel s.nss nsid }.nsChanged nsid n.attached

/-- NAMESPACE_MANAGEMENT: `data` is the host's structure for a creation. -/
def execNamespaceManagement (tag : Nat) (data : List Byte) (s : State) : Host.Outcome State Fault Refusal :=
  next (fun s => s.admin tag 0x0D fun s k =>
    let n := k.e.nsid
    match natBits k.e.d10.toNat 0 4 with
    | 0 =>
      let lbaf := fieldAt data 26 1 % 16
      let pi := fieldAt data 29 1 % 8
      if n = 1024 then s.failCmd tag 0 2
      else if !formatOk lbaf pi then s.failCmd tag 1 0x0A
      else if fieldAt data 0 8 ≠ fieldAt data 8 8 then s.failCmd tag 1 0x1B
      else if fieldAt data 0 8 = 0 then s.failCmd tag 0 2
      else if s.freeNsid.isNone then s.failCmd tag 1 0x16
      else if (s.findUnits (unitsFor lbaf (fieldAt data 0 8))).isNone then s.failCmd tag 1 0x15
      else s.journalCmd tag 9 (leBytes 4 (s.freeNsid.getD 0) ++ leBytes 4 0)
        (.nsCreate tag lbaf pi (fieldAt data 0 8) (natBits (fieldAt data 26 1) 4 1 == 1))
    | 1 =>
      if n = 1024 then s.failCmd tag 0 2
      else if n ≠ 0xFFFF_FFFF ∧ (mapFind s.nss n).isNone then s.failCmd tag 0 0x0B
      else s.journalCmd tag 9 (leBytes 4 n ++ leBytes 4 1) (.nsDelete tag n)
    | _ => s.failCmd tag 0 2) s

/-- The deletion takes effect; NSID FFFFFFFFh names every flash namespace. -/
def State.nsDelete (s : State) (tag n : Nat) : State :=
  let l := if n = 0xFFFF_FFFF then (s.nss.map (·.1)).filter (· != 1024) else [n]
  (l.foldl State.nsRemove s).completeOk tag

/-- Controllers are attached or detached. -/
def State.nsAttach (s : State) (tag n : Nat) (l : List Nat) (attach : Bool) : State :=
  match mapFind s.nss n with
  | none => s.failCmd tag 0 0x0B
  | some x =>
    let att := if attach then x.attached ++ l else x.attached.filter fun c => !l.contains c
    ({ s with nss := mapPut s.nss n { x with attached := att } }.nsChanged n l).completeOk tag

/-- NAMESPACE_ATTACHMENT: `data` is the host's controller list. -/
def execNamespaceAttachment (tag : Nat) (data : List Byte) (s : State) : Host.Outcome State Fault Refusal :=
  next (fun s => s.admin tag 0x15 fun s k =>
    let n := k.e.nsid
    let cnt := fieldAt data 0 2
    let l := (List.range cnt).map fun i => fieldAt data (2 + 2 * i) 2
    let sel := natBits k.e.d10.toNat 0 4
    match mapFind s.nss n with
    | none => s.failCmd tag 0 0x0B
    | some x =>
      if 1 < sel then s.failCmd tag 0 2
      else if cnt = 0 ∨ 2047 < cnt ∨ l.any (fun c => !s.slotEnabled c) ∨ !l.Nodup then s.failCmd tag 1 0x1C
      else if sel = 0 ∧ l.any x.attached.contains then s.failCmd tag 1 0x18
      else if sel = 1 ∧ l.any (fun c => !x.attached.contains c) then s.failCmd tag 1 0x1A
      else s.journalCmd tag 9 (leBytes 4 n ++ leBytes 4 (2 + sel) ++ leBytes 4 (l.headD 0)) (.nsAttach tag n l (sel == 0))) s

/-! ### Format and Sanitize (R442) -/

/-- FORMAT_NVM: a flash namespace takes a new LBA format and holds nothing. -/
def execFormatNvm (tag : Nat) (s : State) : Host.Outcome State Fault Refusal :=
  next (fun s => s.admin tag 0x80 fun s k =>
    let n := k.e.nsid
    let w := k.e.d10.toNat
    let lbaf := natBits w 0 4
    let pi := natBits w 5 3
    if n = 1024 then s.failCmd tag 0 0x0B else
    let l := if n = 0xFFFF_FFFF then (s.nss.map (·.1)).filter (· != 1024) else [n]
    if l.any fun n => (mapFind s.nss n).isNone then s.failCmd tag 0 0x0B
    else if !formatOk lbaf pi ∨ natBits w 8 1 = 1 then s.failCmd tag 1 0x0A
    else if 2 < natBits w 9 3 then s.failCmd tag 0 2
    else
      (l.foldl (fun s n =>
        let s := s.nsErase n
        match mapFind s.nss n with
        | some x =>
          let size := x.units * 16384 / lbaSize lbaf
          ({ s with nss := mapPut s.nss n { x with lbaf := lbaf, pi := pi, ext := natBits w 4 1 == 1, size := size } }).nsChanged n x.attached
        | none => s) s).completeOk tag) s

/-- Sanitize takes effect: the flash tier and the write buffer are erased; Crypto Erase also destroys every namespace key, so
what cartridges hold is unreadable (log entry 88). -/
def State.sanitize (s : State) (tag act : Nat) : State :=
  let s := s.mappedUnits.foldl (fun s u => s.setMapEntry u 0) s
  let onTape (s : State) (e : Nat × Block) : Bool :=
    e.1 / 2 ^ 64 == 1024 && s.zones.any fun z => z.2.destaged && e.2.place == .staged
  let s := { s with blocks := s.blocks.filter fun e => act == 2 && onTape s e }
  let s := { s with
    zones := s.zones.map fun (e : Nat × Zone) => (e.1, { e.2 with staged := false })
    shelf := s.shelf.map fun (e : Nat × List (Nat × Zone) × List (Nat × Block)) =>
      (e.1, e.2.1.map fun (z : Nat × Zone) => (z.1, { z.2 with staged := false }), if act = 4 then [] else e.2.2) }
  let s := if act = 4 then
    let s := (s.nss.map Prod.fst).foldl State.dropNsKey s
    let (s, b) := s.freeBytes 64
    { s with nss := s.nss.map fun (e : Nat × Ns) => (e.1, { e.2 with key := b }), kpr := { s.kpr with written := false } }
  else s
  ({ s with qen := { s.qen with sanitize := 1, sanitizeAct := act } }).completeOk tag

/-- A Sanitize with action `act`: refused while a retention seal is active. -/
def State.sanitizeCmd (s : State) (tag act : Nat) : State :=
  match s.cmdOf tag 0x84 true with
  | none => s
  | some k =>
    if natBits k.e.d10.toNat 0 3 ≠ act then s
    else s.admin tag 0x84 fun s _ =>
      if !s.kpr.seals.isEmpty then s.completeVendor tag 0xC5
      else (s.journalCmd tag 0x0F (leBytes 4 act) (.sanitize tag act))

/-- SANITIZE_BLOCK_ERASE (R442). -/
def execSanitizeBlockErase (tag : Nat) (s : State) : Host.Outcome State Fault Refusal := next (fun s => s.sanitizeCmd tag 2) s

/-- SANITIZE_CRYPTO_ERASE (R442, R493). -/
def execSanitizeCryptoErase (tag : Nat) (s : State) : Host.Outcome State Fault Refusal := next (fun s => s.sanitizeCmd tag 4) s

end Sys2Proof.Machine
end

