-- ==== Sys2Proof/Machine/SignalCommands.lean ====
section
/-! DEFINITION. The commands of the tape signal path and of the format engine (chapters 3 and 4), and the table loads. -/

namespace Sys2Proof.Machine

/-! ### Signal path -/

/-- FRAME_BOUNDARY (R70) of the tracks `trks`. -/
def execFrameBoundary (trks : List (Fin 64)) (smp : List AdcSample) (s : State) : Host.Outcome State Fault Refusal :=
  next (fun s => if s.tape.pass.isNone then s else (s.takeSamples smp).frameBoundary trks) s

/-- DROPOUT_ENTRY (R71). -/
def execDropoutEntry (n : Fin 70) (smp : List AdcSample) (s : State) : Host.Outcome State Fault Refusal :=
  next (fun s => if s.tape.pass.isNone then s else (s.takeSamples smp).dropEnter n.val) s

/-- DROPOUT_EXIT (R71). -/
def execDropoutExit (n : Fin 70) (smp : List AdcSample) (s : State) : Host.Outcome State Fault Refusal :=
  next (fun s => if s.tape.pass.isNone then s else (s.takeSamples smp).dropLeave n.val) s

/-- LOCK_DECLARED (R76). -/
def execLockDeclared (n : Fin 70) (smp : List AdcSample) (s : State) : Host.Outcome State Fault Refusal :=
  next (fun s => if s.tape.pass.isNone then s else (s.takeSamples smp).lockDeclare n.val) s

/-- LOCK_LOSS (R76, R91): the tracks on the input wait for their next mark A. -/
def execLockLoss (n : Fin 70) (smp : List AdcSample) (s : State) : Host.Outcome State Fault Refusal :=
  next (fun s =>
    if s.tape.pass.isNone then s else
    let s := (s.takeSamples smp).lockLose n.val
    if s.locked n.val then s
    else (s.tracksOf n.val).foldl (fun s t => s.setRtrk t { s.rtrk t with aligned := false }) s) s

/-- ALIGNMENT_MOVE (R81). -/
def execAlignmentMove (trk : Fin 64) (upper : Bool) (smp : List AdcSample) (s : State) : Host.Outcome State Fault Refusal :=
  next (fun s => if s.tape.pass.isNone then s else (s.takeSamples smp).alignMove trk.val upper) s

/-- Every enabled channel and loop starts acquisition on an empty pipeline (R69, R76, R90; log entry 139). -/
def State.acquire (s : State) : State :=
  let s := (List.range 70).foldl (fun s n =>
    if !s.chEn n then s else
    let s := s.setChan n { s.chan n with
      frames := 0, lost := none, lowRun := 0, highRun := 0, win := [], waits := false
      zs := [], taken := 0, skip := 0, hist := [], surv := [], ring := [] }
    let s := (s.fset (pCh n) Reg.CH_STAT 0 1 0).fset (pCh n) Reg.CH_STAT 1 2 1
    if n < 66 then (s.setTim n 8 0 1 0).setTim n 8 1 2 1 else s) s
  (List.range 64).foldl (fun s t => match s.inputOf t with
    | some n => s.setCpl t { s.cpl t with soft := [], redo := [], done := (s.chan n).count }
    | none => s) s

/-- The tracks as a read pass finds them: each expects its first frame where its ring stands. -/
def State.freshTracks (s : State) : FMap ReadTrack :=
  (List.range 64).foldl (fun m t => mapSet (fun _ => ReadTrack.init) m t
    { ReadTrack.init with start := ((s.inputOf t).map fun n => (s.chan n).count).getD 0 }) []

/-- BAND_PASS_OPEN (R74, R90, R101, R146, R185; log entry 31). -/
def execBandPassOpen (write : Bool) (band : BitVec 8) (s : State) : Host.Outcome State Fault Refusal :=
  next (fun s =>
    let wr := bitsOf (s.rg pFmt Reg.FMT_WFMT) 7 1 == 1
    let ready := if write then s.bit pFmt Reg.FMT_CTRL 0 && wr else s.bit pFmt Reg.FMT_CTRL 1 && !s.readSlots.isEmpty
    if s.tape.pass.isSome || !s.streaming || !ready || !s.intake pTfe || !s.intake pTdt || !s.intake pFmt then s else
    let k := if write then bitsOf (s.rg pFmt Reg.FMT_WFMT) 0 3 else s.readSlots.headD 0
    let s := s.mapTracks k
    let s := { s with tape := { s.tape with pass := some ⟨s.epoch pTfe, s.epoch pTdt, s.epoch pFmt, band.toNat, write⟩ } }
    let s := ((s.accept pTfe).accept pTdt).acquire
    let s := if write then
        s.setFmt { s.fmt with leadIn := [], sepAt := (s.rg pSvd Reg.SVD_LPOS).toInt + s.ff k 11 0x12 2 }
      else
        let f := s.fmt
        ((s.accept pFmt).setFmt { f with
          rtracks := s.freshTracks, leadIn := [], rslot := none, mismatch := false, last := none }).fset pFmt Reg.FMT_STAT 1 1 1
    s.resCheck.showFmt) s

/-- BAND_PASS_END (R93). -/
def execBandPassEnd (smp : List AdcSample) (s : State) : Host.Outcome State Fault Refusal :=
  next (fun s => (s.takeSamples smp).passEnd) s

/-- REDETECTION_REQUEST (R86). -/
def execRedetectionRequest (trk : Fin 64) (first len : Nat) (s : State) : Host.Outcome State Fault Refusal :=
  next (fun s => if s.enabled pTdt then s.redetRequest ⟨trk.val, first, len, false⟩ else s) s

/-- REDETECTION_START (R86, R87): the oldest request, refused where its first sample has been overwritten; the unit takes its samples. -/
def execRedetectionStart (s : State) : Host.Outcome State Fault Refusal :=
  next (fun s =>
    match s.tape.queue with
    | r :: q =>
      if 4 ≤ s.tape.units.length then s
      else if s.redetLate r then
        let s := { s with tape := { s.tape with queue := q } }.showRedet
        let s := (s.errCnt pTdt 2).raise pTdt 9
        if r.frame then s.redetDone r.track none else s
      else
        let u : RedetUnit := ⟨r, s.detect r.track r.first r.len⟩
        { s with tape := { s.tape with queue := q, units := s.tape.units ++ [u] } }.showRedet
    | [] => s) s

/-- REDETECTION_END (R86): the unit's soft decisions take the place of the original ones. -/
def execRedetectionEnd (unit : Fin 4) (s : State) : Host.Outcome State Fault Refusal :=
  next (fun s =>
    match s.tape.units[unit.val]? with
    | some u =>
      let s := { s with tape := { s.tape with units := s.tape.units.eraseIdx unit.val } }.showRedet
      let s := s.putRedo u.req.track u.req.first u.out
      if u.req.frame then s.redetDone u.req.track (some u.out) else s
    | none => s) s

/-! ### Format engine -/

/-- FRAME_ALIGNMENT (R116) of the next frame of a track, once its channel bits are there. -/
def execFrameAlignment (trk : Fin 64) (smp : List AdcSample) (s : State) : Host.Outcome State Fault Refusal :=
  next (fun s => (s.takeSamples smp).frameAlign trk.val) s

/-- DATA_SET_SEPARATOR (R122). -/
def execDataSetSeparator (s : State) : Host.Outcome State Fault Refusal := next (fun s => s.separator) s

/-- The blocks of zone `z`: LBA and block, in LBA order (log entry 45). -/
def State.zoneBlocks (s : State) (z size : Nat) : List (Nat × Block) :=
  (s.blocks.filter fun e => e.1 / 2 ^ 64 == 1024 && e.1 % 2 ^ 64 / (max size 1) == z).map fun e => (e.1 % 2 ^ 64, e.2)

/-- Consecutive blocks last set by one command: first LBA, count and the writer. -/
def writerRanges : List (Nat × Block) → List (Nat × Nat × Nat × Nat × Nat)
  | [] => []
  | (a, b) :: r =>
    match writerRanges r with
    | (a', n, c, q, i) :: t =>
      if a + 1 = a' ∧ b.ctrl = c ∧ b.sqid = q ∧ b.cid = i then (a, n + 1, c, q, i) :: t
      else (a, 1, b.ctrl, b.sqid, b.cid) :: (a', n, c, q, i) :: t
    | [] => [(a, 1, b.ctrl, b.sqid, b.cid)]

/-- The destage of zone `z` fails for want of places (R127, R432): its data sets leave the ring, the zone becomes Read Only and
each range is a deferred write fault. -/
def State.destageFail (s : State) (z size : Nat) : State :=
  let s := (s.setTpi { s.tpi with ring := s.tpi.ring.filter fun r => r.zone ≠ some z }).showRing.forgetTaken
  let s := s.setFmt { s.fmt with 
    cur := s.fmt.cur.filter (·.zone != z), prev := s.fmt.prev.filter (·.zone != z)
    late := s.fmt.late.filter (·.zone != z), whole := s.fmt.whole.filter (·.zone != z) }
  let s := match mapFind s.zones z with
    | some x => { s with
        zones := mapPut s.zones z { x with state := .readOnly, destaging := false }
        qen := { s.qen with zonesChanged := z :: s.qen.zonesChanged.erase z } }
    | none => s
  (writerRanges (s.zoneBlocks z size)).foldl (fun s r =>
    s.deferFault r.2.2.1 1024 0x4001 r.1 r.2.1 r.2.2.2.1 r.2.2.2.2) s

/-- FRAME_SLOT_ISSUE (R124). -/
def execFrameSlotIssue (trk : Fin 64) (s : State) : Host.Outcome State Fault Refusal :=
  next (fun s =>
    let size := (s.writeFmt.map fun k => s.ff k 11 0 4).getD 1
    match s.frameSlot trk.val with
    | (s, some z) => s.destageFail z size
    | (s, none) => s) s

/-- FRAME_VERIFY (R123): mark A or B missed, STATUS and iterations of each codeword, and σ̂² averaged over them in 2⁻²⁴. -/
def execFrameVerify (trk : Fin 64) (aMiss bMiss : Bool) (res : List (Nat × Nat)) (sig : Nat) (s : State) :
    Host.Outcome State Fault Refusal :=
  next (fun s => s.frameVerify trk.val aMiss bMiss res sig) s

/-- A read of FMT_RWREC returns the head record, removes it, and clears LOST (R126). -/
def State.rwrecRead (s : State) (wide : Bool) : State :=
  let v := (s.rg pFmt Reg.FMT_RWREC).toNat
  let s := s.emit (.value (if wide then (s.rg pFmt Reg.FMT_RWDSN).toNat + v * 2 ^ 32 else v))
  (s.setFmt { s.fmt with queue := s.fmt.queue.drop 1, lost := 0 }).showFmt

/-- FMT_RWREC_READ. -/
def execFmtRwrecRead (_req : Requester) (wide : Bool) (s : State) : Host.Outcome State Fault Refusal :=
  next (fun s => s.rwrecRead wide) s

/-! ### Table loads and evictions (R105, R106, R139, R181, R211) -/

/-- FMT_LOAD_START. -/
def execFmtLoadStart (_req : Requester) (s : State) : Host.Outcome State Fault Refusal := next (fun s => s.loadStart pFmt) s

/-- FMT_EVICT. -/
def execFmtEvict (_req : Requester) (s : State) : Host.Outcome State Fault Refusal := next (fun s => s.evict pFmt false) s

/-- DCF_LOAD_START. -/
def execDcfLoadStart (_req : Requester) (s : State) : Host.Outcome State Fault Refusal := next (fun s => s.loadStart pDcf) s

/-- DCF_EVICT. -/
def execDcfEvict (_req : Requester) (s : State) : Host.Outcome State Fault Refusal :=
  next (fun s => s.evict pDcf (s.codeBusy (s.loadSlot pDcf))) s

/-- TPI_LOAD_START. -/
def execTpiLoadStart (_req : Requester) (s : State) : Host.Outcome State Fault Refusal := next (fun s => s.loadStart pTpi) s

/-- FTM_LOAD_START. -/
def execFtmLoadStart (_req : Requester) (s : State) : Host.Outcome State Fault Refusal := next (fun s => s.loadStart pFtm) s

/-- FTM_EVICT. -/
def execFtmEvict (_req : Requester) (s : State) : Host.Outcome State Fault Refusal := next (fun s => s.evict pFtm false) s

/-- TABLE_LOAD_END (R105): the load of the block at `page` ends. -/
def execTableLoadEnd (page : Nat) (s : State) : Host.Outcome State Fault Refusal := next (fun s => s.loadEnd page) s

end Sys2Proof.Machine
end

