-- ==== Sys2Proof/Machine/Nvm.lean ====
section
/-! DEFINITION. The I/O commands: Write, Read, Verify, Flush, Write Zeroes, Deallocate and the zone commands, with their ordering,
protection information and deferred faults (chapter 17, R414, R424 to R441). -/

namespace Sys2Proof.Machine

/-! ### The tape-backed namespace (R128, R439) -/

/-- ZSZE and ZCAP of the write format. -/
def State.zsze (s : State) : Nat := (s.writeFmt.map fun k => s.ff k 11 0 4).getD 0
def State.zcap (s : State) : Nat := (s.writeFmt.map fun k => s.ff k 11 4 4).getD 0

/-- The zone count of R128. -/
def State.zoneCount (s : State) : Nat :=
  match s.writeFmt with
  | none => 0
  | some k =>
    let sf := s.ff k 11 0x10 2
    (s.bpLen - s.ff k 11 0x12 2 - s.ff k 11 0x0A 2 * sf) / (s.ff k 11 8 2 * sf)

/-- A zone that nothing has been done to. -/
def zoneDefault (_ : Nat) : Zone := ⟨.empty, 0, false, false, false, false, 0⟩

def State.zone (s : State) (z : Nat) : Zone := mapGet zoneDefault s.zones z

def State.setZone (s : State) (z : Nat) (x : Zone) : State := { s with zones := mapSet zoneDefault s.zones z x }

/-- Logical blocks of a namespace. -/
def State.nsSize (s : State) (nsid : Nat) (n : Ns) : Nat := if nsid = 1024 then s.zoneCount * s.zsze else n.size

/-! ### Fields of the commands -/

/-- SLBA or ZSLBA in CDW10 and CDW11. -/
def Cmd.slba (k : Cmd) : Nat := k.e.d10.toNat + k.e.d11.toNat * 2 ^ 32

/-- Blocks in CDW12[15:0], counted from 1. -/
def Cmd.nlb (k : Cmd) : Nat := natBits k.e.d12.toNat 0 16 + 1

/-! ### Overlap (R425, R451, R464) -/

/-- Blocks that a command names: namespace, first, end, and 0 read, 1 write, 2 an operation on the zone, 3 a use of the zone's write
pointer (R427). -/
structure Span where
  ns : Nat
  lo : Nat
  hi : Nat
  kind : Nat
deriving DecidableEq, Repr

def Span.meets (a b : Span) : Bool :=
  a.ns == b.ns && a.lo < b.hi && b.lo < a.hi && (a.kind == 1 && b.kind < 2 || a.kind == 0 && b.kind == 1 || a.kind == 2 && b.kind == 2
    || a.kind == 3 && b.kind == 3)

/-- The run of an accepted Bench Run, by its work tag (log entry 94). -/
def State.taskOf (s : State) (tag : Nat) : Option BenchTask :=
  s.benches.findSome? fun e => ((e.2.run.toList ++ e.2.waiting).find? fun t => t.tag == tag)

/-- The blocks that a command in flight still has to read or write. -/
def State.spans (s : State) (tag : Nat) (k : Cmd) : List Span :=
  let e := k.e
  let all := 2 ^ 64
  let zs := max 1 s.zsze
  let zone := k.slba + zs
  let pointer : Span := ⟨e.nsid, k.slba / zs * zs, k.slba / zs * zs + zs, 3⟩
  if k.sq = 0 then [] else
  match e.opc with
  | 0x01 => ⟨e.nsid, k.slba, k.slba + k.nlb, 1⟩ :: if e.nsid = 1024 then [pointer] else []
  | 0x08 => [⟨e.nsid, k.slba, k.slba + k.nlb, 1⟩]
  | 0x02 => [⟨e.nsid, k.slba, k.slba + k.nlb, 0⟩]
  | 0x0C => [⟨e.nsid, k.slba, k.slba + k.nlb, 0⟩]
  | 0x09 => [⟨e.nsid, 0, all, 1⟩]
  | 0x7D => [⟨e.nsid, k.slba, zone, 1⟩, pointer]
  | 0x79 => if e.d13.getLsbD 8 then [⟨e.nsid, 0, all, 2⟩] else [⟨e.nsid, k.slba, zone, 2⟩]
  | 0xC4 => [⟨e.nsid, k.slba, zone, 2⟩]
  | 0xCC => [⟨e.nsid, k.slba, zone, 2⟩]
  | 0xC2 => [⟨e.nsid, k.slba, k.slba + e.d12.toNat + 1, 0⟩]
  | 0xC5 => [⟨e.nsid, k.slba, k.slba + e.d12.toNat + 1, 0⟩]
  | 0xC6 => [⟨e.nsid, k.slba, k.slba + e.d12.toNat + 1, 0⟩]
  | 0xC1 =>
    match s.taskOf tag with
    | some t => match t.resNs with
      | some (n, lo, len) => [⟨n, lo, lo + len, 1⟩]
      | none => []
    | none => ⟨e.nsid, 0, all, 0⟩ ::
      if e.d12.getLsbD 0 then (s.nss.map Prod.fst).map fun n => ⟨n, 0, all, 1⟩ else []
  | _ => []

/-- An earlier-stamped command that has not ended overlaps the command of work tag `tag`, which waits for it. -/
def State.mustWait (s : State) (tag : Nat) (k : Cmd) : Bool :=
  let mine := s.spans tag k
  s.cmds.any fun e => e.1 != tag && !e.2.ended && e.2.stamp < k.stamp && (s.spans e.1 e.2).any fun a => mine.any a.meets

/-! ### What every I/O command is checked for (R431, R439, R442, R448, R473) -/

/-- The command is the first of its controller and namespace after a deferred write fault was recorded. -/
def State.firstPend (s : State) (k : Cmd) : Bool :=
  match mapFind (s.ctrl k.ctrl).pend k.e.nsid with
  | none => false
  | some t => t < k.stamp && !s.cmds.any fun e =>
      e.2.ctrl == k.ctrl && e.2.sq != 0 && e.2.e.nsid == k.e.nsid && !e.2.ended && t < e.2.stamp && e.2.stamp < k.stamp

/-- Blocks of flash namespaces can be reached: the mapping tables are restored and the tier is not sealed (R506, R555). -/
def State.flashReady (s : State) : Bool := s.boot.mapReady && !s.kpr.sealedTier

/-- Namespace `nsid`, if it is attached to controller `c`. -/
def State.attachedNs (s : State) (c nsid : Nat) : Option Ns :=
  match mapFind s.nss nsid with
  | some n => if n.attached.contains c then some n else none
  | none => none

/-- A fetched I/O command on one namespace, once no earlier one stands in its way. -/
def State.ioCmd (s : State) (tag : Nat) (k : Cmd) (run : State → Cmd → Ns → State) : State :=
    if s.mustWait tag k then s
    else if s.firstPend k then
      let x := s.ctrl k.ctrl
      (s.setCtrl k.ctrl { x with pend := mapDel x.pend k.e.nsid }).completeVendor tag 0xC0
    else match s.attachedNs k.ctrl k.e.nsid with
      | none => s.failCmd tag 0 0x0B
      | some n =>
        if k.e.nsid = 1024 ∧ s.tpi.cart.isNone then s.completeVendor tag 0xC1
        else if k.e.nsid ≠ 1024 ∧ ¬ s.flashReady then s.complete tag 0 0x82 false 0 0 0
        else run s k n

/-- An NVM command of opcode `op`: held while its function is over its energy cap (R473). -/
def State.io (s : State) (tag op : Nat) (run : State → Cmd → Ns → State) : State :=
  match s.cmdOf tag op false with
  | none => s
  | some k => if (s.func k.ctrl).overCap then s else s.ioCmd tag k run

/-! ### Protection information (R436, R437) -/

/-- Metadata bytes of an LBA format. -/
def metaSize (lbaf : Nat) : Nat := if lbaf = 1 ∨ lbaf = 3 then 8 else if lbaf = 4 then 16 else 0

/-- Bytes of the guard, and bits of the reference tag. -/
def guardLen (lbaf : Nat) : Nat := if lbaf = 4 then 8 else 2
def refBits (lbaf : Nat) : Nat := if lbaf = 4 then 48 else 32

/-- The guard over one block's data: T10 CRC-16 or the 64-bit CRC. -/
def piGuard (lbaf : Nat) (data : List Byte) : Nat := if lbaf = 4 then crc64nvme data else crcMsb 16 0x8BB7 0 data

/-- Protection information of a block (log entry 86). -/
def piMake (lbaf : Nat) (data : List Byte) (app ref : Nat) : List Byte :=
  beBytes (guardLen lbaf) (piGuard lbaf data) ++ beBytes 2 app ++ beBytes (refBits lbaf / 8) ref

def piApp (lbaf : Nat) (m : List Byte) : Nat := beNat ((m.drop (guardLen lbaf)).take 2)
def piRef (lbaf : Nat) (m : List Byte) : Nat := beNat (m.drop (guardLen lbaf + 2))

/-- The reference tag that block `i` of a command must carry. -/
def refAt (lbaf typ base i : Nat) : Nat := (if typ = 3 then base else base + i) % 2 ^ refBits lbaf

/-- The status of the first check that one block fails: guard 82h, application tag 83h, reference tag 84h. -/
def piBlock (lbaf typ chk lbat lbatm ref : Nat) (data m : List Byte) : Option Nat :=
  let app := piApp lbaf m
  if app = 0xFFFF ∧ (typ ≠ 3 ∨ piRef lbaf m = 2 ^ refBits lbaf - 1) then none
  else if natBits chk 2 1 = 1 ∧ beNat (m.take (guardLen lbaf)) ≠ piGuard lbaf data then some 0x82
  else if natBits chk 1 1 = 1 ∧ app &&& lbatm ≠ lbat &&& lbatm then some 0x83
  else if natBits chk 0 1 = 1 ∧ piRef lbaf m ≠ ref then some 0x84
  else none

/-- What a command says of protection information: PRACT, PRCHK, LBAT, LBATM and the initial reference tag. -/
structure PiCmd where
  act : Bool
  chk : Nat
  lbat : Nat
  lbatm : Nat
  ref : Nat
deriving DecidableEq, Repr

def piCmd (lbaf : Nat) (e : Sqe) : PiCmd :=
  ⟨e.d12.getLsbD 29, natBits e.d12.toNat 26 3, natBits e.d15.toNat 0 16, natBits e.d15.toNat 16 16,
    (e.d14.toNat + if lbaf = 4 then natBits e.d3.toNat 0 16 * 2 ^ 32 else 0) % 2 ^ refBits lbaf⟩

/-- The command's reference tag does not fit the type: Invalid Protection Information. -/
def PiCmd.bad (p : PiCmd) (lbaf typ slba : Nat) : Bool :=
  natBits p.chk 0 1 == 1 && (typ == 3 || typ == 1 && p.ref != slba % 2 ^ refBits lbaf)

/-- The first block that fails its checks: its index and status. -/
def piCheck (n : Ns) (p : PiCmd) (bs : List (List Byte × List Byte)) : Option (Nat × Nat) :=
  if n.pi = 0 then none else
  bs.zipIdx.findSome? fun b =>
    (piBlock n.lbaf n.pi p.chk p.lbat p.lbatm (refAt n.lbaf n.pi p.ref b.2) b.1.1 b.1.2).map fun st => (b.2, st)

/-! ### Data -/

/-- A host's data and metadata as blocks. -/
def cutBlocks (bs ms n : Nat) (data mdata : List Byte) : List (List Byte × List Byte) :=
  (List.range n).map fun i => ((data.drop (i * bs)).take bs, (mdata.drop (i * ms)).take ms)

/-- Bytes that a command's transfer moves: data, and metadata that is carried inline. -/
def Ns.xfer (n : Ns) (nlb : Nat) (act : Bool) : Nat :=
  nlb * (lbaSize n.lbaf + if n.ext ∧ ¬ (n.pi ≠ 0 ∧ act) then metaSize n.lbaf else 0)

/-- A block as a read finds it: what was last written, or zeros with metadata of all ones (log entries 89 and 122). -/
def State.readBlock (s : State) (nsid lba : Nat) (n : Ns) : List Byte × List Byte :=
  match mapFind s.blocks (blockKey nsid lba) with
  | some b => (b.data, b.meta_)
  | none => (List.replicate (lbaSize n.lbaf) 0, List.replicate (metaSize n.lbaf) 0xFF)

/-- A slice of a flash namespace that a range touches: its unit and number, its first LBA, and whether the range covers all of it. -/
structure TouchedSlice where
  unit : Nat
  slice : Nat
  lba : Nat
  whole : Bool

/-- The slices that a range of namespace `n` touches (R205). -/
def Ns.slicesOf (n : Ns) (slba cnt : Nat) : List TouchedSlice :=
  let per := 4096 / lbaSize n.lbaf
  let a := slba / per
  (List.range (ceilDiv (slba + cnt) per - a)).map fun i =>
    ⟨n.firstUnit + (a + i) / 4, (a + i) % 4, (a + i) * per, slba ≤ (a + i) * per && (a + i + 1) * per ≤ slba + cnt⟩

/-- The slices of a range that are marked as unrecoverable in the map (R205, R222). -/
def State.marked (s : State) (nsid slba cnt : Nat) : List TouchedSlice :=
  if nsid = 1024 || !s.bit pFtm Reg.FTM_CTRL 0 then [] else
  match mapFind s.nss nsid with
  | none => []
  | some n => (n.slicesOf slba cnt).filter fun x =>
      let w := (s.mapEntry x.unit).2
      natBits w 41 1 == 1 && natBits w (42 + x.slice) 1 == 1

/-- The marks of the slices that a range covers are cleared (R222). -/
def State.clearMarks (s : State) (nsid slba cnt : Nat) : State :=
  ((s.marked nsid slba cnt).filter (·.whole)).foldl (fun s x => s.setMapEntry x.unit (unmark (s.mapEntry x.unit).2 x.slice)) s

/-- A range touches a marked slice and leaves some of it out: a write of it is not executed (R222). -/
def State.partMarked (s : State) (nsid slba cnt : Nat) : Bool := (s.marked nsid slba cnt).any fun x => !x.whole

/-- The first block of a range that the device cannot deliver (R222, R435). -/
def State.firstBad (s : State) (nsid slba n : Nat) : Option Nat :=
  let l := (((s.blocksIn nsid slba n).filter (·.2.bad)).map Prod.fst) ++ (s.marked nsid slba n).map fun x => max slba x.lba
  l.foldl (fun m a => match m with
    | some b => some (min a b)
    | none => some a) none

/-- The blocks are in the write buffer: the write is durable (R15, R16). -/
def State.putBlocks (s : State) (k : Cmd) (slba : Nat) (bs : List (List Byte × List Byte)) : State :=
  let m := bs.zipIdx.foldl (fun (m : FMap Block) b =>
    mapPut m (blockKey k.e.nsid (slba + b.2)) ⟨b.1.1, b.1.2, k.stamp, k.ctrl, k.sq, k.e.cid, .buffer, false⟩) s.blocks
  let q := s.qen.smart
  { s with
    blocks := m
    kpr := { s.kpr with written := true }
    qen := { s.qen with smart := { q with wr := q.wr + (bs.map fun b => b.1.length).sum / 512, wrCmds := q.wrCmds + 1 } } }

/-- The blocks of a write after the device's protection information: generated with PRACT, else as they came. -/
def piFill (n : Ns) (p : PiCmd) (bs : List (List Byte × List Byte)) : List (List Byte × List Byte) :=
  if n.pi ≠ 0 ∧ p.act then bs.zipIdx.map fun b => (b.1.1, piMake n.lbaf b.1.1 p.lbat (refAt n.lbaf n.pi p.ref b.2)) else bs

/-- The reference tags of an append move with the assigned LBA (PIREMAP). -/
def piRemap (n : Ns) (off : Nat) (bs : List (List Byte × List Byte)) : List (List Byte × List Byte) :=
  bs.map fun b =>
    let keep := guardLen n.lbaf + 2
    (b.1, b.2.take keep ++ beBytes (refBits n.lbaf / 8) ((piRef n.lbaf b.2 + off) % 2 ^ refBits n.lbaf))

/-! ### Zones (R427, R439 to R441) -/

def ZState.isOpen : ZState → Bool
  | .implOpen => true
  | .explOpen => true
  | _ => false

def ZState.active : ZState → Bool
  | .closed => true
  | z => z.isOpen

/-- Zones that hold an active resource; there are 16. -/
def State.activeZones (s : State) : Nat := (s.zones.filter fun e => e.2.state.active).length

/-- A zone that is not active may become so. -/
def State.mayActivate (s : State) (z : ZState) : Bool := z.active || s.activeZones < 16

/-- Why `n` blocks cannot be written at offset `off` of zone `z`: status code type and code. -/
def State.zoneRefuses (s : State) (z off n : Nat) : Option (Nat × Nat) :=
  let x := s.zone z
  match x.state with
  | .offline => some (1, 0xBB)
  | .readOnly => some (1, 0xBA)
  | .full => if x.sealed then some (7, 0xC5) else some (1, 0xB9)
  | st =>
    if s.zcap < off + n then some (1, 0xB8)
    else if off ≠ x.wp then some (1, 0xBC)
    else if !s.mayActivate st then some (1, 0xBD)
    else none

/-- `n` blocks are written at the write pointer (log entry 93). -/
def State.zoneAdvance (s : State) (z n : Nat) : State :=
  let x := s.zone z
  let wp := x.wp + n
  s.setZone z { x with
    wp := wp, staged := true
    state := if s.zcap ≤ wp then .full else if x.state = .explOpen then .explOpen else .implOpen }

/-- End a command with a status of type `r.1`. -/
def State.failAs (s : State) (tag : Nat) (r : Nat × Nat) : State :=
  if r.1 = 7 then s.completeVendor tag r.2 else s.failCmd tag r.1 r.2

/-! ### Write, Zone Append, Write Zeroes -/

/-- Checks of a write's data in the order length, protection information. -/
def State.writeData (s : State) (tag : Nat) (k : Cmd) (n : Ns) (data mdata : List Byte)
    (run : State → PiCmd → List (List Byte × List Byte) → State) : State :=
  let nlb := k.nlb
  let p := piCmd n.lbaf k.e
  let gen := n.pi ≠ 0 ∧ p.act
  let ms := if gen then 0 else metaSize n.lbaf
  if 2097152 < n.xfer nlb p.act then s.failCmd tag 0 2
  else if n.pi ≠ 0 ∧ p.bad n.lbaf n.pi k.slba then s.failCmd tag 1 0x81
  else if data.length < nlb * lbaSize n.lbaf ∨ mdata.length < nlb * ms then s.failCmd tag 0 4
  else
    let bs := cutBlocks (lbaSize n.lbaf) ms nlb data mdata
    match if gen then none else piCheck n p bs with
    | some (i, st) => s.complete tag 2 st true 0 0 (k.slba + i)
    | none => run s p (piFill n p bs)

/-- A write of a flash namespace meets the marks of its slices (R222), and is executed by `run`. -/
def State.flashWrite (s : State) (tag : Nat) (k : Cmd) (run : State → State) : State :=
  if s.partMarked k.e.nsid k.slba k.nlb then s.complete tag 2 0x81 true 0 0 k.slba
  else run (s.clearMarks k.e.nsid k.slba k.nlb)

/-- WRITE (R15, R414, R222): `data` and `mdata` are what HIB fetches of the host's data and metadata. -/
def execWrite (tag : Nat) (data mdata : List Byte) (s : State) : Host.Outcome State Fault Refusal :=
  next (fun s => s.io tag 0x01 fun s k n =>
    let lba := k.slba
    let nlb := k.nlb
    if s.nsSize k.e.nsid n < lba + nlb then s.failCmd tag 0 0x80
    else if k.e.nsid = 1024 then
      match s.zoneRefuses (lba / s.zsze) (lba % s.zsze) nlb with
      | some r => s.failAs tag r
      | none => s.writeData tag k n data mdata fun s _ bs => ((s.putBlocks k lba bs).zoneAdvance (lba / s.zsze) nlb).completeOk tag
    else s.writeData tag k n data mdata fun s _ bs => s.flashWrite tag k fun s => (s.putBlocks k lba bs).completeOk tag) s

/-- ZONE_APPEND (R427). -/
def execZoneAppend (tag : Nat) (data mdata : List Byte) (s : State) : Host.Outcome State Fault Refusal :=
  next (fun s => s.io tag 0x7D fun s k n =>
    let zs := s.zsze
    let remap := k.e.d12.getLsbD 25
    if k.e.nsid ≠ 1024 then s.failCmd tag 0 1
    else if s.nsSize 1024 n < k.slba + 1 then s.failCmd tag 0 0x80
    else if k.slba % zs ≠ 0 then s.failCmd tag 0 2
    else if (n.pi = 1 ∧ !remap) ∨ (n.pi = 3 ∧ remap) then s.failCmd tag 1 0x81
    else
      let z := k.slba / zs
      let off := (s.zone z).wp
      match s.zoneRefuses z off k.nlb with
      | some r => s.failAs tag r
      | none => s.writeData tag k n data mdata fun s _ bs =>
          let bs := if n.pi ≠ 0 ∧ remap then piRemap n off bs else bs
          let lba := k.slba + off
          ((s.putBlocks k lba bs).zoneAdvance z k.nlb).complete tag 0 0 false (lba % 2 ^ 32) (lba / 2 ^ 32) 0) s

/-- Blocks of a range no longer hold data. -/
def State.clearBlocks (s : State) (nsid slba n : Nat) : State :=
  { s with blocks := s.blocks.filter fun e => !(blockKey nsid slba ≤ e.1 && e.1 < blockKey nsid (slba + n)) }

/-- WRITE_ZEROES (R414). -/
def execWriteZeroes (tag : Nat) (s : State) : Host.Outcome State Fault Refusal :=
  next (fun s => s.io tag 0x08 fun s k n =>
    let lba := k.slba
    let nlb := k.nlb
    let p := piCmd n.lbaf k.e
    if k.e.nsid = 1024 then s.failCmd tag 0 1
    else if s.nsSize k.e.nsid n < lba + nlb then s.failCmd tag 0 0x80
    else if k.e.d12.getLsbD 25 then s.flashWrite tag k fun s => (s.clearBlocks k.e.nsid lba nlb).completeOk tag
    else
      let m := if n.pi = 0 then 0x00 else 0xFF
      let bs := (List.range nlb).map fun _ => (List.replicate (lbaSize n.lbaf) (0 : Byte), List.replicate (metaSize n.lbaf) m)
      s.flashWrite tag k fun s => (s.putBlocks k lba (piFill n p bs)).completeOk tag) s

/-- DEALLOCATE (R222, R414): `data` holds the ranges. -/
def execDeallocate (tag : Nat) (data : List Byte) (s : State) : Host.Outcome State Fault Refusal :=
  next (fun s => s.io tag 0x09 fun s k n =>
    let nr := natBits k.e.d10.toNat 0 8 + 1
    let rs := (List.range nr).map fun i => (fieldAt data (16 * i + 8) 8, fieldAt data (16 * i + 4) 4)
    if k.e.nsid = 1024 then s.failCmd tag 0 1
    else if data.length < 16 * nr then s.failCmd tag 0 4
    else if rs.any fun r => s.nsSize k.e.nsid n < r.1 + r.2 then s.failCmd tag 0 0x80
    else if !k.e.d11.getLsbD 2 then s.completeOk tag
    else (rs.foldl (fun s r => (s.clearMarks k.e.nsid r.1 r.2).clearBlocks k.e.nsid r.1 r.2) s).completeOk tag) s

/-! ### Read, Verify -/

/-- The checks of a read or Verify, then `give` with the blocks. -/
def State.readData (s : State) (tag : Nat) (k : Cmd) (n : Ns) (give : State → List (List Byte × List Byte) → State) : State :=
  let nsid := k.e.nsid
  let lba := k.slba
  let nlb := k.nlb
  let p := piCmd n.lbaf k.e
  let tape := nsid == 1024
  let z := lba / s.zsze
  if s.nsSize nsid n < lba + nlb then s.failCmd tag 0 0x80
  else if n.pi ≠ 0 ∧ p.bad n.lbaf n.pi lba then s.failCmd tag 1 0x81
  else if tape ∧ (lba + nlb - 1) / s.zsze ≠ z then s.failCmd tag 1 0xB8
  else if tape ∧ (s.zone z).state = .offline then s.failCmd tag 1 0xBB
  else if tape ∧ (s.zone z).state = .full ∧ !(s.zone z).staged then s.completeVendor tag 0xC2
  else match s.firstBad nsid lba nlb with
    | some a =>
      let q := s.qen.smart
      { s with qen := { s.qen with smart := { q with errs := q.errs + 1 } } }.complete tag 2 0x81 true 0 0 a
    | none =>
      let bs := (List.range nlb).map fun i => s.readBlock nsid (lba + i) n
      match piCheck n p bs with
      | some (i, st) => s.complete tag 2 st true 0 0 (lba + i)
      | none => give s bs

/-- READ (R425, R426, R435). -/
def execRead (tag : Nat) (s : State) : Host.Outcome State Fault Refusal :=
  next (fun s => s.io tag 0x02 fun s k n =>
    let act := k.e.d12.getLsbD 29
    if 2097152 < n.xfer k.nlb act then s.failCmd tag 0 2 else
    s.readData tag k n fun s bs =>
      let strip := n.pi ≠ 0 ∧ act
      let q := s.qen.smart
      let s := { s with qen := { s.qen with smart := { q with rd := q.rd + k.nlb * lbaSize n.lbaf / 512, rdCmds := q.rdCmds + 1 } } }
      let s :=
        if n.ext ∧ ¬ strip then s.emit (.hostData k.ctrl (bs.flatMap fun b => b.1 ++ b.2))
        else
          let s := s.emit (.hostData k.ctrl (bs.flatMap Prod.fst))
          if strip ∨ metaSize n.lbaf = 0 then s else s.emit (.hostData k.ctrl (bs.flatMap Prod.snd))
      s.completeOk tag) s

/-- VERIFY (R414): through every check, nothing transferred. -/
def execVerify (tag : Nat) (s : State) : Host.Outcome State Fault Refusal :=
  next (fun s => s.io tag 0x0C fun s k n => s.readData tag k n fun s _ => s.completeOk tag) s

/-! ### Flush (R428) -/

/-- Does the command write to namespace `nsid`; FFFFFFFFh is every one? -/
def Cmd.writes (k : Cmd) (nsid : Nat) : Bool :=
  k.sq != 0 && [0x01, 0x08, 0x09, 0x7D].contains k.e.opc && (nsid == 0xFFFF_FFFF || k.e.nsid == nsid)

/-- Every earlier-stamped write of the controller has posted its completion. -/
def State.flushed (s : State) (k : Cmd) : Bool :=
  !s.cmds.any fun e => e.2.ctrl == k.ctrl && e.2.stamp < k.stamp && e.2.writes k.e.nsid

/-- FLUSH (R414, R428). -/
def execFlush (tag : Nat) (s : State) : Host.Outcome State Fault Refusal :=
  next (fun s =>
    match s.cmdOf tag 0 false with
    | none => s
    | some k =>
      if k.e.nsid = 0xFFFF_FFFF then
        (if (s.func k.ctrl).overCap ∨ ¬ s.flushed k then s else s.completeOk tag)
      else s.io tag 0 fun s k _ => if s.flushed k then s.completeOk tag else s) s

/-! ### Zone Management Send (R439, R441) -/

/-- What one action makes of a zone: a new state, or a status. -/
abbrev ZoneStep := State → Nat → Zone → Except (Nat × Nat) Zone

/-- Zone Management Send with action `act`: one zone, or with Select All every zone in one of the states `sel` (log entry 90). -/
def State.zoneSend (s : State) (tag act : Nat) (sel : ZState → Bool) (step : ZoneStep) : State :=
  match s.cmdOf tag 0x79 false with
  | none => s
  | some k0 =>
    if k0.e.d13.toNat % 256 ≠ act then s else
    s.io tag 0x79 fun s k n =>
      let all := k.e.d13.getLsbD 8
      let lba := k.slba
      if !all ∧ s.nsSize 1024 n ≤ lba then s.failCmd tag 0 0x80
      else if !all ∧ lba % s.zsze ≠ 0 then s.failCmd tag 0 2
      else
        let zs := if all then (s.zones.filter fun e => sel e.2.state).map Prod.fst else [lba / s.zsze]
        if zs.any fun z => (s.zone z).destaging ∧ act = 4 then s else
        let r : Except (Nat × Nat) State := zs.foldlM (fun s z =>
          match step s z (s.zone z) with
          | .error st => .error st
          | .ok x =>
            let s := if x.state = .empty then s.clearBlocks 1024 (z * s.zsze) s.zsze else s
            .ok (s.setZone z x)) s
        match r with
        | .error st => s.failAs tag st
        | .ok s => s.completeOk tag

/-- Invalid Zone State Transition. -/
def badZone {α : Type} : Except (Nat × Nat) α := .error (1, 0xBF)

def zoneClose (_ : State) (_ : Nat) (x : Zone) : Except (Nat × Nat) Zone :=
  if x.state.active then .ok { x with state := .closed } else badZone

/-- Finish a zone: its write pointer goes to ZCAP (R439; log entry 90). -/
def State.zoneFinish (s : State) (_ : Nat) (x : Zone) : Except (Nat × Nat) Zone :=
  match x.state with
  | .full => .ok x
  | .readOnly => badZone
  | .offline => badZone
  | _ => .ok { x with state := .full, wp := s.zcap, staged := true }

def State.zoneOpen (s : State) (_ : Nat) (x : Zone) : Except (Nat × Nat) Zone :=
  match x.state with
  | .readOnly => badZone
  | .offline => badZone
  | .full => if x.sealed then .error (7, 0xC5) else badZone
  | st => if s.mayActivate st then .ok { x with state := .explOpen } else .error (1, 0xBD)

/-- Reset a zone: its write pointer goes back to its start (log entry 90). -/
def zoneReset (_ : State) (z : Nat) (x : Zone) : Except (Nat × Nat) Zone :=
  match x.state with
  | .readOnly => badZone
  | .offline => badZone
  | _ => if x.sealed then .error (7, 0xC5) else .ok (zoneDefault z)

/-- ZONE_CLOSE (R414, R439). -/
def execZoneClose (tag : Nat) (s : State) : Host.Outcome State Fault Refusal :=
  next (fun s => s.zoneSend tag 1 ZState.isOpen zoneClose) s

/-- ZONE_FINISH (R439). -/
def execZoneFinish (tag : Nat) (s : State) : Host.Outcome State Fault Refusal :=
  next (fun s => s.zoneSend tag 2 ZState.active State.zoneFinish) s

/-- ZONE_OPEN (R439, R441). -/
def execZoneOpen (tag : Nat) (s : State) : Host.Outcome State Fault Refusal :=
  next (fun s => s.zoneSend tag 3 (fun z => z == .closed) State.zoneOpen) s

/-- ZONE_RESET (R441). -/
def execZoneReset (tag : Nat) (s : State) : Host.Outcome State Fault Refusal :=
  next (fun s => s.zoneSend tag 4 (fun z => z.active || z == .full) zoneReset) s

/-! ### Zone Management Receive -/

/-- The encoding of a zone's state. -/
def ZState.code : ZState → Nat
  | .empty => 1
  | .implOpen => 2
  | .explOpen => 3
  | .closed => 4
  | .readOnly => 0x0D
  | .full => 0x0E
  | .offline => 0x0F

/-- The state that a reporting option selects; 0 every one. -/
def zoneSelect (zras : Nat) : Option (Option ZState) :=
  match zras with
  | 0 => some none
  | 1 => some (some .empty)
  | 2 => some (some .implOpen)
  | 3 => some (some .explOpen)
  | 4 => some (some .closed)
  | 5 => some (some .full)
  | 6 => some (some .readOnly)
  | 7 => some (some .offline)
  | _ => none

/-- A zone descriptor. -/
def State.zoneDesc (s : State) (z : Nat) : List Byte :=
  let x := s.zone z
  let wp := match x.state with
    | .full => 2 ^ 64 - 1
    | .readOnly => 2 ^ 64 - 1
    | .offline => 2 ^ 64 - 1
    | _ => z * s.zsze + x.wp
  [2, BitVec.ofNat 8 (16 * x.state.code), 0, 0, 0, 0, 0, 0] ++ leBytes 8 s.zcap ++ leBytes 8 (z * s.zsze) ++ leBytes 8 wp ++
    List.replicate 32 0

/-- Zone Management Receive with action `act`: the number of zones, and as many descriptors as the buffer takes; the descriptor
extension has no bytes (log entry 86). -/
def State.zoneReport (s : State) (tag act : Nat) : State :=
  match s.cmdOf tag 0x7A false with
  | none => s
  | some k0 =>
    if k0.e.d13.toNat % 256 ≠ act then s else
    s.io tag 0x7A fun s k n =>
      let bytes := 4 * (k.e.d12.toNat + 1)
      if s.nsSize 1024 n ≤ k.slba then s.failCmd tag 0 0x80 else
      match zoneSelect (natBits k.e.d13.toNat 8 8) with
      | none => s.failCmd tag 0 2
      | some sel =>
        let first := k.slba / s.zsze
        let zs := ((List.range (s.zoneCount - first)).map (first + ·)).filter fun z => sel.all fun st => (s.zone z).state == st
        let shown := zs.take ((bytes - 64) / 64)
        let count := if k.e.d13.getLsbD 16 then shown.length else zs.length
        let data := leBytes 8 count ++ List.replicate 56 0 ++ shown.flatMap s.zoneDesc
        (s.emit (.hostData k.ctrl (data.take bytes))).completeOk tag

/-- REPORT_ZONES (R414). -/
def execReportZones (tag : Nat) (s : State) : Host.Outcome State Fault Refusal := next (fun s => s.zoneReport tag 0) s

/-- EXTENDED_REPORT_ZONES (R414). -/
def execExtendedReportZones (tag : Nat) (s : State) : Host.Outcome State Fault Refusal := next (fun s => s.zoneReport tag 1) s

end Sys2Proof.Machine
end

