-- ==== Sys2Proof/Machine/Barlis.lean ====
section
/-! DEFINITION. The Barlis commands (chapter 18): programs and Benches, fixity and transform, search and index tables, zones, and
energy reports. -/

namespace Sys2Proof.Machine

/-! ### Rules common to every command (R448 to R450) -/

/-- No bit of CDW10 to CDW15 beyond the masks is set. -/
def Cmd.only (k : Cmd) (m10 m11 m12 m13 m14 m15 : Nat) : Bool :=
  let ok (w : BitVec 32) (m : Nat) : Bool := w.toNat &&& m == w.toNat
  ok k.e.d10 m10 && ok k.e.d11 m11 && ok k.e.d12 m12 && ok k.e.d13 m13 && ok k.e.d14 m14 && ok k.e.d15 m15

/-- All 32 bits. -/
def m32 : Nat := 2 ^ 32 - 1

/-- Energy is charged to a command and its function: nJ by block type code (R449, R534). -/
def State.cmdCharge (s : State) (tag : Nat) (en : List (Nat × Nat)) : State :=
  match mapFind s.cmds tag with
  | none => s
  | some k =>
    let s := { s with cmds := mapPut s.cmds tag { k with nj := k.nj + njSum en } }
    en.foldl (fun s e => s.chargeFunc k.ctrl e.1 e.2) s

/-- A Barlis command completes: DW0 holds its energy in µJ. -/
def State.barlisEnd (s : State) (tag sct sc : Nat) (dnr : Bool) (dw1 : Nat) : State :=
  let nj := ((mapFind s.cmds tag).map Cmd.nj).getD 0
  s.complete tag sct sc dnr (min (2 ^ 32 - 1) (nj / 1000)) dw1 0

/-- Successful completion. -/
def State.barlisOk (s : State) (tag dw1 : Nat) : State := s.barlisEnd tag 0 0 false dw1

/-- Invalid Field in Command. -/
def State.badField (s : State) (tag : Nat) : State := s.failCmd tag 0 2

/-- A command whose engine work has ended in failure completes by *Status mapping*, with the engine's status in DW1. -/
def State.engineFail (s : State) (tag st : Nat) : State :=
  match st / 256 with
  | 0x10 => s.barlisEnd tag 0 0x02 true st
  | 0x20 => s.barlisEnd tag 0 0x21 false st
  | 0x30 => s.barlisEnd tag 2 0x81 true st
  | 0x40 => s.barlisEnd tag 2 0x81 true st
  | 0x50 => { s with cmds := mapDel s.cmds tag }
  | 0x60 => s.barlisEnd tag 2 0x86 true st
  | _ => s.barlisEnd tag 0 0x06 true st

/-- A Barlis command on a namespace. -/
def State.barlisNs (s : State) (tag op : Nat) (run : State → Cmd → Ns → State) : State :=
  match s.cmdOf tag op false with
  | none => s
  | some k => s.ioCmd tag k run

/-- A Barlis I/O command that names no namespace: its NSID is 0. -/
def State.barlisNo (s : State) (tag op : Nat) (run : State → Cmd → State) : State :=
  match s.cmdOf tag op false with
  | none => s
  | some k => if k.e.nsid ≠ 0 then s.badField tag else run s k

/-- A Barlis admin command; it names no namespace. -/
def State.barlisAdmin (s : State) (tag op : Nat) (run : State → Cmd → State) : State :=
  s.admin tag op fun s k => if k.e.nsid ≠ 0 then s.badField tag else run s k

/-! ### Blocks of a range -/

/-- Why a range cannot be read: status code type and code. -/
def State.rangeRefuses (s : State) (nsid : Nat) (n : Ns) (lba len : Nat) : Option (Nat × Nat) :=
  let zs := max 1 s.zsze
  if s.nsSize nsid n < lba + len then some (0, 0x80)
  else if nsid = 1024 ∧ (List.range ((lba + len - 1) / zs + 1 - lba / zs)).any fun i =>
    let z := s.zone (lba / zs + i)
    z.state == .full && !z.staged then some (7, 0xC2)
  else if (s.firstBad nsid lba len).isSome then some (2, 0x81)
  else none

/-- The data of a range, with each block's metadata after it where `md` says so (log entry 94). -/
def State.rangeData (s : State) (nsid : Nat) (n : Ns) (lba len : Nat) (md : Bool) : List Byte :=
  (List.range len).flatMap fun i =>
    let b := s.readBlock nsid (lba + i) n
    if md then b.1 ++ b.2 else b.1

/-! ### Engine jobs of a command -/

/-- A job of a command of function `f` (log entry 92). -/
def cmdJob (f engine opcode p0 p1 : Nat) : Job where
  ring := .core .keeper 0
  engine := engine
  opcode := opcode
  notify := false
  chainDst := false
  eflags := 0
  func := f
  fepoch := 0
  tag := 0
  cfgEpoch := 0
  src := []
  srcLen := 0
  dstAddr := 0
  dst := []
  aux := none
  param0 := p0
  param1 := p1
  since := 0
  cclEpoch := 0
  inst := none
  slot := none
  released := 0
  result := none

/-- The instance of engine `e` that takes a command's jobs: the first that takes jobs at all. Without one the command waits (R353)
(log entry 126). -/
def State.engFree (s : State) (e : Nat) : Option Nat :=
  (engInsts e).find? fun pg => s.intake pg && s.intakeShare pg != 0

/-- Run a job of command `tag` over `src`, with `room` bytes of destination: its result, and what it has written (log entry 92). -/
def State.engRun (s : State) (tag : Nat) (j : Job) (src : List Byte) (room : Nat) (run : State → Job → State) :
    State × JobResult × List Byte :=
  let d := cmdBuf + 2 ^ 40
  let j := { j with
    src := if src.isEmpty then [] else [⟨cmdBuf, src.length⟩], srcLen := src.length
    dst := if room = 0 then [] else [⟨d, room⟩] }
  let s := run { s with mem := memWrite s.mem cmdBuf src, jobs := mapPut s.jobs tag j } j
  let r := ((mapFind s.jobs tag).bind Job.result).getD ⟨0x7010, 0, 0, 0⟩
  let out := memRead s.mem d r.bytesOut
  let clean := memWrite (memWrite s.mem cmdBuf (List.replicate src.length 0)) d (List.replicate room 0)
  ({ s with
      mem := clean, jobs := mapDel s.jobs tag
      ase := { s.ase with run := s.ase.run.filter fun e => e.2.tag != tag } }, r, out)

/-! ### Program Load, Program Unload (R322, R323, R453, R454) -/

/-- A field of 4 bytes of an image. -/
def img4 (b : List Byte) (off : Nat) : Nat := fieldAt b off 4

/-- The checks of R323 that the image alone decides: 0, or the status. -/
def State.imageStatus (s : State) (b : List Byte) : Nat :=
  let len := img4 b 8
  let code := img4 b 0x10
  let data := img4 b 0x14
  let signed := fieldAt b 6 2 == 1
  let win := fieldAt b 0x20 2
  if img4 b 0 ≠ 0x49504147 ∨ len % 8 ≠ 0 ∨ code % 8 ≠ 0 ∨ data % 8 ≠ 0 ∨ img4 b 0x18 % 64 ≠ 0 ∨ img4 b 0x1C % 64 ≠ 0
    ∨ len < 64 + code + data + (if signed then 96 else 0) ∨ b.length < len ∨ img4 b 0xC % 4 ≠ 0 ∨ code ≤ img4 b 0xC
    ∨ 1 < fieldAt b 6 2 ∨ win % 128 ≠ 0 ∨ 15 < fieldAt b 0x22 2 ∨ ¬ (b.drop 0x28 |>.take 0x18).all (· == 0) then 0x1001
  else if 1 < fieldAt b 5 1 then 0x1002
  else if !signed ∧ natBits s.kpr.policy 0 1 = 0 then 0x6001
  else if signed ∧ !Config.ecdsaVerify (Config.tenantKey (img4 b 0x24)) (sha384 (b.take (len - 96)))
    ((b.drop (len - 96)).take 48) ((b.drop (len - 48)).take 48) then 0x6002
  else 0

/-- Free contexts of cluster `n`, lowest first. -/
def State.freeBenches (s : State) (n : Nat) : List Nat := ((List.range 64).map (64 * n + ·)).filter fun x => (s.benchOf x).state == 0

/-- Benches bound to function `f`. -/
def State.boundTo (s : State) (f : Nat) : Nat := (s.benches.filter fun e => e.2.state != 0 && e.2.func == f).length

/-- The context that a load takes: in cluster `c`, or with 7 in the cluster with the most free contexts. -/
def State.pickBench (s : State) (f c : Nat) : Option Nat :=
  if (s.func f).ctl.bquota ≤ s.boundTo f then none else
  let n := if c < 4 then c else (List.range 4).foldl (fun m n => if (s.freeBenches m).length < (s.freeBenches n).length then n else m) 0
  (s.freeBenches n).head?

/-- Bind context `x` to function `f` with an image that passed its checks, placed at the DRAM addresses given (R324). -/
def State.bindImage (s : State) (f x : Nat) (b : List Byte) (codeAt dataAt stackAt : Nat) : State :=
  let a := s.imageAt (x / 64) (x % 64)
  let code := (b.drop 64).take (img4 b 0x10)
  let data := (b.drop (64 + img4 b 0x10)).take (img4 b 0x14)
  let s := (s.sramWrite (a + 0x460) (List.replicate 0x20 0)).1.imgPut a 0x480 2 f
  let s := (s.bindBench (x / 64) (x % 64) true).fillMem codeAt code.length code
  s.setBench x { s.benchOf x with
    prog := some ⟨img4 b 0xC, code, data, img4 b 0x18, img4 b 0x1C, fieldAt b 0x20 2, codeAt, dataAt, stackAt, b⟩ }

/-- PROGRAM_LOAD: a piece of an image; the final one binds a Bench, for which firmware has chosen DRAM addresses. -/
def execProgramLoad (tag : Nat) (data : List Byte) (codeAt dataAt stackAt : Nat) (s : State) : Host.Outcome State Fault Refusal :=
  next (fun s => s.barlisAdmin tag 0xC1 fun s k =>
    let c := k.ctrl
    let len := k.e.d10.toNat
    let ofs := k.e.d11.toNat
    let fin := k.e.d12.getLsbD 0
    let cl := natBits k.e.d12.toNat 1 3
    let keep (s : State) (st : Option (List Byte)) : State := s.setCtrl c { s.ctrl c with stage := st }
    let staged := if ofs = 0 then [] else (s.ctrl c).stage.getD []
    if !k.only m32 m32 0xF 0 0 0 ∨ (4 ≤ cl ∧ cl ≤ 6) ∨ len = 0 ∨ 2097152 < len ∨ (!fin ∧ len % 4096 ≠ 0) then s.badField tag
    else if ofs ≠ staged.length ∨ 0x0400_0000 < ofs + len then (keep s none).badField tag
    else if data.length < len then s.failCmd tag 0 4
    else
      let b := staged ++ data.take len
      if !fin then (keep s (some b)).barlisOk tag 0
      else
        let s := keep s none
        match s.imageStatus b with
        | 0 => match s.pickBench c cl with
          | some x => (s.bindImage c x b codeAt dataAt stackAt).barlisOk tag x
          | none => s.engineFail tag 0x2001
        | st => s.engineFail tag st) s

/-- Context `x` is bound to function `f`. -/
def State.ownBench (s : State) (f x : Nat) : Bool :=
  let b := s.benchOf x
  x < 256 && b.state != 0 && b.func == f && b.fepoch == (s.func f).epoch.toNat

/-- The streams of context `x` close; each Bench Attach Stream in progress ends with C3h, cause 0x05. -/
def State.closeStreams (s : State) (x : Nat) : State :=
  let b := s.benchOf x
  let s := b.streams.foldl (fun s e =>
    let s := s.fset (pCcl (x / 64) + 3) (Reg.STREAM (e.2.1 % 64) 0x10) 16 1 0
    s.complete e.2.2.1 7 0xC3 true 0 5 0) s
  s.setBench x { s.benchOf x with streams := [] }

/-- PROGRAM_UNLOAD: the Bench's runs and streams end at once; the command completes when the Bench has left its core and its jobs
have completed (log entry 91). -/
def execProgramUnload (tag : Nat) (s : State) : Host.Outcome State Fault Refusal :=
  next (fun s => s.barlisAdmin tag 0xC4 fun s k =>
    let x := k.e.d10.toNat
    if !k.only 0xFFFF 0 0 0 0 0 ∨ !s.ownBench k.ctrl x then s.badField tag else
    let s := ((s.runsEnd x 5).closeStreams x).ringsStop x
    if (s.coreOfCtx x).isSome ∨ (List.range 4).any fun r => s.ringBusy (.bench x r) then s
    else (s.bindBench (x / 64) (x % 64) false).barlisOk tag 0) s

/-! ### Bench Run (R455 to R457) -/

/-- Extents of a run block. -/
def rbExtents (rb : List Byte) : List (Nat × Nat) :=
  (List.range (fieldAt rb 0x18 4)).map fun e => (fieldAt rb (0x40 + 16 * e) 8, fieldAt rb (0x48 + 16 * e) 4)

/-- Fields of the run block and of the command that are wrong in themselves. -/
def State.runFieldsBad (s : State) (k : Cmd) (rb : List Byte) : Bool :=
  let n := fieldAt rb 0x18 4
  let resNs := k.e.d12.getLsbD 0
  let win := fieldAt rb 0x1C 4
  !k.only 0xFFFF m32 1 m32 m32 m32 || n == 0 || 4092 < n || k.e.d11.toNat != 64 + 16 * n
    || fieldAt rb 0x10 4 % 4096 != 0 || fieldAt rb 0x10 4 == 0 || 2 ^ 28 < fieldAt rb 0x10 4 || fieldAt rb 0x14 4 % 4096 != 0
    || 15 < win || (win != 0 && win < 10) || (win != 0 && s.barlisVer k.ctrl == 0x0100)
    || fieldAt rb 0x24 4 != 0 || fieldAt rb 0x34 12 != 0 || (resNs && fieldAt rb 0 16 != 0)
    || (List.range n).any fun e => fieldAt rb (0x4C + 16 * e) 4 != 0 || fieldAt rb (0x48 + 16 * e) 4 == 0

/-- An earlier-stamped Bench Run of the same Bench has not been accepted yet: the runs of a Bench execute in stamp order. -/
def State.runBefore (s : State) (k : Cmd) : Bool :=
  s.cmds.any fun e => e.2.e.opc == 0xC1 && e.2.sq != 0 && e.2.ctrl == k.ctrl && natBits e.2.e.d10.toNat 0 16 == natBits k.e.d10.toNat 0 16
    && e.2.stamp < k.stamp && !e.2.accepted && !e.2.ended

/-- Windows that the run grants. -/
def State.granted (s : State) (x : Nat) (rb : List Byte) : Nat :=
  let win := fieldAt rb 0x1C 4
  2 ^ 7 + 2 ^ 8 + (if fieldAt rb 0x14 4 = 0 then 0 else 2 ^ 9)
    + if win ≠ 0 ∧ (mapFind (s.benchOf x).streams win).isSome then 2 ^ win else 0

/-- BENCH_RUN: `rb` is the run block; firmware has chosen DRAM addresses for input, result and scratch. -/
def execBenchRun (tag : Nat) (rb : List Byte) (inAt resAt scrAt : Nat) (s : State) : Host.Outcome State Fault Refusal :=
  next (fun s => s.barlisNs tag 0xC1 fun s k n =>
    let x := natBits k.e.d10.toNat 0 16
    let ext := rbExtents rb
    let resNs := k.e.d12.getLsbD 0
    let rn := fieldAt rb 0x20 4
    if s.runBefore k then s
    else if rb.length < k.e.d11.toNat then s.failCmd tag 0 4
    else if s.runFieldsBad k rb ∨ !s.ownBench k.ctrl x then s.badField tag
    else if 2 ^ 30 < (ext.map Prod.snd).sum * lbaSize n.lbaf then s.badField tag
    else match ext.findSome? fun e => s.rangeRefuses k.e.nsid n e.1 e.2 with
    | some r => s.failAs tag r
    | none =>
      match (if resNs then s.attachedNs k.ctrl rn else some n) with
      | none => s.failCmd tag 0 0x0B
      | some m =>
        let b := s.benchOf x
        if resNs ∧ s.nsSize rn m < fieldAt rb 0x28 8 + fieldAt rb 0x30 4 then s.failCmd tag 0 0x80
        else if (b.prog.map Prog.winReq).getD 0 &&& s.granted x rb ≠ (b.prog.map Prog.winReq).getD 0 then s.engineFail tag 0x1003
        else if b.state = 4 then s.barlisEnd tag 7 0xC3 true 7
        else
          let t : BenchTask := ⟨tag, k.e.d15.toNat, ext.flatMap fun e => s.rangeData k.e.nsid n e.1 e.2 false, fieldAt rb 0x10 4,
            fieldAt rb 0x14 4, fieldAt rb 0x1C 4, k.e.d13.toNat, k.e.d14.toNat,
            if resNs then some (rn, fieldAt rb 0x28 8, fieldAt rb 0x30 4) else none, inAt, resAt, scrAt⟩
          let s := (s.takeCmd tag).setBench x { b with waiting := b.waiting ++ [t] }
          if (s.coreOfCtx x).isSome then s else s.benchStart x) s

/-- The result goes to the range that the run block names, zero-padded to a whole block (log entry 93). -/
def State.putResult (s : State) (k : Cmd) (nsid lba : Nat) (b : List Byte) : State :=
  match mapFind s.nss nsid with
  | none => s
  | some n =>
    let z := lbaSize n.lbaf
    let bs := (List.range (ceilDiv b.length z)).map fun i =>
      let d := (b.drop (i * z)).take z
      let d := d ++ List.replicate (z - d.length) 0
      (d, if n.pi = 0 then List.replicate (metaSize n.lbaf) (0 : Byte) else piMake n.lbaf d 0 (refAt n.lbaf n.pi lba i))
    (s.clearMarks nsid lba bs.length).putBlocks { k with e := { k.e with nsid := nsid } } lba bs

/-- A run ends with SVC #0: exit code `exit` and `n` result bytes (R456, R457; log entry 65). -/
def State.runDone (s : State) (x exit n : Nat) : State :=
  let b := s.benchOf x
  match b.run with
  | none => s
  | some t =>
    let room := match t.resNs with
      | some (nsid, _, len) => min t.resLen (len * ((mapFind s.nss nsid).map fun m => lbaSize m.lbaf).getD 0)
      | none => t.resLen
    if exit ≠ 0 then s.runFault x 1 0 exit
    else if room < n then s.runFault x 6 0 0
    else
      let (s, d) := s.busRead t.resAt n
      let (s, e) := s.runEnergy x t.tag
      let out := d.getD []
      match mapFind s.cmds t.tag with
      | none => s.runOver x
      | some k =>
        match t.resNs with
        | none => ((s.emit (.hostData k.ctrl out)).complete t.tag 0 0 false e (n % 2 ^ 32) 0).runOver x
        | some (nsid, lba, _) =>
          let nlb := ceilDiv n 4096
          let blocks := ceilDiv n (((mapFind s.nss nsid).map fun m => lbaSize m.lbaf).getD 4096)
          match (if nsid = 1024 ∧ n ≠ 0 then s.zoneRefuses (lba / s.zsze) (lba % s.zsze) nlb
            else if s.partMarked nsid lba blocks then some (2, 0x81) else none) with
          | some r => (s.complete t.tag r.1 r.2 true e 0 0).runOver x
          | none =>
            let s := s.putResult k nsid lba out
            let s := if nsid = 1024 ∧ n ≠ 0 then s.zoneAdvance (lba / s.zsze) nlb else s
            (s.complete t.tag 0 0 false e (n % 2 ^ 32) 0).runOver x

/-! ### Streams (R458, R335) -/

/-- A free stream of cluster `n`. -/
def State.freeStream (s : State) (n : Nat) : Option Nat :=
  ((List.range 64).map (64 * n + ·)).find? fun i => s.strFld i 0x10 16 1 == 0

/-- Open stream `i` for Bench `b` of its cluster, with control block and buffer at the addresses given. -/
def State.openStream (s : State) (i b cb buf log : Nat) : State :=
  let pg := pCcl (i / 64) + 3
  let w (s : State) (o v : Nat) : State := s.rset pg (Reg.STREAM (i % 64) o) (BitVec.ofNat 32 v)
  let s := w (w (w (w s 0 (cb % 2 ^ 32 / 64 * 64)) 4 (cb / 2 ^ 32 % 2 ^ 16)) 8 (buf % 2 ^ 32 / 4096 * 4096)) 0xC (buf / 2 ^ 32 % 2 ^ 16)
  let s := w s 0x10 (log + b * 2 ^ 8 + 2 ^ 16)
  (s.fillMem cb 64 []).setStream i ⟨0, 0, false⟩

/-- BENCH_ATTACH_STREAM: firmware has chosen addresses for the stream's control block and buffer. -/
def execBenchAttachStream (tag cb buf : Nat) (s : State) : Host.Outcome State Fault Refusal :=
  next (fun s => s.barlisNs tag 0xC0 fun s k n =>
    let x := natBits k.e.d10.toNat 0 16
    let z := k.e.d11.toNat + k.e.d12.toNat * 2 ^ 32
    let win := natBits k.e.d13.toNat 0 4
    let log := natBits k.e.d13.toNat 8 5
    if !k.only 0xFFFF m32 m32 0x1F0F 0 0 ∨ !s.ownBench k.ctrl x ∨ win < 10 ∨ log < 12 ∨ 30 < log ∨ k.e.nsid ≠ 1024
      ∨ s.nsSize 1024 n ≤ z ∨ z % s.zsze ≠ 0 ∨ (mapFind (s.benchOf x).streams win).isSome then s.badField tag
    else if (s.benchOf x).state = 4 then s.barlisEnd tag 7 0xC3 true 7
    else match s.freeStream (x / 64) with
    | none => s.badField tag
    | some i =>
      let s := (s.takeCmd tag).openStream i (x % 64) cb buf log
      let b := s.benchOf x
      s.setBench x { b with streams := mapPut b.streams win (i, tag, (s.zone (z / s.zsze)).wp) }) s

/-- The Bench Attach Stream that stream `i` serves: its work tag and blocks to deliver. -/
def State.attachOf (s : State) (i : Nat) : Option (Nat × Nat) :=
  s.benches.findSome? fun e => e.2.streams.findSome? fun w =>
    if w.2.1 = i ∧ (mapFind s.cmds w.2.2.1).isSome then some w.2.2 else none

/-- STREAM_FILL: the producer delivers `data`; for a zone with a staged copy, the next bytes of that copy, as many. The stream of
a Bench Attach Stream closes with its last block, which completes the command. -/
def execStreamFill (stream : Fin 256) (data : List Byte) (last : Bool) (s : State) : Host.Outcome State Fault Refusal :=
  next (fun s =>
    let i := stream.val
    match s.attachOf i with
    | none => s.strFill i data last
    | some (tag, blocks) =>
      match mapFind s.cmds tag with
      | none => s
      | some k =>
        let lba := k.e.d11.toNat + k.e.d12.toNat * 2 ^ 32
        let from_ := (s.streamOf i).fill.toNat
        let staged := (s.zone (lba / max 1 s.zsze)).staged
        let n := min data.length (blocks * 4096 - from_)
        let b0 := from_ / 4096
        let nb := ceilDiv (from_ + n) 4096 - b0
        if staged ∧ (s.firstBad 1024 (lba + b0) nb).isSome then s.barlisEnd tag 2 0x81 true 0
        else
          let src := match mapFind s.nss 1024 with
            | some m => if staged then ((s.rangeData 1024 m (lba + b0) nb false).drop (from_ % 4096)).take n else data.take n
            | none => data.take n
          let s := s.strFill i src (from_ + n == blocks * 4096)
          if (s.streamOf i).closed then s.barlisOk tag blocks else s) s

/-! ### Bench Status (R459) -/

/-- BENCH_STATUS (R459). -/
def execBenchStatus (tag : Nat) (s : State) : Host.Outcome State Fault Refusal :=
  next (fun s => s.barlisAdmin tag 0xC2 fun s k =>
    let x := k.e.d10.toNat
    if !k.only 0xFFFF 0 0 0 0 0 ∨ !s.ownBench k.ctrl x then s.badField tag else
    let b := s.benchOf x
    let (s, used) := s.benchUsed x
    let run := ((s.coreOfCtx x).bind fun c => (s.core c).bench).map fun r => s.tb.toNat - r.since.toNat
    let strs := if s.barlisVer k.ctrl = 0x0100 then 0 else (b.streams.map fun e => 2 ^ (e.1 - 10)).sum
    let d := leBytes 1 b.state ++ leBytes 1 b.lastCause ++ leBytes 1 b.lastVec ++ leBytes 1 (x / 64) ++ leBytes 2 x
      ++ leBytes 2 b.waiting.length ++ leBytes 8 (used / 1000) ++ leBytes 8 ((b.tUsed + run.getD 0) / 1000)
      ++ leBytes 4 b.runs ++ leBytes 4 strs ++ List.replicate 32 0
    (s.emit (.hostData k.ctrl d)).barlisOk tag 0) s

/-! ### Fixity (R460) -/

/-- A fixity command whose range can be read: the digest of the range. -/
def State.fixity (s : State) (tag op : Nat) (en : List (Nat × Nat)) (give : State → Cmd → List Byte → State) : State :=
  s.barlisNs tag op fun s k n =>
    let alg := natBits k.e.d13.toNat 0 4
    let len := k.e.d12.toNat + 1
    if !k.only m32 m32 m32 0x10F 0 0 ∨ algOut alg = 0 then s.badField tag else
    match s.rangeRefuses k.e.nsid n k.slba len with
    | some r => s.failAs tag r
    | none =>
      if (s.engFree 0x15).isNone then s else
      let d := s.rangeData k.e.nsid n k.slba len (k.e.d13.getLsbD 8)
      give ((s.cmdCharge tag en).addPair pHse Reg.HSE_IN_LO d.length) k (algDigest alg d)

/-- FIXITY_COMPUTE: `en` is the energy of its work, nJ by block type. -/
def execFixityCompute (tag : Nat) (en : List (Nat × Nat)) (s : State) : Host.Outcome State Fault Refusal :=
  next (fun s => s.fixity tag 0xC2 en fun s k d => (s.emit (.hostData k.ctrl d)).barlisOk tag 0) s

/-- FIXITY_VERIFY: `want` is the host's digest. -/
def execFixityVerify (tag : Nat) (want : List Byte) (en : List (Nat × Nat)) (s : State) : Host.Outcome State Fault Refusal :=
  next (fun s => s.fixity tag 0xC5 en fun s _ d => s.barlisOk tag (if want.take d.length = d then 0 else 1)) s

/-! ### Transform (R461) -/

/-- Bits of CDW13 and CDW14 that an operation uses. -/
def transformMask (op : Nat) : Nat × Nat :=
  match op with
  | 1 => (7 + bitMask 4 3 + bitMask 8 4 + bitMask 16 13, 0)
  | 2 => (7 + bitMask 4 3, bitMask 0 12 + bitMask 16 12)
  | _ => (7, bitMask 0 9 + bitMask 12 4)

/-- The engine job of a Transform, and the bytes of the range that are its source. -/
def transformJob (k : Cmd) (z : Nat) (d : List Byte) : Job × List Byte :=
  let w := k.e.d13.toNat
  let v := k.e.d14.toNat
  let fmt := natBits w 4 3
  match natBits w 0 3 with
  | 1 => (cmdJob k.ctrl 0x13 1 (fmt + natBits w 8 4 * 2 ^ 8 + natBits w 16 13 * 2 ^ 16) 0, d)
  | 2 => (cmdJob k.ctrl 0x13 2 fmt 0, (d.take (d.length - natBits v 16 12)).drop (natBits v 0 12))
  | op =>
    let du := natBits v 12 4
    (cmdJob k.ctrl 0x14 (op - 2) (k.slba * z / 2 ^ du) (natBits v 0 9 + du * 2 ^ 12), d)

/-- Run it, under the settings that are in force. -/
def State.transformRun (s : State) (tag pg : Nat) (j : Job) : State :=
  let j := { j with inst := some (pg, s.epoch pg) }
  if j.engine = 0x13 then
    match cxeRefusal j with
    | some e => s.cxeEnd pg tag ⟨e, 0, 0, 0⟩
    | none => if j.opcode = 1 then s.cxeCompress pg tag j else s.cxeDecompress pg tag j true
  else match aeeRefusal j with
    | some e => s.aeeFail pg tag e
    | none => s.aeeXts pg tag j (j.opcode == 1)

/-- TRANSFORM (R448, R449, R450, R461). -/
def execTransform (tag : Nat) (en : List (Nat × Nat)) (s : State) : Host.Outcome State Fault Refusal :=
  next (fun s => s.barlisNs tag 0xC6 fun s k n =>
    let op := natBits k.e.d13.toNat 0 3
    let z := lbaSize n.lbaf
    let m := transformMask op
    let len := k.e.d12.toNat + 1
    let room := k.e.d15.toNat
    let v := k.e.d14.toNat
    if !k.only m32 m32 m32 m.1 m.2 m32 ∨ op = 0 ∨ 4 < op ∨ room < 65 ∨ 2097152 < room
      ∨ (op = 1 ∧ natBits k.e.d13.toNat 16 13 * 1024 % z ≠ 0)
      ∨ (op = 2 ∧ (z ≤ natBits v 0 12 ∨ z ≤ natBits v 16 12))
      ∨ (3 ≤ op ∧ k.slba * z % 2 ^ natBits v 12 4 ≠ 0) then s.badField tag
    else match s.rangeRefuses k.e.nsid n k.slba len with
    | some r => s.failAs tag r
    | none =>
      let (j, src) := transformJob k z (s.rangeData k.e.nsid n k.slba len false)
      match s.engFree j.engine with
      | none => s
      | some pg =>
      let (s, r, out) := (s.cmdCharge tag en).engRun tag j src (room - 64) fun s j => s.transformRun tag pg j
      if r.status < 0x200 ∨ r.status = 0x2010 then
        let h := leBytes 8 r.bytesIn ++ leBytes 8 r.bytesOut ++ leBytes 2 r.status ++ leBytes 2 r.detail ++ List.replicate 44 0
        (s.emit (.hostData k.ctrl (h ++ out))).barlisOk tag r.status
      else s.engineFail tag r.status) s

/-! ### Search and Index Load (R462, R463) -/

/-- SEARCH: `data` is what the host's buffer holds. -/
def execSearch (tag : Nat) (data : List Byte) (en : List (Nat × Nat)) (s : State) : Host.Outcome State Fault Refusal :=
  next (fun s => s.barlisNo tag 0xC7 fun s k =>
    let t := natBits k.e.d10.toNat 0 4
    let mode := natBits k.e.d10.toNat 8 2
    let count := k.e.d11.toNat
    let blen := k.e.d13.toNat
    let keys := if mode < 2 then 16 * s.aseWidth t * count else 0
    let recs := if mode = 3 then 0 else 16 * count
    if !k.only 0x30F m32 0x1F m32 0 0 ∨ blen % 16 ≠ 0 ∨ 2097152 < blen ∨ blen < keys ∨ blen < recs ∨ (mode = 1 ∧ count ≠ 1)
      ∨ (mode = 3 ∧ count ≠ 0) ∨ (mode < 2 ∧ k.e.d12 ≠ 0) ∨ (mode = 2 ∧ 65535 < count) then s.badField tag
    else if data.length < keys then s.failCmd tag 0 4
    else if (s.engFree 0x16).isNone then s
    else
      let ctx := natBits k.e.d12.toNat 0 5
      let j := cmdJob k.ctrl 0x16 (mode + 1) t (if mode < 2 then 0 else ctx * 2 ^ 32 + if mode = 2 then count * 2 ^ 48 else 0)
      let (s, r, out) := (s.cmdCharge tag en).engRun tag j (data.take keys) recs fun s j =>
        match s.aseRefusal j with
        | some e => s.aseFail tag e
        | none => match mode with
          | 0 => s.aseSearch tag j []
          | 1 => s.aseSearchCtx tag j none
          | 2 => s.aseStep tag j
          | _ => (s.ctxFree ctx).aseEnd tag ⟨0, 0, 0, 0⟩
      if r.status < 0x200 then
        let s := if out.isEmpty then s else s.emit (.hostData k.ctrl out)
        s.barlisOk tag (out.length / 16)
      else s.engineFail tag r.status) s

/-- INDEX_LOAD: `data` holds the entry records. -/
def execIndexLoad (tag : Nat) (data : List Byte) (en : List (Nat × Nat)) (s : State) : Host.Outcome State Fault Refusal :=
  next (fun s => s.barlisNo tag 0xC9 fun s k =>
    let w := k.e.d10.toNat
    let op := natBits w 16 3
    let blen := k.e.d12.toNat
    let slot := natBits k.e.d11.toNat 0 11
    let holes := natBits k.e.d11.toNat 20 11
    if !k.only (0xF + bitMask 8 6 + bitMask 16 3) (bitMask 0 11 + bitMask 20 11) m32 0 0 0 ∨ 4 < op ∨ 2097152 < blen
      ∨ (3 ≤ op ∧ blen ≠ 0) ∨ 1024 < slot ∨ (holes ≠ 0 ∧ op ≠ 0) then s.badField tag
    else if data.length < blen then s.failCmd tag 0 4
    else if (s.engFree 0x16).isNone then s
    else
      let opc := if op = 4 then 0x15 else 0x10 + op
      let p1 := natBits w 8 6 + (if op = 4 then 0 else slot * 2 ^ 8) + holes * 2 ^ 20
      let j := cmdJob k.ctrl 0x16 opc (natBits w 0 4) p1
      let (s, r, _) := (s.cmdCharge tag en).engRun tag j (data.take blen) 0 fun s j =>
        match s.aseRefusal j with
        | some e => s.aseFail tag e
        | none => match op with
          | 0 => s.aseLoad tag j
          | 1 => s.aseInsert tag j
          | 2 => s.aseWrite tag j
          | 3 => s.aseDelete tag j
          | _ => s.aseClear tag j
      if r.status < 0x200 then s.barlisOk tag r.detail else s.engineFail tag r.status) s

/-! ### Zones (R464) -/

/-- A zone command of command `tag`, accepted or not: checks, then `run` with the zone (log entry 91). -/
def State.zoneCmd (s : State) (tag op mask : Nat) (run : State → Cmd → Nat → Zone → State) : State :=
  match mapFind s.cmds tag with
  | none => s
  | some k =>
    if k.e.opc ≠ op ∨ k.sq = 0 ∨ k.ended then s else
    s.ioCmd tag k fun s k n =>
      let z := k.slba / max 1 s.zsze
      if !k.only m32 m32 mask 0 0 0 ∨ k.e.nsid ≠ 1024 ∨ s.nsSize 1024 n ≤ k.slba ∨ k.slba % s.zsze ≠ 0 then s.badField tag
      else run s k z (s.zone z)

/-- STAGE_ZONE starts where the flash tier has room, and ends with the blocks that could not be read from tape; the staged copy
holds the others (log entries 91 and 122). -/
def execStageZone (tag : Nat) (room : Bool) (done : Option (List Nat)) (s : State) : Host.Outcome State Fault Refusal :=
  next (fun s => s.zoneCmd tag 0xC8 0 fun s k z x =>
    if x.staged ∨ x.wp = 0 then s.barlisOk tag 0
    else if !k.accepted ∧ !room then s.barlisEnd tag 0 0x21 false 0
    else match done with
    | none => (s.takeCmd tag).divertOff
    | some bad =>
      let s := bad.foldl (fun s i => if i < x.wp then s.badBlocks 1024 (z * s.zsze + i) 1 else s) s
      (s.setZone z { x with staged := true }).barlisOk tag 0) s

/-- DESTAGE_ZONE: the destage starts in zone order; the command completes once the zone is destaged, or has failed (log entry 45). -/
def execDestageZone (tag : Nat) (s : State) : Host.Outcome State Fault Refusal :=
  next (fun s => s.zoneCmd tag 0xC4 1 fun s k z x =>
    if x.destaged then (if k.e.d12.getLsbD 0 then s.setZone z { x with staged := false } else s).barlisOk tag 0
    else if x.state = .readOnly then s.barlisEnd tag 2 0x80 true 0
    else
      let s := s.takeCmd tag
      match s.writeFmt with
      | none => s
      | some f =>
        let first := (s.zones.find? fun e => e.2.state == .full && !e.2.destaged).map Prod.fst
        if first = some z ∧ !s.zones.any (·.2.destaging) ∧ s.enabled pFmt then
          s.destageBegin f z x
        else s) s

/-- The function may seal zones (R515). -/
def State.sealOk (s : State) (f : Nat) : Bool := s.isPf f || natBits s.kpr.policy 2 1 == 1

/-- SEAL_ZONE: waits for the zone's destage; the seal takes effect with its journal entry. -/
def execSealZone (tag : Nat) (s : State) : Host.Outcome State Fault Refusal :=
  next (fun s => s.zoneCmd tag 0xCC 1 fun s k z x =>
    if k.e.d12 ≠ 1 then s.badField tag
    else if !s.sealOk k.ctrl then s.failCmd tag 2 0x86
    else if x.state ≠ .full then s.badField tag
    else if x.sealed then s.barlisOk tag 0
    else if !x.destaged then s.takeCmd tag
    else if s.kpr.queue.any fun i => i.change == .seal tag z then s
    else s.journalCmd tag 0x0A (leBytes 8 s.cartId ++ leBytes 4 z) (.seal tag z)) s

/-- The seal of zone `z` takes effect: its record, and its copy in cartridge memory (R441, R515). -/
def State.sealZone (s : State) (tag z seq time : Nat) : State :=
  let years := natBits s.kpr.policy 8 8
  let exp := if years = 0 then 2 ^ 64 - 1 else time + years * 31557600000
  let s := { s with kpr := { s.kpr with seals := s.kpr.seals ++ [(⟨s.cartId, z, seq, time, exp⟩ : Seal)] } }
  ((s.setZone z { s.zone z with sealed := true }).emit (.issue "CM_SEAL" [s.cartId, z, seq, time, exp])).barlisOk tag 0

/-! ### Energy Report (R465) -/

/-- Entries of 16 bytes for energies by block type. -/
def njEntries (m : FMap Nat) : List Byte :=
  (m.filter fun e => e.2 != 0).flatMap fun e => leBytes 1 e.1 ++ [0xFF] ++ List.replicate 6 0 ++ leBytes 8 (e.2 / 1000)

/-- Mean power over the last second from a history of energies, mW (log entry 95). -/
def meanMw (nj : Nat) (hist : List Nat) : Nat := (ratio ((nj - hist.getD 99 0 : Nat) : Int) 1000000).toNat

/-- The report of a scope: total in µJ, mean mW, cap, entries; none where the scope is not the controller's to ask for (log entry 95). -/
def State.energyScope (s : State) (k : Cmd) : Option (Nat × Nat × Nat × List Byte) :=
  let f := s.func k.ctrl
  match natBits k.e.d10.toNat 0 2 with
  | 0 => some (njSum f.nj / 1000, f.mean, f.ctl.ecap, njEntries f.nj)
  | 1 =>
    let x := natBits k.e.d11.toNat 0 16
    let b := s.benchOf x
    if s.ownBench k.ctrl x then some (njSum b.nj / 1000, meanMw (njSum b.nj) b.hist, f.ctl.ecap, njEntries b.nj) else none
  | 2 =>
    if s.isPf k.ctrl then
      some (s.rg64 pEmt Reg.EMT_DEV_LO, s.fget pEmt Reg.EMT_POWER 0 24, 0,
        allBlks.flatMap fun b => leBytes 1 b.typ.code ++ leBytes 1 b.inst ++ List.replicate 6 0
          ++ leBytes 8 (s.rg64 b.base Reg.ENERGY_LO))
    else none
  | _ => none

/-- ENERGY_REPORT (R465). -/
def execEnergyReport (tag : Nat) (s : State) : Host.Outcome State Fault Refusal :=
  next (fun s => s.barlisAdmin tag 0xC6 fun s k =>
    match s.energyScope k with
    | none => s.badField tag
    | some (total, power, cap, ents) =>
      if !k.only 3 (if natBits k.e.d10.toNat 0 2 = 1 then 0xFFFF else 0) m32 0 0 0 ∨ k.e.d12.toNat < 64 + ents.length then s.badField tag
      else
        let h := leBytes 2 (ents.length / 16) ++ leBytes 2 (natBits k.e.d10.toNat 0 2) ++ leBytes 4 0 ++ leBytes 8 total
          ++ leBytes 4 power ++ leBytes 4 cap ++ leBytes 8 s.tb.toNat ++ List.replicate 32 0
        (s.emit (.hostData k.ctrl (h ++ ents))).barlisOk tag 0) s

end Sys2Proof.Machine
end

