-- ==== Sys2Proof/Machine/FlashCommands.lean ====
section
/-! DEFINITION. The commands of the decoder fabric and of the flash tier (chapters 5 and 8). -/

namespace Sys2Proof.Machine

/-- Results go to who asked for them. -/
def State.cwDeliverAll (s : State) (l : List Ended) : State := l.foldl (fun s e => s.cwDeliver e) s

/-! ### The decoder fabric -/

/-- The request that eight words of R141 hold. -/
def cwOfWords (w : List RegWord) : CwReq :=
  let g (i lo len : Nat) : Nat := bitsOf (w.getD i 0) lo len
  ⟨g 0 0 16, g 1 0 2, g 1 2 2, g 2 0 32 + g 3 0 16 * 2 ^ 32, g 4 0 32 + g 5 0 16 * 2 ^ 32, g 6 0 16, g 7 0 32, .bus, [], true⟩

/-- The oldest waiting request that its queue takes, and the others (R140, R144): a full queue H or B holds back its own class alone. -/
def State.wantNext (s : State) : Option (CwReq × List CwReq) :=
  (s.dcf.want.find? fun r => r.cls == 0 || !s.dcf.full r.cls).map fun r => (r, s.dcf.want.erase r)

/-- A request is passed; a result at once goes to who asked. -/
def State.cwGive (s : State) (r : CwReq) : State :=
  match s.cwRequest r with
  | some (s, some e) => s.cwDeliver e
  | some (s, none) => s
  | none => s

/-- CODEWORD_REQUEST (R140, R141): the request that the words spell, or, with no words, the oldest one that FMT or FTM waits to
pass. A full class queue H or B leaves it with the requester. -/
def execCodewordRequest (words : List RegWord) (s : State) : Host.Outcome State Fault Refusal :=
  next (fun s =>
    if !s.intake pDcf then s
    else if words.isEmpty then
      match s.wantNext with
      | some (r, q) => (s.setDcf { s.dcf with want := q }).cwGive r
      | none => s
    else
      let r := cwOfWords words
      if r.cls = 3 ∨ r.fmt = 3 then s else s.cwGive r) s

/-- TILE_DISPATCH (R147). -/
def execTileDispatch (s : State) : Host.Outcome State Fault Refusal :=
  next (fun s =>
    if !s.enabled pDcf then s else
    let (s, l) := s.cwDispatch
    s.cwDeliverAll l) s

/-- DECODE_END (R132 to R134, R143, R215 to R217). -/
def execDecodeEnd (tile : Fin 48) (s : State) : Host.Outcome State Fault Refusal :=
  next (fun s =>
    if !s.enabled pDcf then s else
    let (s, l) := s.cwEnd tile.val
    s.cwDeliverAll l) s

/-- DEADLINE_EXPIRY (R145): the deadline of the class-T codeword at the head of its queue. -/
def execDeadlineExpiry (s : State) : Host.Outcome State Fault Refusal :=
  next (fun s =>
    if !s.enabled pDcf then s else
    match s.dcf.qT with
    | w :: _ =>
      let (s, e) := (s.reach w.deadline).cwExpire
      s.cwDeliverAll e.toList
    | [] => s) s

/-! ### Discovery and training -/

/-- DISCOVERY (R200): a reserved encoding while it runs or while mapping is on. -/
def State.discGo (s : State) : State :=
  if s.fget pFtm Reg.FTM_DISC 16 4 = 1 ∨ s.bit pFtm Reg.FTM_CTRL 0 then s.badWrite pFtm Reg.FTM_DISC 1
  else if !s.intake pFtm then s
  else ((s.fset pFtm Reg.FTM_DISC 16 4 1).setFlash { s.flash with disc := true }).emit (.issue "FLASH_DISCOVERY" [])

/-- DISCOVERY (R200, R202). -/
def execDiscovery (_req : Requester) (s : State) : Host.Outcome State Fault Refusal := next (fun s => s.discGo) s

/-- A try finds windows of at least 0.3 UI (R202). -/
def tryPasses (x : FlcTry) : Bool :=
  x.zq && x.dcc && 192 ≤ 10 * (x.rdHi.toNat - x.rdLo.toNat) && 192 ≤ 10 * (x.wrHi.toNat - x.wrLo.toNat)

/-- The bin that training ends at, from bin `n` down, each bin tried twice at most, with the try that passed (R202): 0 where none does. -/
def flcBin : Nat → List FlcTry → Nat × Option FlcTry
  | 0, _ => (0, none)
  | n + 1, l => match (l.take 2).find? tryPasses with
    | some x => (n + 1, some x)
    | none => flcBin n (l.drop 2)

/-- FLC_DLY after a try: the delays at the centres of the windows, and the windows. -/
def tryDelays (x : FlcTry) : RegWord :=
  let mid (lo hi : BitVec 8) : Nat := (lo.toNat + hi.toNat) / 2
  BitVec.ofNat 32 (mid x.rdLo x.rdHi + mid x.wrLo x.wrHi * 2 ^ 8 + (x.rdHi.toNat - x.rdLo.toNat) * 2 ^ 16 + (x.wrHi.toNat - x.wrLo.toNat) * 2 ^ 24)

/-- Present dies of channel `c`, mapped out or not. -/
def State.chanDies (s : State) (c : Nat) : List Nat :=
  (List.range 32).map (32 * c + ·) |>.filter fun d => s.bit (pFtm + 1) (Reg.FTM_DIE d) 0

/-- The highest bin that channel `c` may train at (R202). -/
def State.flcTop (s : State) (c : Nat) : Nat :=
  (s.chanDies c).foldl (fun m d => min m (mapGet (fun _ => 5) s.flash.rates d)) (min 5 (s.fget (pFlc c) Reg.FLC_RATE 0 3))

/-- The training of channel `c` ends (R202): its bin, delays and windows; step-downs; or no data rate at all. -/
def State.flcTrained (s : State) (c : Nat) (tries : List FlcTry) : State × Bool :=
  let pg := pFlc c
  let top := s.flcTop c
  let (b, x) := flcBin top tries
  let s := s.setFlash { s.flash with
    trainTemp := mapPut s.flash.trainTemp c (signedOf 8 (s.fget pFtm Reg.FTM_TEMP 0 8), s.tb.toNat) }
  let s := s.fset pg Reg.FLC_RATE 8 3 b
  if b = 0 ∧ top ≠ 0 then
    let s := (List.range (top - 1)).foldl (fun s _ => s.raise pg 5) s
    let s := (s.fset pg Reg.FLC_TRAIN 16 4 4).errCnt pg 3
    (((s.raise pg 5).raise pg 4).fset pg Reg.BLK_CTRL 0 1 0, false)
  else
    let s := (List.range (top - b)).foldl (fun s _ => s.raise pg 5) s
    let s := s.fset pg Reg.FLC_TRAIN 16 4 (if b = top then 2 else 3)
    let s := match x with
      | some x => s.rset pg Reg.FLC_DLY (tryDelays x)
      | none => s
    (s.raise pg 4, true)

/-- The chip enable and the LUN of a die answer, with the bytes of READ ID (R200). -/
def dieAnswers (x : DieInfo) : Bool := x.ready && x.id.take 4 == [0x4F, 0x4E, 0x46, 0x49]

/-- The parameter page that FTM takes: the first copy, of at most 8, whose ONFI CRC-16 is valid (R200; log entry 146). -/
def dieParams (x : DieInfo) : Option (List Byte) :=
  (x.copies.take 8).find? fun b => b.length == 256 && crcMsb 16 0x8005 0x4F4E (b.take 254) == fieldAt b 254 2

/-- The LUNs of a chip enable, and the geometry, as a parameter page gives them (log entry 146). -/
def paramLuns (b : List Byte) : Nat := fieldAt b 100 1
def paramGeom (b : List Byte) : Geometry := ⟨fieldAt b 80 4, fieldAt b 84 2, fieldAt b 92 4, fieldAt b 96 4, fieldAt b 102 1⟩

/-- A geometry within *Flash geometry limits* (R199). -/
def Geometry.ok (g : Geometry) : Bool :=
  g.blocks ≤ 262144 && g.pages ≤ 4096 && 18448 ≤ g.page + g.spare && 1 ≤ g.bits && g.bits ≤ 4

/-- A die as discovery maps it (R201): the cause of its map-out, 0 for none (log entry 51). -/
def dieCause (geom : Geometry) (trained : Bool) (x : DieInfo) : Nat :=
  if !dieAnswers x then 1 else
  match dieParams x with
  | none => 2
  | some b => if paramGeom b ≠ geom ∨ !geom.ok then 3 else if !trained then 4 else 0

/-- DISCOVERY_END (R200, R201): `dies` are the LUNs of the chip enables that were reset, and `chans` the tries of each channel's training. -/
def execDiscoveryEnd (dies : List DieInfo) (chans : List (List FlcTry)) (s : State) : Host.Outcome State Fault Refusal :=
  next (fun s =>
    if !s.flash.disc ∨ !s.enabled pFtm then s else
    let there (x : DieInfo) : Bool := s.enabled (pFlc (chanOf x.die)) && match dieParams x with
      | some b => decide (x.die % 4 < paramLuns b)
      | none => true
    let dies := (List.range 512).filterMap fun d => dies.find? fun x => x.die == d && there x
    let geom : Geometry := ((dies.filter dieAnswers).findSome? fun x => (dieParams x).map paramGeom).getD ⟨0, 0, 0, 0, 0⟩
    -- the die map, with presence and rates, before training
    let s := (List.range 512).foldl (fun s d => s.rset (pFtm + 1) (Reg.FTM_DIE d) (s.rg (pFtm + 1) (Reg.FTM_DIE d) &&& 0xFFE0)) s
    let s := s.setFlash { s.flash with disc := false, avg := [], geom := geom, rates := dies.foldl (fun m x => mapPut m x.die x.rate) [] }
    let s := dies.foldl (fun s x => if dieAnswers x then s.fset (pFtm + 1) (Reg.FTM_DIE x.die) 0 1 1 else s) s
    let (s, ok) := (List.range 16).foldl (fun (a : State × List Nat) c =>
      let s := a.1
      let ce := (s.chanDies c).foldl (fun m d => m ||| 2 ^ (d / 4 % 8)) 0
      let s := if s.enabled (pFlc c) then s.fset (pFlc c) Reg.FLC_STAT 0 8 ce else s
      if (s.chanDies c).isEmpty then (s, a.2)
      else
        let (s, k) := s.flcTrained c (chans.getD c [])
        (s, if k then c :: a.2 else a.2)) (s, [])
    let (s, _) := dies.foldl (fun (a : State × Nat) x =>
      let c := dieCause geom (ok.contains (chanOf x.die)) x
      let units := geom.dieUnits * 15 / 16
      let c := if c = 0 ∧ 2 ^ 33 < a.2 + units then 7 else c
      if c = 0 then (a.1, a.2 + units)
      else ((a.1.fset (pFtm + 1) (Reg.FTM_DIE x.die) 1 1 1).fset (pFtm + 1) (Reg.FTM_DIE x.die) 2 3 c, a.2)) (s, 0)
    let found := dies.any dieAnswers
    ((s.showCap).fset pFtm Reg.FTM_DISC 16 4 (if found then 2 else 3)).raise pFtm 12) s

/-- Reads that are on a die that is no longer live, or wait for a place to be read from it, go on with the rebuild from their stripes (R207,
R215), and rebuilds that wait start. -/
def State.escalateLost (s : State) : State :=
  ((s.flash.reads.filter fun e => (e.2.reading || s.flash.inWait.contains e.1) && !s.dieLive e.2.loc.die).foldl (fun s e =>
    let s := if e.2.reading then s.flcDone (chanOf e.2.loc.die) e.2.flcEpoch else s
    (s.setFlash { s.flash with inWait := s.flash.inWait.filter (· ≠ e.1) }).readOn e.1 { e.2 with reading := false }) s).rebuildsRun

/-- FLC_TRAIN_START (R203): refused while operations are queued. -/
def State.flcTrainGo (s : State) (n : Nat) : State :=
  if !s.flcIntake n then s
  else if s.flcQueued n then s.fset (pFlc n) Reg.FLC_TRAIN 16 4 5
  else (s.fset (pFlc n) Reg.FLC_TRAIN 16 4 1).emit (.issue "FLC_TRAIN" [n])

/-- FLC_TRAIN_START (R202, R203). -/
def execFlcTrainStart (_req : Requester) (n : Fin 16) (s : State) : Host.Outcome State Fault Refusal :=
  next (fun s => s.flcTrainGo n.val) s

/-- FLC_TRAIN_END (R202): a channel that trains at no data rate has its dies mapped out. -/
def execFlcTrainEnd (n : Fin 16) (tries : List FlcTry) (s : State) : Host.Outcome State Fault Refusal :=
  next (fun s =>
    if !s.enabled (pFlc n.val) ∨ s.fget (pFlc n.val) Reg.FLC_TRAIN 16 4 ≠ 1 then s else
    let (s, ok) := s.flcTrained n.val tries
    if ok then s else ((s.chanDies n.val).foldl (fun s d => s.mapOut d 4) s).escalateLost) s

/-- FLC_RETRAIN_TIMER (R203): the retrain stays at the channel's bin, and `found` is what it finds. -/
def execFlcRetrainTimer (n : Fin 16) (found : FlcTry) (s : State) : Host.Outcome State Fault Refusal :=
  next (fun s =>
    let pg := pFlc n.val
    match mapFind s.flash.trainTemp n.val with
    | none => s
    | some (t, at_) =>
      let h := s.fget pg Reg.FLC_TRAIN 24 8
      let now := signedOf 8 (s.fget pFtm Reg.FTM_TEMP 0 8)
      let drift : Bool := 20 ≤ (now - t).natAbs
      if !s.enabled pg ∨ s.flcQueued n.val ∨ s.fget pg Reg.FLC_RATE 8 3 = 0 ∨ (h = 0 ∧ ¬ drift) then s else
      let s := if drift then s else s.reach (at_ + h * 3600000000000)
      let s := s.setFlash { s.flash with trainTemp := mapPut s.flash.trainTemp n.val (now, s.tb.toNat) }
      if tryPasses found then (s.rset pg Reg.FLC_DLY (tryDelays found)).raise pg 4 else (s.errCnt pg 3).raise pg 5) s

/-! ### Raw commands -/

/-- FLC_RAW_GO (R226; log entry 48): a command with DIR 1 sends LEN bytes of the raw data buffer. -/
def State.flcRawGo (s : State) (n : Nat) : State :=
  let pg := pFlc n
  if !s.flcIntake n ∨ s.bit pg (Reg.FLC_RAW 3) 0 then s
  else if s.flcQueued n then s.fset pg (Reg.FLC_RAW 3) 16 4 5
  else
    let s := (s.fset pg (Reg.FLC_RAW 3) 0 1 1).fset pg (Reg.FLC_RAW 3) 16 4 1
    let s := (s.setFlash { s.flash with raws := mapPut s.flash.raws n (s.epoch pg) }).flcAdd n
    let sent := if s.bit pg (Reg.FLC_RAW 0) 23 then
        (List.range (min (s.fget pg (Reg.FLC_RAW 2) 16 10) 512)).map fun i => s.fget (pg + 1) (Reg.FLC_RAW_BUF (i / 4)) (8 * (i % 4)) 8
      else []
    s.emit (.issue "FLC_RAW" ([n, (s.rg pg (Reg.FLC_RAW 0)).toNat, (s.rg pg (Reg.FLC_RAW 1)).toNat,
      (s.rg pg (Reg.FLC_RAW 2)).toNat] ++ sent))

/-- FLC_RAW_GO (R226). -/
def execFlcRawGo (_req : Requester) (n : Fin 16) (s : State) : Host.Outcome State Fault Refusal :=
  next (fun s => s.flcRawGo n.val) s

/-- FLC_RAW_END (R226): data in goes to the raw data buffer (log entry 48). -/
def execFlcRawEnd (n : Fin 16) (timeout : Bool) (data : List Byte) (s : State) : Host.Outcome State Fault Refusal :=
  next (fun s =>
    let pg := pFlc n.val
    match mapFind s.flash.raws n.val with
    | none => s
    | some ep =>
      let s := (s.setFlash { s.flash with raws := mapDel s.flash.raws n.val }).flcDone n.val ep
      let s := (s.fset pg (Reg.FLC_RAW 3) 0 1 0).fset pg (Reg.FLC_RAW 3) 16 4 (if timeout then 3 else 2)
      let s := if timeout then (s.errCnt pg 2).raise pg 8 else s
      let len := min (s.fget pg (Reg.FLC_RAW 2) 16 10) 512
      let s := if timeout ∨ s.bit pg (Reg.FLC_RAW 0) 23 then s
        else (List.range len).foldl (fun s i =>
          s.fset (pg + 1) (Reg.FLC_RAW_BUF (i / 4)) (8 * (i % 4)) 8 (data.getD i 0).toNat) s
      s.raise pg 9) s

/-! ### Reads -/

/-- First unit of namespace `nsid`, from the namespace table in DRAM (R205). -/
def State.nsBase (s : State) (nsid : Nat) : State × Nat :=
  let (s, b) := s.busRead (s.ftmBase Reg.FTM_NS_LO + 16 * nsid) 16
  (s, natBits (leNat (b.getD [])) 0 40)

/-- The unit, the slice and the use of a slice read. -/
def State.sliceTarget (s : State) (want : SliceWant) : State × Nat × Nat × SliceUse :=
  match want with
  | .host f nsid lba =>
    let z := lbaSize ((mapFind s.nss nsid).map Ns.lbaf |>.getD 0)
    let (s, b) := s.nsBase nsid
    (s, b + lba * z / 16384, lba * z % 16384 / 4096, .host f (s.func f).epoch)
  | .unit u k dst => (s, u, k % 4, .background dst)

/-- A number of a slice read: the slices of one piece of work share its tag, of the hosts' range or of firmware's (R22; log entry 145). -/
def SliceUse.fits (u : SliceUse) (op : Nat) : Bool :=
  op < 2 ^ 24 && match u with
    | .host _ _ => decide (256 ≤ op % 65536)
    | _ => decide (op % 65536 < 256)

/-- What a slice read gives without a flash access. -/
def State.sliceGive (s : State) (u : SliceUse) (b : List Byte) : State :=
  match u with
  | .background dst => (s.cwOut dst b).1
  | .host f _ => s.emit (.hostData f b)
  | _ => s

/-- FLASH_SLICE_READ (R205, R209, R210, R214, R217, R223) under number `op`. -/
def execFlashSliceRead (op : Nat) (want : SliceWant) (s : State) : Host.Outcome State Fault Refusal :=
  next (fun s =>
    if !s.intake pFtm || !s.bit pFtm Reg.FTM_CTRL 0 || (mapFind s.flash.reads op).isSome then s else
    let (s, unit, slice, use_) := s.sliceTarget want
    if !use_.fits op then s else
    let (s, w) := s.mapEntry unit
    let l := locOf w
    if natBits w 41 1 = 0 then s.sliceGive use_ (List.replicate 4096 0)
    else if natBits w (42 + slice) 1 = 1 then
      s.emit (.issue "SLICE_UNRECOVERED" (match use_ with
        | .host f _ => [op, f, 2, 0x81]
        | _ => [op]))
    else
      let read (stage first : Nat) (s : State) : SliceRead :=
        ⟨unit, slice, l, use_, stage, 0, first, [], [], false, [], false, none, none, 0, [], s.epoch pFtm, 0⟩
      match s.bufferAt l with
      | some b => s.sliceGive use_ (padTo 4096 ((b.drop (4096 * slice)).take 4096))
      | none =>
        let host := match use_ with
          | .host _ _ => true
          | _ => false
        match s.flash.reads.find? fun e => host && e.2.stage == 4 && e.2.loc == l && e.2.slice == slice with
        | some e =>
          let s := s.accept pFtm
          s.setFlash { s.flash with reads := mapPut s.flash.reads op (read 6 e.1 s) }
        | none =>
          if s.dieLive l.die then (if s.flcIntake (chanOf l.die) then s.startRead op unit slice l use_ else s)
          else
            let s := s.accept pFtm
            s.startRebuild op (read 4 0 s)) s

/-- PAGE_READ_END (R209, R215): the page read of slice read `op` ends with the slice's raw bytes (log entry 46). -/
def execPageReadEnd (op : Nat) (raw : List Byte) (s : State) : Host.Outcome State Fault Refusal :=
  next (fun s => (s.pageRead op raw).rebuildsRun) s

/-- TRANSIT_SLOT_GRANT (R209): the oldest waiting slice takes a free slot. -/
def execTransitSlotGrant (s : State) : Host.Outcome State Fault Refusal :=
  next (fun s => s.grantSlots 1) s

/-- Bytes for place `a` have not left the decoder fabric or the buffer of port 3 yet (R238). -/
def State.inPort3 (s : State) (a : Nat) : Bool :=
  (s.dcf.outq.map Prod.fst ++ (s.rt 3).segs.map Prod.fst).any fun x => decide (a ≤ x ∧ x < a + 4096)

/-- TRANSIT_DMA_END (R209, R210): the slot of host read `op` is freed, with no DMA where its function's epoch is stale. -/
def execTransitDmaEnd (op : Nat) (s : State) : Host.Outcome State Fault Refusal :=
  next (fun s =>
    match mapFind s.flash.reads op with
    | none => s
    | some r =>
      match r.stage, r.use_, r.tslot with
      | 7, .host f ep, some k =>
        if s.inPort3 (s.slotAddr k) then s else
        let (s, b) := s.busRead (s.slotAddr k) 4096
        let s := if (s.func f).epoch = ep then s.emit (.hostData f (b.getD [])) else s
        (s.setFlash { s.flash with reads := mapDel s.flash.reads op, slots := s.flash.slots.erase k }).grantSlots 1
      | _, _, _ => s) s

/-! ### Programs, erases and failures -/

/-- The unit holds blocks of the tape-backed namespace from LBA `stage`, or none. -/
def State.noteStaged (s : State) (unit : Nat) (stage : Option Nat) : State :=
  s.setFlash { s.flash with staged := match stage with
    | some lba => mapPut s.flash.staged unit lba
    | none => mapDel s.flash.staged unit }

/-- UNIT_PROGRAM (R206 to R208) under tag `op`: a unit's data, which stages blocks of the tape-backed namespace from LBA `stage`; or, with no
data, the oldest unit that waits to be written at a new position, under a firmware tag (log entries 46, 123 and 145). -/
def execUnitProgram (op unit : Nat) (loc : FlashLoc) (data : List Byte) (stage : Option Nat) (s : State) :
    Host.Outcome State Fault Refusal :=
  next (fun s =>
    if !s.intake pFtm || !s.bit pFtm Reg.FTM_CTRL 0 || !s.flcIntake (chanOf loc.die) || !s.tagFree op then s
    else if data.isEmpty then
      match s.flash.moves with
      | r :: q =>
        let s' := s.placeUnit op loc r
        if decide (op < 256) && (mapFind s'.flash.progs op).isSome then s'.setFlash { s'.flash with moves := q } else s
      | [] => s
    else
      let s := s.placeUnit op loc ⟨unit, data, none, false, 0, none⟩
      if (mapFind s.flash.progs op).isSome then s.noteStaged unit stage else s) s

/-- Blocks that a programmed unit holds as they are in the write buffer have reached their tier (R15, R426): `nsid`, their first
LBA and LBA size, and the place they are in now. -/
def State.settle (s : State) (nsid lba z : Nat) (data : List Byte) (p : Place) : State :=
  { s with blocks := (List.range (16384 / z)).foldl (fun (m : FMap Block) i =>
      let k := blockKey nsid (lba + i)
      match mapFind m k with
      | some b => if b.place = .buffer ∧ b.data = (data.drop (z * i)).take z then mapPut m k { b with place := p } else m
      | none => m) s.blocks }

/-- The unit of program `p` is in flash (R206, R219, R224). -/
def State.settleUnit (s : State) (p : Program) : State :=
  let s := if p.refresh then s.cntSat pFtm Reg.FTM_REFRESH 0 32 1 else s
  let s := if p.rebuilt = 0 then s else (s.cntSat pFtm (Reg.FTM_SPOIL 0) 0 32 p.rebuilt).raise pFtm 7
  if p.parity ∨ p.divert.isSome then s else
  match mapFind s.flash.staged p.unit, s.nsOfUnit p.unit 0 with
  | some lba, _ => s.settle 1024 lba s.tapeLba p.data .staged
  | none, some (nsid, lba, _) => s.settle nsid lba (lbaSize (((mapFind s.nss nsid).map Ns.lbaf).getD 0)) p.data .flash
  | none, none => s

/-- PROGRAM_END (R207, R218). -/
def execProgramEnd (op : Nat) (pass : Bool) (s : State) : Host.Outcome State Fault Refusal :=
  next (fun s =>
    match mapFind s.flash.progs op with
    | none => s
    | some p =>
      let c := chanOf p.loc.die
      let s := ((s.setFlash { s.flash with progs := mapDel s.flash.progs op }).flcDone c p.flcEpoch).endJob pFtm p.epoch
      if pass then s.settleUnit p else
      let s := s.setBad p.loc.die p.loc.block
      let s := ((if p.parity then s else s.cntSat pFtm (Reg.FTM_SPOIL 2) 0 32 1).errCnt (pFlc c) 0).raise (pFlc c) 6
      (((s.unstripe op p).rewriteProgram p).dieFailed p.loc.die).escalateLost) s

/-- ERASE (R210): it waits while a read of the block is in flight. -/
def execErase (die : Fin 512) (block : Nat) (s : State) : Host.Outcome State Fault Refusal :=
  next (fun s =>
    let c := chanOf die.val
    if !s.flcIntake c || !s.dieLive die.val || s.readsOf die.val block != 0
      || s.flash.erases.any (fun e => e.1 == die.val && e.2.1 == block) then s else
    let s := (s.cntWrap (pFlc c) Reg.FLC_ER_CNT 0 32 1).flcAdd c
    (s.setFlash { s.flash with erases := s.flash.erases ++ [(die.val, block, s.epoch (pFlc c))] }).emit (.issue "ERASE" [die.val, block])) s

/-- ERASE_END (R207, R218). -/
def execEraseEnd (die : Fin 512) (block : Nat) (pass : Bool) (s : State) : Host.Outcome State Fault Refusal :=
  next (fun s =>
    let c := chanOf die.val
    match s.flash.erases.find? fun e => e.1 == die.val && e.2.1 == block with
    | none => s
    | some e =>
      let s := (s.setFlash { s.flash with erases := s.flash.erases.erase e }).flcDone c e.2.2
      if pass then
        s.setFlash { s.flash with gaps := s.flash.gaps.filter fun l => !(l.die == die.val && l.block == block) }
      else
        ((((s.setBad die.val block).errCnt (pFlc c) 1).raise (pFlc c) 7).dieFailed die.val).escalateLost) s

/-- An operation is in flight on die `d`. -/
def State.dieBusy (s : State) (d : Nat) : Bool :=
  s.flash.reads.any (fun e => e.2.reading && e.2.loc.die == d) || s.flash.progs.any (fun e => e.2.loc.die == d)
    || s.flash.erases.any (·.1 == d)

/-- Chip enable `e` of channel `c` is busy (FLC_STAT). -/
def State.ceBusy (s : State) (c e : Nat) : Bool :=
  ((List.range 4).any fun l => s.dieBusy (32 * c + 4 * e + l))
    || ((mapFind s.flash.raws c).isSome && s.fget (pFlc c) (Reg.FLC_RAW 0) 20 3 == e)

/-- FLC_TIMEOUT (R218): a die stays busy past FLC_TO. -/
def execFlcTimeout (die : Fin 512) (s : State) : Host.Outcome State Fault Refusal :=
  next (fun s =>
    let c := chanOf die.val
    if !s.dieBusy die.val then s else
    let s := ((s.errCnt (pFlc c) 2).raise (pFlc c) 8).mapOut die.val 5
    let gone := s.flash.erases.filter (·.1 == die.val)
    let s := gone.foldl (fun s e => s.flcDone c e.2.2) (s.setFlash { s.flash with erases := s.flash.erases.filter (·.1 ≠ die.val) })
    s.escalateLost) s

/-- MAP_OUT (R201). -/
def execMapOut (_req : Requester) (die : Fin 512) (s : State) : Host.Outcome State Fault Refusal :=
  next (fun s => (s.mapOut die.val 6).escalateLost) s

/-- STRIPE_CLOSE (R208). -/
def State.stripeClose (s : State) : State :=
  if s.enabled pFtm then s.flash.stripes.foldl (fun s x => s.closeStripe 0 x) s else s

/-- STRIPE_CLOSE (R207, R208). -/
def execStripeClose (_req : Requester) (s : State) : Host.Outcome State Fault Refusal := next (fun s => s.stripeClose) s

/-- FREE_ROW_PUSH (R208): a push while LEVEL is 1,024 is a write to a locked field. -/
def State.rowPush (s : State) (group block : Nat) : State :=
  if 1024 ≤ s.flash.free.length then s.badWrite pFtm Reg.FTM_FREE 2
  else (s.setFlash { s.flash with free := s.flash.free ++ [(group, block)], rows := s.flash.rows.filter fun r => r.group != group || r.block != block }).showRows

/-- FREE_ROW_PUSH (R208). -/
def execFreeRowPush (_req : Requester) (group : Fin 32) (block : BitVec 18) (s : State) : Host.Outcome State Fault Refusal :=
  next (fun s => s.rowPush group.val block.toNat) s

/-! ### Patrol -/

/-- The groups that hold a live die. -/
def State.liveGroups (s : State) : List Nat :=
  (List.range 32).filter fun g => (List.range 512).any fun d => s.dieLive d && s.dieReg d 7 5 == g

/-- The order of patrol (R219): groups, blocks, pages and slots ascending, and in a stripe its positions. -/
def State.locKey (s : State) (l : FlashLoc) : Nat :=
  let g := s.flash.geom
  (((s.dieReg l.die 7 5 * g.blocks + l.block) * g.pages + l.page) * g.units + l.slot) * 16 + s.dieReg l.die 12 4

/-- FTM_PSTAT.PROGRESS at location `l`. -/
def State.patrolProgress (s : State) (l : FlashLoc) : Nat :=
  let gs := s.liveGroups
  let g := s.flash.geom
  let rank := (gs.filter (· < s.dieReg l.die 7 5)).length
  let all := gs.length * g.blocks * g.pages * g.units
  if all = 0 then 0 else ((((rank * g.blocks + l.block) * g.pages + l.page) * g.units + l.slot) * 100 / all)

/-- Patrol may read location `l` (R219, R221): it lies in a programmed page of a block that is not BAD, with room for a record. -/
def State.patrolMay (s : State) (l : FlashLoc) : State × Bool :=
  let (s, info) := s.blkInfo l.die l.block
  let g := s.flash.geom
  (s, s.intake pFtm && s.bit pFtm Reg.FTM_PATROL 0 && !s.pausedB pFtm && s.dieLive l.die && natBits info 55 1 == 0
    && s.flash.unrec.length < 64 && l.block < g.blocks && l.page < g.pages && l.slot < g.units && s.flcIntake (chanOf l.die))

/-- Patrol comes to location `l`: a place before the last one begins the next pass, and the pass before it is complete (log entry 50). -/
def State.patrolMove (s : State) (l : FlashLoc) : State :=
  let k := s.locKey l
  let s := if k < s.flash.cursor then (s.cntWrap pFtm Reg.FTM_PSTAT 8 24 1).raise pFtm 8 else s
  (s.setFlash { s.flash with cursor := k + 1 }).fset pFtm Reg.FTM_PSTAT 0 7 (s.patrolProgress l)

/-- PATROL_READ (R219): patrol reads the unit at `loc` under firmware tag `op`; `tag` is what the page holds of the unit's tag. -/
def execPatrolRead (op : Nat) (loc : FlashLoc) (tag : List Byte) (s : State) : Host.Outcome State Fault Refusal :=
  next (fun s =>
    match s.patrolMay loc with
    | (s, false) => s
    | (s, true) =>
      if 256 ≤ op ∨ !s.tagFree op then s else
      let s := s.patrolMove loc
      if (s.bufferAt loc).isSome then s
      else if fieldAt tag 12 4 ≠ crc32c (tag.take 12) then (s.pushUnrec ((Config.freeWord s.free).toNat % 2 ^ 40) 0xF 2 loc).bump
      else
        let unit := fieldAt tag 0 8
        let parity := unit == 2 ^ 64 - 1
        let (s, w) := if parity then (s, 0) else s.mapEntry unit
        let live := parity || (natBits w 41 1 == 1 && locOf w == loc)
        let todo := (List.range 4).filter fun k => parity || natBits w (42 + k) 1 == 0
        if !live || todo.isEmpty then s else
        let s := s.setFlash { s.flash with patrols := mapPut s.flash.patrols op ⟨unit, loc, parity, true, [], todo.length, false, [], false⟩ }
        todo.foldl (fun s k => s.startRead (patrolOp op k) unit k loc (.patrol op)) s) s

/-- Rebuilds that paused for want of a record start where there is room. -/
def State.rebuildsGo (s : State) : State :=
  if 64 ≤ s.flash.unrec.length then s
  else ((s.flash.reads.filter (·.2.stage == 5)).foldl (fun s e => s.startRebuild e.1 e.2) s).rebuildsRun

/-- Firmware has read the head record, which leaves the queue: it deals with a record of data, and, where the queue was full, with findings that
had no room in it (R220, R221; log entry 147). -/
def State.unrecTaken (s : State) : State :=
  match s.flash.unrec with
  | [] => s
  | (u, mask, kind, d, b) :: q =>
    let s := (s.setFlash { s.flash with unrec := q }).showUnrec
    let s := if kind = 0 then s.firmwareLogs u mask d b else s
    let s := if 63 ≤ q.length then s.firmwareScan else s
    s.rebuildsGo

/-- FTM_UNREC_READ (R221): a read of FTM_UNREC2 removes the head record. -/
def State.unrecRead (s : State) : State × RegWord := (s.unrecTaken, s.rg pFtm (Reg.FTM_UNREC 2))

/-- FTM_UNREC_READ (R221). -/
def execFtmUnrecRead (_req : Requester) (s : State) : Host.Outcome State Fault Refusal :=
  next (fun s =>
    let (s, v) := s.unrecRead
    s.emit (.value v.toNat)) s

end Sys2Proof.Machine
end

