-- ==== Sys2Proof/Machine/Links.lean ====
section
/-! DEFINITION. The ports: training, retrains and step-downs, link-down, PERST#, link power states, and the DOE mailboxes
(chapter 16). -/

namespace Sys2Proof.Machine

/-- A port after power-on reset: PERST# counts as asserted until it is released (log entry 13). -/
def portDefault (_ : Nat) : Port := ⟨0, true, 0, none⟩

def State.port (s : State) (p : Nat) : Port := mapGet portDefault s.ports p

def State.setPort (s : State) (p : Nat) (x : Port) : State := { s with ports := mapSet portDefault s.ports p x }

/-- A field of HIB_LSTAT of port `p`. -/
def State.lstat (s : State) (p lo len : Nat) : Nat := s.fget (pHib p) Reg.HIB_LSTAT lo len

def State.setLstat (s : State) (p lo len v : Nat) : State := s.fset (pHib p) Reg.HIB_LSTAT lo len v

/-- The port mode that the fuse record, or with a blank record the strap, selects: one ×8 (R395). -/
def State.x8Chosen (s : State) : Bool :=
  if s.kpr.fuses.portMode = 0 then s.bit (pHib 0) Reg.HIB_STRAP 0 else s.kpr.fuses.portMode == 2

/-- The port is in use in the mode in force (R394). -/
def State.portUsed (s : State) (p : Nat) : Bool := p == 0 || (p == 1 && !s.x8)

/-! ### Speeds (R397 to R399) -/

/-- The target speed. -/
def State.targetSpeed (s : State) (p : Nat) : Nat := min (s.fget (pHib p) Reg.HIB_LCTL 0 3) (s.lstat p 16 3)

/-- One step-down at speed `g`: CAP_SPD is lowered, HIB_EQ.FAIL set, counted and reported. -/
def State.stepDown (s : State) (p g : Nat) : State :=
  let s := s.setLstat p 16 3 (s.lstat p 16 3 - 1)
  let s := if 3 ≤ g then s.fset (pHib p) Reg.HIB_EQ (1 + g) 1 1 else s
  (s.errCnt (pHib p) 3).raise (pHib p) 7

/-- Train at the target speed, stepping down while the link, which works up to generation `best`, finds no setting: the speed;
0 when Gen1 fails. -/
def State.trainSpeed : Nat → State → Nat → Nat → State × Nat
  | 0, s, _, _ => (s, 0)
  | n + 1, s, p, best =>
    let g := s.targetSpeed p
    if g ≤ best then (s, g)
    else if g ≤ 1 then (s, 0)
    else State.trainSpeed n (s.stepDown p g) p best

/-- The width formed by `lanes` contiguous working lanes. -/
def State.widthOf (s : State) (lanes : Nat) : Nat :=
  if s.x8 ∧ 8 ≤ lanes then 8 else if 4 ≤ lanes then 4 else if 2 ≤ lanes then 2 else 1

/-- Equalisation has completed at every speed from Gen3 to `g`. -/
def State.eqDone (s : State) (p g : Nat) : State :=
  (List.range 3).foldl (fun s i => if i + 3 ≤ g then s.fset (pHib p) Reg.HIB_EQ i 1 1 else s) s

/-- The link works at speed `g` and width `w` (log entry 82). -/
def State.linkAt (s : State) (p g w : Nat) : State :=
  ((((s.setLstat p 0 6 3).setLstat p 8 1 1).setLstat p 9 3 g).setLstat p 12 4 w).eqDone p g

/-! ### Link-down and PERST# (R402, R404) -/

/-- Port `p` leaves L1 for L0, its time there counted. -/
def State.l1Leave (s : State) (p : Nat) : State :=
  if s.lstat p 0 6 = 5 then
    let ms := (s.tb.toNat - (s.port p).l1Since) / 1000000
    ((s.setLstat p 0 6 3).setLstat p 22 2 0).cntSat (pHib p) Reg.HIB_L1_TIME 0 32 ms
  else s

/-- Port `p` declares link-down (log entry 78). -/
def State.portDown (s : State) (p : Nat) : State :=
  let s := (((((s.l1Leave p).setLstat p 0 6 0).setLstat p 8 1 0).setLstat p 9 7 0).setLstat p 22 2 0)
  let s := (s.errCnt (pHib p) 2).raise (pHib p) 5
  (s.setPort p { s.port p with fails := 0, doe := none }).portReset p

/-- Port `p` is outside Detect. -/
def State.portLive (s : State) (p : Nat) : Bool := s.lstat p 0 6 != 0

/-- LINK_DOWN (R23, R320, R404, R405). -/
def execLinkDown (p : Fin 2) (s : State) : Host.Outcome State Fault Refusal :=
  next (fun s => if s.portLive p.val then s.portDown p.val else s) s

/-- PERST_ASSERT (R23, R320, R399, R402). -/
def execPerstAssert (p : Fin 2) (s : State) : Host.Outcome State Fault Refusal :=
  next (fun s =>
    let p := p.val
    let x := s.port p
    if !s.portUsed p || x.perst then s else
    let s := s.setPort p { x with perst := true, doe := none }
    let s := if s.portLive p then s.portDown p else s.portReset p
    let s := (s.setLstat p 16 3 5).rset (pHib p) Reg.HIB_EQ 0
    (s.fset (pHib p) Reg.HIB_DOE 0 2 0).raise (pHib p) 8) s

/-- PERST_RELEASE (R403). -/
def execPerstRelease (p : Fin 2) (s : State) : Host.Outcome State Fault Refusal :=
  next (fun s => s.setPort p.val { s.port p.val with perst := false }) s

/-! ### Training, retrains and Recovery (R397 to R400, R406) -/

/-- Port `p` leaves Detect: the port mode takes effect, and the port trains to L0, or declares link-down (log entry 81). -/
def State.train (s : State) (p best lanes : Nat) (rev : Bool) : State :=
  if (s.port p).perst || s.portLive p then s else
  let s := s.fset (pHib 0) Reg.HIB_MODE 8 1 (if s.x8Chosen then 1 else 0)
  if !s.portUsed p || lanes = 0 then s else
  let (s, g) := State.trainSpeed 5 s p best
  if g = 0 then s.portDown p else
  let s := (s.linkAt p g (s.widthOf lanes)).setLstat p 20 1 (if rev then 1 else 0)
  let s := s.cntSat (pHib p) Reg.HIB_LINKUP 0 32 1
  (s.setPort p { s.port p with fails := 0 }).raise (pHib p) 4

/-- LINK_TRAINING (R397, R398, R399, R406; log entry 81). -/
def execLinkTraining (p : Fin 2) (best lanes : Nat) (rev : Bool) (s : State) : Host.Outcome State Fault Refusal :=
  next (fun s => s.train p.val best lanes rev) s

/-- The port retrains through Recovery at the target speed; a link does not regain width (log entry 82). -/
def State.relink (s : State) (p best lanes : Nat) : State :=
  let g0 := s.lstat p 9 3
  let w0 := s.lstat p 12 4
  let s := if s.bit (pHib p) Reg.HIB_LCTL 5 then (s.setLstat p 16 3 5).fset (pHib p) Reg.HIB_LCTL 5 1 0 else s
  let s := s.fset (pHib p) Reg.HIB_LCTL 4 1 0
  let (s, g) := State.trainSpeed 5 s p best
  if g = 0 ∨ lanes = 0 then s.portDown p else
  let w := min w0 (s.widthOf lanes)
  let s := s.linkAt p g w
  if g ≠ g0 ∨ w ≠ w0 then s.raise (pHib p) 6 else s

/-- RETRAIN (R400). -/
def execRetrain (p : Fin 2) (best lanes : Nat) (s : State) : Host.Outcome State Fault Refusal :=
  next (fun s =>
    let p := p.val
    if s.linkUp p then ((s.l1Leave p).errCnt (pHib p) 1).relink p best lanes else s) s

/-- The link enters Recovery of its own accord: `ok` says that it recovers (log entry 81). -/
def State.recover (s : State) (p : Nat) (ok : Bool) (best lanes : Nat) : State :=
  if !s.linkUp p then s else
  let s := (s.l1Leave p).errCnt (pHib p) 1
  let x := s.port p
  if ok then (s.setPort p { x with fails := 0 }).relink p best lanes
  else if x.fails + 1 < 3 then s.setPort p { x with fails := x.fails + 1 }
  else
    let s := s.setPort p { x with fails := 0 }
    let g := s.lstat p 9 3
    if g ≤ 1 then s.portDown p else (s.stepDown p g).relink p (min best (g - 1)) lanes

/-- LINK_RECOVERY (R400). -/
def execLinkRecovery (p : Fin 2) (ok : Bool) (best lanes : Nat) (s : State) : Host.Outcome State Fault Refusal :=
  next (fun s => s.recover p.val ok best lanes) s

/-! ### Power states (R407, R408) -/

/-- Do the host's enables and ASPM_ALLOW let port `p` into substate `sub` (0 L1, 1 L1.1, 2 L1.2)? In Latched only the host's
count. -/
def State.l1Ok (s : State) (p sub : Nat) (host : BitVec 3) : Bool :=
  let latched := s.fget (pPcr + 1) Reg.PCR_PSTAT 0 2 == 2
  let allow := s.fget (pHib p) Reg.HIB_LCTL 8 2
  host.getLsbD 0 && host.getLsbD sub && (latched || (allow % 2 == 1 && (sub != 2 || 2 ≤ allow)))

/-- L1_ENTRY (R407). -/
def execL1Entry (p : Fin 2) (sub : Fin 3) (host : BitVec 3) (s : State) : Host.Outcome State Fault Refusal :=
  next (fun s =>
    let p := p.val
    if s.lstat p 0 6 = 3 ∧ s.l1Ok p sub.val host then
      ((s.setLstat p 0 6 5).setLstat p 22 2 (1 + sub.val)).setPort p { s.port p with l1Since := s.tb.toNat }
    else s) s

/-- L1_EXIT (R407, R530). -/
def execL1Exit (p : Fin 2) (s : State) : Host.Outcome State Fault Refusal := next (fun s => s.l1Leave p.val) s

/-- D3HOT_ENTRY (R408). -/
def execD3hotEntry (func : Fin 256) (s : State) : Host.Outcome State Fault Refusal :=
  next (fun s => if s.slotEnabled func.val then s.setFunc func.val { s.func func.val with d3 := true } else s) s

/-- D0_RETURN (R408). -/
def execD0Return (func : Fin 256) (s : State) : Host.Outcome State Fault Refusal :=
  next (fun s => s.setFunc func.val { s.func func.val with d3 := false }) s

/-! ### DOE (R409) -/

/-- The port's mailbox answers with an object of `typ` whose body is `b`; one over 1,024 DW is a DOE Error (log entry 83). -/
def State.doeAnswer (s : State) (p typ : Nat) (b : List Byte) : State :=
  let b := b ++ List.replicate ((4 - b.length % 4) % 4) 0
  let s := (s.setPort p { s.port p with doe := none }).fset (pHib p) Reg.HIB_DOE 0 1 0
  let dw := 2 + b.length / 4
  if 1024 < dw then s.fset (pHib p) Reg.HIB_DOE 1 1 1
  else s.emit (.data (leBytes 2 1 ++ leBytes 2 typ ++ leBytes 4 dw ++ b))

/-- A data object arrives at the mailbox of the port's PF: discovery is answered at once, CMA/SPDM objects wait for the Keeper. -/
def State.doeObject (s : State) (p : Nat) (obj : List Byte) : State :=
  if !s.portUsed p || !s.linkUp p || s.bit (pHib p) Reg.HIB_DOE 0 then s else
  let s := (s.cntSat (pHib p) Reg.HIB_DOE 16 16 1).raise (pHib p) 9
  if 4096 < obj.length then s.fset (pHib p) Reg.HIB_DOE 1 1 1 else
  match fieldAt obj 0 2, fieldAt obj 2 1 with
  | 1, 0 =>
    let i := fieldAt obj 8 1
    if i < 3 then s.doeAnswer p 0 (leBytes 2 1 ++ leBytes 1 i ++ leBytes 1 (if i = 2 then 0 else i + 1))
    else s.fset (pHib p) Reg.HIB_DOE 1 1 1
  | 1, t =>
    if t ≤ 2 then (s.setPort p { s.port p with doe := some obj }).fset (pHib p) Reg.HIB_DOE 0 1 1
    else s
  | _, _ => s

/-- DOE_OBJECT (R409). -/
def execDoeObject (p : Fin 2) (obj : List Byte) (s : State) : Host.Outcome State Fault Refusal :=
  next (fun s => s.doeObject p.val obj) s

/-- DOE_ABORT (R409). -/
def execDoeAbort (p : Fin 2) (s : State) : Host.Outcome State Fault Refusal :=
  next (fun s => (s.setPort p.val { s.port p.val with doe := none }).fset (pHib p.val) Reg.HIB_DOE 0 2 0) s

/-! ### Answers of the Keeper (R409, R499) -/

/-- The answer that a request or an SPDM message gets: through the mailbox of port 0 or 1 with object type `typ`, or over NVMe-MI. -/
def State.kprAnswer (s : State) (src typ : Nat) (b : List Byte) : State :=
  if src < 2 then (if (s.port src).doe.isSome then s.doeAnswer src typ b else s)
  else if src = 2 then s.emit (.data b) else s

/-- The status and the SEQ that answer a request (R499). -/
def reqAnswer (st seq : Nat) : List Byte := leBytes 4 st ++ leBytes 4 seq

/-- The work tag of an NVMe command whose effect waits for its entry. -/
def Change.tag : Change → Option Nat
  | .nsCreate t _ _ _ _ | .nsDelete t _ | .nsAttach t _ _ _ | .sanitize t _ | .commit t _ _ _ | .seal t _ => some t
  | _ => none

end Sys2Proof.Machine
end

