-- ==== Sys2Proof/Machine/Staging.lean ====
section
/-! DEFINITION. Staged settings and block soft reset (chapter 2, R41, R53 to R63). -/

namespace Sys2Proof.Machine

/-! ### Commit (R55 to R58) -/

/-- An RWS field: bits of the word that the shadow would change. -/
def State.pendBits (s : State) (page off : Nat) : RegWord := s.shadow page off ^^^ s.rg page off

/-- A real-time port is enabled. -/
def State.anyPort (s : State) : Bool := (List.range 4).any fun p => s.bit (pDmc 0 + 1) (Reg.DMC_PORT p 0) 0

/-- A pending change that needs quiescence while its traffic runs (R63). No request waits in a DRAM channel between commands
(log entry 27). -/
def State.commitBusy (s : State) (b : Blk) : Bool :=
  match b.typ with
  | .fmt => s.pendBits pFmt Reg.FMT_WFMT != 0 && (s.bit pFmt Reg.FMT_STAT 0 || s.tape.fmt.cur.isSome)
  | .dmc => s.anyPort && s.shadows.any fun e =>
      keyIn (b.base + 2) 1 e.1 && withShadow e.1 (mapGet regDefault s.regs e.1) e.2 != mapGet regDefault s.regs e.1
  | .hib => b.inst == 0 && bitsOf (s.pendBits b.base Reg.HIB_MODE) 0 2 != 0
      && (List.range 2).any fun p => s.fget (pHib p) Reg.HIB_LSTAT 0 6 != 0
  | _ => false

/-- Set STG_CTRL.RESULT. -/
def State.stgResult (s : State) (pg r : Nat) : State := s.fset pg Reg.STG_CTRL 8 2 r

/-- A commit is requested (R55 step 1, R58; log entry 27). -/
def State.commitReq (s : State) (b : Blk) : State :=
  let k := s.blk b.base
  if k.active then s.setBlk b.base { k with held := true }
  else if s.commitBusy b then (s.stgResult b.base 2).raise b.base 2
  else s.setBlk b.base { k with active := true }

/-- Add to a settings set the words that it does not list. -/
def setAdd (old : FMap RegWord) (x : SettingsSet) : SettingsSet :=
  { x with words := old.foldl (fun m (e : Nat × RegWord) => if (mapFind m e.1).isSome then m else mapPut m e.1 e.2) x.words }

/-- The shadows of a block become active, in their RWS fields alone (R55 step 4); jobs in flight keep the words they were accepted under. -/
def State.copyShadows (s : State) (b : Blk) : State :=
  let k := s.blk b.base
  let ep := s.epoch b.base
  let mine := s.shadows.filter fun e => keyIn b.base b.pages e.1
  let old := mine.map fun (e : Nat × RegWord) => (e.1, mapGet regDefault s.regs e.1)
  let sets := if k.jobs.contains ep then k.older ++ [⟨ep, []⟩] else k.older
  let s := s.setBlk b.base { k with active := false, older := sets.map (setAdd old) }
  let s := { s with regs := mine.foldl (fun m (e : Nat × RegWord) =>
    mapSet regDefault m e.1 (withShadow e.1 (mapGet regDefault m e.1) e.2)) s.regs }
  (s.dropShadows b).rset b.base Reg.STG_EPOCH (ep + 1)

/-- A committed change of the port mode: the fuse record, one change less, and the journal (R396). -/
def State.portModeChange (s : State) (old : Nat) : State :=
  let m := s.fget (pHib 0) Reg.HIB_MODE 0 2
  if m = old then s else
  let f := s.kpr.fuses
  let s := { s with kpr := { s.kpr with fuses := { f with portUsed := f.portUsed + 1 } } }
  let s := s.fset (pHib 0) Reg.HIB_MODE 16 4 (8 - (f.portUsed + 1))
  s.journal 5 2 (leBytes 4 old ++ leBytes 4 m) (.portMode m)

/-- TBS_EN has gone to 1, or SVD is reset: the longitudinal position is invalid until a complete word (R153). -/
def State.lposLost (s : State) : State :=
  { s with svd := { s.svd with symLower := [], symUpper := [], cand := none } }.fset pSvd Reg.SVD_STAT 5 1 0

/-- The active commit of block `b` is performed, where a settings set is free (log entry 27). -/
def State.commitApply (s : State) (b : Blk) : State :=
  let k := s.blk b.base
  if !k.active || 3 ≤ k.older.length then s else
  let mode := s.fget (pHib 0) Reg.HIB_MODE 0 2
  let tbs := s.bit pSvd Reg.SVD_CTRL 0
  let s := ((s.copyShadows b).stgResult b.base 1).raise b.base 1
  let s := if b.typ = .hib ∧ b.inst = 0 then s.portModeChange mode else s
  let s := if b.typ = .svd ∧ !tbs ∧ s.bit pSvd Reg.SVD_CTRL 0 then s.lposLost else s
  let s := if b.typ = .dcf ∨ b.typ = .fmt then s.resCheck else s
  let s := if b.typ = .pcr then s.clkUpdate else s
  let k := s.blk b.base
  if k.held then (s.setBlk b.base { k with held := false }).commitReq b else s

/-- COMMIT_APPLY: the commit of the block that owns `page`. -/
def execCommitApply (page : Nat) (s : State) : Host.Outcome State Fault Refusal :=
  next (fun s => match blkAt page with
    | some b => s.commitApply b
    | none => s) s

/-- An abort: before step 3 of an active commit it cancels that commit too, and a further request held for its end (R58, R59; log
entries 28 and 137). -/
def State.stgAbort (s : State) (b : Blk) : State :=
  let k := s.blk b.base
  ((s.setBlk b.base { k with active := false, held := false }).dropShadows b).stgResult b.base 3

/-! ### Block soft reset (R41) -/

/-- Every RW and RWS field of a block has its reset value. -/
def State.fieldsReset (s : State) (b : Blk) : State :=
  let new (e : Nat × RegWord) : RegWord :=
    let m := if keyIn b.base b.pages e.1 then accMask (fldsOf b (e.1 / 1024 - b.base) (4 * (e.1 % 1024))) [.rw, .rws] else 0
    (e.2 &&& ~~~ m) ||| (regDefault e.1 &&& m)
  { s with regs := (s.regs.map fun e => (e.1, new e)).filter fun e => e.2 ≠ regDefault e.1 }

/-- Every register of `n` pages from page `pg` has its reset value. -/
def State.pagesReset (s : State) (pg n : Nat) : State := { s with regs := s.regs.filter fun e => !keyIn pg n e.1 || e.1 % 1024 < 32 }

/-- Engine jobs that the instance at `pg` has taken end with 0x7001. -/
def State.engineReset (s : State) (pg : Nat) : State :=
  (s.jobs.filter fun e => (e.2.inst.map Prod.fst) == some pg).foldl (fun s e =>
    let (s, x) := s.openEnd e.1 ⟨0x7001, 0, 0, 0⟩
    { s with jobs := mapPut s.jobs e.1 { e.2 with slot := none, result := some x } }) s

/-- A table load in progress ends, and no slot is written. -/
def State.tloadReset (s : State) (pg : Nat) : State :=
  if (mapFind s.tloads pg).isSome then { s with tloads := mapDel s.tloads pg }.setLoadStat pg 0 else s

/-- The tables of a block are gone. -/
def State.tablesReset (s : State) (pg n : Nat) : State := (List.range n).foldl (fun s k => s.dropTable pg k) s

/-- The core of a core number. -/
def coreId (k : Nat) : CoreId :=
  if h : k < 32 then .compute ⟨k, h⟩ else if h : k - 32 < 8 then .rt ⟨k - 32, h⟩ else .keeper

/-- The cores of CCL or RTX at `pg` return to reset, its Benches are lost and its rings disarm (R336). -/
def State.clusterReset (s : State) (pg : Nat) : State :=
  let base := if pg = pRtx then 32 else 8 * ((pg - 0x400) / 16)
  let s := (List.range 8).foldl (fun s i => s.coreReset (base + i)) s
  let s := if pg = pRtx then s else
    (s.benches.map Prod.fst).foldl (fun s x =>
      if x / 64 = (pg - 0x400) / 16 ∧ (s.benchOf x).state ≠ 0 then
        let s := ((s.benchKilled x).runsEnd x 7).raise pg 4
        s.setBench x (benchDefault x)
      else s) s
  let s := (List.range 8).foldl (fun s i => (List.range 4).foldl (fun s r =>
    let c := coreId (base + i)
    s.setRing (.core c r) { s.ringOf (.core c r) with armed := false, wait := none, hold := none }) s) s
  if (mapFind s.loads pg).isSome then s.loadOver pg 5 else s

/-- The jobs of a block that no other report names end with status class 0x70. -/
def State.jobsFail (s : State) (b : Blk) : State :=
  (s.blk b.base).jobs.foldl (fun s _ => s.emit (.issue "JOB_STATUS" [b.base, 0x70])) s

/-- What TFE keeps of an input starts again, and the rest stays (R92); and the other way about for TDT. -/
def Chan.tfeReset (c : Chan) : Chan :=
  { Chan.init with
    phF := c.phF, sgF := c.sgF, skip := c.skip, hist := c.hist, surv := c.surv, y1 := c.y1, yhat1 := c.yhat1, b1 := c.b1, b2 := c.b2
    lowRun := c.lowRun, highRun := c.highRun, fAtLim := c.fAtLim, ring := c.ring, count := c.count, frames := c.frames, lost := c.lost
    waits := c.waits }
def Chan.tdtReset (c : Chan) : Chan :=
  { Chan.init with
    gF := c.gF, oF := c.oF, aF := c.aF, cF := c.cF, zs := c.zs, taken := c.taken, win := c.win, dropRun := c.dropRun, sat := c.sat
    envSum := c.envSum, envCnt := c.envCnt, wear := c.wear }

def State.mapChans (s : State) (f : Chan → Chan) : State :=
  { s with tape := { s.tape with chans := s.tape.chans.map fun e => (e.1, f e.2) } }

/-- TFE is idle: no channel is in dropout, and no step set is in force. -/
def State.tfeReset (s : State) : State :=
  (List.range 70).foldl (fun s n => s.fset (pCh n) Reg.CH_STAT 0 3 0) (s.passOver.mapChans Chan.tfeReset)

/-- TDT is idle: no loop is locked, no coupling is kept, and no re-detection waits. -/
def State.tdtReset (s : State) : State :=
  let s := s.passOver.mapChans Chan.tdtReset
  let s := { s with tape := { s.tape with cpl := [], queue := [], units := [] } }
  ((List.range 66).foldl (fun s n => s.setTim n 8 0 3 0) s).showRedet

/-- The ONFI operations of channel `c` end with class 0x70: so do the reads that they belong to; a unit whose program ends so keeps its
write-buffer copy and is written again, its position a zero member (R207, R210). -/
def State.flcReset (s : State) (c : Nat) : State :=
  let f := s.flash
  let s := s.setFlash { f with ops := mapDel f.ops c, raws := mapDel f.raws c, erases := f.erases.filter fun e => chanOf e.1 != c }
  let s := (f.reads.filter fun e => e.2.reading && chanOf e.2.loc.die == c).foldl (fun s e =>
    s.readFailed 1 e.1 { e.2 with reading := false } 0x70) s
  (f.progs.filter fun e => chanOf e.2.loc.die == c).foldl (fun s e =>
    let s := (s.setFlash { s.flash with progs := mapDel s.flash.progs e.1, gaps := e.2.loc :: s.flash.gaps }).endJob pFtm e.2.epoch
    (s.unstripe e.1 e.2).rewriteProgram e.2) s

/-- The reads, programs, patrols and rebuilds of FTM end; the operations in flight in the channels end with them. -/
def State.ftmReset (s : State) : State :=
  let f := s.flash
  let s := (f.reads.filter (·.2.reading)).foldl (fun s e => s.flcDone (chanOf e.2.loc.die) e.2.flcEpoch) s
  let s := f.progs.foldl (fun s e => s.flcDone (chanOf e.2.loc.die) e.2.flcEpoch) s
  let s := s.setDcf { s.dcf with want := s.dcf.want.filter fun r => match r.owner with
    | .flash _ => false
    | _ => true }
  (s.setFlash { s.flash with disc := false, reads := [], inWait := [], waiting := [], slots := [], progs := [], patrols := [], rebuilds := [] }).fset
    pFtm Reg.FTM_DISC 16 4 0

/-- The requests and key jobs that the Keeper has accepted end; what is in the fuses stays (R499). -/
def State.kprReset (s : State) : State :=
  s.kpr.queue.foldl (fun s i =>
    if i.src < 3 then s.kprAnswer i.src 2 (reqAnswer 0x7001 s.kpr.nextSeq)
    else match i.change.tag with
      | some t => s.failCmd t 0 6
      | none => s) { s with kpr := { s.kpr with queue := [] } }

/-- What a soft reset does to the jobs and the state of a block beside its registers (log entry 28).  DMC, HIB, IMG and EVF end each job in the
command that accepts it, so that none is in flight here. -/
def State.blkReset (s : State) (b : Blk) : State :=
  match b.typ with
  | .tfe => (s.jobsFail b).tfeReset
  | .tdt => (s.jobsFail b).tdtReset
  | .fmt =>
    let s := ((s.jobsFail b).passOver.setFmt Fmt.init).showFmt
    s.tloadReset pFmt
  | .dcf =>
    let (s, l) := (s.tloadReset pDcf).dcfReset
    s.cwDeliverAll l
  | .svd => { s.jobsFail b with svd := ⟨true, [], [], none, false, false⟩ }.lposLost
  | .lpe => (s.jobsFail b).lpeReset
  | .tpi =>
    let t := s.tpi
    let s := ((s.jobsFail b).tloadReset pTpi).setTpi { Tpi.init with
      atReset := t.loaded.isSome, loaded := t.loaded, cart := t.cart, wrote := t.wrote, waiting := t.waiting }
    let s := ((s.fset pTpi Reg.TPI_STAT 0 12 0).fset pTpi Reg.TPI_STAT 16 1 0).fset pTpi Reg.TPI_STAT 19 1 0
    (s.fset pTpi Reg.TPI_CM_CTRL 0 1 0).showRing
  | .flc =>
    let s := (s.jobsFail b).flcReset b.inst
    let s := ((s.rset b.base Reg.FLC_STAT (s.rg b.base Reg.FLC_STAT &&& 0xFF)).fset b.base Reg.FLC_RATE 8 3 0).fset b.base Reg.FLC_TRAIN 16 4 0
    (s.fset b.base Reg.FLC_DLY 16 16 0).rset b.base (Reg.FLC_RAW 3) 0
  | .ftm => ((s.jobsFail b).ftmReset).tloadReset pFtm
  | .kpr => s.kprReset
  | .ccl | .rtx => s.clusterReset b.base
  | .cxe | .hse => s.engineReset b.base
  | .aee => { s.engineReset b.base with mem := s.mem.filter fun c => c.1 < shutterBase b.inst || shutterBase (b.inst + 1) ≤ c.1 }
  | .ase => ({ s.engineReset b.base with ase := ⟨[], [], []⟩ }.pagesReset (pAse + 1) 3)
  | .qen => (s.cmds.map Prod.fst).foldl (fun s t => s.complete t 0 6 false 0 0 0) { s with
      ctrls := s.ctrls.map fun (e : Nat × Ctrl) => (e.1, { e.2 with aers := [] }) }
  | _ => s

/-- Fields that are loaded from the fuses: the port mode and its changes left (R395, R396). -/
def State.fuseLoad (s : State) : State :=
  (s.fset (pHib 0) Reg.HIB_MODE 0 2 s.kpr.fuses.portMode).fset (pHib 0) Reg.HIB_MODE 16 4 (8 - s.kpr.fuses.portUsed)

/-- BLK_CTRL.SRST is written: jobs end, shadows go, RW and RWS fields return to reset, and EPOCH rises (R41, R58)
(log entries 28 and 125). -/
def State.softReset (s : State) (b : Blk) : State :=
  let act := (s.blk b.base).active
  let s := if act then s.stgResult b.base 3 else s
  let s := (((s.blkReset b).dropShadows b).fieldsReset b).fuseLoad
  let jobs := if b.typ = .ccl ∨ b.typ = .rtx then (s.blk b.base).jobs else []
  let s := s.setBlk b.base { BlkState.init with srst := true, jobs := jobs }
  let s := s.rset b.base Reg.STG_EPOCH (s.epoch b.base + 1)
  if b.typ = .dcf ∨ b.typ = .fmt then s.resCheck else s

/-- SOFT_RESET_DONE: SRST reads 0 again. -/
def execSoftResetDone (page : Nat) (s : State) : Host.Outcome State Fault Refusal :=
  next (fun s => match blkAt page with
    | some b =>
      let k := s.blk b.base
      if k.srst then (s.setBlk b.base { k with srst := false }).raise b.base 3 else s
    | none => s) s

end Sys2Proof.Machine
end

