-- ==== Sys2Proof/Machine/Firmware.lean ====
section
/-! DEFINITION. Firmware slots, Firmware Image Download, Firmware Commit and activation without reset (chapter 22, R552, R559,
R560). -/

namespace Sys2Proof.Machine

/-- A firmware slot is a container with these sections (R552; log entry 100). -/
def fwKind : TableKind := ⟨0x57464147, [0x0401, 0x0402], 1, false⟩

/-- The check of a firmware image that fails first, as its STATUS of R105; 2 where none does. -/
def State.fwStatus (s : State) (b : List Byte) : Nat := s.loadStatus fwKind b

/-- A piece of an image at byte `o`. -/
def putPiece (m : FMap Byte) (o : Nat) : List Byte → FMap Byte
  | [] => m
  | b :: r => putPiece (mapPut m o b) (o + 1) r

/-- FIRMWARE_IMAGE_DOWNLOAD: `data` is what the host's buffer holds. -/
def execFirmwareImageDownload (tag : Nat) (data : List Byte) (s : State) : Host.Outcome State Fault Refusal :=
  next (fun s => s.admin tag 0x11 fun s k =>
    let n := 4 * (k.e.d10.toNat + 1)
    let o := 4 * k.e.d11.toNat
    if data.length < n then s.failCmd tag 0 4
    else if 65536 < o + n then s.failCmd tag 0 2
    else { s with boot := { s.boot with download := putPiece s.boot.download o (data.take n) } }.completeOk tag) s

/-- The image downloaded: bytes from 0 on. -/
def State.downloaded (s : State) : List Byte :=
  let n := s.boot.download.foldl (fun n (e : Nat × Byte) => max n (e.1 + 1)) 0
  (List.range n).map fun i => mapGet (fun _ => 0) s.boot.download i

/-- The slot that a Firmware Commit names; 0 leaves the choice to the device, which takes the one that does not boot next
(log entry 100). -/
def State.fwSlot (s : State) (k : Cmd) : Nat :=
  let f := natBits k.e.d10.toNat 0 3
  if f = 0 then 3 - s.boot.nextSlot else f

/-- ARG of the entry of a commit: action, firmware version and image digest (log entries 99 and 133). -/
def commitArg (act : Nat) (image : List Byte) : List Byte :=
  leBytes 2 act ++ leBytes 2 (fieldAt image 4 2) ++ (containerDigest image).take 12

/-- A Firmware Commit that waits for its entry (log entry 132). -/
def isCommit (i : JItem) : Bool :=
  match i.change with
  | .commit .. => true
  | _ => false

/-- A Firmware Commit with one of the actions `acts`, of the image that `pick` gives for a slot (R559; log entry 100). -/
def State.fwCommit (s : State) (tag : Nat) (acts : Nat → Bool) (pick : State → Nat → List Byte) : State :=
  match s.cmdOf tag 0x10 true with
  | none => s
  | some k =>
    let a := natBits k.e.d10.toNat 3 3
    if !acts a then s else s.admin tag 0x10 fun s k =>
      let slot := s.fwSlot k
      let b := pick s slot
      if 3 < a then s.failCmd tag 0 2
      else if s.kpr.queue.any isCommit then s
      else if slot = 0 ∨ 2 < slot then s.failCmd tag 1 6
      else if fieldAt b 0x10 1 < s.kpr.fuses.secEpoch ∧ s.fwStatus b = 5 then s.failCmd tag 1 0x13
      else if s.fwStatus b ≠ 2 then s.failCmd tag 1 7
      else if a = 3 ∧ s.streaming ∧ sectionOf b 0x0402 ≠ s.boot.rtCode then s.failCmd tag 1 0x12
      else s.journalCmd tag 3 (commitArg a b) (.commit tag a slot b)

/-- FIRMWARE_COMMIT_REPLACE: Commit Action 000b or 001b (log entry 132). -/
def execFirmwareCommitReplace (tag : Nat) (s : State) : Host.Outcome State Fault Refusal :=
  next (fun s => s.fwCommit tag (fun a => a ≤ 1 || 3 < a) fun s _ => s.downloaded) s

/-- FIRMWARE_COMMIT_NEXT_BOOT: Commit Action 010b; `image` is what the slot holds where this device has not written it. -/
def execFirmwareCommitNextBoot (tag : Nat) (image : List Byte) (s : State) : Host.Outcome State Fault Refusal :=
  next (fun s => s.fwCommit tag (· == 2) fun s n => (mapFind s.boot.slots n).getD image) s

/-- Code for the real-time cores: RT0 to RT7 are held in reset, `b` is loaded into each local store, and RT0 starts (R560). -/
def State.loadRt (s : State) (b : List Byte) : State :=
  let s := (List.range 8).foldl (fun s i =>
    let s := s.coreReset (32 + i)
    (s.sramWrite (localBase (32 + i)) (b.take (512 * 1024))).1) s
  let s := s.rset (pRtx + 1) (Reg.CORE 0 4) 0
  s.coreRun 32

/-- The status of an activation: the Keeper's code takes effect at the next boot only. -/
def State.actStatus (s : State) (slot : Nat) : Nat :=
  if sectionOf ((mapFind s.boot.slots slot).getD []) 0x0401 = s.boot.kprCode then 0 else 0x10

/-- A commit takes effect with its journal entry (log entry 100). -/
def State.commitNow (s : State) (tag act slot : Nat) (image : List Byte) : State :=
  let b := s.boot
  if act ≤ 1 then { s with boot := { b with slots := mapPut b.slots slot image, nextSlot := slot, download := [] } }.completeOk tag
  else
    let s := { s with boot := { b with slots := mapPut b.slots slot image } }
    if act = 2 ∨ sectionOf image 0x0402 = b.rtCode then
      let s := { s with boot := { s.boot with nextSlot := slot } }
      if act = 2 then s.completeOk tag else s.answer tag ((if s.actStatus slot = 0 then 0 else 1), s.actStatus slot, 0)
    else ({ s with boot := { s.boot with act := some (s.tb.toNat, tag, slot) } }).setEvts 32 0xFF 255 8

/-- FIRMWARE_ACTIVATE: Commit Action 011b. While the activation of the command runs, the row is its end: the old firmware has parked,
the new code is loaded and started, and fetching resumes. -/
def execFirmwareActivate (tag : Nat) (image : List Byte) (s : State) : Host.Outcome State Fault Refusal :=
  next (fun s =>
    match s.boot.act with
    | some (_, t, slot) =>
      if t ≠ tag then s else
      let code := sectionOf ((mapFind s.boot.slots slot).getD []) 0x0402
      let s := s.loadRt code
      let s := { s with boot := { s.boot with act := none, rtCode := code, nextSlot := slot } }
      s.answer tag ((if s.actStatus slot = 0 then 0 else 1), s.actStatus slot, 0)
    | none => s.fwCommit tag (· == 3) fun s n => (mapFind s.boot.slots n).getD image) s

/-- ACTIVATION_STALL_EXPIRY: 45 ms after step 1 the previous code is loaded again, and the failure is journalled. -/
def execActivationStallExpiry (s : State) : Host.Outcome State Fault Refusal :=
  next (fun s =>
    match s.boot.act with
    | none => s
    | some (t, tag, slot) =>
      let s := (s.reach (t + 45000000)).loadRt s.boot.rtCode
      let s := { s with boot := { s.boot with act := none } }
      let image := (mapFind s.boot.slots slot).getD []
      (s.journal 3 0 (leBytes 2 0xFF ++ leBytes 2 (fieldAt image 4 2) ++ (containerDigest image).take 12) .none_).failCmd tag 0 6) s

end Sys2Proof.Machine
end

