-- ==== Sys2Proof/Machine/Migration.lean ====
section
/-! DEFINITION. Migration blobs: SAVE and RESTORE of a function (chapter 19, R485 to R489). Inside a section's record the manual
gives what is held and the record's length; where each byte lies is open (log entry 14). -/

namespace Sys2Proof.Machine

/-! ### Records -/

/-- The record of `n` bytes of section type `t` that holds the bytes `c` (log entry 14). -/
def recPut (t n : Nat) (c : List Byte) : List Byte :=
  (List.range n).map fun p =>
    match (List.range c.length).find? fun i => Config.sectionAt t i == p with
    | some i => c.getD i 0
    | none => 0

/-- The `n` bytes that a record of section type `t` holds (log entry 14). -/
def recGet (t n : Nat) (b : List Byte) : List Byte := (List.range n).map fun i => b.getD (Config.sectionAt t i) 0

/-- A section of the blob: header and body. -/
def sectionBytes (t : Nat) (b : List Byte) : List Byte := leBytes 2 t ++ leBytes 2 1 ++ leBytes 4 b.length ++ List.replicate 8 0 ++ b

/-! ### What the sections hold (R487) -/

/-- Numbers of a list whose bit is set in `n` bits, as bytes. -/
def bitBytes (n : Nat) (l : List Nat) : List Byte :=
  (List.range (n / 8)).map fun i => BitVec.ofNat 8 (((List.range 8).map fun b => if l.contains (8 * i + b) then 2 ^ b else 0).sum)

/-- The numbers whose bit is set. -/
def bytesBits (b : List Byte) : List Nat := (List.range (8 * b.length)).filter fun i => ((b.getD (i / 8) 0).toNat / 2 ^ (i % 8)) % 2 == 1

/-- CIDs of the outstanding Asynchronous Event Requests. -/
def State.aerCids (s : State) (c : Nat) : List Nat := (s.ctrl c).aers.map fun t => ((mapFind s.cmds t).map fun k => k.e.cid).getD 0

/-- Keys of the temperature thresholds. -/
def tempKeys : List Nat := (List.range 64).map (0x400 + ·)

/-- Controller registers, features, Barlis version, outstanding requests and Timestamp. -/
def State.ctrlRecord (s : State) (c : Nat) : List Byte :=
  let x := s.ctrl c
  let b (v : Bool) (i : Nat) : Nat := if v then 2 ^ i else 0
  let cids := s.aerCids c
  leBytes 1 (b x.en 0 + b x.wrr 1 + b x.barlis 2 + b (s.feature c 0xE00 == 1) 3) ++ leBytes 4 (s.feature c 1) ++ leBytes 1 (s.feature c 2)
    ++ leBytes 2 (s.feature c 8) ++ leBytes 4 (s.feature c 0x0B) ++ leBytes 2 (s.feature c 0xC0) ++ leBytes 6 (s.timestamp c)
    ++ leBytes 2 x.grantSq ++ leBytes 2 x.grantCq ++ leBytes 1 cids.length
    ++ ((List.range 4).flatMap fun i => leBytes 2 (cids.getD i 0)) ++ bitBytes 2048 x.noCoal
    ++ tempKeys.flatMap fun t => leBytes 3 (s.feature c t)

/-- Length of what the controller section holds. -/
def ctrlRecordLen : Nat := 481

/-- One SQ, or one CQ. -/
def sqRecord (q : Nat) (k : Sq) : List Byte :=
  leBytes 2 q ++ [0] ++ leBytes 4 k.size ++ leBytes 8 k.base.toNat ++ leBytes 4 k.head ++ leBytes 4 k.tail ++ [0] ++ leBytes 2 k.cq
    ++ leBytes 1 (k.prio.cls - 1) ++ [0]

def cqRecord (q : Nat) (k : Cq) : List Byte :=
  leBytes 2 q ++ [1] ++ leBytes 4 k.size ++ leBytes 8 k.base.toNat ++ leBytes 4 k.head ++ leBytes 4 k.tail
    ++ [if k.phase then 1 else 0] ++ leBytes 2 k.vector ++ [0] ++ [if k.ien then 1 else 0]

def queueRecordLen : Nat := 28

/-- One vector: address, data, and control with the mask bit. -/
def State.vecRecord (s : State) (k v : Nat) : List Byte :=
  let f := s.func k
  let e := mapGet (fun _ => (0, 0)) f.entries v
  leBytes 8 e.1 ++ leBytes 4 e.2 ++ leBytes 4 (if (mapFind f.unmasked v).isSome then 0 else 1)

/-- The Deferred Error log as log page C0h gives it (R433). -/
def State.deferBytes (s : State) (c : Nat) : List Byte :=
  let x := s.ctrl c
  leBytes 2 x.defer.length ++ leBytes 2 (if x.deferOvf then 1 else 0) ++ leBytes 4 0 ++ leBytes 8 x.deferGen ++ List.replicate 48 0
    ++ x.defer.flatMap fun e =>
      leBytes 4 e.nsid ++ leBytes 2 e.cause ++ leBytes 2 0 ++ leBytes 8 e.slba ++ leBytes 4 e.nlb ++ leBytes 2 e.sqid ++ leBytes 2 e.cid
        ++ leBytes 6 e.time ++ leBytes 2 0

/-- The namespaces attached to controller `c`. -/
def State.nssOf (s : State) (c : Nat) : List (Nat × Ns) := s.nss.filter fun e => e.2.attached.contains c

/-- The Transom page for the blob: the version agreed in place of slot 1. -/
def State.pageBytes (s : State) (k : Nat) : List Byte :=
  memRead s.mem (s.mbox k 0) 64 ++ List.replicate 32 0 ++ leBytes 2 (s.agreed k) ++ List.replicate 30 0
    ++ memRead s.mem (s.mbox k 128) 3968

/-- The Benches of function `k`, as handle and image. -/
def State.benchImages (s : State) (k : Nat) : List (Nat × List Byte) :=
  (s.benches.filter fun e => e.2.func == k && e.2.state != 0).filterMap fun e => e.2.prog.map fun p => (e.1, p.image)

/-- The sections of function `k`, in the order of their types. -/
def State.blobSections (s : State) (k : Nat) : List (List Byte) :=
  let x := s.ctrl k
  let f := s.func k
  let c := f.later.getD f.ctl
  [ sectionBytes 1 (recPut 1 512 (s.ctrlRecord k)),
    sectionBytes 2 ((x.sqs.flatMap fun e => recPut 2 32 (sqRecord e.1 e.2)) ++ x.cqs.flatMap fun e => recPut 2 32 (cqRecord e.1 e.2)),
    sectionBytes 3 ((List.range f.vi).flatMap fun v => recPut 3 16 (s.vecRecord k v)),
    sectionBytes 4 ((s.nssOf k).flatMap fun e => recPut 4 32 (leBytes 4 e.1 ++ leBytes 16 e.2.nguid ++ leBytes 1 e.2.lbaf)),
    sectionBytes 5 (s.deferBytes k ++ bitBytes 1024 (x.pend.map fun e => e.1 - 1)),
    sectionBytes 6 ((s.benchImages k).flatMap fun b =>
      recPut 6 32 (leBytes 2 b.1 ++ leBytes 1 (b.1 / 64) ++ leBytes 4 b.2.length) ++ b.2),
    sectionBytes 7 (s.pageBytes k),
    sectionBytes 8 ((s.kpr.keys.filter fun e => e.2.owner == k).flatMap fun e =>
      recPut 8 96 (leBytes 2 e.1 ++ leBytes 1 e.2.typ ++ leBytes 2 e.2.usage ++ leBytes 1 e.2.key.length ++ e.2.key)),
    sectionBytes 9 (recPut 9 64 (leBytes 2 c.share ++ leBytes 4 c.ecap ++ leBytes 2 c.bquota ++ leBytes 2 c.tables)) ]

/-! ### SAVE (R485, R486) -/

/-- The next nonce under the migration key. -/
def State.migNonce (s : State) (m : KeySlot) : State × List Byte :=
  ({ s with kpr := { s.kpr with migKey := some { m with inv := m.inv + 1 } } }, leBytes 4 s.kpr.salt ++ leBytes 8 m.inv)

/-- The plaintext header of a blob. -/
def State.blobHeader (s : State) (k len nsec : Nat) (iv : List Byte) : List Byte :=
  leBytes 4 0x42494147 ++ [1, 1, 4, 0] ++ leBytes 4 len ++ leBytes 2 nsec ++ leBytes 2 0 ++ leBytes 8 s.devId ++ leBytes 8 k
    ++ leBytes 8 s.qen.saves ++ leBytes 8 s.tb.toNat ++ iv ++ List.replicate 68 0

/-- BLOB_LEN of the page. -/
def State.blobLen (s : State) (k : Nat) : Nat := s.tGet k 0x70 / 2 ^ 32

/-- A save ends with RESULT `r`; the function is frozen again where it failed (log entry 79). -/
def State.saveOver (s : State) (k r : Nat) (m : MigState) : State := (s.setFunc k { s.func k with mig := m }).migResult k r

/-- SAVE_END: the blob has gone to the host buffer of the parent PF, or its DMA has failed. -/
def execSaveEnd (k : Fin 256) (dmaOk : Bool) (s : State) : Host.Outcome State Fault Refusal :=
  next (fun s =>
    let k := k.val
    if (s.func k).mig ≠ .saving then s else
    let secs := s.blobSections k
    let body := secs.flatten
    let len := 144 + body.length
    match s.kpr.migKey with
    | none => s.saveOver k 3 .frozen
    | some m =>
      if 0x0400_0000 < len ∨ s.blobLen k < len then s.saveOver k 5 .frozen
      else if !dmaOk then s.saveOver k 0xC .frozen
      else
        let s := { s with qen := { s.qen with saves := s.qen.saves + 1 } }
        let (s, iv) := s.migNonce m
        let h := s.blobHeader k len secs.length iv
        let ct := gcmCrypt m.key iv body
        let s := s.emit (.hostData (s.parent k) (h ++ ct ++ gcmTag m.key iv h ct))
        ((s.tFld k 0x70 32 32 len).saveOver k 2 .saved).raise pImg 6) s

/-! ### RESTORE (R488) -/

/-- Sections of a body by type; none: the body is not a sequence of sections at SVER 1. -/
def parseSections : Nat → List Byte → Option (List (Nat × List Byte))
  | 0, b => if b.isEmpty then some [] else none
  | n + 1, b =>
    if b.isEmpty then some [] else
    let len := fieldAt b 4 4
    if b.length < 16 + len ∨ len % 8 ≠ 0 ∨ fieldAt b 2 2 ≠ 1 ∨ fieldAt b 8 8 ≠ 0 then none
    else (parseSections n (b.drop (16 + len))).map ((fieldAt b 0 2, (b.drop 16).take len) :: ·)

/-- Records of `n` bytes of a section. -/
def records (n : Nat) (b : List Byte) : List (List Byte) := (chunks n b).filter fun r => r.length == n

/-- What a blob holds once it is deciphered. -/
structure Blob where
  ctrl : List Byte
  queues : List (List Byte)
  vecs : List (List Byte)
  nss : List (Nat × Nat × Nat)
  defer : List Byte
  benches : List (Nat × List Byte)
  page : Option (List Byte)
  keys : List (Nat × Nat × Nat × List Byte)
  ctl : Controls
  srcId : Nat
deriving DecidableEq, Repr

/-- Benches of section 6: handle and image. -/
def parseBenches : Nat → List Byte → List (Nat × List Byte)
  | 0, _ => []
  | n + 1, b =>
    if b.length < 32 then [] else
    let r := recGet 6 7 (b.take 32)
    let len := fieldAt r 3 4
    (fieldAt r 0 2, (b.drop 32).take len) :: parseBenches n (b.drop (32 + len))

/-- The sections by type, each present where it must be. -/
def blobOf (srcId minor : Nat) (l : List (Nat × List Byte)) : Option Blob :=
  let sec (t : Nat) : Option (List Byte) := (l.find? fun e => e.1 == t).map Prod.snd
  if !(l.map Prod.fst).all (fun t => 1 ≤ t && t ≤ (if minor = 0 ∧ t = 7 then 6 else 9)) ∨ !(l.map Prod.fst).Nodup then none else
  match sec 1, sec 2, sec 3, sec 4, sec 5, sec 6, sec 8, sec 9 with
  | some c, some q, some v, some n, some d, some b, some ks, some ct =>
    let r := recGet 9 10 ct
    some {
      ctrl := recGet 1 ctrlRecordLen c
      queues := (records 32 q).map (recGet 2 queueRecordLen)
      vecs := (records 16 v).map (recGet 3 16)
      nss := (records 32 n).map fun x => let r := recGet 4 21 x; (fieldAt r 0 4, fieldAt r 4 16, fieldAt r 20 1)
      defer := d
      benches := parseBenches 256 b
      page := sec 7
      keys := (records 96 ks).map fun x =>
        let r := recGet 8 70 x; (fieldAt r 0 2, fieldAt r 2 1, fieldAt r 3 2, (r.drop 6).take (fieldAt r 5 1))
      ctl := ⟨fieldAt r 0 2, fieldAt r 2 4, fieldAt r 6 2, fieldAt r 8 2⟩
      srcId := srcId }
  | _, _, _, _, _, _, _, _ => none

/-- Checks 1 to 3 of R488: what the blob holds, or RESULT. -/
def State.readBlob (s : State) (k : Nat) (b : List Byte) : Except Nat Blob :=
  let len := fieldAt b 8 4
  let minor := fieldAt b 4 1
  let major := fieldAt b 5 1
  if b.length < 144 ∨ fieldAt b 0 4 ≠ 0x42494147 ∨ s.blobLen k < len ∨ 0x0400_0000 < len ∨ b.length < len ∨ len < 144 then .error 6
  else if 1 < major ∨ (major = 1 ∧ 1 < minor) ∨ 4 < fieldAt b 6 1 then .error 7
  else match s.kpr.migKey with
  | none => .error 6
  | some m =>
    let h := b.take 128
    let ct := (b.drop 128).take (len - 144)
    let iv := (h.drop 0x30).take 12
    if gcmTag m.key iv h ct ≠ (b.drop (len - 16)).take 16 then .error 6
    else if fieldAt h 7 1 ≠ 0 ∨ fieldAt h 0xE 2 ≠ 0 ∨ fieldAt h 0x19 7 ≠ 0 ∨ !(h.drop 0x3C).all (· == 0) ∨ len % 8 ≠ 0 then .error 6
    else match parseSections 16 (gcmCrypt m.key iv ct) with
      | some l => match blobOf (fieldAt h 0x10 8) minor l with
        | some x => if fieldAt h 0xC 2 = l.length then .ok x else .error 6
        | none => .error 6
      | none => .error 6

/-- The namespace of this device that a blob's entry names. -/
def State.nsByGuid (s : State) (e : Nat × Nat × Nat) : Option Nat :=
  (s.nss.find? fun n => n.2.nguid == e.2.1 && n.2.lbaf == e.2.2).map Prod.fst

/-- Checks 4 to 6 of R488: 0, or RESULT. -/
def State.restoreStatus (s : State) (k : Nat) (x : Blob) : Nat :=
  let f := s.func k
  let sqs := (x.queues.filter fun r => fieldAt r 2 1 == 0).length
  let cqs := (x.queues.filter fun r => fieldAt r 2 1 == 1).length
  if f.vq < sqs ∨ f.vq < cqs ∨ f.vi < x.vecs.length then 8
  else if x.nss.any fun e => (s.nsByGuid e).isNone then 9
  else if x.ctl.bquota < x.benches.length ∨ (x.benches.any fun b => 255 < b.1 || (s.benchOf b.1).state != 0 || s.imageStatus b.2 != 0)
    ∨ !(x.benches.map Prod.fst).Nodup ∨ !(x.keys.map Prod.fst).Nodup
    ∨ (x.keys.any fun e => 511 < e.1 || (mapFind s.kpr.keys e.1).isSome) then 0xA
  else 0

/-- The queues of the blob. -/
def blobSqs (x : Blob) : FMap Sq :=
  (x.queues.filter fun r => fieldAt r 2 1 == 0).foldl (fun (m : FMap Sq) r =>
    mapPut m (fieldAt r 0 2) ⟨fieldAt r 3 4, fieldAt r 15 4, fieldAt r 19 4, fieldAt r 24 2, prioOf (fieldAt r 26 1),
      BitVec.ofNat 64 (fieldAt r 7 8)⟩) []

def blobCqs (x : Blob) : FMap Cq :=
  (x.queues.filter fun r => fieldAt r 2 1 == 1).foldl (fun (m : FMap Cq) r =>
    mapPut m (fieldAt r 0 2) ⟨fieldAt r 3 4, fieldAt r 15 4, fieldAt r 19 4, fieldAt r 23 1 == 1, fieldAt r 24 2, fieldAt r 27 1 == 1,
      BitVec.ofNat 64 (fieldAt r 7 8), [], 0⟩) []

/-- The Deferred Error log of the blob. -/
def blobDefer (b : List Byte) : List DeferEntry :=
  (List.range (fieldAt b 0 2)).map fun i =>
    let r := (b.drop (64 + 32 * i)).take 32
    ⟨fieldAt r 0 4, fieldAt r 4 2, fieldAt r 8 8, fieldAt r 16 4, fieldAt r 20 2, fieldAt r 22 2, fieldAt r 24 6⟩

/-- A work tag that no command or job holds. -/
def State.anyTag (s : State) : Nat := ((List.range 65536).map (256 + ·)).find? (fun t => s.tagFree t) |>.getD 0

/-- The outstanding Asynchronous Event Requests of the blob hold work tags again. -/
def State.putAers (s : State) (k : Nat) (cids : List Nat) : State :=
  cids.foldl (fun s cid =>
    let t := s.anyTag
    let e : Sqe := ⟨0x0C, cid, 0, 0, 0, 0, 0, 0, 0, 0, 0, 0, 0, 0⟩
    let s := { s with cmds := mapPut s.cmds t ⟨k, 0, 0, e, s.qen.stamp, (s.func k).epoch, true, false, 0⟩ }
    s.setCtrl k { s.ctrl k with aers := (s.ctrl k).aers ++ [t] }) s

/-- The controller of the blob (section 1, with sections 2 and 5). -/
def State.putCtrl (s : State) (k : Nat) (x : Blob) : State :=
  let r := x.ctrl
  let flag (i : Nat) : Bool := natBits (fieldAt r 0 1) i 1 == 1
  let n := fieldAt x.defer 0 2
  let put (m : FMap Nat) (id v : Nat) : FMap Nat := mapSet (fun _ => 0) m id v
  let feats := [(1, fieldAt r 1 4), (2, fieldAt r 5 1), (8, fieldAt r 6 2), (0x0B, fieldAt r 8 4), (0xC0, fieldAt r 12 2),
    (0x0E, (fieldAt r 14 6 + 2 ^ 48 - s.tbMs % 2 ^ 48) % 2 ^ 48), (0xE00, if flag 3 then 1 else 0)]
  let temps := (List.range 64).map fun i => (0x400 + i, fieldAt r (289 + 3 * i) 3)
  let s := s.setCtrl k { ctrlDefault k with
    en := flag 0, wrr := flag 1, barlis := flag 2
    sqs := blobSqs x, cqs := blobCqs x
    grantSq := fieldAt r 20 2, grantCq := fieldAt r 22 2
    features := (feats ++ temps).foldl (fun m e => put m e.1 e.2) []
    noCoal := bytesBits ((r.drop 33).take 256)
    defer := blobDefer x.defer, deferOvf := natBits (fieldAt x.defer 2 1) 0 1 == 1, deferGen := fieldAt x.defer 8 8
    pend := (bytesBits ((x.defer.drop (64 + 32 * n)).take 128)).foldl (fun m i => mapPut m (i + 1) s.qen.stamp) [] }
  s.putAers k ((List.range (fieldAt r 24 1)).map fun i => fieldAt r (25 + 2 * i) 2)

/-- Benches, keys, vectors, namespaces and the page of the blob. -/
def State.putRest (s : State) (k : Nat) (x : Blob) (places : List (Nat × Nat × Nat)) : State :=
  let s := x.benches.zipIdx.foldl (fun s e =>
    let p := places.getD e.2 (0, 0, 0)
    s.bindImage k e.1.1 e.1.2 p.1 p.2.1 p.2.2) s
  let s := x.keys.foldl (fun s e => s.fillSlot e.1 e.2.1 e.2.2.1 k e.2.2.2) s
  let s := s.setFunc k { s.func k with
    entries := x.vecs.zipIdx.foldl (fun (m : FMap (Nat × Nat)) v =>
      mapSet (fun _ => (0, 0)) m v.2 (fieldAt v.1 0 8, fieldAt v.1 8 4)) []
    unmasked := x.vecs.zipIdx.foldl (fun (m : FMap (Nat × Nat)) v =>
      if natBits (fieldAt v.1 12 4) 0 1 = 0 then mapPut m v.2 (fieldAt v.1 0 8, fieldAt v.1 8 4) else m) [] }
  let s := x.nss.foldl (fun s e =>
    match s.nsByGuid e with
    | some n => { s with nss := s.nss.map fun (y : Nat × Ns) =>
        (y.1, if y.1 = n ∧ !y.2.attached.contains k then { y.2 with attached := y.2.attached ++ [k] } else y.2) }
    | none => s) s
  match x.page with
  | some b =>
    let s := (s.sramWrite (s.mbox k 0) (b.take 64)).1
    let s := (s.sramWrite (s.mbox k 128) (b.drop 128)).1
    s.tFld k 0x60 0 16 (fieldAt b 0x60 2)
  | none =>
    let s := (s.sramWrite (s.mbox k 0) (List.replicate 64 0)).1
    ((s.sramWrite (s.mbox k 128) (List.replicate 3968 0)).1).unagree k

/-- A restore ends without effect. -/
def State.restoreFail (s : State) (k r : Nat) : State := ((s.errCnt pImg 2).setFunc k { s.func k with mig := .running }).migResult k r

/-- Every section takes effect, and the secondary is online and frozen (log entry 79). -/
def State.restore (s : State) (k : Nat) (x : Blob) (places : List (Nat × Nat × Nat)) : State :=
  let s := s.setFunc k { s.func k with epoch := (s.func k).epoch + 1 }
  let s := ((s.putCtrl k x).putRest k x places).setControls k x.ctl
  let s := s.setFunc k { s.func k with mig := .frozen, online := true, owes5 := true }
  ((s.journal 0x11 0 (leBytes 4 k ++ leBytes 8 x.srcId) .none_).migResult k 2).raise pImg 7

/-- RESTORE_END: `blob` is what the host buffer holds; firmware has chosen DRAM addresses for the Benches. -/
def execRestoreEnd (k : Fin 256) (dmaOk : Bool) (blob : List Byte) (places : List (Nat × Nat × Nat)) (s : State) :
    Host.Outcome State Fault Refusal :=
  next (fun s =>
    let k := k.val
    if (s.func k).mig ≠ .restoring then s
    else if !dmaOk then s.restoreFail k 0xC
    else match s.readBlob k blob with
    | .error r => s.restoreFail k r
    | .ok x => match s.restoreStatus k x with
      | 0 => s.restore k x places
      | r => s.restoreFail k r) s

end Sys2Proof.Machine
end

