-- ==== Sys2Proof/Machine/Keeper.lean ====
section
/-! DEFINITION. The Keeper: SPDM, authorised requests, the configuration journal and alarms (chapter 20). -/

namespace Sys2Proof.Machine

/-! ### SPDM (R409, R510, R511) -/

/-- The SPDM message in progress from `src`: the mailbox's CMA/SPDM object, or what a secured session or NVMe-MI carries. -/
def State.spdmMsg (s : State) (src : Nat) (msg : List Byte) : Option (Nat × List Byte) :=
  if 2 ≤ src then some (1, msg) else
  match (s.port src).doe with
  | some o => if fieldAt o 2 1 = 1 then some (1, o.drop 8) else some (2, msg)
  | none => none

/-- The Keeper runs its firmware; in Retired its ROM answers (R496, R553; log entry 130). -/
def State.kprRuns (s : State) : Bool := s.fget pPcr Reg.PCR_BOOT 9 2 != 0 || s.kpr.fuses.lcs == 4

/-- An SPDM ERROR response. -/
def spdmError (ver code : Nat) : List Byte := leBytes 1 ver ++ [0x7F] ++ leBytes 1 code ++ [0]

/-- An SPDM request with code `code`: answered where the Keeper runs and has an identity key; version 1.2 only; in Retired three
requests only (R496; log entry 83). -/
def State.spdm (s : State) (src : Nat) (msg : List Byte) (code ver : Nat) (retired : Bool) (run : State → List Byte → State × List Byte) : State :=
  match s.spdmMsg src msg with
  | none => s
  | some (typ, m) =>
    if !s.kprRuns ∨ s.kpr.fuses.lcs = 0 ∨ fieldAt m 1 1 ≠ code then s
    else if fieldAt m 0 1 ≠ ver then s.kprAnswer src typ (spdmError 0x12 0x41)
    else if s.kpr.fuses.lcs = 4 ∧ !retired then s.kprAnswer src typ (spdmError 0x12 0x07)
    else
      let r := run s m
      r.1.kprAnswer src typ r.2

/-- GET_VERSION (R409). -/
def execGetVersion (src : Fin 3) (msg : List Byte) (s : State) : Host.Outcome State Fault Refusal :=
  next (fun s => s.spdm src.val msg 0x84 0x10 true fun s _ => (s, [0x10, 0x04, 0, 0, 0, 1] ++ leBytes 2 0x1200)) s

/-- The certificate chain of slot 0 or 1. -/
def State.chain (s : State) (slot : Nat) : Option (List Byte) :=
  if slot = 0 then some Config.certChain else if slot = 1 then s.kpr.ownerCert else none

/-- GET_CERTIFICATE (R510). -/
def execGetCertificate (src : Fin 3) (msg : List Byte) (s : State) : Host.Outcome State Fault Refusal :=
  next (fun s => s.spdm src.val msg 0x82 0x12 true fun s m =>
    let slot := fieldAt m 2 1 % 16
    match s.chain slot with
    | none => (s, spdmError 0x12 0x01)
    | some c =>
      let part := (c.drop (fieldAt m 4 2)).take (fieldAt m 6 2)
      let left := c.length - fieldAt m 4 2 - part.length
      (s, [0x12, 0x02] ++ leBytes 1 slot ++ [0] ++ leBytes 2 part.length ++ leBytes 2 left ++ part)) s

/-- H(NEXT_SEQ − 1). -/
def State.headHash (s : State) : List Byte := if s.kpr.nextSeq = 0 then sha256 Config.identKey else s.kpr.head

/-- Digests of the tables that block `pg` holds in `n` slots, in slot order. -/
def State.tableDigests (s : State) (pg n : Nat) : List Byte :=
  (List.range n).flatMap fun k => ((s.table pg k).map (·.digest)).getD []

/-- What measurement block `i` is a digest of (R511). -/
def State.measured (s : State) (i : Nat) : List Byte :=
  let f := s.kpr.fuses
  match i with
  | 2 => s.boot.kprCode
  | 3 => s.boot.rtCode
  | 4 => s.tableDigests pFmt 8
  | 5 => s.tableDigests pDcf 16
  | 6 => s.tableDigests pTpi 1
  | 7 => s.tableDigests pFtm 4
  | 8 => leBytes 1 f.lcs ++ leBytes 1 f.secEpoch ++ leBytes 1 f.ownerUsed ++ leBytes 1 f.secUsed ++ leBytes 1 f.portUsed
      ++ leBytes 1 f.ikeyUsed ++ leBytes 1 f.dbgUsed ++ leBytes 2 f.steps
  | 9 => leBytes 4 s.kpr.nextSeq ++ s.headHash
  | 10 => leBytes 4 s.kpr.policy ++ s.kpr.ownerKey ++ s.kpr.recoveryKey
  | _ => []

/-- Measurement block `i`: a DMTF measurement of a SHA-384 digest. -/
def State.measurement (s : State) (i : Nat) : List Byte :=
  leBytes 1 i ++ [1] ++ leBytes 2 51 ++ leBytes 1 (if i = 1 then 0 else if i < 4 then 1 else 3) ++ leBytes 2 48
    ++ (if i = 1 then beBytes 48 Config.bootRom.toNat else sha384 (s.measured i))

/-- A response with its signature by the identity key, over what was asked and answered. -/
def signed (asked body : List Byte) : List Byte := body ++ Config.identSign (sha384 (asked ++ body))

/-- GET_MEASUREMENTS (R511). -/
def execGetMeasurements (src : Fin 3) (msg : List Byte) (s : State) : Host.Outcome State Fault Refusal :=
  next (fun s => s.spdm src.val msg 0xE0 0x12 true fun s m =>
    let i := fieldAt m 3 1
    let sig := fieldAt m 2 1 % 2 == 1
    let l := if i = 0 then [] else if i = 0xFF then (List.range 10).map (· + 1) else if i ≤ 10 then [i] else []
    if 10 < i ∧ i ≠ 0xFF then (s, spdmError 0x12 0x01) else
    let rec_ := l.flatMap s.measurement
    let (s, nonce) := s.freeBytes 32
    let b := [0x12, 0x60] ++ leBytes 1 (if i = 0 then 10 else 0) ++ [0] ++ leBytes 1 l.length ++ leBytes 3 rec_.length ++ rec_ ++ nonce
      ++ leBytes 2 0
    (s, if sig then signed m b else b)) s

/-- The digest over every measurement block. -/
def State.measureAll (s : State) : List Byte := sha384 (((List.range 10).map (· + 1)).flatMap s.measurement)

/-- CHALLENGE (R510). -/
def execChallenge (src : Fin 3) (msg : List Byte) (s : State) : Host.Outcome State Fault Refusal :=
  next (fun s => s.spdm src.val msg 0x83 0x12 false fun s m =>
    let slot := fieldAt m 2 1 % 16
    match s.chain slot with
    | none => (s, spdmError 0x12 0x01)
    | some c =>
      let (s, nonce) := s.freeBytes 32
      let sum := if fieldAt m 3 1 = 0 then [] else s.measureAll
      (s, signed m ([0x12, 0x03] ++ leBytes 1 slot ++ leBytes 1 (if s.kpr.ownerCert.isSome then 3 else 1) ++ sha384 c ++ nonce ++ sum
        ++ leBytes 2 0))) s

/-- KEY_EXCHANGE opens the secured session of `src` (R498); ephemeral keys and random data are free. -/
def execKeyExchange (src : Fin 3) (msg : List Byte) (s : State) : Host.Outcome State Fault Refusal :=
  next (fun s => s.spdm src.val msg 0xE4 0x12 false fun s m =>
    let slot := fieldAt m 3 1 % 16
    if (s.chain slot).isNone then (s, spdmError 0x12 0x01) else
    let (s, rnd) := s.freeBytes 32
    let (s, share) := s.freeBytes 96
    let (s, mac) := s.freeBytes 48
    let x := src.val
    let s := { s with kpr := { s.kpr with sessions := if s.kpr.sessions.contains x then s.kpr.sessions else x :: s.kpr.sessions } }
    let sum := if fieldAt m 2 1 = 0 then [] else s.measureAll
    (s, signed m ([0x12, 0x64, 0, 0] ++ leBytes 2 (x + 1) ++ [0, 0] ++ rnd ++ share ++ sum ++ leBytes 2 0) ++ mac)) s

/-- SET_CERTIFICATE: slot 1, in Owned. -/
def execSetCertificate (src : Fin 3) (msg : List Byte) (s : State) : Host.Outcome State Fault Refusal :=
  next (fun s => s.spdm src.val msg 0xEE 0x12 false fun s m =>
    if s.kpr.fuses.lcs ≠ 3 ∨ fieldAt m 2 1 % 16 ≠ 1 then (s, spdmError 0x12 0x01)
    else ({ s with kpr := { s.kpr with ownerCert := some (m.drop 4) } }, [0x12, 0x6E, 1, 0])) s

/-! ### Keys, alarms and the DRBG (R367, R496, R502) -/

/-- An AEE job that an instance has taken ends with 0x6010: plaintext of a GCM_DEC job that has left the Shutter is zeroed, as far
as that was not done before. -/
def State.eraseJob (s : State) (e : Nat × Job) : State :=
  let j := e.2
  match j.inst with
  | none => s
  | some (pg, _) =>
    let x := j.result.getD ⟨0, 0, 0, 0⟩
    let n := if j.opcode = 4 ∧ x.status = 0 then x.bytesOut else 0
    let (s, ok) := s.aeeZero j n
    let s := if n ≠ 0 ∧ !ok then s.errCnt pg 3 else s
    let x : JobResult := if x.status = 0x3021 then { x with status := 0x6010 }
      else ⟨0x6010, if n ≠ 0 ∧ ok then 1 else 0, (Config.freeWord s.free).toNat % (j.srcLen + 1), n⟩
    { s with free := s.free + 1, jobs := mapPut s.jobs e.1 { j with slot := none, result := some x } }.errCnt pg 1

/-- What an alarm erases: every key slot, the DRBG state and both Shutters; AEE jobs accepted before end with 0x6010. -/
def State.eraseKeys (s : State) : State :=
  let s := (s.jobs.filter fun e => e.2.engine == 0x14).foldl State.eraseJob s
  let s := { s with
    kpr := { s.kpr with keys := [], seeded := false, generated := 0 }
    nss := s.nss.map fun (e : Nat × Ns) => (e.1, { e.2 with slot := none })
    mem := s.mem.filter fun c => c.1 < shutterBase 0 || shutterBase 2 ≤ c.1 }
  s.fset (pAee 0) Reg.AEE_DRBG 0 1 0

/-- Boot or the end of an alarm seeds the DRBG, with a fresh SALT. -/
def State.seedNow (s : State) : State :=
  let (s, b) := s.freeBytes 4
  s.drbgSeed (leNat b)

/-! ### The journal (R504 to R507) -/

/-- Lifecycle state and security epoch after a change. -/
def Change.after (c : Change) (f : Fuses) : Nat × Nat :=
  match c with
  | .lifecycle _ t _ _ => (t, f.secEpoch)
  | .secEpoch e => (f.lcs, e)
  | _ => (f.lcs, f.secEpoch)

/-- The 128 bytes of the next entry (R504, R505). -/
def State.entryBytes (s : State) (i : JItem) : List Byte :=
  let (lcs, e) := i.change.after s.kpr.fuses
  let b := leBytes 4 s.kpr.nextSeq ++ leBytes 2 i.typ ++ leBytes 1 i.role ++ leBytes 1 lcs ++ leBytes 6 s.ownerClock ++ leBytes 1 e ++ [0]
    ++ padTo 16 i.arg
  b ++ padTo 96 (Config.identSign (sha384 (b ++ s.headHash)))

/-- Fuse steps of the journal are burnt before an entry at a multiple of 65,536 (R507). -/
def State.journalBurn (s : State) : State :=
  let n := s.kpr.nextSeq / 65536
  if 0 < s.kpr.nextSeq ∧ s.kpr.nextSeq % 65536 = 0 ∧ n ≤ 1024 ∧ s.kpr.fuses.steps < n then
    { s with kpr := { s.kpr with fuses := { s.kpr.fuses with steps := n } } }
  else s

/-- The entry of `i` is durable (log entry 99). -/
def State.putEntry (s : State) (i : JItem) : State :=
  let b := s.entryBytes i
  let k := s.kpr
  { s with kpr := { k with
      entries := mapPut k.entries k.nextSeq b, nextSeq := k.nextSeq + 1, head := sha256 b, lastTime := s.ownerClock } }.raise pKpr 5

/-- A lifecycle transition takes effect (R494 to R496; log entry 98). -/
def State.lifecycleNow (s : State) (frm to_ : Nat) (key1 key2 : List Byte) : State :=
  let k := { s.kpr with fuses := { s.kpr.fuses with lcs := to_ } }
  let s := match to_ with
    | 2 =>
      if frm = 3 then { s with kpr := { k with ownerKey := [], recoveryKey := [], ownerCert := none, policy := 0, migKey := none } }
      else { s with kpr := { k with intKeys := [(0, key1)], intIdx := 0 } }
    | 3 =>
      let (s, b) := s.freeBytes 32
      { s with kpr := { k with
          ownerKey := key1, recoveryKey := key2, envelope := some key2, tierKey := some (k.tierKey.getD b) } }
    | 4 =>
      let s := ({ s with kpr := { k with tierKey := none, migKey := none, envelope := none, sealedTier := true } }).eraseKeys
      let s := (List.range 256).foldl (fun (s : State) c => if s.slotEnabled c then s.setCtrl c { s.ctrl c with cfs := true } else s) s
      (s.fset pPcr Reg.PCR_BOOT 0 4 0xE).fset pPcr Reg.PCR_BOOT 8 1 1
    | _ => { s with kpr := k }
  s.raise pKpr 7

/-- AEE_CTRL.EARLY_OK follows the owner's policy, by a commit (R520). -/
def State.mirrorEarly (s : State) (n : Nat) : State :=
  let v : RegWord := putBits (s.shadow (pAee n) Reg.AEE_CTRL) 0 1 (natBits s.kpr.policy 1 1)
  if v = s.rg (pAee n) Reg.AEE_CTRL then s
  else match blkAt (pAee n) with
    | some b => { s with shadows := mapPut s.shadows (regKey (pAee n) Reg.AEE_CTRL) v }.commitReq b
    | none => s

/-- What a change does once its entry, at `seq` with `time`, is durable (R506). -/
def State.changeNow (s : State) (c : Change) (seq time : Nat) : State :=
  let k := s.kpr
  match c with
  | .none_ => s
  | .lifecycle f t a b => s.lifecycleNow f t a b
  | .secEpoch e => { s with kpr := { k with fuses := { k.fuses with secEpoch := e } } }
  | .approve d => { s with kpr := { k with approved := if k.approved.contains d then k.approved else d :: k.approved } }
  | .ikey i key => { s with kpr := { k with intKeys := [(i, key)], intIdx := i } }
  | .debugUnlock => ({ s with kpr := { k with debug := true } }).eraseKeys
  | .policy w => (({ s with kpr := { k with policy := w } }).mirrorEarly 0).mirrorEarly 1
  | .migKey key =>
    let n := k.loadSeq + 1
    { s with kpr := { k with loadSeq := n, migKey := some ⟨2, 0, 0xFFFF, key, n * 2 ^ 32 % 2 ^ 64, n⟩ } }
  | .keyImport slot f typ usage key => s.fillSlot slot typ usage f key
  | .sealRelease cart zone =>
    { s with kpr := { k with seals := k.seals.filter fun e => e.cart != cart || e.zone != zone } }
  | .rebind _ key =>
    ((s.nss.filter fun e => e.2.slot.isNone).map Prod.fst).foldl State.loadNsKey
      { s with kpr := { k with tierKey := some key, envelope := some k.recoveryKey, sealedTier := false } }
  | .portMode m => { s with kpr := { k with fuses := { k.fuses with portMode := m } } }
  | .nsCreate t l p n e => s.nsCreate t l p n e
  | .nsDelete t n => s.nsDelete t n
  | .nsAttach t n l a => s.nsAttach t n l a
  | .sanitize t a => s.sanitize t a
  | .commit t a slot image => s.commitNow t a slot image
  | .seal t z => s.sealZone t z seq time

/-- The oldest entry's two programs end: `ok` tells that both passed. Before there is a journal, in Blank, nothing is entered but
PROVISION. -/
def State.journalEnd (s : State) (ok : Bool) : State :=
  match s.kpr.queue with
  | [] => s
  | i :: r =>
    let blank := s.kpr.fuses.lcs == 0 && i.typ != 1
    let s := if blank then s else s.journalBurn
    let done (s : State) : State := { s with kpr := { s.kpr with queue := r } }
    if ok then
      let seq := s.kpr.nextSeq
      let time := s.ownerClock
      let s := ((if blank then done s else (done s).putEntry i).changeNow i.change seq time)
      if i.src < 3 then (s.kprAnswer i.src 2 (reqAnswer 0 seq)).endJob pKpr i.epoch else s
    else
      let s := s.errCnt pKpr 2
      if i.src < 3 then ((((done s).errCnt pKpr 0).raise pKpr 6).kprAnswer i.src 2 (reqAnswer 0x7050 s.kpr.nextSeq)).endJob pKpr i.epoch
      else match i.change.tag with
        | some t => (done s).failCmd t 0 6
        | none => s

/-- JOURNAL_ENTRY_DURABLE (R504, R505, R506, R507). -/
def execJournalEntryDurable (ok : Bool) (s : State) : Host.Outcome State Fault Refusal := next (fun s => s.journalEnd ok) s

/-! ### Requests (R497 to R499) -/

/-- Bytes of ARG: `n` from offset `o`. -/
def argBytes (blk : List Byte) (o n : Nat) : List Byte := (blk.drop (0x18 + o)).take n
def argAt (blk : List Byte) (o n : Nat) : Nat := leNat (argBytes blk o n)

/-- NSIG of a request block (log entry 97). -/
def reqNsig (blk : List Byte) : Nat := natBits (fieldAt blk 4 4) 16 4

/-- The first check of R499, but for what a request's own ARG must hold (log entry 97). -/
def State.reqForm (s : State) (blk : List Byte) : Bool :=
  let n := reqNsig blk
  fieldAt blk 0 4 == 0x51524147 && (n == 1 || n == 2) && blk.length == 0x80 + 104 * n && natBits (fieldAt blk 4 4) 20 12 == 0
    && fieldAt blk 0x14 4 == 0 && fieldAt blk 8 8 == s.devId && (List.range n).all fun i => fieldAt blk (0x84 + 104 * i) 4 == 0

/-- The new keys that a lifecycle request carries, compressed points of 49 bytes. -/
def reqKey1 (blk : List Byte) : List Byte := argBytes blk 4 49
def reqKey2 (blk : List Byte) : List Byte := argBytes blk 53 49

/-- The public key of a role: integrator keys but the current one are revoked (log entry 98). -/
def State.roleKey (s : State) (blk : List Byte) (role idx : Nat) : Option (List Byte) :=
  match role with
  | 1 => some (Config.vendorKey idx)
  | 2 => if idx = s.kpr.intIdx then mapFind s.kpr.intKeys idx else none
  | 3 => if s.kpr.ownerKey.isEmpty then none else some s.kpr.ownerKey
  | 4 => some (reqKey1 blk)
  | 5 => if s.kpr.recoveryKey.isEmpty then none else some s.kpr.recoveryKey
  | _ => none

/-- Role of signature `i`. -/
def sigRole (blk : List Byte) (i : Nat) : Nat := fieldAt blk (0x80 + 104 * i) 1

/-- Signature `i` is valid. -/
def State.sigValid (s : State) (blk : List Byte) (i : Nat) : Bool :=
  let o := 0x80 + 104 * i
  match s.roleKey blk (sigRole blk i) (fieldAt blk (o + 1) 3) with
  | some k => Config.ecdsaVerify k (sha384 (blk.take 0x80)) ((blk.drop (o + 8)).take 48) ((blk.drop (o + 56)).take 48)
  | none => false

/-- The signatures are those of one of the sets of roles in `want`, all valid. -/
def State.sigsOk (s : State) (blk : List Byte) (want : List (List Nat)) : Bool :=
  let got := (List.range (reqNsig blk)).map (sigRole blk)
  (want.any fun w => w.length == got.length && w.all got.contains) && (List.range (reqNsig blk)).all (s.sigValid blk)

/-- What a request asks of R499 beside the common checks. -/
structure ReqCheck where
  /-- its ARG and payload are well formed -/
  form : Bool
  /-- sets of roles that may sign -/
  roles : List (List Nat)
  /-- lifecycle states that permit it -/
  states : List Nat
  /-- the conditions of R495 and R515 hold, and its fuse count is not exhausted -/
  cond : Bool
  /-- the target block is busy -/
  busy : Bool

/-- The status of the first check that fails. -/
def State.reqStatus (s : State) (blk : List Byte) (c : ReqCheck) : Nat :=
  if !s.reqForm blk || !c.form then 0x1001
  else if fieldAt blk 0x10 4 ≠ s.kpr.nextSeq then 0x6003
  else if !s.sigsOk blk c.roles then 0x6002
  else if s.alarmOn || !c.states.contains s.kpr.fuses.lcs then 0x6004
  else if !c.cond then 0x6005
  else if c.busy then 0x2050
  else if s.kpr.jfault then 0x7050 else 0

/-- A request of `src` is handled now: the Keeper is ready, no entry waits, and the request came in a secured session (R498, R499,
R522). -/
def State.reqHeard (s : State) (src : Nat) : Bool :=
  s.kpr.ready && s.kpr.queue.isEmpty && s.intake pKpr && (s.kpr.fuses.lcs == 0 || s.kpr.sessions.contains src)
    && (src == 2 || (s.port src).doe.isSome)

/-- A request with opcode `op`: refused, or accepted: `burn` is done at once, and the change waits for its entry (log entry 97). -/
def State.request (s : State) (src : Nat) (blk : List Byte) (op : Nat) (c : ReqCheck) (arg : List Byte) (chg : Change)
    (burn : State → State) : State :=
  if !s.reqHeard src || fieldAt blk 4 2 ≠ op then s else
  match s.reqStatus blk c with
  | 0 =>
    let s := burn (s.accept pKpr)
    let role := ((List.range (reqNsig blk)).map (sigRole blk)).foldl max 0
    { s with kpr := { s.kpr with queue := s.kpr.queue ++ [⟨op, role, arg, chg, src, s.epoch pKpr⟩] } }
  | st =>
    let s := s.errCnt pKpr 0
    let s := if st = 0x6002 then s.errCnt pKpr 3 else s
    (s.raise pKpr 6).kprAnswer src 2 (reqAnswer st s.kpr.nextSeq)

/-- Change the fuses. -/
def State.fuse (f : Fuses → Fuses) (s : State) : State := { s with kpr := { s.kpr with fuses := f s.kpr.fuses } }

/-- Low 12 bytes of the SHA-256 of a key. -/
def keyTag (k : List Byte) : List Byte := (sha256 k).take 12

/-- A lifecycle request from `f` to `t` (R495). -/
def State.lifeReq (s : State) (src : Nat) (blk : List Byte) (f t : Nat) (roles : List Nat) (cond : Bool) (k1 k2 : List Byte)
    (burn : State → State) : State :=
  let asks := natBits (argAt blk 0 4) 0 3 == f && natBits (argAt blk 0 4) 8 3 == t
  s.request src blk 1 ⟨true, [roles], if asks then [f] else [], cond, false⟩
    (leBytes 4 (f + t * 2 ^ 8) ++ (if k1.isEmpty then [] else keyTag k1)) (.lifecycle f t k1 k2) burn

/-- PROVISION: in factory test mode. -/
def execProvision (src : Fin 3) (blk : List Byte) (factory : Bool) (s : State) : Host.Outcome State Fault Refusal :=
  next (fun s => s.lifeReq src.val blk 0 1 [1] factory [] [] id) s

/-- INTEGRATE (R495). -/
def execIntegrate (src : Fin 3) (blk : List Byte) (s : State) : Host.Outcome State Fault Refusal :=
  next (fun s => s.lifeReq src.val blk 1 2 [1] true (reqKey1 blk) [] id) s

/-- One owner transfer. -/
def Fuses.transfer (f : Fuses) : Fuses := { f with ownerUsed := f.ownerUsed + 1 }

/-- TAKE_OWNERSHIP (R495, R498, R499, R512). -/
def execTakeOwnership (src : Fin 3) (blk : List Byte) (s : State) : Host.Outcome State Fault Refusal :=
  next (fun s => s.lifeReq src.val blk 2 3 [2, 4] (s.kpr.fuses.ownerUsed < 15) (reqKey1 blk) (reqKey2 blk) (State.fuse Fuses.transfer)) s

/-- TRANSFER (R495, R498, R499, R512). -/
def execTransfer (src : Fin 3) (blk : List Byte) (s : State) : Host.Outcome State Fault Refusal :=
  next (fun s => s.lifeReq src.val blk 3 3 [3, 4] (s.kpr.fuses.ownerUsed < 15) (reqKey1 blk) (reqKey2 blk) (State.fuse Fuses.transfer)) s

/-- LIFECYCLE_RELEASE (R495). -/
def execLifecycleRelease (src : Fin 3) (blk : List Byte) (s : State) : Host.Outcome State Fault Refusal :=
  next (fun s => s.lifeReq src.val blk 3 2 [3] (s.kpr.seals.isEmpty && !s.kpr.written) [] [] id) s

/-- RETIRE (R495, R496). -/
def execRetire (src : Fin 3) (blk : List Byte) (s : State) : Host.Outcome State Fault Refusal :=
  next (fun s =>
    let owned := s.kpr.fuses.lcs == 3
    s.lifeReq src.val blk (if owned then 3 else 2) 4 [if owned then 3 else 2] s.kpr.seals.isEmpty [] [] id) s

/-- REBIND: `opens` tells whether the key of the payload opens the sealed metadata (R514). -/
def execRebind (src : Fin 3) (blk payload : List Byte) (opens : Bool) (s : State) : Host.Outcome State Fault Refusal :=
  next (fun s => s.request src.val blk 0x0E ⟨payload.length == 32, [[5]], [3], s.kpr.sealedTier && opens, false⟩ (argBytes blk 0 8)
    (.rebind (argAt blk 0 8) payload) id) s

/-! Security epoch (R501 to R503) -/

/-- The resident tables of FMT, DCF, TPI and FTM below epoch `e`: block and slot. -/
def State.lowTables (s : State) (e : Nat) : List (Nat × Nat) :=
  (s.tables.filter fun t => t.2.secEpoch < e).map fun t => (t.1 / 32, t.1 % 32)

/-- SECURITY_EPOCH_RAISE (R499, R502, R503). -/
def execSecurityEpochRaise (src : Fin 3) (blk : List Byte) (s : State) : Host.Outcome State Fault Refusal :=
  next (fun s =>
    let e := argAt blk 0 4
    let f := s.kpr.fuses
    let low := s.lowTables e
    let own := s.kpr.fuses.lcs == 3
    s.request src.val blk 2
      ⟨true, [[1], if own then [2, 3] else [2]], [1, 2, 3], f.secEpoch < e && e < 256 && f.secUsed < 255, low.any fun t => s.slotInUse t.1 t.2⟩
      (leBytes 4 f.secEpoch ++ leBytes 4 e) (.secEpoch e) fun s =>
        low.foldl (fun s t => s.dropTable t.1 t.2) (State.fuse (fun f => { f with secUsed := f.secUsed + 1 }) s)) s

/-! Owner and integrator requests (R497, R500, R502, R515, R519, R520) -/

/-- An owner's request in Owned. -/
def ownerCheck (form cond : Bool) : ReqCheck := ⟨form, [[3]], [3], cond, false⟩

/-- FIRMWARE_APPROVAL (R500). -/
def execFirmwareApproval (src : Fin 3) (blk : List Byte) (s : State) : Host.Outcome State Fault Refusal :=
  next (fun s => s.request src.val blk 3 (ownerCheck true true) (leBytes 4 0 ++ argBytes blk 0 12) (.approve (argBytes blk 0 48)) id) s

/-- TABLE_APPROVAL (R500). -/
def execTableApproval (src : Fin 3) (blk : List Byte) (s : State) : Host.Outcome State Fault Refusal :=
  next (fun s => s.request src.val blk 4 (ownerCheck true true) (leBytes 8 0 ++ argBytes blk 0 8) (.approve (argBytes blk 0 48)) id) s

/-- INTEGRATOR_KEY_ROTATION (R502). -/
def execIntegratorKeyRotation (src : Fin 3) (blk : List Byte) (s : State) : Host.Outcome State Fault Refusal :=
  next (fun s =>
    let i := s.kpr.intIdx + 1
    s.request src.val blk 6
      ⟨true, [if s.kpr.fuses.lcs = 3 then [2, 3] else [2]], [2, 3], s.kpr.fuses.ikeyUsed < 7, false⟩ (leBytes 4 i)
      (.ikey i (argBytes blk 0 49)) (State.fuse fun f => { f with ikeyUsed := f.ikeyUsed + 1 })) s

/-- DEBUG_UNLOCK (R499, R502, R519). -/
def execDebugUnlock (src : Fin 3) (blk : List Byte) (s : State) : Host.Outcome State Fault Refusal :=
  next (fun s => s.request src.val blk 7 ⟨true, [[2]], [2], s.kpr.fuses.dbgUsed < 3, false⟩ (leBytes 4 (2 - s.kpr.fuses.dbgUsed))
    .debugUnlock (State.fuse fun f => { f with dbgUsed := f.dbgUsed + 1 })) s

/-- OWNER_POLICY (R498, R520). -/
def execOwnerPolicy (src : Fin 3) (blk : List Byte) (s : State) : Host.Outcome State Fault Refusal :=
  next (fun s =>
    let w := argAt blk 0 4
    s.request src.val blk 8 (ownerCheck (natBits w 3 5 == 0 && natBits w 16 16 == 0) true) (leBytes 4 w) (.policy w) id) s

/-- OWNER_MIGRATION_KEY, which shares its opcode with KEY_IMPORT: key slot 0xFFFF. -/
def execOwnerMigrationKey (src : Fin 3) (blk payload : List Byte) (s : State) : Host.Outcome State Fault Refusal :=
  next (fun s => if argAt blk 0 2 ≠ 0xFFFF then s else
    s.request src.val blk 0x0C (ownerCheck (payload.length == 32) true) (leBytes 2 0xFFFF ++ leBytes 2 (argAt blk 2 2)) (.migKey payload) id) s

/-- KEY_IMPORT: ARG holds slot, function, type and usage. -/
def execKeyImport (src : Fin 3) (blk payload : List Byte) (s : State) : Host.Outcome State Fault Refusal :=
  next (fun s =>
    let slot := argAt blk 0 2
    let f := argAt blk 2 2
    let typ := argAt blk 4 1
    let usage := argAt blk 5 1
    let free := match mapFind s.kpr.keys slot with
      | none => true
      | some k => k.owner == f
    if slot = 0xFFFF then s else
    s.request src.val blk 0x0C
      (ownerCheck (slot < 512 && f < 256 && 1 ≤ typ && typ ≤ 4 && usage < 64 && payload.length == keyLen typ && free) true)
      (leBytes 2 slot ++ leBytes 2 f) (.keyImport slot f typ usage payload) id) s

/-- SEAL_RELEASE: refused unless the seal has expired by the time of the previous entry (R515). -/
def execSealRelease (src : Fin 3) (blk : List Byte) (s : State) : Host.Outcome State Fault Refusal :=
  next (fun s =>
    let cart := argAt blk 0 8
    let zone := argAt blk 8 4
    s.request src.val blk 0x0B
      (ownerCheck true (s.kpr.seals.any fun e => e.cart == cart && e.zone == zone && e.expires < s.kpr.lastTime))
      (leBytes 8 cart ++ leBytes 4 zone) (.sealRelease cart zone) id) s

/-! ### Alarms (R517 to R519) -/

/-- The bit of KPR_ALARM of a condition: 0 VDD_CORE, 1 VDD_AON, 2 XTAL, 3 CLK_FAB, 4 temperature, 5 shield mesh. -/
def alarmBit (c : Nat) : Nat := if c < 2 then 0 else if c < 4 then 1 else c - 2

/-- The condition is armed (R518). -/
def State.alarmArmed (s : State) (c : Nat) : Bool :=
  let off := s.power.asleep && (if s.fget (pPcr + 1) Reg.PCR_PSTAT 0 2 = 3 then c != 1 && c != 5 else c == 3)
  !off && !s.bit pKpr Reg.KPR_ALARM (16 + alarmBit c)

/-- ALARM (R367, R517, R519, R556; log entry 101, 125). -/
def execAlarm (c : Fin 6) (s : State) : Host.Outcome State Fault Refusal :=
  nextAon (fun s =>
    let i := alarmBit c.val
    if !s.alarmArmed c.val || s.bit pKpr Reg.KPR_ALARM i then s else
    let s := if s.alarmOn then s else { s with boot := { s.boot with alarmAt := some s.tb.toNat } }
    let s := (s.fset pKpr Reg.KPR_ALARM i 1 1).eraseKeys
    let s := { s with kpr := { s.kpr with latch := s.kpr.latch ||| 2 ^ i } }
    let s := (s.errCnt pKpr 1).raise pKpr 4
    ((s.fset (pAee 0) Reg.AEE_ALARM i 1 1).cntSat (pAee 0) Reg.AEE_ALARM 16 8 1).raise (pAee 0) 7) s

/-- ALARM_CLEAR: source `i` has stayed clear; the mesh's never clears before power-on reset (log entry 101). -/
def execAlarmClear (i : Fin 3) (s : State) : Host.Outcome State Fault Refusal :=
  nextAon (fun s =>
    if !s.bit pKpr Reg.KPR_ALARM i.val then s else
    let s := s.fset pKpr Reg.KPR_ALARM i.val 1 0
    if s.alarmOn then s else
    let t := s.boot.alarmAt.getD 0
    let s := (s.seedNow.cntSat (pAee 0) Reg.AEE_DRBG 8 8 1).journal 0x10 0 (leBytes 8 s.kpr.latch ++ leBytes 8 t) .none_
    { s with boot := { s.boot with alarmAt := none } }) s

end Sys2Proof.Machine
end

