-- ==== Sys2Proof/Machine/Cartridge.lean ====
section
/-! DEFINITION. The cartridge record (R190), and the calibration that firmware loads from it or from the format table (R89, R109). -/

namespace Sys2Proof.Machine

/-! ### The record (R190; log entry 42) -/

/-- A record whose MAGIC and CRC are right; any other is that of a blank cartridge (R191). -/
def recordOk (r : List Byte) : Bool := fieldAt r 0 4 == 0x5243_4147 && fieldAt r 0x1380 4 == crc32c (r.take 0x1380)

/-- A record of the head `h`, 96 bytes, and the calibration entries `cal`, with its CRC. -/
def cartRecord (h cal : List Byte) : List Byte :=
  let b := h ++ cal
  b ++ leBytes 4 (crc32c b)

/-- The entry of channel `n`, from its registers. -/
def State.channelEntry (s : State) (n : Nat) : List Byte :=
  leBytes 1 (s.fget (pCh n) Reg.CH_AGC 0 7) ++ leBytes 1 (s.fget (pCh n) Reg.CH_AGC 8 8)
    ++ leBytes 2 (s.fget (pCh n) Reg.CH_DGAIN 0 16) ++ leBytes 2 (s.fget (pCh n) Reg.CH_OFS 0 16)
    ++ leBytes 2 (s.fget (pCh n) Reg.CH_ASYM 0 16) ++ leBytes 4 (s.tim n 4 0 24)
    ++ (List.range 16).flatMap (fun k => leBytes 2 (s.fget (pCh n) (Reg.CH_FIR (k / 2)) (16 * (k % 2)) 16)) ++ leBytes 4 0

/-- Half `k` of coupling entry `t`: KL0 to KL4, then KU0 to KU4. -/
def State.tapOf (s : State) (t k : Nat) : Nat :=
  let (w, lo) := cplPlace k
  s.fget (pTdt + 2) (Reg.TDT_CPL t w) lo 16

/-- The entry of coupling `t`, from its registers. -/
def State.couplingEntry (s : State) (t : Nat) : List Byte :=
  (List.range 10).flatMap (fun k => leBytes 2 (s.tapOf t k))
    ++ leBytes 1 (s.fget (pTdt + 2) (Reg.TDT_CPL t 0x08) 16 4 + 16 * s.fget (pTdt + 2) (Reg.TDT_CPL t 0x14) 16 4) ++ leBytes 3 0

/-- The calibration entries of a record, from the channel state (R192). -/
def State.calEntries (s : State) : List Byte :=
  (List.range 70).flatMap s.channelEntry ++ (List.range 64).flatMap s.couplingEntry

/-- The head of a record: word 1 without REC_VER, CART_ID, BP_LEN, CAL and the four WRITER entries. -/
def recordHead (fmt cart bpLen cal : Nat) (writers : List Byte) : List Byte :=
  leBytes 4 0x5243_4147 ++ leBytes 4 (1 + fmt) ++ leBytes 8 cart ++ leBytes 4 bpLen ++ leBytes 4 cal ++ padTo 64 writers ++ leBytes 8 0

/-! ### Loading calibration (R89) -/

/-- Firmware writes bits `mask` of a register of a channel or a track: the loops go on from the new value (R73). -/
def State.calWrite (s : State) (page off : Nat) (mask v : RegWord) : State :=
  let s := s.rset page off ((s.rg page off &&& ~~~ mask) ||| (v &&& mask))
  if pTfe < page ∧ page ≤ pTfe + 70 then s.chWritten (page - pTfe - 1) off
  else if page = pTdt + 2 ∧ 0x80 ≤ off then s.cplWritten ((off - 0x80) / 0x20) ((off - 0x80) % 0x20)
  else s

/-- Channel `n` takes the entry `e` of a record. -/
def State.loadChannel (s : State) (n : Nat) (e : List Byte) : State :=
  let w (o : Nat) : RegWord := BitVec.ofNat 32 (fieldAt e o 2)
  let s := s.calWrite (pCh n) Reg.CH_AGC 0xFF7F (w 0)
  let s := ((s.calWrite (pCh n) Reg.CH_DGAIN 0xFFFF (w 2)).calWrite (pCh n) Reg.CH_OFS 0xFFFF (w 4)).calWrite (pCh n) Reg.CH_ASYM 0xFFFF (w 6)
  let s := s.setTim n 4 0 24 (fieldAt e 8 4)
  (List.range 8).foldl (fun s k => s.calWrite (pCh n) (Reg.CH_FIR k) 0xFFFF_FFFF (BitVec.ofNat 32 (fieldAt e (0x0C + 4 * k) 4))) s

/-- Coupling entry `t` takes the entry `e` of a record. -/
def State.loadCoupling (s : State) (t : Nat) (e : List Byte) : State :=
  let s := (List.range 10).foldl (fun s k =>
    let (w, lo) := cplPlace k
    s.calWrite (pTdt + 2) (Reg.TDT_CPL t w) (0xFFFF <<< lo) (BitVec.ofNat 32 (fieldAt e (2 * k) 2) <<< lo)) s
  (s.fset (pTdt + 2) (Reg.TDT_CPL t 0x08) 16 4 (fieldAt e 0x14 1)).fset (pTdt + 2) (Reg.TDT_CPL t 0x14) 16 4 (fieldAt e 0x14 1 / 16)

/-- Every enabled channel and every track takes its entry of the record `r`. -/
def State.loadRecord (s : State) (r : List Byte) : State :=
  let s := (List.range 70).foldl (fun s n => if s.chEn n then s.loadChannel n ((r.drop (0x60 + 48 * n)).take 48) else s) s
  (List.range 64).foldl (fun s t => if t < s.ntrk then s.loadCoupling t ((r.drop (0xD80 + 24 * t)).take 24) else s) s

/-- One entry of the AFE nominal list (R109); an RWS half is in force with the commit that firmware makes of it (log entry 42). -/
def State.afeEntry (s : State) (e : List Byte) : State :=
  let base := if fieldAt e 2 1 = 0x0A then pTfe else pTdt
  let page := base + fieldAt e 0 2
  let off := natBits (fieldAt e 4 2) 0 12
  let lo := if off % 4 = 2 then 16 else 0
  match blkAt page with
  | none => s
  | some b =>
    let mask := accMask (fldsOf b (page - b.base) (off / 4 * 4)) [.rw, .rws] &&& (0xFFFF <<< lo)
    let s := s.calWrite page (off / 4 * 4) mask (BitVec.ofNat 32 (fieldAt e 6 2) <<< lo)
    { s with shadows := mapDel s.shadows (regKey page (off / 4 * 4)) }

/-- The AFE nominal values of the table in FMT slot `k` (R109). -/
def State.loadNominal (s : State) (k : Nat) : State := (chunks 8 (s.tsec pFmt k 8)).foldl State.afeEntry s

/-- The FMT slot of the format whose nominal values serve: the first active read format, or else the write format (log entry 42). -/
def State.nominalFmt (s : State) : Option Nat :=
  match s.readFmt with
  | some k => some k
  | none => if s.bit pFmt Reg.FMT_WFMT 7 then some (s.fget pFmt Reg.FMT_WFMT 0 3) else none

/-- Firmware loads the calibration of a new cartridge (R89): from its record where that is valid, CAL is 1 and it is of an active read
format, and else the nominal values. -/
def State.calibrate (s : State) (r : List Byte) : State :=
  let fits := recordOk r && fieldAt r 0x14 1 % 2 == 1 && s.readSlots.any fun k => s.formatWord k == fieldAt r 4 4 / 2 ^ 8 * 2 ^ 8
  if fits then s.loadRecord r else s.nominalFmt.elim s s.loadNominal

/-! ### Reading and writing the record (R191, R192, R513) -/

/-- Firmware writes a record to cartridge memory. -/
def State.putRecord (s : State) (r : List Byte) : State :=
  (s.setTpi { s.tpi with loaded := some r }).emit (.issue "CARTRIDGE_RECORD" (r.map (·.toNat)))

/-- The record of a blank cartridge, from the nominal values; CART_ID and BP_LEN are free (R191; log entry 42). -/
def State.blankRecord (s : State) : List Byte :=
  let bp := Config.freeWord (s.free + 1)
  cartRecord (recordHead ((s.nominalFmt.map s.formatWord).getD 0) (Config.freeWord s.free).toNat (bp.toNat % 2 ^ 32) 0 []) s.calEntries

/-- Firmware reads the record of the cartridge in the drive: it loads the calibration, writes the record of a blank cartridge, and notes
one last written by another device (R89, R191, R513). -/
def State.readRecord (s : State) (r : List Byte) : State :=
  let s := s.calibrate r
  if recordOk r then
    if fieldAt r 0x18 8 ≠ 0 ∧ fieldAt r 0x18 8 ≠ s.devId then s.mediaAdd 0x14 1024 0 0 1 (fieldAt r 8 8) 0 else s
  else (s.putRecord s.blankRecord).bump.bump

/-- WRITER as the record holds it once this device has written the cartridge; DSNs only where it wrote a data set (R192; log entry 42). -/
def State.writersAfter (s : State) (r : List Byte) : List Byte :=
  let mine := fieldAt r 0x18 8 == s.devId
  let old := (r.drop 0x18).take 64
  match s.tpi.wrote with
  | none => if mine then old else leBytes 8 s.devId ++ leBytes 8 (Config.freeWord s.free).toNat ++ old.take 48
  | some w =>
    if mine then leBytes 8 s.devId ++ (old.drop 8).take 4 ++ leBytes 4 w.last ++ old.drop 16
    else leBytes 8 s.devId ++ leBytes 4 w.first ++ leBytes 4 w.last ++ old.take 48

/-- Firmware rewrites the record before it unloads (R192). -/
def State.rewriteCart (s : State) : State :=
  match s.tpi.loaded with
  | none => s
  | some r =>
    let fmt := (s.tpi.wrote.map (·.fmt)).getD (fieldAt r 4 4 / 2 ^ 8 * 2 ^ 8)
    (s.putRecord (cartRecord (recordHead fmt (fieldAt r 8 8) (fieldAt r 0x10 4) 1 (s.writersAfter r)) s.calEntries)).bump

end Sys2Proof.Machine
end

