-- ==== Sys2Proof/Machine/TransportCommands.lean ====
section
/-! DEFINITION. The commands of the transport: motion machines, the load sensor, the CM link, the tape ring and write
underruns (chapter 7), and the start of a destage (R440). -/

namespace Sys2Proof.Machine

/-! ### The cartridge and its namespace (R188 to R193) -/

/-- Zones and blocks of the tape-backed namespace, which belong to the attached cartridge. -/
def State.tapeBlocks (s : State) : List (Nat × Block) := s.blocks.filter fun e => e.1 / 2 ^ 64 == 1024

/-- The controllers that the tape-backed namespace is attached to. -/
def State.tapeCtrls (s : State) : List Nat := ((mapFind s.nss 1024).map (·.attached)).getD []

/-- The namespace leaves with the cartridge: what the device knows of its zones, and the blocks it still holds, are kept for
its return (log entry 42). -/
def State.tapeDetach (s : State) : State :=
  match s.tpi.cart with
  | none => s
  | some c =>
    let s := { s with
      shelf := mapPut s.shelf c (s.zones.map fun (e : Nat × Zone) => (e.1, { e.2 with destaging := false }), s.tapeBlocks)
      zones := []
      blocks := s.blocks.filter fun e => e.1 / 2 ^ 64 != 1024 }
    let s := s.fmt.job.elim s (s.endJob pFmt)
    let s := s.setFmt { s.fmt with cur := none, job := none, prev := none, late := [], whole := [] }
    (s.setTpi { s.tpi with cart := none, underrun := none, ring := s.tpi.ring.filter (·.zone.isNone) }).showRing

/-- Commands to the tape-backed namespace that have not completed end with Cartridge Not Loaded (R192). -/
def State.tapeAbort (s : State) : State :=
  (s.cmds.filter fun e => e.2.e.nsid == 1024 && e.2.sq != 0).foldl (fun s e => s.completeVendor e.1 0xC1) s

/-- The seals of cartridge `c` at its load: the copy of a released seal is cleared from cartridge memory, and its zone accepts Reset again
(R516). -/
def State.sealsAtLoad (s : State) (c : Nat) (zs : FMap Zone) : State × FMap Zone :=
  let held (z : Nat) : Bool := s.kpr.seals.any fun x => x.cart == c && x.zone == z
  let gone := (zs.filter fun e => e.2.sealed && !held e.1).map Prod.fst
  (gone.foldl (fun s z => s.emit (.issue "CM_UNSEAL" [c, z])) s, zs.map fun e => (e.1, { e.2 with sealed := held e.1 }))

/-- Firmware reads the cartridge record and attaches the namespace (R191): a cartridge that comes back brings its zones and its staged data
(R193; log entry 42). -/
def State.tapeAttach (s : State) : State :=
  match s.tpi.loaded with
  | none => s
  | some r =>
    if s.tpi.cart.isSome then s else
    let s := s.readRecord r
    let c := fieldAt (s.tpi.loaded.getD []) 8 8
    let (zs, bs) : FMap Zone × FMap Block := (mapFind s.shelf c).getD ([], [])
    let (s, zs) := s.sealsAtLoad c zs
    let s := { s with zones := zs, blocks := bs.foldl (fun (m : FMap Block) (e : Nat × Block) => mapPut m e.1 e.2) s.blocks, shelf := mapDel s.shelf c }
    let s := s.setTpi { s.tpi with
      cart := some c, wrote := none, waiting := if s.tpi.waiting = some c then none else s.tpi.waiting }
    s.nsChanged 1024 s.tapeCtrls

/-- What firmware does when a machine has reached a TERMINAL state in this step: after the thread machine it attaches the cartridge
(R191), and after the seek that follows a backhitch it starts the stream machine (R196). -/
def State.machineDone (s : State) (before : State) : State :=
  if s.seqBusy ∨ s.rg pTpi (Reg.ERR_CNT 3) ≠ before.rg pTpi (Reg.ERR_CNT 3) ∨ s.stateFld s.seqState 1 1 % 2 = 0 then s
  else match s.fget pTpi Reg.TPI_STAT 8 3 with
  | 1 => s.tapeAttach
  | 3 =>
    if !s.tpi.resume then s
    else
      let s := s.setTpi { s.tpi with resume := false }
      if s.machineEntry 4 = 0xFF then s else s.startMachine 4
  | _ => s

/-! ### Machines (R184, R186) -/

/-- LOAD_MACHINE (R184, R191). -/
def execLoadMachine (_req : Requester) (s : State) : Host.Outcome State Fault Refusal := next (fun s => s.machineGo 0) s

/-- The thread machine starts. -/
def State.threadGo (s : State) : State :=
  let s' := s.machineGo 1
  if s.seqBusy ∨ s.machineEntry 1 = 0xFF then s' else s'.machineDone s

/-- THREAD_MACHINE (R184, R191). -/
def execThreadMachine (_req : Requester) (s : State) : Host.Outcome State Fault Refusal := next (fun s => s.threadGo) s

/-- CALIBRATE_MACHINE (R184). -/
def execCalibrateMachine (_req : Requester) (s : State) : Host.Outcome State Fault Refusal := next (fun s => s.machineGo 2) s

/-- The seek machine starts. -/
def State.seekGo (s : State) : State :=
  let s' := s.machineGo 3
  if s.seqBusy ∨ s.machineEntry 3 = 0xFF then s' else (s'.setTpi { s'.tpi with backhitch := false, resume := false }).machineDone s

/-- SEEK_MACHINE (R184). -/
def execSeekMachine (_req : Requester) (s : State) : Host.Outcome State Fault Refusal := next (fun s => s.seekGo) s

/-- STREAM_MACHINE (R184). -/
def execStreamMachine (_req : Requester) (s : State) : Host.Outcome State Fault Refusal := next (fun s => s.machineGo 4) s

/-- BACKHITCH_MACHINE (R184). -/
def execBackhitchMachine (_req : Requester) (s : State) : Host.Outcome State Fault Refusal := next (fun s => s.machineGo 5) s

/-- Every acknowledged write to the attached cartridge has been destaged (R192). -/
def State.allDestaged (s : State) : Bool := s.zones.all fun e => e.2.wp == 0 || e.2.destaged || e.2.state == .readOnly || e.2.state == .offline

/-- UNLOAD_MACHINE (R192): firmware starts it only when everything is destaged; it rewrites the cartridge record and detaches
the namespace first (log entry 42). -/
def State.unloadGo (s : State) : State :=
  if s.seqBusy ∨ s.machineEntry 6 = 0xFF ∨ ¬ s.enabled pTpi ∨ ¬ s.bit pTpi Reg.TPI_CTRL 0 then s.machineGo 6
  else if s.tpi.cart.isSome ∧ ¬ s.allDestaged then s
  else
    let s := if s.tpi.cart.isSome then
        let s := s.rewriteCart
        (s.tapeAbort.tapeDetach).nsChanged 1024 s.tapeCtrls
      else s
    s.machineGo 6

/-- UNLOAD_MACHINE (R184, R192). -/
def execUnloadMachine (_req : Requester) (s : State) : Host.Outcome State Fault Refusal := next (fun s => s.unloadGo) s

/-- TPI_ABORT (R186). -/
def execTpiAbort (_req : Requester) (s : State) : Host.Outcome State Fault Refusal := next (fun s => s.machineAbort) s

/-- SEQUENCER_TICK (R184): the pins and the tachometer periods of this microsecond, in ns by pin; from DWELL on, the first wait
that holds selects the next state. -/
def execSequencerTick (pins : BitVec 16) (tach : List (Nat × Nat)) (s : State) : Host.Outcome State Fault Refusal :=
  next (fun s =>
    if !s.enabled pTpi then s else
    let s := tach.foldl (fun s e => s.tachSample e.1 e.2) (s.samplePins pins)
    if !s.bit pTpi Reg.TPI_CTRL 0 || !s.seqBusy then s else
    let k := s.seqState
    let s := s.reach (s.tpi.entered + 1000 * s.stateFld k 8 4)
    match s.waitNext k with
    | some j => (s.enterState j).machineDone s
    | none => s) s

/-- STATE_TIMEOUT (R184, R186). -/
def execStateTimeout (s : State) : Host.Outcome State Fault Refusal :=
  next (fun s =>
    let k := s.seqState
    let t := s.stateFld k 4 4
    if !s.enabled pTpi || !s.bit pTpi Reg.TPI_CTRL 0 || !s.seqBusy || t == 0 then s else
    let s := (s.reach (s.tpi.entered + 1000 * t)).errCnt pTpi 2
    let j := s.stateFld k 2 1
    if j = 0xFF then s.transportFault 3 else (s.enterState j).machineDone s) s

/-- The load sensor, TPT_GPIO pin TPI_CTRL.LS_PIN, has stood at `level` for 10 ms; a driven pin carries its own output (R188). -/
def State.loadSensor (s : State) (level : Bool) : State × Bool :=
  let pin := s.fget pTpi Reg.TPI_CTRL 8 4
  let v := if s.bit pTpi Reg.TPI_GPIO_DIR pin then s.bit pTpi Reg.TPI_GPIO_OUT pin else level
  (s.fset pTpi Reg.TPI_GPIO_IN pin 1 v.toNat, v == s.bit pTpi Reg.TPI_CTRL 12)

/-- A cartridge has left the drive (R186, R188, R193). -/
def State.cartLeaves (s : State) : State :=
  let s := s.raise pTpi 7
  let s := if s.bit pTpi Reg.TPI_STAT 17 then s.transportFault 2 else s
  let s := match s.tpi.cart with
    | some c =>
      let late := !s.allDestaged
      let s := s.tapeAbort.tapeDetach
      if late then s.setTpi { s.tpi with waiting := some c } else s
    | none => s
  s.setTpi { s.tpi with loaded := none, atReset := false }

/-- LOAD_SENSOR_CHANGE (R188, R186, R193): the debounced level of the pin, and for an insertion what the cartridge's memory holds. -/
def execLoadSensorChange (level : Bool) (record : List Byte) (s : State) : Host.Outcome State Fault Refusal :=
  next (fun s =>
    let (s, present) := s.loadSensor level
    if s.bit pTpi Reg.TPI_STAT 18 == present then s else
    let s := s.fset pTpi Reg.TPI_STAT 18 1 present.toNat
    if present then (s.setTpi { s.tpi with loaded := some (padTo 0x1384 record) }).raise pTpi 6 else s.cartLeaves) s

/-! ### The CM link (R189) -/

/-- Does the word `v` hold a reserved encoding of TPI_CM_CTRL? -/
def badCm (v : RegWord) : Bool := bitsOf v 4 4 < 4 || bitsOf v 8 9 == 0 || 256 < bitsOf v 8 9

/-- CM_TRANSFER: LEN bytes of the CM buffer go out; GO beside a reserved LEN or DIV is a reserved encoding. -/
def State.cmGo (s : State) : State :=
  if badCm (s.rg pTpi Reg.TPI_CM_CTRL) then s.badWrite pTpi Reg.TPI_CM_CTRL 1
  else if !s.enabled pTpi || s.tpi.cm.isSome then s else
  let n := s.fget pTpi Reg.TPI_CM_CTRL 8 9
  let bytes := (List.range n).map fun k => s.fget (pTpi + 2) (Reg.TPI_CM_BUF (k / 4)) (8 * (k % 4)) 8
  ((s.fset pTpi Reg.TPI_CM_CTRL 0 1 1).setTpi { s.tpi with cm := some n }).emit (.issue "CM" bytes)

/-- CM_TRANSFER (R189). -/
def execCmTransfer (_req : Requester) (s : State) : Host.Outcome State Fault Refusal := next (fun s => s.cmGo) s

/-- CM_TRANSFER_END: the bytes received replace those sent. -/
def execCmTransferEnd (rx : List Byte) (s : State) : Host.Outcome State Fault Refusal :=
  next (fun s =>
    match s.tpi.cm with
    | none => s
    | some n =>
      let s := (List.range n).foldl (fun s k =>
        s.fset (pTpi + 2) (Reg.TPI_CM_BUF (k / 4)) (8 * (k % 4)) 8 (rx.getD k 0).toNat) s
      ((s.fset pTpi Reg.TPI_CM_CTRL 0 1 0).setTpi { s.tpi with cm := none }).raise pTpi 12) s

/-! ### The tape ring (R194 to R197) -/

/-- The oldest data set read from tape, wherever it lies. -/
def oldestSet (l : List RingSet) : Option RingSet :=
  l.foldl (fun m x => match m with
    | some y => if x.dsn.getD 0 < y.dsn.getD 0 then some x else some y
    | none => some x) none

/-- TAPE_RING_CONSUME (R195): the oldest data set, once port 1 has brought all of it to the ring. -/
def execTapeRingConsume (s : State) : Host.Outcome State Fault Refusal :=
  next (fun s =>
    let ringSets := s.tpi.ring.filter (·.zone.isNone)
    match oldestSet (ringSets ++ s.tpi.divert) with
    | none => s
    | some x =>
      if ringSets.contains x && !s.inDram x then s
      else if ringSets.contains x then
        let (s, b) := s.ringRead x.ofs x.len
        let s := ((s.setTpi { s.tpi with ring := s.tpi.ring.erase x }).showRing).divertCheck.restartCheck
        (s.emit (.issue "DATA_SET" (x.dsn.getD 0 :: x.bad))).emit (.data (b.getD []))
      else
        let s := { s with flash := { s.flash with moves := s.flash.moves.filter fun r => r.divert.isNone || r.divert != x.dsn } }
        let s := ((s.setTpi { s.tpi with divert := s.tpi.divert.erase x }).showDivert).divertCheck
        (s.emit (.issue "DATA_SET" (x.dsn.getD 0 :: x.bad))).emit (.data x.data)) s

/-- WRITE_UNDERRUN (R197): FMT abandons the data set in progress. -/
def execWriteUnderrun (s : State) : Host.Outcome State Fault Refusal :=
  next (fun s => s.writeUnderrun) s

/-- Data sets in the ring that are not written yet. -/
def State.ringSets (s : State) : Nat := (s.tpi.ring.filter (·.zone.isSome)).length

/-- The ring holds TPI_WR_START data sets. -/
def State.wrStart (s : State) : Bool := s.fget pTpi Reg.TPI_WR 0 4 ≤ s.ringSets

/-- UNDERRUN_REWRITE_START (R197): the next frame slot starts the abandoned data set again. -/
def execUnderrunRewriteStart (s : State) : Host.Outcome State Fault Refusal :=
  next (fun s => if s.tpi.underrun.isSome && s.wrStart then s.setTpi { s.tpi with underrun := none } else s) s

/-- WR_WAIT_EXPIRY (R197). -/
def execWrWaitExpiry (s : State) : Host.Outcome State Fault Refusal :=
  next (fun s =>
    match s.tpi.underrun with
    | some t =>
      if s.wrStart || !s.streaming then s
      else (s.reach (t + 1000000 * s.fget pTpi Reg.TPI_WR 16 16)).backhitch
    | none => s) s

/-- DESTAGE_START (R440): the first zone in zone order that is Full and not destaged; its data sets go to the ring (R15, R127). -/
def execDestageStart (s : State) : Host.Outcome State Fault Refusal :=
  next (fun s =>
    match s.writeFmt with
    | none => s
    | some k =>
      if s.tpi.cart.isNone || s.zones.any (·.2.destaging) || !s.enabled pFmt then s else
      match s.zones.find? fun e => e.2.state == .full && !e.2.destaged with
      | some (z, x) => s.destageBegin k z x
      | none => s) s

end Sys2Proof.Machine
end

