-- ==== Sys2Proof/Machine/Boot.lean ====
section
/-! DEFINITION. Power-on reset, chip warm reset, the boot and the hold-up drain (chapter 22, R546 to R558; R587). -/

namespace Sys2Proof.Machine

/-! ### What a reset keeps -/

/-- Completed writes stay: what the write buffer holds is staged (R16). -/
def stageBuffer (l : FMap Block) : FMap Block :=
  l.map fun (e : Nat × Block) => (e.1, if e.2.place = .buffer then { e.2 with place := .staged } else e.2)

/-- The Keeper after a reset: fuses, journal and sealed metadata stay; keys, DRBG, sessions and waiting entries go (R522)
(log entry 102). -/
def Kpr.rebooted (k : Kpr) (debug : Bool) (latch : Nat) : Kpr :=
  { k with
    debug := debug, jfault := false, ready := false, queue := [], keys := [], loadSeq := 0, wraps := 0
    seeded := false, generated := 0, salt := 0, latch := latch, sessions := [] }

/-- A Deferred Error log survives (R433). -/
def Ctrl.rebooted (x : Ctrl) : Ctrl :=
  { ctrlDefault 0 with defer := x.defer, deferOvf := x.deferOvf, deferGen := x.deferGen }

/-- TPI_STAT.PRESENT after a reset: the cartridge in the drive (R188). -/
def State.showPresent (s : State) : State := s.fset pTpi Reg.TPI_STAT 18 1 s.tpi.loaded.isSome.toNat

/-- Everything that no reset keeps starts again; the flash tier, the cartridge in the drive, the fuses and the level of PERST# stay (log
entry 102). -/
def State.restart (s : State) (debug : Bool) (latch tb : Nat) : State :=
  let s := s.tapeDetach
  { State.reset with
    tb := BitVec.ofNat 64 tb
    kpr := s.kpr.rebooted debug latch
    boot := { Boot.init with slots := s.boot.slots, nextSlot := s.boot.nextSlot, alarmAt := s.boot.alarmAt, t0 := tb }
    tpi := { Tpi.init with loaded := s.tpi.loaded, atReset := s.tpi.loaded.isSome }
    ctrls := s.ctrls.foldl (fun m (e : Nat × Ctrl) => mapSet ctrlDefault m e.1 e.2.rebooted) []
    qen := { State.reset.qen with sanitize := s.qen.sanitize, sanitizeAct := s.qen.sanitizeAct, saves := s.qen.saves, smart := s.qen.smart }
    mi := { State.reset.mi with vpd := s.mi.vpd }
    flash := { Flash.init with staged := s.flash.staged, wseq := s.flash.wseq }
    winLost := s.winLost
    ports := s.ports.foldl (fun m (e : Nat × Port) => mapSet portDefault m e.1 { portDefault e.1 with perst := e.2.perst }) []
    media := s.media
    nss := s.nss.map fun (e : Nat × Ns) => (e.1, { e.2 with slot := none })
    blocks := stageBuffer s.blocks
    shelf := s.shelf.map fun (e : Nat × List (Nat × Zone) × List (Nat × Block)) => (e.1, e.2.1, stageBuffer e.2.2)
    regs := s.regs.filter fun e => e.1 == regKey pAgm Reg.AGM_STAT
    free := s.free
    pending := s.pending } |>.fuseLoad.showPresent

/-- The fuse steps of the settings that have no journal entry: the setting by its entry type, once for each step (R502; log entry 99). -/
def State.lostSteps (s : State) : List Nat :=
  let k := s.kpr
  let typ (b : List Byte) := fieldAt b 4 2
  let named (n : Nat) := (k.entries.filter fun e => typ e.2 == 0x12 && fieldAt e.2 0x10 4 == n).length
  let count (n : Nat) := (k.entries.filter fun e => typ e.2 == n).length + named n
  let owned := (k.entries.filter fun e => typ e.2 == 1 && natBits (fieldAt e.2 0x10 4) 8 3 == 3).length + named 1
  let f := k.fuses
  let lost (n used done : Nat) := List.replicate (used - done) n
  lost 1 f.ownerUsed owned ++ lost 2 f.secUsed (count 2) ++ lost 5 f.portUsed (count 5) ++ lost 6 f.ikeyUsed (count 6) ++ lost 7 f.dbgUsed (count 7)

/-! ### Power-on reset and chip warm reset (R546 to R549) -/

/-- Slot 1 is a VF where one ×8 is in force: it starts as every secondary does (R466, R491; log entry 131). -/
def State.slotOne (s : State) : State :=
  if s.x8 then s.setFunc 1 { s.func 1 with vq := 0, vi := 0, ctl := ⟨64, 0, 0, 0⟩ } else s

/-- Power-on reset is released: straps are sampled, TB is zero; `cause` is the bit of PCR_RST. -/
def State.powerOn (s : State) (x8 sris0 sris1 : Bool) (cause : Nat) : State :=
  let s := s.restart false s.kpr.latch 0
  let s := s.rset (pHib 0) Reg.HIB_STRAP (BitVec.ofNat 32 ((if x8 then 1 else 0) + if sris0 then 2 else 0))
  let s := s.rset (pHib 1) Reg.HIB_STRAP (BitVec.ofNat 32 ((if x8 then 1 else 0) + if sris1 then 2 else 0))
  let s := s.fset (pHib 0) Reg.HIB_MODE 8 1 (if s.x8Chosen then 1 else 0)
  let s := { s with qen := { s.qen with smart := { s.qen.smart with cycles := s.qen.smart.cycles + 1 } } }
  (s.slotOne.rset pPcr Reg.PCR_RST (BitVec.ofNat 32 (2 ^ cause))).emit (.issue "CORE_PWR_EN" [1])

/-- POWER_ON_RESET: the release, where power-on reset is held. -/
def execPowerOnReset (x8 sris0 sris1 : Bool) (s : State) : Host.Outcome State Fault Refusal :=
  .next (s.leaveQueue (if s.boot.held then s.fresh.powerOn x8 sris0 sris1 0 else s.fresh))

/-- PORST_LOW: PORST# or PWR_GOOD goes low. -/
def execPorstLow (s : State) : Host.Outcome State Fault Refusal :=
  .next (s.leaveQueue (let s := s.fresh.restart false s.kpr.latch 0
    { s with boot := { s.boot with held := true }, fab := false }.emit (.issue "CORE_PWR_EN" [0])))

/-- Chip warm reset with its cause bit of PCR_RST: TB, STG_EPOCH, straps, the port mode in force, PERST# and the always-on domain
stay. One that is under way takes in a further request (R556); a boot that has stopped stays stopped (log entry 102). -/
def State.warm (s : State) (cause : Nat) : State :=
  let booting := s.fget pPcr Reg.PCR_BOOT 0 4 < 6 && !s.bit pPcr Reg.PCR_RST 0 && !s.bit pPcr Reg.PCR_RST 4
  if s.bit pPcr Reg.PCR_BOOT 8 || booting then s else
  let n := satAdd 65535 (s.fget pPcr Reg.PCR_RST 16 16) 1
  let keep := s.regs.filter fun e =>
    (e.1 % 1024 == Reg.STG_EPOCH / 4 && (blkAt (e.1 / 1024)).any fun b => b.base == e.1 / 1024)
      || e.1 == regKey (pHib 0) Reg.HIB_STRAP || e.1 == regKey (pHib 1) Reg.HIB_STRAP || e.1 == regKey pKpr Reg.KPR_ALARM
  let x8 := s.fget (pHib 0) Reg.HIB_MODE 8 1
  let r := s.restart s.kpr.debug s.kpr.latch s.tb.toNat
  let r := { r with
    regs := keep.foldl (fun m (e : Nat × RegWord) => mapSet regDefault m e.1 e.2) r.regs
    dmcs := (List.range 4).map fun n => (n, { Dmc.init with half := false }) }
  let r := r.fset pKpr Reg.KPR_ALARM 16 4 0
  (r.fset (pHib 0) Reg.HIB_MODE 8 1 x8).slotOne.rset pPcr Reg.PCR_RST (BitVec.ofNat 32 (2 ^ cause + n * 2 ^ 16))

/-- WARM: PCR_RST.WARM is written; by anyone but the Keeper it is a write to a locked field (R561). -/
def State.warmWrite (s : State) (req : Requester) : State :=
  if req = .core .keeper then s.warm 2 else s.badWrite pPcr Reg.PCR_RST 2

/-- WARM (R561, R46, R232, R254). -/
def execWarm (req : Requester) (s : State) : Host.Outcome State Fault Refusal := next (fun s => s.warmWrite req) s

/-- NSSR: a host write of `v` to NSSR of function `func` (R547). -/
def execNssr (func : Fin 256) (v : BitVec 32) (s : State) : Host.Outcome State Fault Refusal :=
  next (fun s => if v = 0x4E564D65 ∧ s.isPf func.val then s.warm 1 else s) s

/-! ### Boot (R551 to R556) -/

/-- The stage or failure code. -/
def State.bootCode (s : State) : Nat := s.fget pPcr Reg.PCR_BOOT 0 4

/-- The boot has stopped. -/
def State.bootFailed (s : State) : Bool := s.bit pPcr Reg.PCR_BOOT 8

/-- A stage starts (log entries 101 and 103). -/
def State.bootAt (s : State) (code : Nat) : State := s.fset pPcr Reg.PCR_BOOT 0 4 code

/-- BOOT_FAILURE (R553): both PFs show CSTS.CFS. -/
def State.bootFail (s : State) (code : Nat) : State :=
  let s := (s.bootAt code).fset pPcr Reg.PCR_BOOT 8 1 1
  let s := s.setCtrl 0 { s.ctrl 0 with cfs := true }
  if s.isPf 1 then s.setCtrl 1 { s.ctrl 1 with cfs := true } else s

/-- Stage 0x1 ends: fuses are read, and a Retired device stops. -/
def State.bootFuses (s : State) (ok : Bool) : State :=
  if !ok || 4 < s.kpr.fuses.lcs then s.bootFail 8
  else if s.kpr.fuses.lcs = 4 then s.bootFail 0xE
  else s.bootAt 2

/-- The slot that boots: the one last committed, or else the other (R552). -/
def State.pickSlot (s : State) (img : Nat → List Byte) : Option Nat :=
  let a := s.boot.nextSlot
  if s.fwStatus (img a) = 2 then some a else if s.fwStatus (img (3 - a)) = 2 then some (3 - a) else none

/-- Stage 0x2 ends: Keeper firmware is verified and runs, the DRBG is seeded, and an alarm that power loss cut off is journalled. -/
def State.bootKeeper (s : State) (img1 img2 : List Byte) : State :=
  let img (n : Nat) := (mapFind s.boot.slots n).getD (if n = 1 then img1 else img2)
  match s.pickSlot img with
  | none => s.bootFail (if s.fwStatus (img 1) = 5 ∨ s.fwStatus (img 2) = 5 then 0xA else 9)
  | some n =>
    let back := n != s.boot.nextSlot
    let s := (s.fset pPcr Reg.PCR_BOOT 9 2 n).fset pPcr Reg.PCR_BOOT 11 1 (if back then 1 else 0)
    let s := { s with boot := { s.boot with
      slots := mapPut (mapPut s.boot.slots 1 (img 1)) 2 (img 2), kprCode := sectionOf (img n) 0x0401, rtCode := sectionOf (img n) 0x0402 } }
    let s := if back then s.journal 3 0 (leBytes 2 0xFE ++ leBytes 2 (fieldAt (img n) 4 2) ++ (containerDigest (img n)).take 12) .none_ else s
    let s := match s.boot.alarmAt with
      | some t =>
        if s.alarmOn then s
        else { s.journal 0x10 0 (leBytes 8 s.kpr.latch ++ leBytes 8 t) .none_ with boot := { s.boot with alarmAt := none } }
      | none => s
    s.seedNow.bootAt 3

/-- Stage 0x3 ends: DRAM is trained, and the real-time firmware is loaded and started. No channel trains where every one has been trained in
vain, or where no more training comes (`ok` is false; log entry 103). -/
def State.bootDram (s : State) (ok : Bool) : State :=
  if s.window.live.isEmpty then (if ok && !((List.range 4).all fun n => (s.dmc n).trained) then s else s.bootFail 0xB)
  else
    let s := (s.loadRt s.boot.rtCode).bootAt 4
    { s with boot := { s.boot with rtAt := some s.tb.toNat } }

/-- Stage 0x4 ends: RT0 runs, or a LOAD has failed. -/
def State.bootRt (s : State) (ok : Bool) : State := if ok then s.bootAt 5 else s.bootFail 0xC

/-- The last SEQ of the journal is below 65,536 × STEPS − 1 (R507). -/
def State.journalBad (s : State) : Bool := s.kpr.nextSeq < 65536 * s.kpr.fuses.steps

/-- Stage 0x5 ends: flash is discovered, the journal head is read, and in Owned the tier key is unwrapped. The journal is
at fault where its last SEQ is below 65,536 × STEPS − 1 (R507), or where `fault` tells that its chain or signatures fail; `opens` tells of a
tier key that the device's wrap key opens. -/
def State.bootFlash (s : State) (fault opens : Bool) : State :=
  match s.fget pFtm Reg.FTM_DISC 16 4 with
  | 3 => s.bootFail 0xD
  | 2 =>
    let sealed := s.kpr.fuses.lcs == 3 && !opens
    let fault := s.journalBad || fault
    let s := { s with kpr := { s.kpr with jfault := fault, sealedTier := sealed, ready := true } }
    let s := if fault then s.raise pKpr 8 else s
    let s := if fault then s else s.lostSteps.foldl (fun s n => s.journal 0x12 0 (leBytes 4 n) .none_) s
    let n := s.kpr.fuses.steps
    let s := if !fault && 0 < n && s.kpr.nextSeq == 65536 * n then s.journal 0x12 0 (leBytes 4 0x7F) .none_ else s
    let s := if sealed then s else (s.nss.map Prod.fst).foldl State.loadNsKey s
    let ms := satAdd 65535 ((s.tb.toNat - s.boot.t0) / 1000000) 0
    (s.bootAt 6).fset pPcr Reg.PCR_BOOT 16 16 ms
  | _ => s

/-- BOOT_STAGE: the stage in progress ends: `ok` tells how its outside work went (the fuse read; DRAM training that finds no channel;
RT0), and the images are what the xSPI flash holds in the slots that this device has not written. An alarm holds the boot
(log entry 103). -/
def execBootStage (ok : Bool) (img1 img2 : List Byte) (fault opens : Bool) (s : State) : Host.Outcome State Fault Refusal :=
  next (fun s =>
    if s.bootFailed || s.alarmOn then s else
    match s.bootCode with
    | 1 => s.bootFuses ok
    | 2 => s.bootKeeper img1 img2
    | 3 => s.bootDram ok
    | 4 => s.bootRt ok
    | 5 => s.bootFlash fault opens
    | _ => s) s

/-- BOOT_TIMEOUT: RT0 has not reported within 100 ms, or an alarm has stayed active for 1 s. -/
def execBootTimeout (s : State) : Host.Outcome State Fault Refusal :=
  next (fun s =>
    if s.bootFailed || 6 ≤ s.bootCode then s
    else if s.alarmOn then
      match s.boot.alarmAt with
      | some t => (s.reach (max t s.boot.t0 + 1000000000)).bootFail 0xF
      | none => s
    else match s.bootCode, s.boot.rtAt with
      | 4, some t => (s.reach (t + 100000000)).bootFail 0xC
      | _, _ => s) s

/-- Writes of firmware to DRAM. -/
def State.dmaAll (s : State) (l : List (Nat × List Byte)) : State := l.foldl (fun s e => (s.busWrite e.1 e.2).1) s

/-- MAP_RESTORE_END: firmware has written the mapping tables, as the flash tier holds them, into DRAM (R555; log entry 103). -/
def execMapRestoreEnd (tables : List (Nat × List Byte)) (s : State) : Host.Outcome State Fault Refusal :=
  next (fun s =>
    if s.bootFailed || s.bootCode < 5 || s.kpr.sealedTier || s.window.live.isEmpty then s
    else { s.dmaAll tables with boot := { (s.dmaAll tables).boot with mapReady := true } }) s

/-! ### Hold-up drain (R16, R550, R587) -/

/-- Entries that wait become durable. -/
def State.journalAll : Nat → State → State
  | 0, s => s
  | n + 1, s => if s.kpr.queue.isEmpty then s else State.journalAll n (s.journalEnd true)

/-- HOLDUP_DRAIN: PFAIL# low. -/
def State.holdup (s : State) : State :=
  let s := { s with qen := { s.qen with stopped := true }, cmds := [] }
  let s := s.machineAbort
  let s := { s with blocks := stageBuffer s.blocks }
  let s := s.flash.stripes.foldl (fun s x => s.closeStripe 0 x) s
  s.journalAll s.kpr.queue.length

/-- HOLDUP_DRAIN (R16, R208, R550, R587). -/
def execHoldupDrain (s : State) : Host.Outcome State Fault Refusal :=
  nextAon (fun s =>
    let s := (if s.power.asleep then s else s.holdup).emit (.issue "CORE_PWR_EN" [0])
    { s with boot := { s.boot with held := true }, fab := false }) s

end Sys2Proof.Machine
end

