-- ==== Sys2Proof/Machine/Flags.lean ====
section
/-! DEFINITION. The integer operations of a core and the flags they set (R281 to R284, R291). -/

namespace Sys2Proof.Machine

/-- What an integer operation gives: the result, and C and V where the operation sets them (R284). Z and N follow from the
result. -/
structure Alu where
  r : Word
  c : Option Bool
  v : Option Bool
deriving DecidableEq, Repr

/-- The flags of ps, Z in bit 0, N in 1, C in 2 and V in 3 (R258). -/
def psZ (ps : Word) : Bool := ps.getLsbD 0
def psN (ps : Word) : Bool := ps.getLsbD 1
def psC (ps : Word) : Bool := ps.getLsbD 2
def psV (ps : Word) : Bool := ps.getLsbD 3

/-- Bit `i` of ps set to `b`. -/
def psPut (ps : Word) (i : Nat) (b : Bool) : Word :=
  if b then ps ||| BitVec.ofNat 64 (2 ^ i) else ps &&& ~~~ BitVec.ofNat 64 (2 ^ i)

/-- ps with the flags of an operation (R284). -/
def Alu.flags (x : Alu) (ps : Word) : Word :=
  let ps := psPut (psPut ps 0 (x.r == 0)) 1 (x.r.getLsbD 63)
  let ps := match x.c with
    | some b => psPut ps 2 b
    | none => ps
  match x.v with
  | some b => psPut ps 3 b
  | none => ps

/-- a + b + carry, with the carry out of bit 63 and the signed overflow. -/
def aluAdd (a b : Word) (cin : Bool) : Alu :=
  let k : Nat := if cin then 1 else 0
  let sum : Int := a.toInt + b.toInt + (k : Int)
  { r := BitVec.ofNat 64 (a.toNat + b.toNat + k)
    c := some (decide (2 ^ 64 ≤ a.toNat + b.toNat + k))
    v := some (decide (sum < -(2 ^ 63) ∨ 2 ^ 63 ≤ sum)) }

/-- a + ~b + carry. -/
def aluSub (a b : Word) (cin : Bool) : Alu := aluAdd a (~~~ b) cin

/-- An operation that leaves C and V unchanged. -/
def aluPlain (r : Word) : Alu := ⟨r, none, none⟩

/-- The bit that leaves last, when the amount is not 0. -/
def lastOut (amount : Nat) (bit : Bool) : Option Bool := if amount = 0 then none else some bit

/-- Shifts and rotates by an amount from 0 to 63. -/
def aluShl (a : Word) (n : Nat) : Alu := ⟨a <<< n, lastOut n (a.getLsbD (64 - n)), none⟩
def aluShr (a : Word) (n : Nat) : Alu := ⟨a >>> n, lastOut n (a.getLsbD (n - 1)), none⟩
def aluSar (a : Word) (n : Nat) : Alu := ⟨a.sshiftRight n, lastOut n (a.getLsbD (n - 1)), none⟩
def aluRor (a : Word) (n : Nat) : Alu := ⟨a.rotateRight n, lastOut n (a.getLsbD (n - 1)), none⟩

/-- The low 64 bits of the product; C and V tell that the signed product exceeds 64 bits. -/
def aluMul (a b : Word) : Alu :=
  let p := a.toInt * b.toInt
  let big := decide (p < -(2 ^ 63) ∨ 2 ^ 63 ≤ p)
  ⟨BitVec.ofInt 64 p, some big, some big⟩

def aluMulhs (a b : Word) : Alu := aluPlain (BitVec.ofInt 64 (Int.fdiv (a.toInt * b.toInt) (2 ^ 64)))
def aluMulhu (a b : Word) : Alu := aluPlain (BitVec.ofNat 64 (a.toNat * b.toNat / 2 ^ 64))

/-- *Division corners* (R282): V is 1 in one of them, else 0 (R284). -/
def aluDivu (a b : Word) : Alu :=
  if b = 0 then ⟨BitVec.allOnes 64, none, some true⟩ else ⟨BitVec.ofNat 64 (a.toNat / b.toNat), none, some false⟩

def aluRemu (a b : Word) : Alu :=
  if b = 0 then ⟨a, none, some true⟩ else ⟨BitVec.ofNat 64 (a.toNat % b.toNat), none, some false⟩

/-- The least signed word divided by -1. -/
def divOver (a b : Word) : Bool := a.toInt == -(2 ^ 63) && b.toInt == -1

def aluDivs (a b : Word) : Alu :=
  if b = 0 then ⟨BitVec.allOnes 64, none, some true⟩
  else if divOver a b then ⟨a, none, some true⟩
  else ⟨BitVec.ofInt 64 (Int.tdiv a.toInt b.toInt), none, some false⟩

def aluRems (a b : Word) : Alu :=
  if b = 0 then ⟨a, none, some true⟩
  else if divOver a b then ⟨0, none, some true⟩
  else ⟨BitVec.ofInt 64 (Int.tmod a.toInt b.toInt), none, some false⟩

/-- Leading zeros of the lowest `n` bits. -/
def clzOf (a : Word) : Nat → Nat
  | 0 => 0
  | n + 1 => if a.getLsbD n then 0 else 1 + clzOf a n

/-- Trailing zeros of the `n` bits from bit `i`. -/
def ctzOf (a : Word) (i : Nat) : Nat → Nat
  | 0 => 0
  | n + 1 => if a.getLsbD i then 0 else 1 + ctzOf a (i + 1) n

/-- Set bits of the lowest `n` bits of a number. -/
def popOf (v : Nat) : Nat → Nat
  | 0 => 0
  | n + 1 => v % 2 + popOf (v / 2) n

/-- The low `n` bits of a word, sign-extended or zero-extended. -/
def sextW (n : Nat) (a : Word) : Word := BitVec.ofInt 64 (signedOf n a.toNat)
def zextW (n : Nat) (a : Word) : Word := BitVec.ofNat 64 (a.toNat % 2 ^ n)

/-- The bytes of a word reversed. -/
def bswapW (a : Word) : Word := BitVec.ofNat 64 (beNat (leBytes 8 a.toNat))

/-- A condition of BCC, by its code (R291). -/
def condHolds (ps : Word) (code : Nat) : Bool :=
  let z := psZ ps
  let n := psN ps
  let c := psC ps
  let v := psV ps
  match code with
  | 0x0 => true
  | 0x1 => z
  | 0x2 => !z
  | 0x3 => !c
  | 0x4 => c
  | 0x5 => c && !z
  | 0x6 => !c || z
  | 0x7 => n != v
  | 0x8 => n == v
  | 0x9 => !z && n == v
  | 0xA => z || n != v
  | 0xB => n
  | 0xC => !n
  | 0xD => v
  | 0xE => !v
  | _ => false

end Sys2Proof.Machine
end

