-- ==== Sys2Proof/Machine/Operands.lean ====
section
/-! DEFINITION. The instruction formats: the words they encode to, the fields that must be zero, the operands they name, and the
lanes of vectors (R270, R271, R278 to R280, R288, R307 to R311). -/

namespace Sys2Proof.Machine

/-! ### Encodings (R278, R308 to R311) -/

/-- A word with major opcode `op` and the 26 bits below it. -/
def encOp (op low : Nat) : Nat := op * 2 ^ 26 + low

def encA (op func : Nat) (rd ra rb : BitVec 5) : Nat :=
  encOp op (rd.toNat * 2 ^ 21 + ra.toNat * 2 ^ 16 + rb.toNat * 2 ^ 11 + func)

/-- INT: func[10] is the S bit (R279). -/
def encInt (func : Nat) (f : FmtA) : Nat := encA 0x01 (func + (if f.s then 1024 else 0)) f.rd f.ra f.rb

def encSys (func : Nat) (f : FmtY) : Nat := encA 0x03 func f.rd f.ra f.rb

/-- VMOV: func [9:8] the instruction, [1:0] the width, [10] and [7:2] the bits that must be zero. -/
def encVmov (sel : Nat) (f : FmtW) : Nat :=
  encA 0x02 (f.z.toNat / 64 * 1024 + sel * 256 + f.z.toNat % 64 * 4 + f.ew.toNat) f.rd f.ra f.rb

def encVop (func : Nat) (f : FmtV) : Nat :=
  encOp 0x04 (f.vd.toNat * 2 ^ 22 + f.va.toNat * 2 ^ 18 + f.rb.toNat * 2 ^ 13 + f.ew.toNat * 2 ^ 11 + func)

def encB (op : Nat) (f : FmtB) : Nat := encOp op (f.rd.toNat * 2 ^ 21 + f.ra.toNat * 2 ^ 16 + f.imm.toNat)

def encM (op : Nat) (f : FmtM) : Nat :=
  encOp op (f.rd.toNat * 2 ^ 21 + f.wn.toNat * 2 ^ 17 + f.ra.toNat * 2 ^ 12 + f.disp.toNat)

def encS (op : Nat) (f : FmtS) : Nat := encOp op (f.rd.toNat * 2 ^ 21 + f.addr.toNat)

def encX (op : Nat) (f : FmtX) : Nat := encOp op (f.bn.toNat * 2 ^ 10 + f.f.toNat)

def encC (f : FmtC) : Nat := encOp 0x06 (f.mask.toNat * 2 ^ 18 + f.disp.toNat)

def encJ (f : FmtJ) : Nat := encOp 0x05 f.disp.toNat

/-! ### Illegal encodings (R307) -/

/-- The first of two causes: 0 is none. -/
def orIll (a b : Nat) : Nat := if a = 0 then b else a

/-- DETAIL 0x03 unless the fields that must be zero are zero. -/
def ill3 (zero : Bool) : Nat := if zero then 0 else 3

/-- DETAIL of a vector instruction: 0x04 on a core without vectors, then the cause of its encoding. -/
def illV (k d : Nat) : Nat := if isCompute k then d else 4

def intFunc (n : Nat) : Bool :=
  n ≤ 0xB || (0x10 ≤ n && n ≤ 0x12) || (0x14 ≤ n && n ≤ 0x1B) || (0x20 ≤ n && n ≤ 0x26) || (0x28 ≤ n && n ≤ 0x2A)
    || n == 0x30 || n == 0x31

def sysFunc (n : Nat) : Bool := n ≤ 4 || (8 ≤ n && n ≤ 0xB)

def vopFunc (n : Nat) : Bool :=
  n ≤ 4 || (8 ≤ n && n ≤ 0xD) || (0x10 ≤ n && n ≤ 0x12) || (0x18 ≤ n && n ≤ 0x1A) || (0x20 ≤ n && n ≤ 0x22)

/-- DETAIL of a word that no instruction of the opcode map has, on core number `k`; 0 for a word that one has (log entry 60). -/
def undefinedWord (k w : Nat) : Nat :=
  let op := w / 2 ^ 26 % 64
  let func := w % 2048
  match op with
  | 0x00 => 1
  | 0x3F => 1
  | 0x01 => if intFunc (func % 1024) then 0 else 2
  | 0x03 => if sysFunc func then 0 else 2
  | 0x02 => if func / 1024 = 0 ∧ func % 256 < 4 then 0 else illV k 2
  | 0x04 => if vopFunc func then 0 else illV k 2
  | _ => 0

/-! ### Operands -/

/-- An immediate or displacement of `n` bits, sign-extended, as a word. -/
def sextI {n : Nat} (x : BitVec n) : Word := x.signExtend 64
def zextI {n : Nat} (x : BitVec n) : Word := x.setWidth 64

/-- pc plus a displacement in words (R290). -/
def pcRel {n : Nat} (pc : Word) (x : BitVec n) : Word := pc + (sextI x <<< 2)

/-- log₂ of an access size. -/
def log2Size (n : Nat) : Nat :=
  match n with
  | 1 => 0
  | 2 => 1
  | 4 => 2
  | 8 => 3
  | 32 => 5
  | _ => 6

/-- The offset of a long-form access (R271). -/
def Core.offM (c : Core) (f : FmtM) (size : Nat) : Nat := (c.gr f.ra.toNat + (sextI f.disp <<< log2Size size)).toNat

/-! ### Lanes (R259, R280) -/

/-- The element width that ew encodes. -/
def ewBits (ew : BitVec 2) : Nat := 8 * 2 ^ ew.toNat

/-- Lane `i` of width `w`. -/
def vecLane (x : VecWord) (w i : Nat) : Nat := x.toNat / 2 ^ (w * i) % 2 ^ w

/-- The register whose lanes of width `w` are `f 0`, `f 1` and so on, each modulo 2ʷ. -/
def lanesOf (w : Nat) (f : Nat → Nat) : VecWord :=
  BitVec.ofNat 256 ((List.range (256 / w)).foldl (fun a i => a + f i % 2 ^ w * 2 ^ (w * i)) 0)

/-- One lane replaced. -/
def laneSet (x : VecWord) (w i v : Nat) : VecWord := lanesOf w fun j => if j = i then v else vecLane x w j

end Sys2Proof.Machine
end

