-- ==== Sys2Proof/Machine/Power.lean ====
section
/-! DEFINITION. Power profiles, the governor, energy metering, the margin planner and the thermal sensors (chapter 21). -/

namespace Sys2Proof.Machine

/-- A field of a PCR power register (page 1). -/
def State.pcr (s : State) (off lo len : Nat) : Nat := s.fget (pPcr + 1) off lo len

def State.setPcr (s : State) (off lo len v : Nat) : State := s.fset (pPcr + 1) off lo len v

def State.setPower (s : State) (p : Power) : State := { s with power := p }

/-! ### The profile wanted (R525, R526) -/

/-- The power state that PF `p` requests; a PF whose link is down counts as PS2. -/
def State.pfDemand (s : State) (p : Nat) : Nat := if s.linkUp (s.portOf p) then s.feature p 2 else 2

/-- The host demand: 0 Open, 1 Ajar, 2 Latched. -/
def State.hostDemand (s : State) : Nat := if s.isPf 1 then min (s.pfDemand 0) (s.pfDemand 1) else s.pfDemand 0

/-- The target profile; after an exit from L1.2, Ajar for a time (R530). -/
def State.profTarget (s : State) : Nat :=
  let d := s.hostDemand
  let mn := s.pcr Reg.PCR_PROF 0 2
  if s.bit (pPcr + 1) Reg.PCR_PROF 4 && (List.range 2).all (fun p => !s.portUsed p || (s.port p).perst) then 3
  else if (d = 2 ∨ s.thermal = 4) ∧ mn = 2 ∧ s.power.idle.isNone then 2
  else if (d = 1 ∨ d = 2) ∧ (mn = 1 ∨ mn = 2) then 1
  else 0

/-- A stream of a cluster is open. -/
def State.anyStream (s : State) : Bool := (List.range 256).any fun i => s.bit (pCcl (i / 64) + 3) (Reg.STREAM (i % 64) 0x10) 16

/-- The first entry condition that fails, for profile `t` (R527); an outstanding Asynchronous Event Request does not count
(log entry 105). -/
def State.entryBlock (s : State) (t : Nat) : Nat :=
  let aers := s.ctrls.flatMap fun (e : Nat × Ctrl) => e.2.aers
  if s.streaming || s.seqBusy || (t == 3 && s.bit pTpi Reg.TPI_STAT 17) then 1
  else if s.blocks.any fun e => e.2.place == .buffer then 2
  else if (s.cmds.any fun e => !aers.contains e.1) || !s.jobs.isEmpty then 3
  else if (s.cores.any fun e => e.2.bench.isSome) || s.anyStream then 4
  else if s.blks.any fun e => e.2.active then 5
  else 0

/-- PCR_PSTAT shows target, host demand and the first failing condition. -/
def State.showProf (s : State) : State :=
  let t := s.profTarget
  let s := (s.setPcr Reg.PCR_PSTAT 2 2 t).setPcr Reg.PCR_PSTAT 4 2 s.hostDemand
  let w := s.power.since.isSome
  (s.setPcr Reg.PCR_PSTAT 8 1 (if w then 1 else 0)).setPcr Reg.PCR_PSTAT 12 3 (if w then s.entryBlock t else 0)

/-- The core voltage of profile `t` goes to the regulator (R523, R529). -/
def State.askVolts (s : State) (t : Nat) : State :=
  if t = 3 then s
  else s.emit (.issue "AVSBUS" [if t = 0 then s.pcr Reg.PCR_VDD 0 12 else if t = 1 then s.pcr Reg.PCR_VDD 16 12 else 650])

/-- The profile in force becomes `t`. -/
def State.enterProf (s : State) (t : Nat) : State :=
  let cur := s.pcr Reg.PCR_PSTAT 0 2
  let s := if t = 0 then s.setPcr Reg.PCR_GOV 8 8 0 else s
  let s := (s.setPcr Reg.PCR_PSTAT 0 2 t).clkUpdate
  if t = cur then s else (s.askVolts t).raise pPcr 4

/-- PCR follows the target profile: Open and Ajar at once, the entry into Latched or Shuttered waits for its conditions. -/
def State.profCheck (s : State) : State :=
  let t := s.profTarget
  let s := if t < 2 then (s.enterProf t).setPower { (s.enterProf t).power with since := none, told := false }
    else if s.power.since.isSome then s
    else s.setPower { s.power with since := some s.tb.toNat, told := false }
  s.showProf

/-- PROFILE_CHANGE (R518, R526). -/
def execProfileChange (s : State) : Host.Outcome State Fault Refusal := next (fun s => s.profCheck) s

/-! ### Entry and wake (R527 to R530) -/

/-- The ports enter L1.2, where the host's enables permit it (R407): `p0` and `p1` tell. -/
def State.portsSleep (s : State) (p0 p1 : Bool) : State :=
  (List.range 2).foldl (fun s p =>
    if s.linkUp p && (if p = 0 then p0 else p1) then ((s.setLstat p 0 6 5).setLstat p 22 2 3).setPort p { s.port p with l1Since := s.tb.toNat } else s) s

/-- Entry into profile `t` (R528): intake stops, loops are safe, the ports sleep, TB is saved and the clocks stop. -/
def State.sleep (s : State) (t : Nat) (p0 p1 : Bool) : State :=
  let left := s.pcr Reg.PCR_PSTAT 0 2
  let s := (s.allSafe.portsSleep p0 p1).enterProf t
  let s := s.setPower { s.power with since := none, told := false, asleep := true, saved := s.tb.toNat, left := left }
  { s.showProf with fab := false }

/-- LATCHED_ENTRY (R42, R168, R407, R518): `p0` and `p1` tell whether the hosts' enables permit L1.2 on each port. -/
def execLatchedEntry (p0 p1 : Bool) (s : State) : Host.Outcome State Fault Refusal :=
  next (fun s => if s.profTarget = 2 ∧ s.power.since.isSome ∧ s.entryBlock 2 = 0 then s.sleep 2 p0 p1 else s) s

/-- SHUTTERED_ENTRY: the resume image is written, and CORE_PWR_EN falls. -/
def execShutteredEntry (s : State) : Host.Outcome State Fault Refusal :=
  next (fun s => if s.profTarget = 3 ∧ s.power.since.isSome ∧ s.entryBlock 3 = 0 then (s.sleep 3 false false).emit (.issue "CORE_PWR_EN" [0]) else s) s

/-- ENTRY_TIMEOUT (R527). -/
def execEntryTimeout (s : State) : Host.Outcome State Fault Refusal :=
  next (fun s =>
    match s.power.since with
    | none => s
    | some t =>
      if s.power.told || s.entryBlock s.profTarget == 0 then s else
      let s := s.reach (t + s.pcr Reg.PCR_PROF 16 16 * 1000000)
      (s.setPower { s.power with told := true }).showProf.raise pPcr 5) s

/-- Energy in nJ that the ceiling of profile `t` gives in `n` periods of CLK_AON (R28, R545). -/
def sleepNj (t n : Nat) : Nat := (ratio (n * (if t = 3 then 120000000 else 1200000000)) 32768).toNat

/-- The sum of every block's ENERGY, µJ (R533; log entry 133). -/
def State.blocksEnergy (s : State) : Nat := (allBlks.map fun b => s.rg64 b.base Reg.ENERGY_LO).sum

/-- Device energy and unattributed energy are shown in µJ: the latter is what no function is charged with, and what sleep has added
(log entry 106). -/
def State.showEnergy (s : State) : State :=
  let dev := mapGet (fun _ => 0) s.power.rem 4096
  let att := (s.funcs.map fun (e : Nat × Func) => njSum e.2.nj).sum
  let un := dev - att + mapGet (fun _ => 0) s.power.rem 4097
  (s.rset64 pEmt Reg.EMT_DEV_LO s.blocksEnergy).rset64 pEmt Reg.EMT_UNATTR_LO (un / 1000)

/-- What loses its power in Shuttered and is not in the resume image: on-chip SRAM but the real-time local stores, the key store
and the DRBG (log entry 104). -/
def State.powerLost (s : State) : State :=
  let keep (a : Nat) : Bool := a < 2 ^ 40 || (localBase 32 ≤ a && a < localBase 40)
  { s.eraseKeys with mem := s.mem.filter fun c => keep c.1 }

/-- The device wakes by source `src`, after `n` periods of CLK_AON (R529, R530; log entries 104 and 105). -/
def State.awake (s : State) (src n : Nat) : State :=
  let was := s.pcr Reg.PCR_PSTAT 0 2
  let s := s.setPower { s.power with
    asleep := false, rem := mapUpd (fun _ => 0) s.power.rem 4097 (· + sleepNj was n) }
  let s := { s with tb := BitVec.ofNat 64 (s.power.saved + n * 1000000000 / 32768 + 1), fab := true }
  let s := s.setPcr Reg.PCR_PSTAT 16 8 src
  let s := if was = 3 then ((s.powerLost.emit (.issue "CORE_PWR_EN" [1])).seedNow) else s
  let s := if was = 3 ∧ !s.kpr.sealedTier then (s.nss.map Prod.fst).foldl State.loadNsKey s else s
  let s := if src < 2 then s.l1Leave src else s
  let s := if s.profTarget = 2 then s.setPower { s.power with idle := some s.tb.toNat } else s
  let t := if s.profTarget < 2 then s.profTarget else 1
  let s := if was = 2 ∧ t = 0 then s.setPower { s.power with due := true } else s
  ((s.enterProf t).showEnergy).showProf

/-- A wake event: during the wait for entry it cancels the entry; asleep, it wakes the device, or, where the resume image fails,
leads to a power-on reset. -/
def State.wakeUp (s : State) (src n : Nat) (ok : Bool) : State :=
  if !s.power.asleep then
    if s.power.since.isSome then ((s.setPower { s.power with since := none, told := false }).errCnt pPcr 0).showProf else s
  else if s.pcr Reg.PCR_PSTAT 0 2 = 3 ∧ !ok then
    s.powerOn (s.bit (pHib 0) Reg.HIB_STRAP 0) (s.bit (pHib 0) Reg.HIB_STRAP 1) (s.bit (pHib 1) Reg.HIB_STRAP 1) 4
  else s.awake src n

/-- WAKE: a source of PCR_WAKE that is enabled, or an alarm (6). -/
def execWake (src : Fin 7) (periods : Nat) (ok : Bool) (s : State) : Host.Outcome State Fault Refusal :=
  nextAon (fun s =>
    if (if src.val = 6 then s.alarmOn else s.bit (pPcr + 1) Reg.PCR_WAKE src.val) then s.wakeUp src.val periods ok else s) s

/-- AON_TIMER_EXPIRY: PCR_AONTMR seconds have passed. -/
def execAonTimerExpiry (ok : Bool) (s : State) : Host.Outcome State Fault Refusal :=
  nextAon (fun s =>
    let sec := (s.rg (pPcr + 1) Reg.PCR_AONTMR).toNat
    if s.power.asleep ∧ sec ≠ 0 ∧ s.bit (pPcr + 1) Reg.PCR_WAKE 4 then s.wakeUp 4 (32768 * sec) ok else s) s

/-- IDLE_EXPIRY (R530). -/
def execIdleExpiry (s : State) : Host.Outcome State Fault Refusal :=
  next (fun s =>
    match s.power.idle with
    | none => s
    | some t =>
      let s := s.reach (t + s.pcr Reg.PCR_PROF 8 8 * 1000000)
      (s.setPower { s.power with idle := none }).profCheck) s

/-! ### Governor (R531) -/

/-- One step more or less (log entry 108). -/
def State.govern (s : State) : State :=
  let p := 100 * s.fget pEmt Reg.EMT_POWER_MS 0 24
  let limit := s.pcr Reg.PCR_GOV 0 7
  let k := s.govSteps
  let s' (n : Nat) : State := ((s.setPcr Reg.PCR_GOV 8 8 n).clkUpdate).raise pPcr 6
  let s := if limit * 20000 < p ∧ k < s.clkSteps + 9 then s' (k + 1)
    else if p < (limit - 5) * 20000 ∧ 0 < k then s' (k - 1) else s
  if 0 < s.govSteps then s.cntSat (pPcr + 1) Reg.PCR_GOV 16 16 1 else s

/-- GOVERNOR_STEP (R531, R532). -/
def execGovernorStep (s : State) : Host.Outcome State Fault Refusal :=
  next (fun s => if s.pcr Reg.PCR_PSTAT 0 2 = 1 then s.govern else s) s

/-! ### Metering (R533, R534, R544, R545) -/

/-- A block's energy: nJ counted, µJ shown. -/
def State.blockEnergy (s : State) (pg nJ : Nat) : State :=
  match blkAt pg with
  | none => s
  | some b =>
    let e := mapGet (fun _ => 0) s.power.rem b.base + nJ
    (s.setPower { s.power with rem := mapSet (fun _ => 0) s.power.rem b.base e }).rset64 b.base Reg.ENERGY_LO (e / 1000)

/-- Dynamic energy of a Bench: its context, block type code and nJ. -/
def State.benchEnergy (s : State) (x code nJ : Nat) : State :=
  let b := s.benchOf x
  let s := s.setBench x { b with nj := mapUpd (fun _ => 0) b.nj code (· + nJ) }
  let s := s.chargeFunc b.func code nJ
  match s.coreOfCtx x with
  | some k => match (s.core k).bench with
    | some r => s.setCore k { s.core k with bench := some { r with
        eUsed := r.eUsed + BitVec.ofNat 64 nJ, eRem := r.eRem - BitVec.ofNat 64 nJ } }
    | none => s
  | none => s

/-- The fields of the telemetry and energy pages, by offset in BAR2 ÷ 8, for every function (R536). -/
def State.telemetry (s : State) : List (Nat × Nat) :=
  let page (p o v : Nat) : Nat × Nat := (p * 512 + o / 8, v)
  let pair (o lo hi : Nat) : Nat × Nat := page 1 o (lo + hi * 2 ^ 32)
  let temp (i : Nat) : Nat := s.fget (pAgm + 2) (Reg.AGM_SENS i) 0 8
  let code (c : Nat) : Nat := ((allBlks.filter fun b => b.typ.code == c).map fun b => s.rg64 b.base Reg.ENERGY_LO).sum
  let wear (i : Nat) : Nat := (s.rg pAgm (Reg.AGM_WEAR i)).toNat
  [page 0 8 (s.pcr Reg.PCR_PSTAT 0 2 + s.fget pEmt Reg.EMT_POWER 0 24 * 2 ^ 32), page 0 0x10 (s.fget pAgm Reg.AGM_HOT 0 8),
    page 0 0x18 s.tb.toNat]
  ++ (List.range 6).map (fun i => pair (8 * i) (temp (2 * i)) (temp (2 * i + 1)))
  ++ [pair 0x40 (s.pcr Reg.PCR_VDD 0 12 + s.pcr Reg.PCR_VDD 16 12 * 2 ^ 16) (wear 0), pair 0x48 (wear 1) (wear 2)]
  ++ [page 64 0 (s.rg64 pEmt Reg.EMT_DEV_LO), page 64 8 (s.rg64 pEmt Reg.EMT_UNATTR_LO)]
  ++ (List.range 25).map (fun i => page 64 (0x50 + 16 * i) (code (i + 1)))
  ++ (List.range 512).map fun i =>
    let k := i / 2
    page (65 + k / 64) (64 * (k % 64) + 8 * (i % 2))
      (if i % 2 = 0 then njSum (s.func k).nj / 1000 else (s.func k).mean + (s.func k).ctl.ecap * 2 ^ 32)

/-- The pages of BAR2 are refreshed (log entry 111). -/
def State.telemRefresh (s : State) : State :=
  { s with telem := s.telemetry.foldl (fun m (e : Nat × Nat) => mapSet zeroWord m e.1 (BitVec.ofNat 64 e.2)) [] }

/-- What a block's activity counts of the interval are, by command: those given, and for DCF its codewords' (R534, R535). -/
def State.workOf (s : State) (pg : Nat) (cmds : List (Nat × Nat × Nat)) : List (Nat × Nat) :=
  if pg = pDcf then s.power.cwWork else cmds.filterMap fun e => if e.2.1 = pg then some (e.1, e.2.2) else none

/-- The dynamic energy `nJ` of the block at `pg` is shared among commands by their part of its activity count (R534). -/
def State.shareEnergy (s : State) (pg nJ : Nat) (cmds : List (Nat × Nat × Nat)) : State :=
  match blkAt pg with
  | none => s
  | some b =>
    let l := s.workOf pg cmds
    let tot := (l.map Prod.snd).sum
    l.foldl (fun s e => s.cmdCharge e.1 [(b.typ.code, (ratio (nJ * e.2 : Nat) tot).toNat)]) s

/-- Every rail has been read in the interval. -/
def railsRead (rails : List (Option Nat)) : Bool := (List.range 8).all fun r => (rails.getD r none).isSome

/-- What each block spent: each rail's energy, divided in proportion to the activity model's energy (page, rail, nJ) of the blocks on that
rail; in an interval that misses a reading, the model's energy unscaled (R533, R544). -/
def railShare (rails : List (Option Nat)) (model : List (Nat × Nat × Nat)) : List (Nat × Nat) :=
  model.map fun e =>
    let tot := ((model.filter fun x => x.2.1 == e.2.1).map fun x => x.2.2).sum
    (e.1, if railsRead rails then (ratio ((rails.getD e.2.1 none).getD 0 * e.2.2 : Nat) tot).toNat else e.2.2)

/-- METERING_INTERVAL: the readings of the 8 rails in nJ, the activity model's energy of each block on each rail, the dynamic energy of
Benches, the dynamic part of a block's energy, by first page, and the activity counts of commands there (tag, page, count; a tag that
names no command stands for other work; DCF's counts are the model's own; log entry 107). -/
def execMeteringInterval (rails : List (Option Nat)) (model benches : List (Nat × Nat × Nat)) (dyn : List (Nat × Nat))
    (cmds : List (Nat × Nat × Nat)) (s : State) :
    Host.Outcome State Fault Refusal :=
  next (fun s =>
    let blks := railShare rails model
    let s := if railsRead rails then s else (s.errCnt pEmt 0).raise pEmt 4
    let s := blks.foldl (fun s e => s.blockEnergy e.1 e.2) s
    let s := benches.foldl (fun s e => s.benchEnergy e.1 e.2.1 e.2.2) s
    let s := dyn.foldl (fun s e => s.shareEnergy e.1 e.2 cmds) s
    let s := s.setPower { s.power with cwWork := [] }
    let tot := (blks.filter fun e => (blkAt e.1).isSome).map Prod.snd |>.sum
    let mw := (ratio tot 1000).toNat
    let l := (mw :: s.power.mw).take 1000
    let s := s.setPower { s.power with mw := l, rem := mapUpd (fun _ => 0) s.power.rem 4096 (· + tot) }
    let s := (s.fset pEmt Reg.EMT_POWER_MS 0 24 mw).fset pEmt Reg.EMT_POWER 0 24 (ratio l.sum l.length).toNat
    s.showEnergy.telemRefresh) s

/-! ### Ageing and the margin planner (R537 to R540) -/

/-- A measurement of the monitors: delays in ps, and the whole hours since the first one (log entry 106). -/
def State.measure (s : State) (delays : List Nat) (span : Nat) : State :=
  let s := (List.range 48).foldl (fun s i => s.fset (pAgm + 1) (Reg.AGM_MON i 0) 0 12 (delays.getD i 0)) s
  let first := s.fget pAgm Reg.AGM_STAT 0 8 == 0
  (s.cntSat pAgm Reg.AGM_STAT 0 8 1).fset pAgm Reg.AGM_STAT 8 24 (if first then 0 else span)

/-- AGM_MEASUREMENT (R537). -/
def execAgmMeasurement (delays : List Nat) (span : Nat) (s : State) : Host.Outcome State Fault Refusal :=
  next (fun s => if s.enabled pAgm then s.measure delays span else s) s

/-- The hottest sensor. -/
def State.hottest (s : State) : Int := signedOf 8 (s.fget pAgm Reg.AGM_HOT 0 8)

/-- d125 of monitor `i`, in 1/16 ps. -/
def State.d125 (s : State) (i : Nat) : Int :=
  16 * (s.fget (pAgm + 1) (Reg.AGM_MON i 0) 0 12 : Int) + ((Config.monKt i).toNat : Int) * (125 - s.hottest)

/-- The monitors of a domain: 0 compute, 1 real-time, 2 fabric. -/
def domain (d : Nat) : List Nat := if d = 0 then List.range 32 else if d = 1 then (List.range 8).map (32 + ·) else (List.range 8).map (40 + ·)

/-- The largest of a list. -/
def maxInt (l : List Int) : Int := l.tail.foldl max (l.headD 0)

/-- The voltage that domain `d` needs at a clock of `f` · 100 MHz, before the guard: 5 · ceil(raw ÷ 5). With a SENS of zero the manual's
quotient has no value, and the voltage is free. -/
def State.domainMv (s : State) (vCur : Int) (d f : Nat) : Int :=
  let worst := maxInt ((domain d).map s.d125)
  let sens : Int := ((domain d).tail.foldl (fun m i => min m (Config.monSens i).toNat) (Config.monSens ((domain d).headD 0)).toNat : Nat)
  let num := vCur * sens * f + (worst + 16 * (s.fget pAgm Reg.AGM_CTRL 16 8 : Int)) * f - 160000
  if sens = 0 then (Config.freeWord (s.free + d)).toNat % 4096 else 5 * -(Int.fdiv (-num) (5 * sens * f))

/-- The plan from the last measurement (R538). -/
def State.makePlan (s : State) : Plan :=
  let g := 5 * (if s.fget pAgm Reg.AGM_STAT 0 8 < 3 ∨ s.fget pAgm Reg.AGM_STAT 8 24 < 72 then s.fget pAgm Reg.AGM_CTRL 24 4
    else s.fget pAgm Reg.AGM_CTRL 28 4)
  let cur : Int := s.pcr Reg.PCR_VDD (if s.pcr Reg.PCR_PSTAT 0 2 = 0 then 0 else 16) 12
  let v (f : Nat) : Nat := (clampI (maxInt [s.domainMv cur 0 f, s.domainMv cur 1 15, s.domainMv cur 2 10] + g) 650 850).toNat
  let worst := (List.range 48).foldl (fun b i => if s.d125 b < s.d125 i then i else b) 0
  ⟨v (s.pcr Reg.PCR_CLK 0 8), v (s.pcr Reg.PCR_CLK 8 8), worst, g, s.hottest⟩

/-- PLANNER_RUN: PERIOD has run out, a change from Latched to Open has ended, or PLAN_NOW is written; a profile change makes it wait.
The voltage of the profile in force goes to the regulator (log entry 107). -/
def execPlannerRun (delays : List Nat) (span : Nat) (s : State) : Host.Outcome State Fault Refusal :=
  next (fun s =>
    let asked := s.power.due || s.bit pAgm Reg.AGM_CTRL 1
      || s.power.planned + s.fget pAgm Reg.AGM_CTRL 8 8 * 86400000000000 ≤ s.tb.toNat
    if !s.enabled pAgm || !s.bit pAgm Reg.AGM_CTRL 0 || !asked || s.power.since.isSome || s.power.plan.isSome then s else
    let s := s.measure delays span
    let p := s.makePlan
    let s := { s with free := s.free + 3 }
    (s.setPower { s.power with plan := some (p, s.tb.toNat), due := false }).emit
      (.issue "AVSBUS" [if s.pcr Reg.PCR_PSTAT 0 2 = 0 then p.openMv else p.ajarMv])) s

/-- A planner run ends. -/
def State.planEnd (s : State) : State :=
  (s.setPower { s.power with plan := none, planned := s.tb.toNat }).fset pAgm Reg.AGM_CTRL 1 1 0

/-- The re-plan record (R539). -/
def planRecord (p : Plan) (meas span : Nat) : List Byte :=
  leBytes 2 p.openMv ++ leBytes 2 p.ajarMv ++ leBytes 1 p.worst ++ leBytes 1 p.guard_ ++ leBytes 1 (unsignedOf 8 p.temp) ++ leBytes 1 meas
    ++ leBytes 4 span ++ leBytes 4 0

/-- AVSBUS_DONE: the plan is applied and journalled. -/
def execAvsbusDone (s : State) : Host.Outcome State Fault Refusal :=
  next (fun s =>
    match s.power.plan with
    | none => s
    | some (p, _) =>
      let s := (s.setPcr Reg.PCR_VDD 0 12 p.openMv).setPcr Reg.PCR_VDD 16 12 p.ajarMv
      ((s.journal 0x0D 0 (planRecord p (s.fget pAgm Reg.AGM_STAT 0 8) (s.fget pAgm Reg.AGM_STAT 8 24)) .none_).planEnd.clkUpdate).raise pAgm 4) s

/-- AVSBUS_TIMEOUT: 1 ms has passed, and the old voltage stays. -/
def execAvsbusTimeout (s : State) : Host.Outcome State Fault Refusal :=
  next (fun s =>
    match s.power.plan with
    | none => s
    | some (_, t) => (((s.reach (t + 1000000)).planEnd).errCnt pAgm 0).raise pAgm 7) s

/-- AGM_WEAR_POLL: the largest RETRY_AVG and its die (R540). -/
def execAgmWearPoll (s : State) : Host.Outcome State Fault Refusal :=
  next (fun s =>
    if !s.enabled pAgm then s else
    let avg (d : Nat) : Nat := s.fget (pFtm + 1) (Reg.FTM_DIE d) 16 8
    let d := (List.range 512).foldl (fun b d => if avg b < avg d then d else b) 0
    let old := s.fget pAgm (Reg.AGM_WEAR 1) 0 8
    let thr := s.fget pAgm Reg.AGM_WTHR 8 8
    let s := (s.fset pAgm (Reg.AGM_WEAR 1) 0 8 (avg d)).fset pAgm (Reg.AGM_WEAR 1) 16 9 d
    if old < thr ∧ thr ≤ avg d then s.raise pAgm 6 else s) s

/-! ### Thermal sensors (R541) -/

/-- One sensor's sample: its temperature, or a fault, which leaves the sensor out. -/
def State.sensor (s : State) (i : Nat) (t : Int × Bool) : State :=
  let off := Reg.AGM_SENS i
  if t.2 then
    let s := if s.bit (pAgm + 2) off 16 then s else s.errCnt pAgm 1
    s.fset (pAgm + 2) off 16 1 1
  else
    let s := (s.fset (pAgm + 2) off 0 8 (unsignedOf 8 t.1)).fset (pAgm + 2) off 16 1 0
    if signedOf 8 (s.fget (pAgm + 2) off 8 8) < t.1 then s.fset (pAgm + 2) off 8 8 (unsignedOf 8 t.1) else s

/-- Threshold `i` applies its action past its TEMP and releases it below TEMP − HYST. -/
def State.threshold (s : State) (t : Int) (i : Nat) : Bool :=
  let temp := signedOf 8 (s.fget pAgm (Reg.AGM_THR i) 0 8)
  let hyst : Int := s.fget pAgm (Reg.AGM_THR i) 12 4
  if s.power.hot.contains i then !(t < temp - hyst) else temp < t

/-- Composite temperature in kelvin: that of the hottest sensor. -/
def State.kelvin (s : State) : Nat := (s.hottest + 273).toNat

/-- The composite temperature has passed a threshold that controller `c` has set (Feature 04h; log entry 109). -/
def State.tempWarn (s : State) (c : Nat) : Bool :=
  let hi := s.feature c 0x400
  let lo := s.feature c 0x410
  hi != 0 && hi % 2 ^ 16 ≤ s.kelvin || lo != 0 && s.kelvin ≤ lo % 2 ^ 16

/-- Controllers whose threshold the temperature passes now, and did not in `old`, post a SMART / Health event, where their
Asynchronous Event Configuration lets them (Features 04h and 0Bh). -/
def State.tempEvents (s old : State) : State :=
  (s.ctrls.map Prod.fst).foldl (fun s c =>
    if s.tempWarn c && !old.tempWarn c && natBits (s.feature c 0x0B) 1 1 == 1 then s.aen c 1 1 2 else s) s

/-- SENSOR_SAMPLE: the twelve sensors, each with its temperature in °C and whether it is out of range (log entry 107). -/
def execSensorSample (temps : List (Int × Bool)) (s : State) : Host.Outcome State Fault Refusal :=
  next (fun s =>
    if !s.enabled pAgm then s else
    let at_ (i : Nat) : Int × Bool := temps.getD i (0, true)
    let s := (List.range 12).foldl (fun s i => s.sensor i (at_ i)) s
    let live := (List.range 12).filter fun i => !(at_ i).2
    match live with
    | [] => s
    | a :: r =>
      let h := r.foldl (fun b i => if (at_ b).1 < (at_ i).1 then i else b) a
      let t := (at_ h).1
      let before := s
      let s := (s.fset pAgm Reg.AGM_HOT 0 8 (unsignedOf 8 t)).fset pAgm Reg.AGM_HOT 8 4 h
      let old := s.thermal
      let hot := (List.range 4).filter (s.threshold t)
      let act := (hot.map fun i => s.fget pAgm (Reg.AGM_THR i) 8 3).foldl max 0
      let s := ((s.setPower { s.power with hot := hot }).fset pAgm Reg.AGM_HOT 12 3 act).clkUpdate
      let s := s.tempEvents before
      if act = old then s else (s.raise pAgm 5).showProf) s

end Sys2Proof.Machine
end

