-- ==== Sys2Proof/Machine/Bars.lean ====
section
/-! DEFINITION. What a host sees of a function: its PCI Express configuration space, BAR0 and BAR2 (R1, R12, R34 to R36, R397, R407,
R408, R415, R466). -/

namespace Sys2Proof.Machine

/-! ### Configuration space (R1, R12, R397, R407, R408) -/

/-- The fields of a function's configuration space of which the manual gives the value. -/
inductive CfgField where
  /-- Revision ID of the header -/
  | revisionId
  /-- sizes of the memory apertures behind BAR0 and BAR2, in bytes; 0: no such BAR -/
  | bar0Size | bar2Size
  /-- capabilities present (1) or absent (0) -/
  | ari | srIov | acs | aer | doe | ltr | l1PmSubstates | ats | pri | pasid | tph
  /-- 10-bit tags, Max Payload Size and Max Read Request Size in bytes -/
  | tenBitTag | maxPayload | maxReadRequest
  /-- ASPM and power management -/
  | aspmL0s | aspmL1 | l1Exit | tPowerOn | pme | noSoftReset | linkUpconfigure
  /-- highest speed and width of the link -/
  | maxSpeed | maxWidth
  /-- SR-IOV: TotalVFs, NumVFs, First VF Offset and VF Stride -/
  | totalVfs | numVfs | firstVfOffset | vfStride
  /-- MSI-X vectors, and the places of the table and the pending bits in BAR0 -/
  | msixSize | msixTable | msixPba
  /-- the Eneimet vendor-specific extended capability of a PF (R553): VSEC ID, revision, and the boot failure code at byte 0x0C -/
  | vsecId | vsecRev | bootFailure
deriving DecidableEq, Repr

/-- The VFs that PF `p` may have. -/
def State.totalVfs (s : State) (p : Nat) : Nat := if s.x8 then 255 else if p = 0 then s.n0 else 254 - s.n0

/-- A field of the configuration space of slot `k`; options that the manual excludes are reported absent (R12; log entry 134). -/
def State.cfgField (s : State) (k : Nat) (f : CfgField) : Nat :=
  let pf := s.isPf k
  let failed := s.bit pPcr Reg.PCR_BOOT 8
  match f with
  | .revisionId => 0xB1
  | .bar0Size => 0x80000
  | .bar2Size => if pf && !failed then 0x100000 else 0
  | .srIov => if pf && !failed then 1 else 0
  | .ari | .acs | .aer | .doe | .ltr | .l1PmSubstates | .tenBitTag | .aspmL1 | .noSoftReset => 1
  | .ats | .pri | .pasid | .tph | .aspmL0s | .pme | .linkUpconfigure => 0
  | .maxPayload => 512
  | .maxReadRequest => 4096
  | .l1Exit => 8
  | .tPowerOn => 50
  | .maxSpeed => 5
  | .maxWidth => if s.x8 then 8 else 4
  | .totalVfs => if pf then s.totalVfs k else 0
  | .numVfs => if pf then mapGet (fun _ => 0) s.numVfs k else 0
  | .firstVfOffset | .vfStride => if pf then 1 else 0
  | .msixSize => s.msixSize k
  | .msixTable => 0x40000
  | .msixPba => 0x48000
  | .vsecId | .vsecRev => if pf then 1 else 0
  | .bootFailure => if pf && failed then s.fget pPcr Reg.PCR_BOOT 0 4 else 0

/-- What a configuration request for a field is answered: none is Configuration Request Retry Status, or no function there (R403). -/
def State.cfgRead (s : State) (k : Nat) (f : CfgField) : Option Nat :=
  let code := s.fget pPcr Reg.PCR_BOOT 0 4
  if s.slotEnabled k && !(s.port (s.portOf k)).perst && (s.bit pPcr Reg.PCR_BOOT 8 || (2 ≤ code && code ≤ 6)) then some (s.cfgField k f)
  else none

/-! ### BAR0 (R34, R35) -/

/-- The controller registers that the manual gives: CAP, VS, CC and CSTS; what CAP says of options that the device does not implement is
zero (R12, R415, R416, R547; log entry 134). -/
def State.nvmeReg (s : State) (k off : Nat) : RegWord :=
  let x := s.ctrl k
  if off = 0x00 then BitVec.ofNat 32 (65535 + 2 ^ 16 + 2 ^ 17 + (Config.ctrlTimeout).toNat * 2 ^ 24)
  else if off = 0x04 then BitVec.ofNat 32 (2 ^ 4 + 2 ^ 5 + 2 ^ 11)
  else if off = 0x08 then 0x0002_0000
  else if off = 0x14 then BitVec.ofNat 32 (flag x.en 0 + flag x.wrr 11)
  else if off = 0x1C then BitVec.ofNat 32 (flag (s.rdy k) 0 + flag (x.cfs || s.bit pEvf Reg.EVF_FATAL 0) 1)
  else 0

/-- A word of the MSI-X table entry of vector `v`: address, data and the mask bit (R566). -/
def State.msixWord (s : State) (k v w : Nat) : RegWord :=
  let f := s.func k
  let e := mapGet (fun _ => (0, 0)) f.entries v
  match w with
  | 0 => BitVec.ofNat 32 e.1
  | 1 => BitVec.ofNat 32 (e.1 / 2 ^ 32)
  | 2 => BitVec.ofNat 32 e.2
  | _ => BitVec.ofNat 32 (flag (mapFind f.unmasked v).isNone 0)

/-- The 32-bit word at offset `off` of BAR0 of slot `k`: controller registers, doorbells (which read as zero), MSI-X table, pending bits and
the function's own Transom page; everything else reads as zero (R34, R35). -/
def State.bar0 (s : State) (k off : Nat) : RegWord :=
  let n := s.msixSize k
  if off < 0x1000 then s.nvmeReg k off
  else if 0x40000 ≤ off ∧ off < 0x48000 then
    (if (off - 0x40000) / 16 < n then s.msixWord k ((off - 0x40000) / 16) (off % 16 / 4) else 0)
  else if 0x48000 ≤ off ∧ off < 0x48100 then
    BitVec.ofNat 32 (maskWhere 32 fun i => (s.func k).msixPend.contains (8 * (off - 0x48000) + i))
  else if 0x7F000 ≤ off ∧ off < 0x80000 then BitVec.ofNat 32 (natBits (s.tRead k (off % 4096 / 8 * 8)) (off % 8 * 8) 32)
  else 0

/-- A host writes a word of the MSI-X table: a mask bit that it clears sends a pending message (R566). -/
def State.msixTableWrite (s : State) (k v w x : Nat) : State :=
  let f := s.func k
  let e := mapGet (fun _ => (0, 0)) f.entries v
  let open_ := (mapFind f.unmasked v).isSome
  let put (e : Nat × Nat) : State := s.setFunc k { f with
    entries := mapSet (fun _ => (0, 0)) f.entries v e, unmasked := if open_ then mapPut f.unmasked v e else f.unmasked }
  match w with
  | 0 => put (e.1 / 2 ^ 32 * 2 ^ 32 + x, e.2)
  | 1 => put (e.1 % 2 ^ 32 + x * 2 ^ 32, e.2)
  | 2 => put (e.1, x)
  | _ =>
    if x % 2 = 0 then (if open_ then s else s.unmask k v e.1 e.2)
    else s.setFunc k { f with unmasked := mapDel f.unmasked v }

/-- A host's 32-bit write to BAR0 of slot `k`: doorbells, MSI-X table and the Transom page from the tenant side; the controller registers
that act have commands of their own, and other offsets ignore writes (R34, R35; log entry 134). -/
def State.bar0Write (s : State) (k off x : Nat) : State :=
  let q := (off - 0x1000) / 8
  if !s.slotEnabled k || (s.func k).d3 then s
  else if 0x1000 ≤ off ∧ off < 0x11008 then (if off % 8 = 0 then s.sqBell k q x else s.cqBell k q x)
  else if 0x40000 ≤ off ∧ off < 0x48000 then
    (if (off - 0x40000) / 16 < s.msixSize k then s.msixTableWrite k ((off - 0x40000) / 16) (off % 16 / 4) x else s)
  else if 0x7F000 ≤ off ∧ off < 0x80000 then s.transomWrite k true (off % 4096) x
  else s

/-! ### BAR2 (R35, R466, R536) -/

/-- The slot whose mailbox page the Transom window of PF `pf` shows at offset `off`: the function of that PF with the PF-relative index
128 b + page, b the bank select (R35, R466). -/
def State.windowSlot (s : State) (pf off : Nat) : Option Nat :=
  let i := 128 * mapGet (fun _ => 0) s.bank pf + (off - 0x80000) / 4096
  (List.range 256).find? fun k => s.parent k == pf && s.pfIndex k == i

/-- The 32-bit word at offset `off` of BAR2 of PF `pf` as its host sees it: the directory version and BANK, the telemetry and energy
fields as last refreshed, zero for functions of the other PF, and the Transom window (R35, R536; log entry 111). -/
def State.bar2 (s : State) (pf off : Nat) : RegWord :=
  let k := 64 * (off / 4096 - 65) + off % 4096 / 64
  let half (v : Nat) : RegWord := BitVec.ofNat 32 (natBits v (off % 8 * 8) 32)
  if 0x100000 ≤ off then 0
  else if 0x80000 ≤ off then (match s.windowSlot pf off with
    | some j => half (s.tRead j (off % 4096 / 8 * 8))
    | none => 0)
  else if off < 8 then half (1 + mapGet (fun _ => 0) s.bank pf * 2 ^ 32)
  else if 65 * 4096 ≤ off ∧ off < 69 * 4096 ∧ s.parent k ≠ pf then 0
  else half (mapGet zeroWord s.telem (off / 8)).toNat

/-- A host's 32-bit write to BAR2 of PF `pf`: the Transom window from the manager side; of the other fields only BANK takes a write
(R35, R536; log entry 111). -/
def State.bar2Write (s : State) (pf off x : Nat) : State :=
  if !s.isPf pf || (s.func pf).d3 then s
  else if 0x100000 ≤ off then s
  else if 0x80000 ≤ off then (match s.windowSlot pf off with
    | some k => s.transomWrite k false (off % 4096) x
    | none => s)
  else if off = 4 then { s with bank := mapSet (fun _ => 0) s.bank pf (x % 2) }
  else s

/-- A host's write of 4 bytes, or with `wide` of 8, at offset `off` of an aperture whose 32-bit writes are `put`; the low word goes
first, and an address that is not aligned to the size is ignored (log entry 111). -/
def barWrite (put : State → Nat → Nat → State) (off : Nat) (wide : Bool) (v : Nat) (s : State) : State :=
  if off % (if wide then 8 else 4) ≠ 0 then s
  else if wide then put (put s off (v % 2 ^ 32)) (off + 4) (v / 2 ^ 32 % 2 ^ 32)
  else put s off (v % 2 ^ 32)

end Sys2Proof.Machine
end

