-- ==== Sys2Proof/Machine/LoopRun.lean ====
section
/-! DEFINITION. The running of the loop engine (chapter 6): overruns, evaluation, issue, swaps and hand-overs, triggers. -/

namespace Sys2Proof.Machine

/-! ### Overruns (R166, R167) -/

/-- Slot `n` has an overrun (R166); at the third consecutive one it enters the safe state and signals a transport fault
(R167). -/
def State.overrun (s : State) (n : Nat) : State :=
  let pg := pSlot n
  let run := s.fget pg Reg.SLOT_CTRL 13 2 + 1
  let s := ((s.fset pg Reg.SLOT_CTRL 13 2 (min run 3)).cntSat pg Reg.SLOT_OVR 0 32 1).errCnt pLpe 0
  let s := (s.fset pLpe Reg.LPE_OVR n 1 1).raise pLpe 4
  let s := s.slotEvent n 0
  if 3 ≤ run then ((((s.goSafe n).raise pLpe 5).errCnt pLpe 1).slotEvent n 4).transportFault 1 else s

/-- The nodes of an evaluation, by type (R174). -/
def EvalResult.node (r : EvalResult) (t : Nat) : Int :=
  match t with
  | 0 => r.y
  | 1 => r.rEff
  | 2 => r.e
  | 3 => r.p
  | 4 => r.i
  | 5 => r.d
  | 6 => r.v
  | 7 => r.ff
  | 8 => r.u
  | 9 => r.gs
  | _ => r.s

/-- An evaluation of slot `n` that overruns still gives its record (R174), with its values as far as it has any (log entry 39). -/
def State.evalOverrun (s : State) (n : Nat) (r : Option EvalResult) : State :=
  (s.traceRecord n fun t =>
    if t = 11 then 0xFFFF_FFFF else
    match r with
    | some r => r.node t
    | none => s.node (n + 16 * t)).overrun n

/-! ### Arithmetic of an evaluation (R161 to R163) -/

/-- A Q2.29 coefficient times a value with f fractional bits, with f fractional bits kept. -/
def qmul (c x : Int) : Int := satS 64 (Int.fdiv (c * x) (2 ^ 29))

/-- round() of R162. -/
def qround (x : Int) : Int := Int.fdiv (x + 2 ^ 28) (2 ^ 29)

/-- The value of v moved towards `t` by at most `m`. -/
def moveTo (v t m : Int) : Int := if v < t then min (v + m) t else max (v - m) t

/-- The sign of a number. -/
def sgn (v : Int) : Int := if v < 0 then -1 else if v = 0 then 0 else 1

/-- The cell index of a breakpoint list, and the fraction as numerator and denominator, clamped to 0 to 1 (R163). -/
def gridCell (bp : List Int) (x : Int) : Nat × Int × Int :=
  let i := (List.range 6).foldl (fun i _ => if i < 6 ∧ bp.getD (i + 1) 0 ≤ x then i + 1 else i) 0
  let lo := bp.getD i 0
  let d := bp.getD (i + 1) 0 - lo
  if d = 0 then (i, 0, 1)
  else if d < 0 then (i, clampI (lo - x) 0 (-d), -d)
  else (i, clampI (x - lo) 0 d, d)

/-- schedule() of R163 for slot `n`. -/
def State.schedule (s : State) (n : Nat) : Int :=
  let pg := pLpe + 17 + n / 4
  let g (w : Nat) : Int := s.rgI pg (Reg.GSCHED n w)
  let spd := (List.range 8).map fun i => g (4 * i)
  let lp := (List.range 8).map fun i => g (0x20 + 4 * i)
  let x : Int := if s.svd.speedEver then (Int.natAbs (s.rgI pSvd Reg.SVD_SPEED) : Int) else spd.getD 0 0
  let y := if s.svd.lposEver then s.rgI pSvd Reg.SVD_LPOS else lp.getD 0 0
  let (i, fs, ds) := gridCell spd x
  let (j, fl, dl) := gridCell lp y
  let v (i j : Nat) : Int := g (0x40 + 32 * i + 4 * j)
  ratio ((ds - fs) * (dl - fl) * v i j + fs * (dl - fl) * v (i + 1) j + (ds - fs) * fl * v i (j + 1)
    + fs * fl * v (i + 1) (j + 1)) (ds * dl)

/-- curve() of R163 with 29 fractional bits. -/
def State.curve (s : State) (c : Nat) (x : Int) : Int :=
  let pg := pLpe + 21 + c
  let x0 := s.rgI pg Reg.CURVE_X0
  let dx : Int := (s.rg pg Reg.CURVE_DX).toNat
  let p := clampI (x - x0) 0 (511 * dx)
  let k := (Int.fdiv p dx).toNat
  let a := s.rgI pg (Reg.CURVE_PT k)
  let b := s.rgI pg (Reg.CURVE_PT (min (k + 1) 511))
  a * 2 ^ 29 + ratio ((p - k * dx) * (b - a) * 2 ^ 29) dx

/-- The set-point of bank `b` of slot `n`: the motion set-point while in force, the value of an enabled feeding slot, which is open until that slot
has issued its first output, or SETPT (R160, R183; log entry 3). -/
def State.setpt (s : State) (n b : Nat) : Int :=
  let x := s.sl n
  match x.motion with
  | some v => v
  | none =>
    let feeding := (List.range 16).any fun f =>
      s.slotEn f && s.fget (pSlot f) Reg.SLOT_IO 0 2 == 3 && s.fget (pSlot f) Reg.SLOT_IO 8 4 == n
    if feeding then x.fed.getD ((Config.freeWord s.free).setWidth 32).toInt else s.bk n b 0x38

/-- One biquad, direct form II transposed: coefficients, state and input to output and state. -/
def biquad (b0 b1 b2 a1 a2 : Int) (w : Int × Int) (v : Int) : Int × (Int × Int) :=
  let o := satS 64 (qmul b0 v + w.1)
  (o, (satS 64 (satS 64 (qmul b1 v - qmul a1 o) + w.2), satS 64 (qmul b2 v - qmul a2 o)))

/-- The state word of biquad `k` of slot `n`. -/
def State.bqState (s : State) (n k : Nat) : Int × Int :=
  (s.rg64I (pSlot n) (Reg.SLOT_W k 0), s.rg64I (pSlot n) (Reg.SLOT_W k 8))

/-- The feedforward source value of bank `b` (R161, FF_SRC). -/
def State.ffVal (s : State) (n b : Nat) : Int :=
  match s.bkf n b 16 3 with
  | 1 => s.rgI pSvd Reg.SVD_SPEED
  | 2 => s.rgI pSvd Reg.SVD_LPOS
  | _ => s.setpt n b

/-- One evaluation of slot `n` (R161), from the state of its last issued output. -/
def State.evaluate (s : State) (n : Nat) (w : Waiting) (ready : Nat) : EvalResult :=
  let pg := pSlot n
  let x := s.sl n
  let b := s.slotBank n
  let inp := s.srcVal (s.bkf n b 0 6)
  let y := (inp.map (·.1)).getD 0
  let setpt := s.setpt n b
  let r0 := if x.first then (if inp.isSome then y else s.rgI pg Reg.SLOT_R_EFF) else s.rgI pg Reg.SLOT_R_EFF
  let st := s.slotState n
  let ramp : Int := (s.rg pg Reg.SLOT_RAMP).toNat
  let rEff := if st = 1 then (if ramp = 0 then setpt else moveTo r0 setpt ramp) else setpt
  let st := if st = 1 ∧ rEff = setpt then 2 else st
  let e := satS 32 (rEff - y)
  let ep := satS 64 (s.bk n b 0x14 * rEff - y * 2 ^ 29)
  let ed := satS 64 (s.bk n b 0x18 * rEff - y * 2 ^ 29)
  let gs := if s.bkf n b 28 1 = 1 then s.schedule n else 2 ^ 29
  let clamped := s.bit pg Reg.SLOT_CTRL 11
  let s0 := s.rgI pg Reg.SLOT_S
  let release := clamped && sgn e == -x.csign
  let s1 := if !clamped || release then satS 32 (s0 + e * 256) else s0
  let (s2, c2, g2) :=
    if s.bk n b 0x20 < s1 then (s.bk n b 0x20, true, 1)
    else if s1 < s.bk n b 0x24 then (s.bk n b 0x24, true, -1)
    else (s1, clamped && !release, x.csign)
  let p := qmul (s.bk n b 0x04) ep
  let i := satS 64 (Int.fdiv (s.bk n b 0x08 * s2) 256)
  let edPrev := if x.edFresh then ed else x.edPrev
  let d := satS 64 (qmul (s.bk n b 0x10) (s.rg64I pg Reg.SLOT_D_LO) + qmul (s.bk n b 0x0C) (satS 64 (ed - edPrev)))
  let v0 := qmul gs (satS 64 (satS 64 (p + i) + d))
  let (v, ws) := (List.range (s.bkf n b 24 4)).foldl (fun (a : Int × List (Int × Int)) k =>
    let c (j : Nat) := s.bk n b (0x40 + 0x14 * k + 4 * j)
    let (o, w) := biquad (c 0) (c 1) (c 2) (c 3) (c 4) (s.bqState n k) a.1
    (o, a.2 ++ [w])) (v0, [])
  let ff := if s.bkf n b 16 3 = 0 then 0 else qmul (s.bk n b 0x1C) (s.curve (s.bkf n b 20 3) (s.ffVal n b))
  let uc := clampI (qround (satS 64 (v + ff))) (s.bk n b 0x2C) (s.bk n b 0x28)
  let slew : Int := s.fget pg (Reg.BANK b 0x30) 0 16
  let u0 := s.rgI pg Reg.SLOT_U
  let u := if st = 3 then (if slew = 0 then uc else moveTo u0 uc slew) else uc
  { stamp := w.stamp, deadline := w.deadline, ready := ready, queued := false,
    y := y, rEff := rEff, e := e, p := p, i := i, d := d, v := v, ff := ff, gs := gs, s := s2, u := u,
    clamped := c2, csign := g2, edPrev := ed, w := ws,
    state := if st = 3 ∧ u = uc then 2 else st,
    outSat := uc = s.bk n b 0x2C ∨ uc = s.bk n b 0x28,
    clampEntry := c2 && (!clamped || release), slewEnd := st = 3 ∧ u = uc
    first := x.first && inp.isNone }

/-- The output of slot `n`'s evaluation is issued at the present TB: its state becomes the slot's (R165), the run of
overruns ends, and the slot's output is delivered as a source. -/
def State.issueResult (s : State) (n : Nat) (r : EvalResult) : State :=
  let pg := pSlot n
  let x := s.sl n
  let lat := s.tb.toNat - r.stamp
  let s := ((((s.rsetI pg Reg.SLOT_S r.s).rsetI pg Reg.SLOT_R_EFF r.rEff).rsetI pg Reg.SLOT_Y r.y).rsetI pg Reg.SLOT_E r.e).rsetI
    pg Reg.SLOT_GS r.gs
  let s := s.rset64I pg Reg.SLOT_D_LO r.d
  let s := (List.range r.w.length).foldl (fun s k =>
    let w := r.w.getD k (0, 0)
    (s.rset64I pg (Reg.SLOT_W k 0) w.1).rset64I pg (Reg.SLOT_W k 8) w.2) s
  let s := ((s.fset pg Reg.SLOT_CTRL 11 1 (if r.clamped then 1 else 0)).fset pg Reg.SLOT_CTRL 12 1 (if r.outSat then 1 else 0)).fset
    pg Reg.SLOT_CTRL 13 2 0
  let s := s.setSlotState n r.state
  let s := s.setSl n { x with
    result := none, csign := r.csign, edPrev := r.edPrev, edFresh := false, first := r.first
    nodes := ⟨r.p, r.i, r.d, r.v, r.ff, lat⟩ }
  let s := if s.fget pg Reg.SLOT_LATMAX 0 12 < lat then s.fset pg Reg.SLOT_LATMAX 0 12 (min lat 4095) else s
  let s := s.drive n r.u
  let s := if r.slewEnd then s.raise pLpe 7 else s
  let s := s.traceRecord n fun t => s.node (n + 16 * t)
  let s := if r.clampEntry then (s.raise pLpe 9).slotEvent n 1 else s
  s.deliverSrc (0x20 + n) r.u

/-! ### Swaps and hand-overs (R170 to R173) -/

/-- The pending swap of slot `n` is performed. -/
def State.swapNow (s : State) (n : Nat) : State :=
  let pg := pSlot n
  let b := s.slotBank n
  let c := 1 - b
  let ki := s.bk n c 0x08
  let s1 :=
    if !s.bit pg Reg.SLOT_CTRL 11 then s
    else if ki ≠ 0 then
      s.rsetI pg Reg.SLOT_S (clampI (satS 32 (Int.fdiv (2 * s.rgI pg Reg.SLOT_S * s.bk n b 0x08 + ki) (2 * ki)))
        (s.bk n c 0x24) (s.bk n c 0x20))
    else (s.rsetI pg Reg.SLOT_S 0).fset pg Reg.SLOT_CTRL 11 1 0
  let s := (s1.fset pg Reg.SLOT_CTRL 3 1 c).fset pg Reg.SLOT_CTRL 1 1 0
  (s.raise pLpe 10).slotEvent n 5

/-- The gain schedule value that bank `b` of slot `n` would use now. -/
def State.gsOf (s : State) (n b : Nat) : Int := if s.bkf n b 28 1 = 1 then s.schedule n else 2 ^ 29

/-- Slot `n` hands over to its inactive bank (R172, steps 1 and 2): S is preloaded from the last issued output, and may enter the clamp. -/
def State.handOver (s : State) (n : Nat) : State :=
  let pg := pSlot n
  let c := 1 - s.slotBank n
  let x := s.sl n
  let k := s.bk n c 0x08 * s.gsOf n c
  let u := s.rgI pg Reg.SLOT_U
  let raw := if k = 0 then 0 else satS 32 (Int.fdiv (2 * (u * 2 ^ 8 * 2 ^ 58) * sgn k + Int.natAbs k) (2 * Int.natAbs k))
  let lim := if k = 0 then 0 else clampI raw (s.bk n c 0x24) (s.bk n c 0x20)
  let entry := lim != raw && !s.bit pg Reg.SLOT_CTRL 11
  let s := ((s.rsetI pg Reg.SLOT_S lim).rset64I pg Reg.SLOT_D_LO 0).fset pg Reg.SLOT_CTRL 3 1 c
  let s := (s.fset pg Reg.SLOT_CTRL 11 1 (if lim = raw then 0 else 1)).fset pg Reg.SLOT_CTRL 2 1 0
  let s := s.setSl n { x with
    csign := if raw < lim then -1 else if lim < raw then 1 else x.csign, edFresh := true }
  let s := if entry then s.raise pLpe 9 else s
  (s.setSlotState n 3).slotEvent n 2

/-- A refused hand-over (R171). -/
def State.handRefuse (s : State) (n : Nat) : State :=
  let pg := pSlot n
  ((((s.fset pg Reg.SLOT_CTRL 2 1 0).cntSat pg Reg.SLOT_HOREF 0 32 1).errCnt pLpe 2).raise pLpe 6).slotEvent n 3

/-- The pending hand-over of slot `n` is settled at TB `now` (*Hand-over decision*). -/
def State.handDecide (s : State) (n now : Nat) : State :=
  let pg := pSlot n
  let b := s.slotBank n
  let c := 1 - b
  let inC := s.bkf n c 0 6
  let inB := s.bkf n b 0 6
  let yC := ((s.srcVal inC).map (·.1)).getD 0
  let yB := ((s.srcVal inB).map (·.1)).getD 0
  let eOld := s.rgI pg Reg.SLOT_R_EFF - yB
  let eNew := s.setpt n c - yC
  let lim : Int := (s.rg pg (Reg.BANK c 0x34)).toNat
  if s.stale n inC now then s.handRefuse n
  else if !s.stale n inB now && lim ≠ 0 && lim < Int.natAbs (eNew - eOld) then s.handRefuse n
  else (s.handOver n).cntSat pg Reg.SLOT_HOCNT 0 32 1

/-! ### Triggers (R164, R166) -/

/-- The unissued output of slot `n` is dropped (R165, R166): an overrun. -/
def State.dropResult (s : State) (n : Nat) : State :=
  ((s.unqueue n).setSl n { s.sl n with wait := none, result := none }).evalOverrun n (s.sl n).result

/-- A value that is younger than SMP_TO of slot `n` (R173). -/
def State.younger (s : State) (n c now : Nat) : Bool :=
  (s.srcVal c).any fun v => now - v.2 < s.fget (pSlot n) Reg.SLOT_TIME 16 12 * 1000

/-- An evaluation of slot `n` waits for a pipe, with its deadline (R164, R165). -/
def State.queueEval (s : State) (n stamp : Nat) : State :=
  s.setSl n { s.sl n with wait := some ⟨stamp, stamp + s.fget (pSlot n) Reg.SLOT_TIME 0 12⟩ }

/-- The first delivery that waits for slot `n` is taken as a trigger: a pending hand-over that it settles is decided, an
evaluation still unissued is dropped, a pending swap is performed, and the evaluation is queued with its deadline. -/
def State.trigger (s : State) (n : Nat) : State :=
  let pg := pSlot n
  let x := s.sl n
  match x.due with
  | [] => s
  | (src, stamp) :: rest =>
    let s := s.setSl n { x with due := rest }
    if !s.slotEn n || s.slotState n == 4 then s else
    let s := if s.bit pg Reg.SLOT_CTRL 2 && src == s.trigSrc n (1 - s.slotBank n) then s.handDecide n stamp else s
    if src ≠ s.trigSrc n (s.slotBank n) then s else
    let x := s.sl n
    let s := s.setSl n { x with lastTrig := stamp }
    let s := if x.wait.isSome || x.result.isSome then s.dropResult n else s
    if s.slotState n == 4 then s else
    let s := if s.bit pg Reg.SLOT_CTRL 1 then s.swapNow n else s
    if s.stale n (s.bkf n (s.slotBank n) 0 6) stamp then s.overrun n
    else s.queueEval n stamp

/-- The waiting evaluation with the earliest deadline, ties to the lower slot (R164). -/
def State.nextEval (s : State) : Option (Nat × Waiting) :=
  (List.range 16).foldl (fun (a : Option (Nat × Waiting)) n =>
    match (s.sl n).wait, a with
    | some w, some (_, v) => if w.deadline < v.deadline then some (n, w) else a
    | some w, none => some (n, w)
    | none, _ => a) none

/-- CLK_FAB cycles of an evaluation under the active bank of slot `n` (R164). -/
def State.evalCycles (s : State) (n : Nat) : Nat :=
  let b := s.slotBank n
  48 + 16 * s.bkf n b 24 4 + (if s.bkf n b 16 3 = 0 then 0 else 16) + (if s.bkf n b 28 1 = 1 then 8 else 0)

/-- The pipe that is free first takes the evaluation that then waits with the earliest deadline. -/
def State.evalNext (s : State) : State :=
  if s.nextEval.isNone then s else
  let p0 := s.lpe.pipes.getD 0 0
  let p1 := s.lpe.pipes.getD 1 0
  let s := s.reach (min p0 p1)
  match s.nextEval with
  | none => s
  | some (n, w) =>
    let ready := s.tb.toNat + s.evalCycles n
    let r := s.evaluate n w ready
    let lane := s.fget (pSlot n) Reg.SLOT_IO 8 4
    let s := { s with lpe := { s.lpe with pipes := s.lpe.pipes.set (if p1 < p0 then 1 else 0) ready } }
    let x := s.sl n
    if s.fget (pSlot n) Reg.SLOT_IO 0 2 = 2 then
      let l := s.lane lane
      if 16 ≤ l.queue.length + l.safe.length + l.fw.length then (s.setSl n { x with wait := none }).evalOverrun n (some r)
      else
        let s := s.setLane lane { l with queue := l.queue ++ [n] }
        s.setSl n { x with wait := none, result := some { r with queued := true } }
    else s.setSl n { x with wait := none, result := some r }

end Sys2Proof.Machine
end

