-- ==== Sys2Proof/Machine/LoopCommands.lean ====
section
/-! DEFINITION. The commands of the servo demodulator and the loop engine (chapter 6). -/

namespace Sys2Proof.Machine

/-! ### The servo demodulator -/

/-- Sum of a list of numbers. -/
def sumI (l : List Int) : Int := l.foldl (· + ·) 0

/-- The four bursts of an element: stripe times in ps, F1, K1, F2, K2. -/
def burstOf (el : List (List Int)) (k : Nat) : List Int := el.getD k []

/-- Two bursts overlap: a stripe of the one lies within the span of the other. -/
def burstsOverlap (a b : List Int) : Bool := a.any (fun x => b.any (· ≤ x) && b.any (x ≤ ·)) || b.any (fun x => a.any (· ≤ x) && a.any (x ≤ ·))

/-- An element's sample is valid: every burst holds STRIPES stripes and none overlaps another (R151). -/
def elementOk (stripes : Nat) (el : List (List Int)) : Bool :=
  (List.range 4).all (fun k => (burstOf el k).length == stripes)
    && (List.range 4).all (fun i => (List.range i).all fun j => !burstsOverlap (burstOf el i) (burstOf el j))
    && sumI (burstOf el 2) != sumI (burstOf el 0)

/-- Sums over the stripes of the times that A and B are means of (R151). -/
def sumA (el : List (List Int)) : Int := sumI (burstOf el 1) - sumI (burstOf el 0)
def sumB (el : List (List Int)) : Int := sumI (burstOf el 2) - sumI (burstOf el 0)
/-- The same from F2 to K2 (R153). -/
def sumC (el : List (List Int)) : Int := sumI (burstOf el 3) - sumI (burstOf el 2)

/-- π in 2⁻⁶⁴. -/
def pi64 : Int := 0x3243F6A8885A308D3

/-- The alternating sum of `n` terms of the series of sine or cosine in 2⁻⁶⁴, from the term `t` of degree `m` on; `x2` is the square of the
argument. -/
def series (x2 : Int) : Nat → Nat → Int → Int
  | 0, _, _ => 0
  | n + 1, m, t => t - series x2 n (m + 2) (Int.fdiv (Int.fdiv (t * x2) (2 ^ 64)) (((m + 1) * (m + 2) : Nat) : Int))

/-- Sine and cosine in 2⁻⁶⁴ of an angle in 0.01°. -/
def sinCos (angle : Nat) : Int × Int :=
  let x := Int.fdiv (angle * pi64) 18000
  let x2 := Int.fdiv (x * x) (2 ^ 64)
  (series x2 12 1 x, series x2 12 0 (2 ^ 64))

/-- Lateral position of element `e` in nm (R151). -/
def State.elementX (s : State) (e : Nat) (el : List (List Int)) : Int :=
  let pf : Int := s.fget pSvd (Reg.SVD_TBS 0) 16 16
  let d0 : Int := s.fget pSvd (Reg.SVD_TBS 1) 0 16
  let (sin, cos) := sinCos (s.fget pSvd (Reg.SVD_TBS 1) 16 16)
  ratio ((sumA el * pf - d0 * sumB el) * 10 * cos) (sumB el * 2 * sin) + s.rgI (pSvd + 1) (Reg.SVD_EL e 0)

/-- A band's longitudinal symbol (R153): 2 sync, 0 early, 1 late, 3 unreadable. -/
def State.lposSymbol (s : State) (el : List (List Int)) : Nat :=
  let pf : Int := s.fget pSvd (Reg.SVD_TBS 0) 16 16
  let sh : Int := s.fget pSvd (Reg.SVD_TBS 2) 8 8
  let d := (sumC el - sumA el) * pf * sgn (sumB el)
  let b := Int.natAbs (sumB el)
  if 2 * Int.natAbs d < sh * b then 2 else if d < 0 then 0 else 1

/-- Is `l`, oldest first, a longitudinal word: a sync symbol, then 35 bits (R153)?  Its frame number and band ID. -/
def lposWord (l : List Nat) : Option (Nat × Nat) :=
  match l with
  | 2 :: bits =>
    if bits.length = 35 ∧ bits.all (· < 2) then
      some ((bits.take 32).foldl (fun v b => 2 * v + b) 0, (bits.drop 32).foldl (fun v b => 2 * v + b) 0)
    else none
  | _ => none

/-- The word that a band's last 36 symbols (newest first) make in the direction of travel, with the frames since its sync
frame and the band ID. -/
def bandWord (forward : Bool) (sym : List Nat) : Option (Nat × Nat × Nat) :=
  if forward then (lposWord (sym.take 36).reverse).map fun w => (w.1, 35, w.2)
  else (lposWord (sym.take 36)).map fun w => (w.1, 0, w.2)

/-- A band ID that differs from SVD_BAND for its band. -/
def State.bandCheck (s : State) (w : Option (Nat × Nat × Nat)) (lo : Nat) : State :=
  match w with
  | some (_, _, id) =>
    if id = s.fget pSvd Reg.SVD_BAND lo 3 then s
    else ((s.errCnt pSvd 3).fset pSvd Reg.SVD_STAT 8 1 1).raise pSvd 6
  | none => s

/-- A complete longitudinal word implies position `p` for the present frame (*Longitudinal position*; log entry 38). -/
def State.lposTake (s : State) (p : RegWord) : State :=
  let put (s : State) : State :=
    { s.rset pSvd Reg.SVD_LPOS p with svd := { s.svd with cand := none, lposEver := true } }
  if !s.bit pSvd Reg.SVD_STAT 5 then ((put s).fset pSvd Reg.SVD_STAT 5 1 1).raise pSvd 8
  else if s.rg pSvd Reg.SVD_LPOS = p then { s with svd := { s.svd with cand := none } }
  else if s.svd.cand = some p.toNat then put s
  else ({ s with svd := { s.svd with cand := some p.toNat } }.errCnt pSvd 2).raise pSvd 7

/-- The longitudinal part of a servo frame (R153): the running position advances, each band's symbol is taken, and the
words that are complete are checked, the lower band's before the upper band's. -/
def State.lposFrame (s : State) (forward : Bool) (lower upper : Nat) : State :=
  let step : RegWord → RegWord := fun w => if forward then w + 1 else w - 1
  let v := s.svd
  let keep := v.forward == forward
  let sl := lower :: (if keep then v.symLower.take 35 else [])
  let su := upper :: (if keep then v.symUpper.take 35 else [])
  let s := if s.bit pSvd Reg.SVD_STAT 5 then s.rset pSvd Reg.SVD_LPOS (step (s.rg pSvd Reg.SVD_LPOS)) else s
  let s := { s with svd := { v with
    forward := forward, symLower := sl, symUpper := su, cand := v.cand.map fun c => (step (BitVec.ofNat 32 c)).toNat } }
  let wl := bandWord forward sl
  let wu := bandWord forward su
  [wl, wu].foldl (fun s w => match w with
    | some (v, k, _) => s.lposTake (BitVec.ofNat 32 (v + k))
    | none => s) ((s.bandCheck wl 0).bandCheck wu 4)

/-- Deliver a valid SVD sample: its register and its source. -/
def State.svdSample (s : State) (off src : Nat) (v : Int) : State := (s.rsetI pSvd off v).deliverSrc src v

/-- Show an element's latest sample: a valid position, or a miss. -/
def State.elementShow (s : State) (e : Nat) (x : Option Int) : State :=
  match x with
  | some v => (s.rsetI (pSvd + 1) (Reg.SVD_EL e 4) v).fset (pSvd + 1) (Reg.SVD_EL e 0xC) 0 1 1
  | none => (s.fset (pSvd + 1) (Reg.SVD_EL e 0xC) 0 1 0).cntSat (pSvd + 1) (Reg.SVD_EL e 0xC) 16 16 1

/-- The mean of the values that are there. -/
def meanOf (l : List (Option Int)) : Option Int :=
  let v := l.filterMap id
  if v.isEmpty then none else some (ratio (sumI v) v.length)

/-- TBS speed in µm/s from the valid elements (R152). -/
def State.tbsSpeed (s : State) (els : List (List (List Int))) : Int :=
  let stripes : Int := s.fget pSvd (Reg.SVD_TBS 2) 0 4
  ratio ((s.fget pSvd (Reg.SVD_TBS 0) 16 16 : Int) * 10 ^ 10 * stripes * els.length) (sumI (els.map sumB))

/-- TBS skew in µrad (R152): speed times the F1 arrival of the upper elements less that of the lower ones. -/
def State.tbsSkew (s : State) (lower upper : List (List (List Int))) : Int :=
  let n : Int := s.fget pSvd (Reg.SVD_TBS 2) 0 4
  let f1 (l : List (List (List Int))) : Int := sumI (l.map fun e => sumI (burstOf e 0))
  let nl : Int := lower.length
  let nu : Int := upper.length
  let dt := f1 upper * nl - f1 lower * nu
  ratio ((s.fget pSvd (Reg.SVD_TBS 0) 16 16 : Int) * 10 ^ 4 * (nl + nu) * dt)
    (nl * nu * sumI ((lower ++ upper).map sumB) * (s.fget pSvd (Reg.SVD_TBS 2) 16 16 : Int) * (if n = 0 then 0 else 1))

/-- The positional and speed samples of a servo frame (R151, R152; log entry 38). -/
def State.tbsFrame (s : State) (els : List (List (List Int))) : State :=
  let st := s.fget pSvd (Reg.SVD_TBS 2) 0 4
  let ok (e : Nat) : Bool := elementOk st (els.getD e [])
  let xs := (List.range 4).map fun e => if ok e then some (s.elementX e (els.getD e [])) else none
  let s := (List.range 4).foldl (fun s e => (s.elementShow e (xs.getD e none)).fset pSvd Reg.SVD_STAT (1 + e) 1 (if ok e then 1 else 0)) s
  let pick (l : List Nat) : List (List (List Int)) := (l.filter ok).map fun e => els.getD e []
  let valid := pick [0, 1, 2, 3]
  if valid.isEmpty then ((s.fset pSvd Reg.SVD_STAT 0 1 0).errCnt pSvd 0).raise pSvd 4
  else
    let s := s.fset pSvd Reg.SVD_STAT 0 1 1
    let s := match meanOf (xs.take 2) with | some v => s.svdSample Reg.SVD_TBS_XL 0x02 v | none => s
    let s := match meanOf (xs.drop 2) with | some v => s.svdSample Reg.SVD_TBS_XU 0x03 v | none => s
    let s := match meanOf xs with | some v => s.svdSample Reg.SVD_TBS_X 0x01 v | none => s
    let s := if (pick [0, 1]).isEmpty || (pick [2, 3]).isEmpty then s
      else s.svdSample Reg.SVD_SKEW 0x04 (s.tbsSkew (pick [0, 1]) (pick [2, 3]))
    let s := { s with svd := { s.svd with speedEver := true } }
    s.svdSample Reg.SVD_SPEED 0x05 (s.tbsSpeed valid)

/-- The symbol of a band: of its first valid element, or unreadable. -/
def State.bandSymbol (s : State) (els : List (List (List Int))) : Nat :=
  let st := s.fget pSvd (Reg.SVD_TBS 2) 0 4
  match els.find? (elementOk st) with
  | some e => s.lposSymbol e
  | none => 3

/-- SERVO_FRAME_END: the stripe times of the four elements in ps (R151 to R153). -/
def execServoFrameEnd (els : List (List (List Int))) (s : State) : Host.Outcome State Fault Refusal :=
  next (fun s =>
    if !s.intake pSvd || !s.bit pSvd Reg.SVD_CTRL 0 then s else
    let st := s.fget pSvd (Reg.SVD_TBS 2) 0 4
    let lower := s.bandSymbol (els.take 2)
    let upper := s.bandSymbol ((els.take 4).drop 2)
    let valid := (els.take 4).filter (elementOk st)
    let forward := if valid.isEmpty then s.svd.forward else 0 < sumI (valid.map sumB)
    (s.tbsFrame els).lposFrame forward lower upper) s

/-- One companion input (R155): input 64 + `c` with amplitudes `ai` and `ao`; `sign` is the side's sign (log entry 38). -/
def State.companion (s : State) (c ai ao : Nat) (sign : Int) (off src : Nat) : State × Option Int :=
  let e := 4 + c
  let s := s.rset (pSvd + 1) (Reg.SVD_EL e 8) (BitVec.ofNat 32 (ai + ao * 2 ^ 16))
  if ai + ao < s.fget pSvd Reg.SVD_CMP 16 8 then
    ((((s.elementShow e none).fset pSvd Reg.SVD_STAT (6 + c) 1 0).errCnt pSvd 1).raise pSvd 5, none)
  else
    let span : Int := s.fget pSvd Reg.SVD_CMP 8 8
    let p : Int := if ai + ao = 0 then (Config.freeWord s.free).toInt
      else ratio (((ai : Int) - ao) * span * 5) ((ai : Int) + ao)
    let x := satS 32 (sign * p + s.rgI (pSvd + 1) (Reg.SVD_EL e 0))
    let s := if ai + ao = 0 then s.bump else s
    (((s.elementShow e (some x)).fset pSvd Reg.SVD_STAT (6 + c) 1 1).svdSample off src x, some x)

/-- COMPANION_WINDOW_END: the tone amplitudes of inputs 64 and 65 (R155). -/
def execCompanionWindowEnd (ai0 ao0 ai1 ao1 : BitVec 16) (s : State) : Host.Outcome State Fault Refusal :=
  next (fun s =>
    if !s.intake pSvd || !s.bit pSvd Reg.SVD_CTRL 1 then s else
    let (s, lo) := s.companion 0 ai0.toNat ao0.toNat 1 Reg.SVD_CMP_XL 0x06
    let (s, up) := s.companion 1 ai1.toNat ao1.toNat (-1) Reg.SVD_CMP_XU 0x07
    match meanOf [lo, up] with
    | some v => s.svdSample Reg.SVD_CMP_X 0x08 v
    | none => s) s

/-! ### Slots -/

/-- SLOT_TRIGGER (R164). -/
def execSlotTrigger (n : Fin 16) (s : State) : Host.Outcome State Fault Refusal :=
  next (fun s => if s.enabled pLpe then s.trigger n.val else s) s

/-- SLOT_EVALUATION (R161, R164). -/
def execSlotEvaluation (s : State) : Host.Outcome State Fault Refusal :=
  next (fun s => if s.enabled pLpe then s.evalNext else s) s

/-- The output of slot `n` is issued once its evaluation has ended, or dropped where that is after its deadline (R165). -/
def State.issueAt (s : State) (n : Nat) (r : EvalResult) : State × Bool :=
  let s := s.reach r.ready
  if r.deadline < s.tb.toNat then (s.dropResult n, false) else (s.issueResult n r, true)

/-- An idle lane starts its next frame: SAFE_OUT frames before slot frames, and those before firmware frames (R167, R177; log entry 40). -/
def State.laneStart (s : State) (l : Nat) : State :=
  let x := s.lane l
  if !s.laneIdle l then s
  else if !x.safe.isEmpty then s.laneSafe l
  else match x.queue, x.fw with
  | n :: q, _ =>
    let s := s.setLane l { x with queue := q }
    match (s.sl n).result with
    | none => s
    | some r =>
      let (s, ok) := s.issueAt n r
      if ok then s.laneSend l (BitVec.ofNat 32 (s.slotFrame n r.u)) else s
  | [], w :: q => (s.setLane l { x with fw := q }).laneSend l w
  | [], [] => s

/-- OUTPUT_ISSUE (R165): to a PWM channel or a set-point at once; to a lane when its frame starts. -/
def execOutputIssue (n : Fin 16) (s : State) : Host.Outcome State Fault Refusal :=
  next (fun s =>
    match (s.sl n.val).result with
    | none => s
    | some r =>
      if r.queued then
        let l := s.fget (pSlot n.val) Reg.SLOT_IO 8 4
        if (s.lane l).queue.head? = some n.val then s.laneStart l else s
      else (s.issueAt n.val r).1) s

/-- SLOT_DEADLINE_EXPIRY (R165, R166). -/
def execSlotDeadlineExpiry (n : Fin 16) (s : State) : Host.Outcome State Fault Refusal :=
  next (fun s =>
    let x := s.sl n.val
    match x.wait, x.result with
    | some w, _ => (s.reach w.deadline).dropResult n.val
    | none, some r => (s.reach r.deadline).dropResult n.val
    | none, none => s) s

/-- SAMPLE_TIMEOUT (R166, R173): an overrun, or the automatic fall-back, which evaluates at once (R172). -/
def execSampleTimeout (n : Fin 16) (s : State) : Host.Outcome State Fault Refusal :=
  next (fun s =>
    let n := n.val
    let pg := pSlot n
    let lim := s.fget pg Reg.SLOT_TIME 16 12
    if lim = 0 ∨ ¬ s.slotEn n ∨ s.slotState n = 4 then s else
    let s := s.reach ((s.sl n).lastTrig + lim * 1000)
    let now := s.tb.toNat
    let s := s.setSl n { s.sl n with lastTrig := now }
    let idle := !s.bit pg Reg.SLOT_CTRL 1 && !s.bit pg Reg.SLOT_CTRL 2
    if s.bit pg Reg.SLOT_CTRL 4 && idle && s.younger n (s.bkf n (1 - s.slotBank n) 0 6) now then
      let s := if (s.sl n).wait.isSome || (s.sl n).result.isSome then s.dropResult n else s
      if s.slotState n == 4 then s else
      ((((s.handOver n).cntSat pg Reg.SLOT_HOCNT 0 32 1).cntSat pg Reg.SLOT_FBCNT 0 32 1).raise pLpe 8).queueEval n now
    else s.overrun n) s

/-- LPE_TIMER_TICK (R159). -/
def execLpeTimerTick (n : Fin 2) (s : State) : Host.Outcome State Fault Refusal :=
  next (fun s =>
    if s.enabled pLpe ∧ s.fget pLpe (Reg.LPE_TIMER n.val) 0 16 ≠ 0 then s.deliverSrc (0x30 + n.val) 0 else s) s

/-- SLOT_ENABLE (R168). -/
def execSlotEnable (_req : Requester) (n : Fin 16) (s : State) : Host.Outcome State Fault Refusal :=
  next (fun s => s.slotSetEn n.val true) s

/-- SLOT_DISABLE (R168). -/
def execSlotDisable (_req : Requester) (n : Fin 16) (s : State) : Host.Outcome State Fault Refusal :=
  next (fun s => s.slotSetEn n.val false) s

/-- A swap or hand-over request, bit `i` of SLOT_CTRL: a write to a locked field while one is pending (R172). -/
def State.slotRequest (s : State) (n i : Nat) : State :=
  let pg := pSlot n
  if s.bit pg Reg.SLOT_CTRL 1 ∨ s.bit pg Reg.SLOT_CTRL 2 then s.badWrite pLpe Reg.SLOT_CTRL 2
  else s.fset pg Reg.SLOT_CTRL i 1 1

/-- SWAP (R170). -/
def execSwap (_req : Requester) (n : Fin 16) (s : State) : Host.Outcome State Fault Refusal :=
  next (fun s => s.slotRequest n.val 1) s

/-- HANDOVER (R171). -/
def execHandover (_req : Requester) (n : Fin 16) (s : State) : Host.Outcome State Fault Refusal :=
  next (fun s => s.slotRequest n.val 2) s

/-! ### Traces (R175) -/

/-- A unit starts recording, without a trigger (log entry 39). -/
def State.traceArm (s : State) (u : Nat) : State :=
  let s := ((s.trSet u 0x18 0 2 1).trSet u 0x18 2 1 0).trSet u 0x18 16 14 0
  s.setTrace u ⟨0, none⟩

/-- A capture that is armed or triggered is done (R175; log entry 39). -/
def State.traceStop (s : State) (u : Nat) : State :=
  if s.trf u 0x18 0 2 = 1 ∨ s.trf u 0x18 0 2 = 2 then s.trSet u 0x18 0 2 3 else s

/-- TRACE_ARM. -/
def execTraceArm (_req : Requester) (n : Fin 4) (s : State) : Host.Outcome State Fault Refusal :=
  next (fun s => s.traceArm n.val) s

/-- TRACE_FORCE. -/
def execTraceForce (_req : Requester) (n : Fin 4) (s : State) : Host.Outcome State Fault Refusal :=
  next (fun s => s.traceTrigger n.val false) s

/-- TRACE_STOP. -/
def execTraceStop (_req : Requester) (n : Fin 4) (s : State) : Host.Outcome State Fault Refusal :=
  next (fun s => s.traceStop n.val) s

/-- TRACE_POST_END: the unit has recorded POST records after its trigger. -/
def execTracePostEnd (n : Fin 4) (s : State) : Host.Outcome State Fault Refusal :=
  next (fun s =>
    if s.trf n.val 0x18 0 2 = 2 ∧ (s.trace n.val).post = 0 then (s.trSet n.val 0x18 0 2 3).raise pLpe 12 else s) s

/-! ### Actuators (R176 to R178) -/

/-- The duty that channel `ch` takes up. -/
def State.pwmDuty (s : State) (ch : Nat) : Nat :=
  if !s.bit (pLpe + 31) Reg.PWM_CTRL ch then 0
  else if s.pwmDriven ch then mapGet (fun _ => 0) s.lpe.slotDuty ch
  else s.fget (pLpe + 31) (Reg.PWM_DUTY ch) 0 12

/-- PWM_CARRIER_PERIOD (R176): the duties that the channels take up, and their outputs: the period and its alignment, then each channel's on-time
in 1/4096 cycles of 1 GHz. -/
def execPwmCarrierPeriod (s : State) : Host.Outcome State Fault Refusal :=
  next (fun s =>
    if !s.enabled pLpe then s else
    let d := (List.range 8).map s.pwmDuty
    let per := s.fget (pLpe + 31) Reg.PWM_PERIOD 0 16
    { s with lpe := { s.lpe with duty := (List.range 8).foldl (fun m ch => mapSet (fun _ => 0) m ch (d.getD ch 0)) s.lpe.duty } }.emit
      (.issue "PWM_OUT" (per :: s.fget (pLpe + 31) Reg.PWM_CTRL 8 1 :: d.map (· * per)))) s

/-- ACT_SEND. -/
def execActSend (_req : Requester) (lane : Fin 2) (frame : BitVec 32) (s : State) : Host.Outcome State Fault Refusal :=
  next (fun s => (s.fwFrame lane.val frame).getD (s.badWrite pLpe (Reg.ACT_SEND lane.val) 2)) s

/-- ACT_FRAME_START. -/
def execActFrameStart (lane : Fin 2) (s : State) : Host.Outcome State Fault Refusal :=
  next (fun s => if s.enabled pLpe then s.laneStart lane.val else s) s

/-- ACT_FRAME_END: 34 SCK periods after the start. -/
def execActFrameEnd (lane : Fin 2) (rx : BitVec 32) (s : State) : Host.Outcome State Fault Refusal :=
  next (fun s =>
    let x := s.lane lane.val
    if x.busy.isNone then s else
    let s := s.reach (x.since + 68 * (s.fget (pLpe + 31) Reg.ACT_LINK 4 8 + 1))
    (s.setLane lane.val { x with busy := none, since := 0 }).rset (pLpe + 31) (Reg.ACT_RX lane.val) rx) s

/-- SENSE_ADC_RESULT: the result is kept, delivered as source 0x10 + n, and taken by the TPI sensors that name it. -/
def execSenseAdcResult (n : Fin 8) (code : BitVec 16) (s : State) : Host.Outcome State Fault Refusal :=
  next (fun s =>
    if !s.enabled pLpe || !s.bit (pLpe + 31) Reg.ADC_CTRL n.val then s else
    let s := s.rset (pLpe + 31) (Reg.ADC_DATA n.val) (BitVec.ofNat 32 (code.toNat + 2 ^ 16))
    (s.deliverSrc (0x10 + n.val) code.toInt).adcSensors n.val code.toInt) s

/-- A read of an ADC result register returns it and clears FRESH (R180). -/
def State.adcRead (s : State) (n : Nat) : State :=
  (s.emit (.value (s.rg (pLpe + 31) (Reg.ADC_DATA n)).toNat)).fset (pLpe + 31) (Reg.ADC_DATA n) 16 1 0

/-- ADC_DATA_READ. -/
def execAdcDataRead (_req : Requester) (n : Fin 8) (s : State) : Host.Outcome State Fault Refusal :=
  next (fun s => s.adcRead n.val) s

end Sys2Proof.Machine
end

