-- ==== Sys2Proof/Machine/Pages.lean ====
section
/-! DEFINITION. What the device reports of itself: Identify data, log pages and the NVMe-MI commands (chapters 16, 17 and 18, R410,
R411, R413 to R417, R446, R447, R509, R577), and the software event sources and pulses of chapter 23. -/

namespace Sys2Proof.Machine

/-- A structure of `n` bytes, all zero but for the fields given by offset. -/
def pageOf (n : Nat) (l : List (Nat × List Byte)) : List Byte := memRead (l.foldl (fun m e => memWrite m e.1 e.2) []) 0 n

/-! ### Identify (R413, R415, R416, R436 to R439, R446, R469, R525) -/

/-- A power state descriptor: power in 0.01 W, kind, and latencies in µs. -/
def powerState (mp nops enlat exlat : Nat) : List Byte := leBytes 3 mp ++ leBytes 1 (2 * nops) ++ leBytes 4 enlat ++ leBytes 4 exlat

/-- The namespaces of the device report no capacity while the flash tier is sealed, and the tape-backed one while no cartridge is
loaded (R439, R512). -/
def State.shownSize (s : State) (nsid : Nat) (n : Ns) : Nat :=
  if nsid = 1024 then (if s.tpi.cart.isNone then 0 else s.nsSize nsid n) else if s.kpr.sealedTier then 0 else s.nsSize nsid n

/-- Identify Controller (log entry 86). -/
def State.identController (s : State) (c : Nat) : List Byte :=
  let pf := s.isPf c
  let f := s.func c
  let open_ (lo n : Nat) : Nat × List Byte := (lo, (List.range n).map fun i => Config.identityByte (lo + i))
  pageOf 4096 [
    open_ 0 72, open_ 73 3, open_ 768 256,
    (76, [if pf then 3 else 7]), (77, [9]), (78, leBytes 2 c), (80, leBytes 4 0x20000),
    (92, leBytes 4 (2 ^ 8 + 2 ^ 27)), (111, [1]), (253, [1]), (255, [3]),
    (256, leBytes 2 (2 + if pf then 4 + 8 + 128 else 0)), (258, [7]), (259, [3]), (260, [2 * 2 + 16]), (261, [3]), (262, [63]),
    (263, [if pf then 2 else 0]),
    (280, leBytes 16 (s.rg64 pFtm Reg.FTM_CAP_LO % 2 ^ 40 * 16384)),
    (328, leBytes 4 (if pf then 3 else 0)),
    (512, [0x66, 0x44]), (516, leBytes 4 1024), (520, leBytes 2 (4 + 8 + 64 + 128)),
    (2048, powerState 3600 0 0 0), (2080, if pf then powerState 2000 0 1000 1000 else []),
    (2112, if pf then powerState 120 1 50000 5000 else []),
    (3072, leBytes 2 0x0101 ++ leBytes 2 0x0100 ++ leBytes 2 f.ctl.bquota ++ leBytes 2 f.granted ++ leBytes 4 0x0400_0000
      ++ leBytes 4 f.ctl.ecap
      ++ leBytes 4 (natBits s.kpr.policy 0 1 + 2 * (if s.sealOk c then 1 else 0)
        + 4 * (if s.bit (pAee 0) Reg.AEE_CTRL 0 then 1 else 0)))]

/-- The LBA formats that a namespace takes. -/
def lbaFormats (nsid : Nat) : List Byte :=
  (List.range 5).flatMap fun i => leBytes 2 (metaSize i) ++ [if nsid = 1024 ∧ i < 2 then 0 else if lbaSize i = 512 then 9 else 12, 0]

/-- Identify Namespace. -/
def State.identNs (s : State) (nsid : Nat) (n : Ns) : List Byte :=
  let z := s.shownSize nsid n
  pageOf 4096 [
    (0, leBytes 8 z ++ leBytes 8 z ++ leBytes 8 z), (25, [4]), (26, leBytes 1 (n.lbaf + if n.ext then 16 else 0)), (27, [3]),
    (28, [0x17]), (29, leBytes 1 n.pi), (30, [1]), (48, leBytes 16 (z * lbaSize n.lbaf)), (104, leBytes 16 n.nguid),
    (128, lbaFormats nsid)]

/-- What Identify Namespace answers for NSID `nsid`. -/
def State.identNsid (s : State) (c nsid : Nat) (all : Bool) : Option (List Byte) :=
  if nsid = 0xFFFF_FFFF then some (pageOf 4096 [(25, [4]), (27, [3]), (28, [0x17]), (128, lbaFormats 1)])
  else if nsid = 0 ∨ 1024 < nsid then none
  else match mapFind s.nss nsid with
    | some n => if all || n.attached.contains c then some (s.identNs nsid n) else some (pageOf 4096 [])
    | none => some (pageOf 4096 [])

/-- The command set of a namespace: 0 NVM, 2 Zoned. -/
def nsCsi (nsid : Nat) : Nat := if nsid = 1024 then 2 else 0

/-- A list of up to 1,024 namespace identifiers above `nsid`. -/
def nsList (l : List Nat) (nsid : Nat) : List Byte := pageOf 4096 [(0, ((l.filter (nsid < ·)).take 1024).flatMap (leBytes 4))]

/-- A list of up to 2,047 controller identifiers. -/
def ctrlList (l : List Nat) : List Byte := pageOf 4096 [(0, leBytes 2 (min 2047 l.length) ++ (l.take 2047).flatMap (leBytes 2))]

/-- Namespaces attached to a controller. -/
def State.attachedTo (s : State) (c : Nat) : List Nat := (s.nss.filter fun e => e.2.attached.contains c).map Prod.fst

/-- Controllers of the subsystem. -/
def State.allCtrls (s : State) : List Nat := (List.range 256).filter s.slotEnabled

/-- The I/O command set specific structure of a namespace. -/
def State.identIoNs (s : State) (nsid csi : Nat) : List Byte :=
  if csi = 0 then pageOf 4096 [(8, [4]), (12, (List.range 5).flatMap fun i => leBytes 4 (if i = 4 then 2 * 2 ^ 7 else 0))]
  else if nsid = 1024 then
    pageOf 4096 [(4, leBytes 4 15 ++ leBytes 4 15), (2816, (List.range 5).flatMap fun i => leBytes 8 (if i < 2 then 0 else s.zsze) ++ leBytes 8 0)]
  else pageOf 4096 []

/-- The primary controller capabilities of PF `p`. -/
def State.primaryCaps (s : State) (p : Nat) : List Byte :=
  let half (rt : Nat) : List Byte := leBytes 4 (s.pool p) ++ leBytes 4 (s.drawn p rt 256)
    ++ leBytes 2 (s.flexOf p rt) ++ leBytes 2 (if rt = 0 then 65 else 64) ++ leBytes 2 (if rt = 0 then 2049 else 2048) ++ leBytes 2 1
  pageOf 4096 [(0, leBytes 2 p ++ leBytes 2 (s.portOf p) ++ [3]), (32, half 0), (64, half 1)]

/-- The secondary controllers of PF `p` from identifier `lo`. -/
def State.secondaryList (s : State) (p lo : Nat) : List Byte :=
  let l := ((List.range 256).filter fun k => lo ≤ k && s.isSecondary p k).take 127
  pageOf 4096 [(0, leBytes 1 l.length), (32, l.flatMap fun k =>
    let f := s.func k
    leBytes 2 k ++ leBytes 2 p ++ [if f.online then 1 else 0] ++ leBytes 3 0 ++ leBytes 2 (if s.slotEnabled k then s.pfIndex k else 0)
      ++ leBytes 2 f.vq ++ leBytes 2 f.vi ++ leBytes 18 0)]

/-- The data that Identify returns, or the status it fails with. -/
def State.identData (s : State) (k : Cmd) : Option (List Byte) × Nat :=
  let c := k.ctrl
  let n := k.e.nsid
  let csi := natBits k.e.d11.toNat 24 8
  let known := n != 0 && n ≤ 1024
  let ok (b : List Byte) : Option (List Byte) × Nat := (some b, 0)
  let onNs (b : List Byte) : Option (List Byte) × Nat := if known then ok b else (none, 0x0B)
  match k.e.d10.toNat % 256 with
  | 0x00 => (s.identNsid c n false, 0x0B)
  | 0x01 => ok (s.identController c)
  | 0x02 => if 0xFFFF_FFFE ≤ n then (none, 0x0B) else ok (nsList (s.attachedTo c) n)
  | 0x03 => onNs (match mapFind s.nss n with
    | some x => pageOf 4096 [(0, [2, 16, 0, 0] ++ leBytes 16 x.nguid ++ [4, 1, 0, 0] ++ leBytes 1 (nsCsi n))]
    | none => pageOf 4096 [])
  | 0x05 => if csi ≠ 0 ∧ csi ≠ 2 then (none, 2) else onNs (if (s.attachedTo c).contains n then s.identIoNs n csi else pageOf 4096 [])
  | 0x06 => if csi = 0 then ok (pageOf 4096 []) else if csi = 2 then ok (pageOf 4096 [(0, [9])]) else (none, 2)
  | 0x08 => onNs (if (s.attachedTo c).contains n then
      pageOf 4096 [(1, [1]), (14, [if n = 1024 ∨ s.flashReady then 1 else 0])] else pageOf 4096 [])
  | 0x10 => if 0xFFFF_FFFE ≤ n then (none, 0x0B) else ok (nsList (s.nss.map Prod.fst) n)
  | 0x11 => (s.identNsid c n true, 0x0B)
  | 0x12 => onNs (ctrlList (((mapFind s.nss n).map Ns.attached).getD [] |>.mergeSort (· ≤ ·) |>.filter (natBits k.e.d10.toNat 16 16 ≤ ·)))
  | 0x13 => ok (ctrlList (s.allCtrls.filter (natBits k.e.d10.toNat 16 16 ≤ ·)))
  | 0x14 => if s.isPf c then ok (s.primaryCaps c) else (none, 2)
  | 0x15 => if s.isPf c then ok (s.secondaryList c (natBits k.e.d10.toNat 16 16)) else (none, 2)
  | 0x1C => ok (pageOf 4096 [(0, leBytes 8 5)])
  | _ => (none, 2)

/-- IDENTIFY (R12, R411, R413, R416). -/
def execIdentify (tag : Nat) (tun : Option Tunnel) (s : State) : Host.Outcome State Fault Refusal :=
  next (fun s => s.viaMi tun tag fun tag s => s.admin tag 6 fun s k =>
    match s.identData k with
    | (some b, _) => (s.emit (.hostData k.ctrl b)).completeOk tag
    | (none, sc) => s.failCmd tag 0 sc) s

/-! ### Log pages (R417, R433, R447, R509, R577) -/

/-- Error Information. -/
def State.errPage (s : State) (c : Nat) : List Byte :=
  let x := s.ctrl c
  (List.range 64).flatMap fun i => match x.errLog[i]? with
    | some e => pageOf 64 [(0, leBytes 8 (x.errCount - i) ++ leBytes 2 e.sq ++ leBytes 2 e.cid ++ leBytes 2 (2 * (e.sc + 2 ^ 8 * e.sct)) ++ leBytes 2 0xFFFF
        ++ leBytes 8 e.lba ++ leBytes 4 e.nsid)]
    | none => List.replicate 64 0

/-- SMART / Health Information; what the manual gives no value of stays open (log entry 109). -/
def State.smartPage (s : State) (c : Nat) (free : List Byte) : List Byte :=
  let m := s.qen.smart
  pageOf 512 [
    (0, [if s.tempWarn c then 2 else 0] ++ leBytes 2 s.kelvin ++ free.take 3),
    (32, leBytes 16 (ceilDiv m.rd 1000) ++ leBytes 16 (ceilDiv m.wr 1000) ++ leBytes 16 m.rdCmds ++ leBytes 16 m.wrCmds
      ++ (free.drop 3).take 16 ++ leBytes 16 m.cycles ++ (free.drop 19).take 32 ++ leBytes 16 m.errs ++ leBytes 16 (s.ctrl c).errCount),
    (192, (free.drop 51).take 8),
    (200, (List.range 8).flatMap fun i => leBytes 2 (signedOf 8 (s.fget (pAgm + 2) (Reg.AGM_SENS i) 0 8) + 273).toNat)]

/-- Firmware Slot Information. -/
def State.slotPage (s : State) : List Byte :=
  let run := s.fget pPcr Reg.PCR_BOOT 9 2
  let rev (n : Nat) : List Byte := match mapFind s.boot.slots n with
    | some b => padTo 8 (leBytes 2 (fieldAt b 4 2))
    | none => List.replicate 8 0
  pageOf 512 [(0, leBytes 1 (run + if s.boot.nextSlot = run then 0 else 16 * s.boot.nextSlot)), (8, rev 1 ++ rev 2)]

/-- Commands Supported and Effects: CSUPP bit 0, LBCC bit 1, NCC bit 2, NIC bit 3, CSE from bit 16 (R413, R414, R447). -/
def State.effectsPage (s : State) (c : Nat) : List Byte :=
  let pf := s.isPf c
  let v11 := s.barlisVer c == 0x0101
  let lb (l : List Nat) (v : Nat) : List (Nat × Nat) := l.map fun o => (o, v)
  let adm := lb [0x00, 0x01, 0x02, 0x04, 0x05, 0x06, 0x08, 0x09, 0x0A, 0x0C, 0xC2, 0xC6] 1 ++ lb [0x80] 7 ++ lb [0xC1, 0xC4] (1 + 2 ^ 16)
    ++ if pf then lb [0x0D, 0x15] 9 ++ lb [0x10, 0x11, 0x1C] 1 ++ lb [0x84] 3 else []
  let io := lb [0x00, 0x02, 0x0C, 0x7A, 0xC2, 0xC5, 0xC6, 0xC7, 0xC8] 1 ++ lb [0x01, 0x08, 0x09, 0x79, 0x7D, 0xC1, 0xC9, 0xC4] 3
    ++ if v11 then lb [0xC0] 1 ++ lb [0xCC] 3 else []
  pageOf 4096 (adm.map (fun e => (4 * e.1, leBytes 4 e.2)) ++ io.map fun e => (1024 + 4 * e.1, leBytes 4 e.2))

/-- Sanitize Status. -/
def State.sanitizePage (s : State) : List Byte :=
  let q := s.qen
  pageOf 512 [(0, leBytes 2 0xFFFF ++ leBytes 2 (q.sanitize + if s.kpr.written then 0 else 256) ++ leBytes 4 q.sanitizeAct
    ++ List.replicate 28 0xFF)]

/-- Changed Zone List. -/
def State.zonePage (s : State) : List Byte :=
  let l := s.qen.zonesChanged.reverse.mergeSort (· ≤ ·)
  if 511 < l.length then pageOf 4096 [(0, leBytes 2 0xFFFF)]
  else pageOf 4096 [(0, leBytes 2 l.length), (8, l.flatMap fun z => leBytes 8 (z * s.zsze))]

/-- An entry of the media log. -/
def mediaBytes (e : MediaEntry) : List Byte :=
  leBytes 8 e.seq ++ leBytes 6 e.time ++ leBytes 2 0 ++ leBytes 2 e.kind ++ leBytes 2 0 ++ leBytes 4 e.nsid ++ leBytes 8 e.slba ++ leBytes 4 e.nlb
    ++ leBytes 4 e.count ++ leBytes 8 e.where_ ++ leBytes 8 e.aux ++ leBytes 8 0

/-- `n` bytes of a log of a header and `size`-byte entries, from offset `lo`. -/
def logSlice (head : List Byte) (size : Nat) (entry : Nat → List Byte) (lo n : Nat) : List Byte :=
  let first := (lo - 64) / size
  let cnt := if lo + n ≤ 64 then 0 else (lo + n - 64 + size - 1) / size - first
  let body := ((List.range cnt).map fun i => entry (first + i)).flatMap fun b => padTo size b
  if lo < 64 then padTo n ((head ++ body).drop lo) else padTo n (body.drop ((lo - 64) % size))

/-- `n` bytes of the media log from offset `lo`. -/
def State.mediaSlice (s : State) (lo n : Nat) : List Byte :=
  let m := s.media
  let head := pageOf 64 [(0, leBytes 4 m.ents.length), (8, leBytes 8 ((m.ents.head?.map MediaEntry.seq).getD 0) ++ leBytes 8 m.lost)]
  logSlice head 64 (fun i => ((m.ents[i]?).map mediaBytes).getD []) lo n

/-- `n` bytes of the configuration journal from offset `lo`. -/
def State.journalSlice (s : State) (lo n : Nat) : List Byte :=
  let k := s.kpr
  let head := pageOf 64 [(0, leBytes 4 k.nextSeq ++ leBytes 2 k.fuses.steps ++ leBytes 2 k.fuses.lcs), (0x10, padTo 32 s.headHash)]
  logSlice head 128 (fun i => (mapFind k.entries i).getD []) lo n

/-- A page of fixed contents, from offset `lo`. -/
def cut (b : List Byte) (lo n : Nat) : List Byte := padTo n (b.drop lo)

/-- A removing read of the Deferred Error log returns bytes [lo, lo + n): the entries that lie in them leave the log (R433). -/
def State.deferTaken (s : State) (c lo n : Nat) : State :=
  let x := s.ctrl c
  let keep := (List.range x.defer.length).filter fun i => !(lo ≤ 64 + 32 * i && 96 + 32 * i ≤ lo + n)
  s.setCtrl c { x with defer := keep.filterMap (x.defer[·]?), deferOvf := false }

/-- The bytes of a log page that a command asks for, and what the read leaves behind; none: no such page (log entries 86 and 109). -/
def State.logData (s : State) (k : Cmd) (lo n : Nat) : Option (State × List Byte) :=
  let c := k.ctrl
  let x := s.ctrl c
  match k.e.d10.toNat % 256 with
  | 0x01 => some (s, cut (s.errPage c) lo n)
  | 0x02 => let (s, f) := s.freeBytes 59; some (s, cut (s.smartPage c f) lo n)
  | 0x03 => some (s, cut s.slotPage lo n)
  | 0x04 => some (s.setCtrl c { x with changed := [] },
      cut (if 1024 < x.changed.length then pageOf 4096 [(0, leBytes 4 0xFFFF_FFFF)] else nsList (x.changed.mergeSort (· ≤ ·)) 0) lo n)
  | 0x05 => some (s, cut (s.effectsPage c) lo n)
  | 0x81 => some (s, cut s.sanitizePage lo n)
  | 0xBF => some ({ s with qen := { s.qen with zonesChanged := [] } }, cut s.zonePage lo n)
  | 0xC0 => some (if k.e.d10.getLsbD 8 then s else s.deferTaken c lo n, cut (s.deferBytes c) lo n)
  | 0xC1 => some (s, s.mediaSlice lo n)
  | 0xC2 => if s.isPf c then some (s, s.journalSlice lo n) else none
  | _ => none

/-- GET_LOG_PAGE (R411, R413, R417, R433). -/
def execGetLogPage (tag : Nat) (tun : Option Tunnel) (s : State) : Host.Outcome State Fault Refusal :=
  next (fun s => s.viaMi tun tag fun tag s => s.admin tag 2 fun s k =>
    let n := 4 * (natBits k.e.d10.toNat 16 16 + natBits k.e.d11.toNat 0 16 * 2 ^ 16 + 1)
    let lo := k.e.d12.toNat + k.e.d13.toNat * 2 ^ 32
    if 2097152 < n ∨ lo % 4 ≠ 0 ∨ k.e.d14.getLsbD 23 then s.failCmd tag 0 2
    else match s.logData k lo n with
      | some (s, b) => (s.emit (.hostData k.ctrl b)).completeOk tag
      | none => s.failCmd tag 1 9) s

/-! ### NVMe-MI commands (R410, R411) -/

/-- A message comes to the endpoint, which answers a status, three bytes of management response, and data (log entries 83 and 110). -/
def State.mi_ (s : State) (p : Fin 3) (run : State → State × Nat × Nat × List Byte) : State :=
  if !s.miPort p.val then s else
  let (s, st, r, b) := run (s.raise (miHib p.val) 10)
  s.emit (.data (leBytes 1 st ++ leBytes 3 r ++ b))

/-- Success with data. -/
def miOk (s : State) (b : List Byte) : State × Nat × Nat × List Byte := (s, 0, 0, b)

/-- Invalid Parameter. -/
def miBad (s : State) : State × Nat × Nat × List Byte := (s, 4, 0, [])

/-- The MCTP transmission unit of a port (log entry 110). -/
def State.mtu (s : State) (p : Nat) : Nat := mapGet (fun _ => 64) s.mi.mtu p

/-- Speed of the SMBus as NVMe-MI codes it: 1 100 kHz, 2 400 kHz, 3 1 MHz. -/
def State.smbFreq (s : State) : Nat := s.fget (pHib 0) Reg.HIB_MI 8 2 + 1

/-- Ports of the endpoint: P0, P1 unless ×8, SMBus. -/
def State.miPorts (s : State) : List Nat := if s.x8 then [0, 2] else [0, 1, 2]

/-- Port Information. -/
def State.miPortInfo (s : State) (p : Nat) : List Byte :=
  let head := leBytes 2 (Config.maxMtu p).toNat ++ leBytes 4 0
  if p = 2 then pageOf 32 [(0, [2, 0] ++ head), (10, leBytes 1 (s.fget (pHib 0) Reg.HIB_MI 0 7) ++ [3]), (12, [1])]
  else
    pageOf 32 [(0, [1, 0] ++ head), (8, [1, 0x1F] ++ leBytes 1 (s.lstat p 9 3) ++ leBytes 1 (if s.x8 then 8 else 4)
      ++ leBytes 1 (s.lstat p 12 4) ++ leBytes 1 p)]

/-- Commands that are optional in NVMe-MI and that the endpoint serves: type and opcode. -/
def miCommands : List Byte := [1, 6, 1, 2, 1, 0x0A, 1, 9, 0, 5, 0, 6]

/-- READ_NVME_MI_DATA_STRUCTURE: structure `dtyp` of port `portId` or controller `ctrlId`. -/
def execReadNvmeMiDataStructure (port : Fin 3) (dtyp portId ctrlId : Nat) (s : State) : Host.Outcome State Fault Refusal :=
  next (fun s => s.mi_ port fun s =>
    match dtyp with
    | 0 => miOk s (pageOf 32 [(0, leBytes 1 (s.miPorts.length - 1) ++ [1, 2])])
    | 1 => if s.miPorts.contains portId then miOk s (s.miPortInfo portId) else miBad s
    | 2 => let l := (s.allCtrls.filter (ctrlId ≤ ·)).take 2047; miOk s (leBytes 2 l.length ++ l.flatMap (leBytes 2))
    | 3 => if s.slotEnabled ctrlId then miOk s (pageOf 32 [(0, leBytes 1 (s.portOf ctrlId)), (4, (List.range 4).map Config.identityByte)]) else miBad s
    | 4 => miOk s (leBytes 2 6 ++ miCommands)
    | _ => miBad s) s

/-- The controller flags of NVMe-MI: RDY 0, CFS 1, namespaces changed 6, firmware activated 7, and critical warning 12. -/
def State.miFlags (s : State) (c : Nat) : Nat :=
  (if s.rdy c then 1 else 0) + (if (s.ctrl c).cfs || s.bit pEvf Reg.EVF_FATAL 0 then 2 else 0) + (if (s.ctrl c).changed.isEmpty then 0 else 64)
    + (if s.tempWarn c then 4096 else 0)

/-- The composite controller status: flags that some controller shows. -/
def State.miComposite (s : State) : Nat := s.allCtrls.foldl (fun m c => m ||| s.miFlags c) 0

/-- Percentage used, and spare, which the manual gives no value of. -/
def State.openByte (s : State) : State × List Byte := s.freeBytes 1

/-- SUBSYSTEM_HEALTH_STATUS_POLL: `clear` clears the composite status; a flag shows again once it has gone and come back. -/
def execSubsystemHealthStatusPoll (port : Fin 3) (clear : Bool) (s : State) : Host.Outcome State Fault Refusal :=
  next (fun s => s.mi_ port fun s =>
    let now := s.miComposite
    let cleared := s.mi.health &&& now
    let s := { s with mi := { s.mi with health := if clear then now else cleared } }
    let (s, used) := s.openByte
    let nss := (if s.linkUp 0 then 8 else 0) + (if s.linkUp 1 then 4 else 0) + 16 + if s.bit pEvf Reg.EVF_FATAL 0 then 0 else 32
    miOk s (leBytes 1 nss ++ [if s.tempWarn 0 then 0xFD else 0xFF] ++ leBytes 1 (unsignedOf 8 s.hottest) ++ used
      ++ leBytes 2 (now &&& (cleared ^^^ 0xFFFF)) ++ leBytes 2 0)) s

/-- CONTROLLER_HEALTH_STATUS_POLL: up to `most` controllers from identifier `start`; `clear` clears their changed flags. -/
def execControllerHealthStatusPoll (port : Fin 3) (start most : Nat) (clear : Bool) (s : State) : Host.Outcome State Fault Refusal :=
  next (fun s => s.mi_ port fun s =>
    let l := (s.allCtrls.filter (start ≤ ·)).take (min most 255)
    let (s, open_) := s.freeBytes (2 * l.length)
    let entry (i c : Nat) : List Byte :=
      leBytes 2 c ++ leBytes 2 (s.miFlags c &&& 0xC3) ++ leBytes 2 s.kelvin ++ (open_.drop (2 * i)).take 2
        ++ [if s.tempWarn c then 2 else 0] ++ leBytes 7 0
    let b := (l.zipIdx.map fun (e : Nat × Nat) => entry e.2 e.1).flatten
    let s := if clear then l.foldl (fun (s : State) c => s.setCtrl c { s.ctrl c with changed := [] }) s else s
    (s, 0, l.length * 2 ^ 16, b)) s

/-- CONFIGURATION_GET: 01h SMBus frequency, 02h health status change, 03h MCTP transmission unit. -/
def execConfigurationGet (port : Fin 3) (dw0 : BitVec 32) (s : State) : Host.Outcome State Fault Refusal :=
  next (fun s => s.mi_ port fun s =>
    let p := natBits dw0.toNat 24 8
    match dw0.toNat % 256 with
    | 1 => if p = 2 then (s, 0, s.smbFreq, []) else miBad s
    | 2 => miOk s []
    | 3 => if s.miPorts.contains p then (s, 0, s.mtu p, []) else miBad s
    | _ => miBad s) s

/-- CONFIGURATION_SET. -/
def execConfigurationSet (port : Fin 3) (dw0 dw1 : BitVec 32) (s : State) : Host.Outcome State Fault Refusal :=
  next (fun s => s.mi_ port fun s =>
    let p := natBits dw0.toNat 24 8
    let f := natBits dw0.toNat 8 4
    let m := natBits dw1.toNat 0 16
    match dw0.toNat % 256 with
    | 1 => if p = 2 ∧ 1 ≤ f ∧ f ≤ 3 then miOk (s.fset (pHib 0) Reg.HIB_MI 8 2 (f - 1)) [] else miBad s
    | 2 => miOk { s with mi := { s.mi with health := s.mi.health ||| (dw1.toNat &&& s.miComposite) } } []
    | 3 =>
      if s.miPorts.contains p ∧ 64 ≤ m ∧ m ≤ max 64 (Config.maxMtu p).toNat then
        miOk { s with mi := { s.mi with mtu := mapSet (fun _ => 64) s.mi.mtu p m } } []
      else miBad s
    | _ => miBad s) s

/-- A byte of the Vital Product Data. -/
def State.vpd (s : State) (i : Nat) : Byte := mapGet Config.vpdByte s.mi.vpd i

/-- Bytes of Vital Product Data that the endpoint holds: what one message carries (log entry 110). -/
def vpdSize : Nat := 4096

/-- VPD_READ (R411). -/
def execVpdRead (port : Fin 3) (ofs len : Nat) (s : State) : Host.Outcome State Fault Refusal :=
  next (fun s => s.mi_ port fun s =>
    if vpdSize < ofs + len then miBad s else miOk s ((List.range len).map fun i => s.vpd (ofs + i))) s

/-- VPD_WRITE (R411). -/
def execVpdWrite (port : Fin 3) (ofs : Nat) (data : List Byte) (s : State) : Host.Outcome State Fault Refusal :=
  next (fun s => s.mi_ port fun s =>
    if vpdSize < ofs + data.length then miBad s
    else
      let m := (data.zipIdx ofs).foldl (fun m (e : Byte × Nat) => mapSet Config.vpdByte m e.2 e.1) s.mi.vpd
      miOk { s with mi := { s.mi with vpd := m } } []) s

/-- NVME_MI_RESET: type 0 resets the NVM subsystem, as NSSR does. -/
def execNvmeMiReset (port : Fin 3) (typ : Nat) (s : State) : Host.Outcome State Fault Refusal :=
  next (fun s =>
    if !s.miPort port.val then s
    else if typ ≠ 0 then s.mi_ port miBad
    else (s.warm 1).emit (.data [0, 0, 0, 0])) s

/-- SET_ENDPOINT_ID: the bus owner of management port `port` assigns `eid`; 0 and FFh are no endpoint IDs. -/
def execSetEndpointId (port : Fin 3) (eid : BitVec 8) (s : State) : Host.Outcome State Fault Refusal :=
  next (fun s =>
    if !s.miPort port.val then s else
    let bad := eid = 0 ∨ eid = 0xFF
    let s := if bad then s
      else if port = 2 then s.fset (pHib 0) Reg.HIB_MI_SMB 0 8 eid.toNat
      else s.fset (pHib port.val) Reg.HIB_MI 24 8 eid.toNat
    s.emit (.data (if bad then [2] else [0, 0] ++ leBytes 1 eid.toNat ++ [0]))) s

/-! ### Software sources and pulses (R562 to R564, R567) -/

/-- A software source occurs: it is delivered if its route is in force. -/
def State.swSource (s : State) (n : Nat) : State :=
  let s := s.fset pEvf (Reg.EVF_SWPEND (n / 32)) (n % 32) 1 1
  let r := s.route (0xF00 + n)
  if bitsOf r 0 1 = 1 then s.deliverRoute r else s

/-- SOFTWARE_SOURCE: EVF_SWSET is written with GO; who asks makes no difference. -/
def execSoftwareSource (_ : Requester) (n : Fin 256) (s : State) : Host.Outcome State Fault Refusal :=
  next (fun s => s.swSource n.val) s

/-- PULSE_END (R565, R567). -/
def execPulseEnd (pin : Fin 4) (s : State) : Host.Outcome State Fault Refusal :=
  next (fun s => { s with pulses := s.pulses.filter (· != pin.val) }) s

end Sys2Proof.Machine
end

