-- ==== Sys2Proof/Machine/RegRead.lean ====
section
/-! DEFINITION. Reading the register space: the registers that mirror other state, and the reads with an effect (R36 to R40, R48). -/

namespace Sys2Proof.Machine

/-! ### Registers computed at a read -/

/-- CAP0 and CAP1 of a block (chapters 3 to 23). -/
def capsOf (t : BlkType) : Nat × Nat :=
  match t with
  | .tfe => (70 + 16 * 2 ^ 8 + 8 * 2 ^ 16, 2560)
  | .tdt => (70 + 2 ^ 7 + 5 * 2 ^ 8 + 24 * 2 ^ 16, 4)
  | .fmt => (8 + 3 * 2 ^ 4 + 64 * 2 ^ 8 + 2 ^ 16 + 2 ^ 24, 2048 + 4 * 2 ^ 16)
  | .dcf => (48 + 16 * 2 ^ 8 + 64 * 2 ^ 16 + 2 ^ 24, 640 + 16 * 2 ^ 16)
  | .svd => (4 + 2 * 2 ^ 4, 200)
  | .lpe => (16 + 8 * 2 ^ 8 + 4 * 2 ^ 12 + 8 * 2 ^ 16 + 2 * 2 ^ 20, 8 + 2 * 2 ^ 8 + 8 * 2 ^ 12)
  | .tpi => (255 + 4 * 2 ^ 8 + 16 * 2 ^ 16, 256)
  | .flc => (8 + 4 * 2 ^ 4 + 5 * 2 ^ 8, 512)
  | .ftm => (512 + 4 * 2 ^ 10 + 128 * 2 ^ 16, 512)
  | .dmc => (2 + 2 * 2 ^ 2 + 10 * 2 ^ 8, 64)
  | .ccl => (8 + 64 * 2 ^ 8 + 2 ^ 16 + 4 * 2 ^ 24, 256 + 4 * 2 ^ 16)
  | .rtx => (8 + 4 * 2 ^ 24, 512)
  | .cxe => (12 + 4 * 2 ^ 4 + 12 * 2 ^ 8 + 16 * 2 ^ 16, 23)
  | .aee => (512 + 4 * 2 ^ 10 + 4096 * 2 ^ 16, 32)
  | .hse => (8 + 2 * 2 ^ 4 + 4 * 2 ^ 8 + 0x033E * 2 ^ 16, 16)
  | .ase => (64 + 32 * 2 ^ 8 + 16 * 2 ^ 16 + 7 * 2 ^ 21, 1024 + 12 * 2 ^ 16)
  | .hib => (5 + 4 * 2 ^ 4 + 2 ^ 8, 256)
  | .img => (256 + 2 ^ 12 + 2 ^ 16, 8192 + 64 * 2 ^ 14)
  | .kpr => (512 + 5 * 2 ^ 12 + 2 ^ 16, 1024)
  | .agm => (0, Config.tempGrade.toNat)
  | .evf => (4096 + 4 * 2 ^ 16 + 64 * 2 ^ 24, 256)
  | _ => (0, 0)

/-- BLK_STAT: a block that is enabled and not in a soft reset is ready (log entry 15). -/
def State.blkStat (s : State) (b : Blk) : Nat :=
  let k := s.blk b.base
  let err := (List.range 4).any (fun i => s.rg b.base (Reg.ERR_CNT i) != 0) || s.fget b.base Reg.BAD_WR_CNT 0 16 != 0
  flag (s.enabled b.base) 0 + flag (!k.jobs.isEmpty) 1 + flag (s.bit b.base Reg.BLK_CTRL 2) 2 + flag err 3
    + flag (s.stgPend b) 4 + flag k.active 5 + flag k.srst 6

/-- The header registers that are computed: BLK_ID holds the page's own index, which the other registers do not depend on (log entry 8). -/
def State.hdrView (s : State) (b : Blk) (pg off : Nat) : Option Nat :=
  if off = Reg.BLK_ID then some (b.typ.code * 2 ^ 16 + b.inst * 2 ^ 8 + pg)
  else if off = Reg.BLK_VER then some (2 ^ 24 + (Config.blkMinor b.base).toNat * 2 ^ 16 + (Config.blkBuild b.base).toNat)
  else if off = Reg.BLK_CAP0 then some (capsOf b.typ).1
  else if off = Reg.BLK_CAP1 then some ((capsOf b.typ).2 + (b.pages - 1) * 2 ^ 24)
  else if off = Reg.BLK_CTRL then some ((s.rg b.base off).toNat + flag (s.blk b.base).srst 1)
  else if off = Reg.BLK_STAT then some (s.blkStat b)
  else if off = Reg.STG_CTRL then some ((s.rg b.base off).toNat + flag ((s.blk b.base).active || (s.blk b.base).held) 0)
  else none

/-- The job that the instance at `pg` runs. -/
def State.runJob (s : State) (pg : Nat) : Option Job := (s.taken pg).head?

/-- Lanes of class `c` of HSE that run jobs: as many as jobs, and which of them is left open. -/
def State.hseLane (s : State) (c n : Nat) : Nat :=
  let tags := (s.jobs.filter fun e => (e.2.inst.map (·.1)) == some pHse && (hseLanes (e.2.param1 % 16)).1 == c).map (·.1)
  let k := min n tags.length
  let m := Config.hseMask tags c
  if m < 2 ^ n ∧ ((List.range n).filter fun i => natBits m i 1 == 1).length = k then m else 2 ^ k - 1

/-- AEE_SHUT of the instance at `pg` (log entry 23). -/
def State.shutView (s : State) (pg : Nat) : Nat :=
  let used := (s.jobs.filterMap fun e => if (e.2.inst.map (·.1)) = some pg then e.2.slot else none).map fun u => 2 ^ u.2
  let largest := ((List.range 7).reverse.find? fun k => (s.shutFind pg k).isSome).getD 0
  let waits := (s.intakeOf 0x14).queue.filter fun t =>
    match mapFind s.jobs t with
    | some j => s.satisfies pg j.cfgEpoch && !s.shutRoom pg j
    | none => false
  (64 - used.sum) + largest * 2 ^ 8 + min waits.length 1023 * 2 ^ 16

/-- Word `w` of the status entry of key slot `k`. -/
def State.slotView (s : State) (k w : Nat) : Nat :=
  match mapFind s.kpr.keys k with
  | none => 0
  | some x => if w = 0 then 1 + x.typ % 16 * 2 + x.usage % 256 * 2 ^ 8 + x.owner % 65536 * 2 ^ 16 else x.inv % 2 ^ 32

/-- The computed registers of ASE (log entry 23). -/
def State.aseView (s : State) (pg off : Nat) : Option Nat :=
  let i := (off - 0x080) / 8
  let hi := off % 8 = 4
  let runs (srch : Bool) (t : Nat) : Bool := (s.taken pAse).any fun j => j.param0 % 16 == t && aseSearches j.opcode == srch
  if pg = 0 then
    if off = Reg.ASE_STAT then some (maskWhere 16 (runs true) + maskWhere 16 (runs false) * 2 ^ 16)
    else if off = Reg.ASE_CTX then some (maskWhere 32 fun c => (mapFind s.ase.ctxs c).isSome)
    else none
  else if pg = 1 ∧ i < 64 ∧ hi then
    let m := s.bankUnits i
    let w := s.bankWidth i
    let v := ((List.range (1024 / w)).filter fun sl => (entryUnits m w sl).isSome).length
    some (v + (1024 / w - v) * 2 ^ 16)
  else if pg = 2 ∧ i < 16 ∧ !hi then
    some (s.fget (pAse + 2) off 0 17 + Nat.log2 (max 1 (s.aseWidth i)) * 2 ^ 17 + (s.tableBanks i).length * 2 ^ 24)
  else if pg = 3 ∧ i < 32 then
    match mapFind s.ase.ctxs i with
    | some x => some (if hi then 0 else 1 + x.table % 16 * 2 + flag x.stale 5 + min x.pos.length 255 * 2 ^ 8 + x.func % 65536 * 2 ^ 16)
    | none => some 0
  else none

/-- The computed registers of CCL `n` and, with `n` 4, of RTX. -/
def State.cclView (s : State) (n pg off : Nat) : Option Nat :=
  let o := off - 0x080
  if pg = 1 then
    let k := 8 * n + o / 0x40
    let x := s.core k
    if o < 0x200 ∧ o % 0x40 = 8 then
      let (st, stop) := match x.mode with
        | .inReset => (0, 0)
        | .running => (1, 0)
        | .waiting _ => (2, 0)
        | .stopped c => (3, c)
      some (st + flag (n < 4 && x.bench.isSome) 2 + ((x.bench.map (·.b)).getD 0) * 2 ^ 8 + stop % 4 * 2 ^ 16)
    else none
  else if n < 4 ∧ pg = 2 ∧ o % 0x10 = 0 ∧ o / 0x10 < 64 then
    let y := s.benchOf (64 * n + o / 0x10)
    some (flag (y.state != 0) 0 + y.state % 8 * 2 ^ 4 + (if y.state = 0 then 0 else y.func % 65536 * 2 ^ 16))
  else if n < 4 ∧ pg = 3 ∧ o % 0x20 = 0x10 ∧ o / 0x20 < 64 then
    some ((s.rg (pCcl n + 3) off).toNat % 2 ^ 17 + flag (s.streamOf (64 * n + o / 0x20)).closed 17)
  else none

/-- The computed registers of the page of function slot `k` (IMG), and the summaries of page 0 (log entry 23). -/
def State.imgView (s : State) (k off : Nat) : Option Nat :=
  let f := s.func k
  if off = Reg.IMG_FN then
    some (flag (s.isPf k) 0 + s.parent k * 2 + s.pfIndex k % 256 * 2 ^ 8 + flag (s.slotEnabled k) 16 + flag (s.isPf k || f.online) 17)
  else if off = Reg.IMG_RES then some (f.vq % 4096 + f.vi % 4096 * 2 ^ 16)
  else if off = Reg.IMG_EPOCH then some (f.epoch.toNat + f.flrCnt % 65536 * 2 ^ 16)
  else if off = Reg.IMG_CTL then some (f.ctl.share % 1024 + f.ctl.bquota % 512 * 2 ^ 16)
  else if off = Reg.IMG_ECAP then some (f.ctl.ecap % 2 ^ 24)
  else if off = Reg.IMG_POWER then some (f.mean % 2 ^ 24 + flag f.overCap 31)
  else if off = Reg.IMG_MIG then
    let st := match f.mig with
      | .running => 0
      | .draining => 1
      | .frozen => 2
      | .saving => 3
      | .saved => 4
      | .restoring => 5
    some (st + f.result % 16 * 2 ^ 8)
  else if off = Reg.IMG_INFL then
    let c := (s.cmds.filter fun e => e.2.ctrl == k).length
    let j := (s.jobs.filter fun e => e.2.func == k).length
    some (c % 2 ^ 17 + min j (2 ^ 15 - 1) * 2 ^ 17)
  else if off = Reg.IMG_TVER then some (s.agreed k)
  else if off = Reg.IMG_TABLES then some (f.granted % 65536)
  else if off = Reg.IMG_T2M then some (natBits (s.tGet k 8) 2 31)
  else if off = Reg.IMG_M2T then some (natBits (s.tGet k 0x48) 33 31)
  else if k = 0 ∧ Reg.IMG_ONLINE 0 ≤ off ∧ off < Reg.IMG_ONLINE 8 then
    some (maskWhere 32 fun i => s.slotOnline (8 * (off - Reg.IMG_ONLINE 0) + i))
  else if k = 0 ∧ Reg.IMG_FROZEN 0 ≤ off ∧ off < Reg.IMG_FROZEN 8 then
    some (maskWhere 32 fun i => let m := (s.func (8 * (off - Reg.IMG_FROZEN 0) + i)).mig; m == .frozen || m == .saved)
  else none

/-- The computed registers of KPR. -/
def State.kprView (s : State) (off : Nat) : Option Nat :=
  let k := s.kpr
  let f := k.fuses
  if off = Reg.KPR_LCS then some (f.lcs % 8 + flag k.debug 8 + flag k.jfault 9 + flag k.sealedTier 10)
  else if off = Reg.KPR_SECEP then some (f.secEpoch % 256 + (255 - f.secUsed) * 2 ^ 8)
  else if off = Reg.KPR_FCNT then
    some ((15 - f.ownerUsed) + (8 - f.portUsed) * 2 ^ 8 + (7 - f.ikeyUsed) * 2 ^ 16 + (3 - f.dbgUsed) * 2 ^ 20)
  else if off = Reg.KPR_JSEQ then some (k.nextSeq % 2 ^ 32)
  else if off = Reg.KPR_JFUSE then some (f.steps % 2048 + flag (f.steps == 1024) 16)
  else if off = Reg.KPR_DEVID_LO then some (s.devId % 2 ^ 32)
  else if off = Reg.KPR_DEVID_HI then some (s.devId / 2 ^ 32 % 2 ^ 32)
  else if off = Reg.KPR_ALARM then
    some (s.fget pKpr off 0 4 + k.latch % 16 * 2 ^ 8 + s.fget pKpr off 16 4 * 2 ^ 16)
  else if off = Reg.KPR_POLICY then some (k.policy % 8 + natBits k.policy 8 8 * 2 ^ 8)
  else if off = Reg.KPR_SEALS then some (k.seals.length % 2 ^ 32)
  else none

/-- The block-specific registers that are computed; RATE_ERR and FTM_DIV_STAT also right after reset (R66, R98, R224; log entry 150). -/
def State.blkView (s : State) (b : Blk) (pg off : Nat) : Option Nat :=
  match b.typ with
  | .tdt =>
    if pg = 0 ∧ Reg.TDT_LOCKN 0 ≤ off ∧ off < Reg.TDT_LOCKN 3 then
      some (maskWhere 32 fun i =>
        let n := 8 * (off - Reg.TDT_LOCKN 0) + i
        n < 70 && s.locked n)
    else if pg = 0 ∧ off = Reg.TDT_STAT then some ((s.rg pTdt off).toNat + flag s.rateErr 0)
    else if pg = 1 ∧ Reg.TDT_TIM 66 0 ≤ off ∧ off < Reg.TDT_TIM 70 0 ∧ off % 0x10 = 8 then
      some ((s.rg (pTdt + 1) off).toNat + flag (s.locked ((off - Reg.TDT_TIM 0 0) / 0x10)) 0)
    else none
  | .flc => if pg = 0 ∧ off = Reg.FLC_STAT then some ((s.rg b.base off).toNat + maskWhere 8 (s.ceBusy b.inst) * 2 ^ 8) else none
  | .ftm =>
    if pg = 0 ∧ off = Reg.FTM_DIV_STAT then some (s.tpi.divert.length % 65536 + flag s.divFull 16 + flag s.divBusy 17) else none
  | .lpe =>
    if pg = 31 ∧ off = Reg.ACT_Q then
      let q (l : Nat) := (s.lane l).queue.length + (s.lane l).safe.length + (s.lane l).fw.length
      some (q 0 % 32 + q 1 % 32 * 2 ^ 8)
    else none
  | .cxe =>
    if pg = 0 ∧ off = Reg.CXE_STAT then
      some (match s.runJob b.base with
        | some j => 1 + j.opcode % 4 * 2 + (if j.opcode = 1 then natBits j.param0 8 4 * 2 ^ 8 else 0) + j.func % 65536 * 2 ^ 16
        | none => 0)
    else none
  | .aee =>
    if pg = 0 ∧ off = Reg.AEE_STAT then
      some (match s.runJob b.base with
        | some j => 1 + j.opcode % 128 * 2 + j.func % 65536 * 2 ^ 16
        | none => 0)
    else if pg = 0 ∧ off = Reg.AEE_SHUT then some (s.shutView b.base)
    else if b.inst = 0 ∧ 2 ≤ pg ∧ 0x080 ≤ off ∧ off < 0x880 then
      some (s.slotView (256 * (pg - 2) + (off - 0x080) / 8) (off % 8))
    else none
  | .hse =>
    if pg = 0 ∧ off = Reg.HSE_BUSY then some (s.hseLane 0 8 + s.hseLane 1 2 * 2 ^ 8 + s.hseLane 2 4 * 2 ^ 12) else none
  | .ase => s.aseView pg off
  | .ccl => s.cclView b.inst pg off
  | .rtx => s.cclView 4 pg off
  | .hib =>
    if pg ≠ 0 then none
    else if off = Reg.HIB_LSTAT then some ((s.rg b.base off &&& ~~~ 0x200000).toNat + flag (s.port b.inst).perst 21)
    else if b.inst = 1 ∧ (off = Reg.HIB_MODE ∨ off = Reg.HIB_MI_SMB) then some 0
    else if b.inst = 1 ∧ off = Reg.HIB_MI then some (s.fget b.base off 24 8 * 2 ^ 24)
    else none
  | .img => s.imgView pg off
  | .kpr => if pg = 0 then s.kprView off else none
  | .agm =>
    if pg = 1 ∧ 0x080 ≤ off ∧ off < 0x200 then
      let i := (off - 0x080) / 8
      some (if off % 8 = 0 then s.fget (pAgm + 1) off 0 12 + (Config.monBase i).toNat * 2 ^ 16
        else (Config.monSens i).toNat + (Config.monKt i).toNat * 2 ^ 8)
    else none
  | .emt =>
    if pg = 1 ∧ 0x080 ≤ off ∧ off < 0x880 then
      let e := njSum (s.func ((off - 0x080) / 8)).nj / 1000
      some (if off % 8 = 0 then e % 2 ^ 32 else e / 2 ^ 32 % 2 ^ 32)
    else none
  | _ => none

/-- A register as a read shows it, apart from what the requester may see: computed, stored or, with VIEW, the shadow of its RWS
fields. WO fields read as zero (R50; log entry 23). -/
def State.regView (s : State) (b : Blk) (pg off : Nat) : RegWord :=
  let flds := fldsOf b pg off
  if flds.isEmpty then 0 else
  let v : RegWord := match if off < 0x080 then s.hdrView b pg off else s.blkView b pg off with
    | some v => BitVec.ofNat 32 v
    | none => s.rg (b.base + pg) off
  let v := v &&& ~~~ accMask flds [.wo]
  if s.bit b.base Reg.STG_CTRL 2 then
    let m := accMask flds [.rws]
    (v &&& ~~~ m) ||| (s.shadow (b.base + pg) off &&& m)
  else v

/-! ### Reads (R38, R39, R48) -/

/-- The low registers whose read latches the register above (log entry 19). -/
def latchesHigh (b : Blk) (pg off : Nat) : Bool :=
  off == Reg.ENERGY_LO || (pg == 0 && match b.typ with
    | .cxe => off == Reg.CXE_IN_LO || off == Reg.CXE_OUT_LO
    | .aee => off == Reg.AEE_IN_LO || off == Reg.AEE_OUT_LO
    | .hse => off == Reg.HSE_IN_LO
    | .ase => off == Reg.ASE_SRCH_LO
    | .emt => off == Reg.EMT_DEV_LO || off == Reg.EMT_UNATTR_LO
    | _ => false)

/-- The number of a requester, for the latches: core numbers, and 41 for an agent. -/
def reqNum (r : Requester) : Nat :=
  match r with
  | .core c => coreNum c
  | .agent => 41

/-- Key of the word latched for requester `r` of the register at `off` of page `page`. -/
def latchKey (r : Requester) (page off : Nat) : Nat := regKey page off * 64 + reqNum r

/-- A 32-bit read of the register at offset `off` of register page `page` by `req` (log entry 19). -/
def State.regRead32 (s : State) (req : Requester) (page off : Nat) : State × RegWord :=
  match blkAt page with
  | none => (s, 0)
  | some b =>
    let own := page - b.base
    let pg := if off < 0x080 ∧ off ≠ Reg.BLK_ID then 0 else own
    if 0x080 ≤ off ∧ b.typ = .kpr ∧ req ≠ .core .keeper then (s, 0)
    else if (fldsOf b pg off).isEmpty ∧ off ≠ Reg.BLK_ID then (s, 0)
    else if off = Reg.BLK_ID then (s, BitVec.ofNat 32 ((s.hdrView b own off).getD 0))
    else
      let p := b.base + pg
      if latchesHigh b pg off then
        ({ s with latches := mapPut s.latches (latchKey req p (off + 4)) (s.regView b pg (off + 4)) }, s.regView b pg off)
      else if 4 ≤ off ∧ latchesHigh b pg (off - 4) then
        match mapFind s.latches (latchKey req p off) with
        | some v => ({ s with latches := mapDel s.latches (latchKey req p off) }, v)
        | none => (s, s.regView b pg off)
      else if p = pFmt ∧ off = Reg.FMT_RWREC then
        ((s.setFmt { s.fmt with queue := s.fmt.queue.drop 1, lost := 0 }).showFmt, s.rg p off)
      else if p = pFtm ∧ off = Reg.FTM_UNREC 2 then s.unrecRead
      else if p = pLpe + 31 ∧ Reg.ADC_DATA 0 ≤ off ∧ off < Reg.ADC_DATA 8 then (s.fset p off 16 1 0, s.rg p off)
      else (s, s.regView b pg off)

/-- A read of `n` bytes at offset `o` of the register space: none is a bus error. -/
def State.regRead (s : State) (req : Requester) (o n : Nat) : State × Option Nat :=
  if n = 4 ∧ o % 4 = 0 then
    let (s, v) := s.regRead32 req (o / 4096) (o % 4096)
    (s, some v.toNat)
  else if n = 8 ∧ o % 8 = 0 then
    let (s, lo) := s.regRead32 req (o / 4096) (o % 4096)
    let (s, hi) := s.regRead32 req (o / 4096) (o % 4096 + 4)
    (s, some (lo.toNat + hi.toNat * 2 ^ 32))
  else (s, none)

/-- ENERGY_LO_READ: a read of ENERGY_LO of the block of `page`, or with `wide` of ENERGY_LO and ENERGY_HI in one. -/
def execEnergyLoRead (req : Requester) (page : Nat) (wide : Bool) (s : State) : Host.Outcome State Fault Refusal :=
  next (fun s =>
    match s.regRead req (page * 4096 + Reg.ENERGY_LO) (if wide then 8 else 4) with
    | (s, some v) => s.emit (.value v)
    | (s, none) => s.emit .busError) s

end Sys2Proof.Machine
end

