-- ==== Sys2Proof/Machine/RegWrite.lean ====
section
/-! DEFINITION. Writing the register space: reserved encodings, locked fields, staging, and what a write starts (R38, R41 to R53). -/

namespace Sys2Proof.Machine

/-! ### Reserved encodings (R51)

Each function below tells whether the word `v` puts a reserved encoding into a field of the register at offset `off` of a page. -/

/-- A signed field of a word. -/
def fieldI (v : RegWord) (lo len : Nat) : Int := signedOf len (bitsOf v lo len)

def badTfe (pg off : Nat) (v : RegWord) : Bool :=
  let f := bitsOf v
  if pg = 0 then
    if off = Reg.TFE_CTRL then f 0 2 == 3
    else if off = Reg.TFE_SRATE then f 0 12 == 0 || 2560 < f 0 12
    else if off = Reg.TFE_TARGET then f 10 10 == 0
    else if off = Reg.TFE_DROP then f 16 8 == 0
    else if off = Reg.TFE_WEAR then f 0 4 == 0
    else false
  else if off = Reg.CH_CFG then 120 < f 24 7
  else if off = Reg.CH_AGC then 120 < f 0 7
  else if off = Reg.CH_DGAIN then f 0 16 < 0x2000 || 0x8000 < f 0 16
  else false

def badTdt (pg off : Nat) (v : RegWord) : Bool :=
  let f := bitsOf v
  if pg = 0 then
    if off = Reg.TDT_CTRL then 2 ≤ f 1 2 || !([32, 48, 64].contains (f 8 7))
    else if off = Reg.TDT_NOMRATE then f 0 12 == 0 || 2048 < f 0 12
    else if off = Reg.TDT_FLIM then f 0 8 == 0
    else if off = Reg.TDT_JD then 5 ≤ f 16 3
    else false
  else if pg = 3 then 64 ≤ f 0 7
  else false

/-- START and EVICT of a table load register together. -/
def badLoad (v : RegWord) : Bool := bitsOf v 8 2 == 3

def State.badFmt (s : State) (off : Nat) (v : RegWord) : Bool :=
  let f := bitsOf v
  if off = Reg.FMT_WFMT then
    f 7 1 == 1 && (match s.table pFmt (f 0 3) with
      | some t => !t.writeOk
      | none => true)
  else if off = Reg.FMT_RFMT then
    (List.range 3).any fun i => f (4 * i + 3) 1 == 1 && (s.table pFmt (f (4 * i) 3)).isNone
  else if off = Reg.FMT_LOAD then badLoad v
  else false

def State.badDcf (s : State) (off : Nat) (v : RegWord) : Bool :=
  let f := bitsOf v
  if off = Reg.DCF_TRES then f 0 6 < 6 || 47 < f 0 6
  else if off = Reg.DCF_TDEAD then f 0 12 < 4 || 4000 < f 0 12
  else if off = Reg.DCF_SCHED then f 0 5 == 0
  else if off = Reg.DCF_LOAD then badLoad v
  else if off = Reg.DCF_SLOT_EN then
    let on := (List.range 16).filter fun n => f n 1 == 1
    let ids := on.map fun n => (s.table pDcf n).map (·.id)
    ids.contains none || !ids.Nodup
  else false

def badSvd (pg off : Nat) (v : RegWord) : Bool :=
  let f := bitsOf v
  if pg ≠ 0 then false
  else if off = Reg.SVD_TBS 0 then f 0 16 == 0 || f 16 16 == 0
  else if off = Reg.SVD_TBS 1 then f 16 16 < 100 || 1500 < f 16 16
  else if off = Reg.SVD_TBS 2 then f 0 4 < 2 || 8 < f 0 4 || f 16 16 == 0
  else if off = Reg.SVD_CMP then f 0 5 % 2 == 1 || f 0 5 < 4
  else false

/-- The codes of *Sample sources* that carry a value; 0x30, 0x31 and 0x3F trigger only. -/
def sampleSource (c : Nat) : Bool :=
  (1 ≤ c && c ≤ 8) || (0x10 ≤ c && c ≤ 0x1B) || (0x20 ≤ c && c ≤ 0x2F)

def State.badSlot (s : State) (n off : Nat) (v : RegWord) : Bool :=
  let f := bitsOf v
  let pg := pSlot n
  let w := off % 0x100
  if off = Reg.SLOT_CTRL then f 1 2 == 3
  else if off = Reg.SLOT_IO then
    (match f 0 2 with
      | 1 => 8 ≤ f 8 4
      | 2 => 2 ≤ f 8 4
      | 3 => f 8 4 == n
      | _ => false)
  else if off = Reg.SLOT_TIME then f 0 12 < 100 || 2000 < f 0 12
  else if 0x100 ≤ off ∧ off < 0x300 then
    if w = 0 then
      !sampleSource (f 0 6) || !(sampleSource (f 8 6) || f 8 6 == 0x30 || f 8 6 == 0x31 || f 8 6 == 0x3F)
        || 4 ≤ f 16 3 || 8 < f 24 4
    else if w = 0x20 then v.toInt < s.rgI pg (off + 4)
    else if w = 0x24 then s.rgI pg (off - 4) < v.toInt
    else false
  else false

def badTrace (off : Nat) (v : RegWord) : Bool :=
  let f := bitsOf v
  let w := (off - 0x080) % 0x40
  if w = 0 then 6 ≤ f 8 3
  else if w = 4 then (List.range 4).any fun k => 12 ≤ f (8 * k + 4) 4
  else if w = 0xC then 16383 < f 0 15
  else false

def State.badLpe (s : State) (pg off : Nat) (v : RegWord) : Bool :=
  let f := bitsOf v
  if 1 ≤ pg ∧ pg ≤ 16 then s.badSlot (pg - 1) off v
  else if 21 ≤ pg ∧ pg ≤ 28 then off == Reg.CURVE_DX && v == 0
  else if pg = 29 ∨ pg = 30 then badTrace off v
  else if pg = 31 then
    if off = Reg.PWM_PERIOD then f 0 16 < 5000
    else if off = Reg.ACT_LINK then f 4 8 < 9
    else if off = Reg.ADC_PERIOD then f 0 16 < 500
    else false
  else false

def State.badTpi (s : State) (pg off : Nat) (v : RegWord) : Bool :=
  let f := bitsOf v
  if pg ≠ 0 then false
  else if off = Reg.TPI_CMD then f 0 3 == 7 || (f 8 1 == 1 && (s.seqBusy || s.machineEntry (f 0 3) == 0xFF))
  else if Reg.TPI_SENS 0 ≤ off ∧ off < Reg.TPI_SENS 4 then f 0 2 == 3 || (f 0 2 == 1 && 8 ≤ f 4 4)
  else if off = Reg.TPI_CM_CTRL then badCm v
  else if off = Reg.TPI_RING_SIZE then f 0 16 == 0 || 4096 < f 0 16
  else if off = Reg.TPI_DIV then f 0 7 ≤ f 8 7 || f 16 7 ≤ f 0 7 || 100 < f 16 7
  else if off = Reg.TPI_WR then f 0 4 == 0
  else false

def badFlc (pg off : Nat) (v : RegWord) : Bool :=
  let f := bitsOf v
  if pg ≠ 0 then false
  else if off = Reg.FLC_RATE then 6 ≤ f 0 3
  else if off = Reg.FLC_TO then f 0 8 == 0 || f 8 8 == 0 || f 16 8 == 0
  else if off = Reg.FLC_RAW 0 then 6 ≤ f 16 3
  else if off = Reg.FLC_RAW 2 then 512 < f 16 10
  else false

/-- Two live dies share GROUP and POS. -/
def State.diesClash (s : State) : Bool :=
  let places := (((List.range 512).filter fun d => s.dieLive d).map fun d => s.dieReg d 7 9)
  !places.Nodup

def State.badFtm (s : State) (pg off : Nat) (v : RegWord) : Bool :=
  let f := bitsOf v
  if pg ≠ 0 then false
  else if off = Reg.FTM_CTRL then f 0 1 == 1 && s.diesClash
  else if off = Reg.FTM_DISC then f 0 1 == 1 && (s.fget pFtm Reg.FTM_DISC 16 4 == 1 || s.bit pFtm Reg.FTM_CTRL 0)
  else if off = Reg.FTM_IN then 512 < f 0 9 + f 16 9 + 64
  else if off = Reg.FTM_LOAD then badLoad v
  else if off = Reg.FTM_PATROL then f 8 5 == 0 || f 16 16 == 0
  else false

/-- Reserved encodings of DMC registers (R49, chapter 9; log entry 21). -/
def State.badDmc (s : State) (n pg off : Nat) (v : RegWord) : Bool :=
  let f := bitsOf v
  let w := (off - 0x080) % 0x20
  if pg = 0 then
    if off = Reg.DMC_CFG then f 0 2 == 0 || f 0 2 == 3 || (f 4 1 == 1 && f 0 2 == 1)
    else if off = Reg.DMC_GEOM then !([64, 96, 128].contains (f 0 9))
    else if off = Reg.DMC_TRAIN then f 1 2 == 3
    else if off = Reg.DMC_MIG then f 28 4 == 0 || 8 < f 28 4
    else if off = Reg.DMC_REF then 4 < f 0 3 || f 16 8 == 0
    else if off = Reg.DMC_RDIST then f 0 16 < 256
    else if off = Reg.DMC_ECC then 9 < f 16 4 || 9 < f 24 4
    else false
  else if pg = 1 then
    if w = 4 then 512 < f 0 9 + f 16 9
    else if w = 8 then f 0 16 ≤ f 16 16 || 16 * s.fget (pDmc 0 + 1) (off - 4) 16 9 < f 0 16
    else false
  else if pg = 2 then
    if w = 4 then f 8 8 < f 0 8 + bitsOf (s.shadow (pDmc n + 2) (off - 4)) 24 8
    else if w = 0xC then f 16 16 < 2 * f 0 16
    else false
  else false

/-- GO or OUT in a core entry is accepted only from the core itself where R317 allows the dispatch or the switch-out (log entry 21). -/
def State.badCoreRun (s : State) (req : Requester) (k : Nat) (v : RegWord) : Bool :=
  let c := s.core k
  let self : Bool := match req with
    | .core x => coreNum x == k
    | .agent => false
  let out := c.bench.isSome && !c.benchMode && c.tcause.getLsbD 16 && c.tps.getLsbD 4
  match bitsOf v 8 2 with
  | 0 => false
  | 1 => !(self && s.mayDispatch k (bitsOf v 0 6))
  | 2 => !(self && out)
  | _ => true

/-- Reserved encodings of CCL registers (R49, chapter 12; log entry 21). -/
def State.badCcl (s : State) (req : Requester) (n pg off : Nat) (v : RegWord) : Bool :=
  let o := off - 0x080
  if pg = 1 then o % 0x40 == 0xC && s.badCoreRun req (8 * n + o / 0x40) v
  else if pg = 2 then o % 0x10 == 0 && bitsOf v 0 1 == 0 && (s.benchOf (64 * n + o / 0x10)).state == 2
  else if pg = 3 then o % 0x20 == 0x10 && (bitsOf v 0 5 < 12 || 30 < bitsOf v 0 5)
  else false

def badCxe (pg off : Nat) (v : RegWord) : Bool :=
  let f := bitsOf v
  pg == 0 && Reg.CXE_LVL 1 ≤ off
    && (f 0 11 == 0 || 1024 < f 0 11 || f 12 2 == 3 || f 16 5 < 10 || 22 < f 16 5 || f 24 3 < 3)

/-- R378: reserved WIDTH, two widths of enabled banks in one table, judged on the shadows, or a new WIDTH for a bank that holds
valid units. -/
def State.badAse (s : State) (pg off : Nat) (v : RegWord) : Bool :=
  let i := (off - 0x080) / 8
  let sh (b : Nat) := s.shadow (pAse + 1) (Reg.ASE_ENT b)
  let mixed := (List.range 64).any fun b =>
    b != i && bitsOf (sh b) 0 1 == 1 && bitsOf (sh b) 1 4 == bitsOf v 1 4 && bitsOf (sh b) 5 2 != bitsOf v 5 2
  pg == 1 && off % 8 == 0
    && (bitsOf v 5 2 == 3 || (bitsOf v 0 1 == 1 && mixed)
      || (!(s.bankUnits i).isEmpty && bitsOf v 5 2 != s.fget (pAse + 1) off 5 2))

def State.badHib (s : State) (n pg off : Nat) (v : RegWord) : Bool :=
  let f := bitsOf v
  if pg ≠ 0 then false
  else if off = Reg.HIB_MODE ∧ n = 0 then f 0 2 == 3 || (f 0 2 == 0 && s.kpr.fuses.portMode != 0)
  else if off = Reg.HIB_LCTL then f 0 3 == 0 || 5 < f 0 3 || f 8 2 == 2
  else if off = Reg.HIB_MI ∧ n = 0 then f 0 7 == 0x6A || f 0 7 < 8 || f 8 2 == 3
  else false

def badImg (pg off : Nat) (v : RegWord) : Bool :=
  let f := bitsOf v
  if pg ≠ 0 then false
  else if off = Reg.IMG_MBX then 0x1F0 < f 0 9
  else if off = Reg.IMG_SPLIT then 254 < f 0 8 || 8064 < f 16 13
  else false

def badPcr (pg off : Nat) (v : RegWord) : Bool :=
  let f := bitsOf v
  if pg ≠ 1 then false
  else if off = Reg.PCR_PROF then f 0 2 == 3 || f 8 8 == 0
  else if off = Reg.PCR_CLK then f 0 8 < 4 || 20 < f 0 8 || f 8 8 < 4 || f 0 8 < f 8 8
  else if off = Reg.PCR_GOV then f 0 7 < 50 || 100 < f 0 7
  else false

def badAgm (pg off : Nat) (v : RegWord) : Bool :=
  let f := bitsOf v
  if pg ≠ 0 then false
  else if off = Reg.AGM_CTRL then f 8 8 == 0
  else if Reg.AGM_THR 0 ≤ off ∧ off < Reg.AGM_THR 4 then 5 ≤ f 8 3
  else false

/-- Does a write by `req` put a reserved encoding into some field of the register? (log entry 16) -/
def State.badEnc (s : State) (req : Requester) (b : Blk) (pg off : Nat) (v : RegWord) : Bool :=
  if off = Reg.BLK_CTRL then 2 < bitsOf v 4 4
  else if off = Reg.STG_CTRL then bitsOf v 0 2 == 3
  else if off < 0x080 then false
  else match b.typ with
  | .tfe => badTfe pg off v
  | .tdt => badTdt pg off v
  | .fmt => pg == 0 && s.badFmt off v
  | .dcf => pg == 0 && s.badDcf off v
  | .svd => badSvd pg off v
  | .lpe => s.badLpe pg off v
  | .tpi => s.badTpi pg off v
  | .flc => badFlc pg off v
  | .ftm => s.badFtm pg off v
  | .dmc => s.badDmc b.inst pg off v
  | .ccl => s.badCcl req b.inst pg off v
  | .cxe => badCxe pg off v
  | .ase => s.badAse pg off v
  | .hib => s.badHib b.inst pg off v
  | .img => badImg pg off v
  | .kpr => req == .core .keeper && off == Reg.KPR_ALARM && bitsOf v 16 4 != 0 && 2 ≤ s.kpr.fuses.lcs
  | .pcr => badPcr pg off v
  | .agm => badAgm pg off v
  | _ => false

/-! ### Locked fields (R46, R52)

Each function gives the locked bits of a register as a mask. -/

/-- All bits where `c` holds. -/
def lockAll (c : Bool) : RegWord := if c then 0xFFFF_FFFF else 0

def State.lockSlot (s : State) (n off : Nat) : RegWord :=
  let pg := pSlot n
  let req := s.bit pg Reg.SLOT_CTRL 1 || s.bit pg Reg.SLOT_CTRL 2
  if off = Reg.SLOT_CTRL then (if req then 6 else 0)
  else if off = Reg.SLOT_IO ∨ 0x300 ≤ off then lockAll (s.slotEn n)
  else if 0x100 ≤ off ∧ off < 0x300 then lockAll (s.slotEn n && (off / 0x100 - 1 == s.slotBank n || req))
  else 0

def State.lockLpe (s : State) (pg off : Nat) : RegWord :=
  if 1 ≤ pg ∧ pg ≤ 16 then s.lockSlot (pg - 1) off
  else if 17 ≤ pg ∧ pg ≤ 20 then
    let n := 4 * (pg - 17) + (off - 0x080) / 0x140
    lockAll (s.slotEn n && s.bkf n (s.slotBank n) 28 1 == 1)
  else if pg = 31 then
    if Reg.PWM_DUTY 0 ≤ off ∧ off < Reg.PWM_DUTY 8 then lockAll (s.pwmDriven ((off - Reg.PWM_DUTY 0) / 4))
    else if off = Reg.ACT_SEND 0 then lockAll (s.fwFrame 0 0).isNone
    else if off = Reg.ACT_SEND 1 then lockAll (s.fwFrame 1 0).isNone
    else 0
  else 0

def State.lockFtm (s : State) (pg off : Nat) : RegWord :=
  let map := s.bit pFtm Reg.FTM_CTRL 0
  if pg = 0 then
    if Reg.FTM_NS_LO ≤ off ∧ off ≤ Reg.FTM_IN then lockAll map
    else if off = Reg.FTM_FREE then lockAll (1024 ≤ s.flash.free.length)
    else 0
  else if pg = 1 ∧ map then 0xFFE0
  else 0

def State.lockDmc (s : State) (n pg off : Nat) : RegWord :=
  let w := (off - 0x080) % 0x20
  if pg = 0 ∧ off = Reg.DMC_TRAIN then (if (s.blk (pDmc n)).active then 1 else 0)
  else if pg = 1 ∧ (w = 4 ∨ w = 8) then lockAll (s.bit (pDmc 0 + 1) (off - w) 0)
  else 0

def State.lockCcl (s : State) (n pg off : Nat) : RegWord :=
  let o := off - 0x080
  if pg = 0 ∧ off = Reg.CCL_CTX_BASE then lockAll ((List.range 64).any fun b => (s.benchOf (64 * n + b)).state == 2)
  else if pg = 3 then
    if s.bit (pCcl n + 3) (Reg.STREAM (o / 0x20) 0x10) 16 then (if o % 0x20 = 0x10 then 0x1F else 0xFFFF_FFFF) else 0
  else 0

def State.lockImg (s : State) (pg off : Nat) : RegWord :=
  if pg ≠ 0 then 0
  else if off = Reg.IMG_MBX ∨ off = Reg.IMG_SPLIT then lockAll (!s.numVfs.isEmpty)
  else if off = Reg.IMG_APT_LO ∨ off = Reg.IMG_APT_HI then lockAll (s.jobs.any fun e => e.2.func < 256)
  else 0

/-- Only the Keeper changes the routes of the KPR sources, and the KPR field of any route (R568). -/
def lockEvf (req : Requester) (pg off : Nat) : RegWord :=
  let id := 512 * (pg - 1) + (off - 0x080) / 4
  if 1 ≤ pg ∧ pg ≤ 8 ∧ req ≠ .core .keeper then (if 0x020 ≤ id ∧ id < 0x040 then 0xFFFF_FFFF else 8) else 0

/-- The locked bits of a register of block `b`, by the block's own conditions. -/
def State.lockBlk (s : State) (req : Requester) (b : Blk) (pg off : Nat) : RegWord :=
  let keeper := req == .core .keeper
  match b.typ with
  | .kpr => lockAll (!keeper)
  | .pcr => if pg = 0 ∧ off = Reg.PCR_RST ∧ !keeper then 0x100 else 0
  | .fmt => lockAll (pg == 0 && off == Reg.FMT_DSN && s.bit pFmt Reg.FMT_CTRL 0)
  | .lpe => s.lockLpe pg off
  | .tpi => lockAll (pg == 0 && (off == Reg.TPI_RING_BASE || off == Reg.TPI_RING_SIZE) && s.streaming)
  | .ftm => s.lockFtm pg off
  | .dmc => s.lockDmc b.inst pg off
  | .ccl => s.lockCcl b.inst pg off
  | .aee => lockAll (pg == 0 && (off == Reg.AEE_WKT_LO || off == Reg.AEE_WKT_HI)
      && s.jobs.any fun e => e.2.engine == 0x14 && isKeyJob e.2.opcode)
  | .hib => if b.inst = 0 ∧ pg = 0 ∧ off = Reg.HIB_MODE ∧ (!keeper ∨ s.fget b.base off 16 4 = 0) then 3 else 0
  | .img => s.lockImg pg off
  | .evf => lockEvf req pg off
  | _ => 0

/-- The locked bits of a register (LOCK, and the block's own conditions; log entry 16). -/
def State.lockMask (s : State) (req : Requester) (b : Blk) (pg off : Nat) : RegWord :=
  let flds := fldsOf b pg off
  let lk (i : Nat) := s.bit b.base Reg.LOCK i
  (if off = Reg.BLK_CTRL then lockAll (lk 0) else 0)
    ||| (if lk 1 then accMask flds [.rws] ||| lockAll (off == Reg.STG_CTRL) else 0)
    ||| (if off = Reg.EVT_MASK ∨ off = Reg.EVT_ROUTE then lockAll (lk 2) else 0)
    ||| (if off < 0x080 then 0 else s.lockBlk req b pg off)

/-! ### Storing a write -/

/-- The RO fields that a write of 0 clears: with other fields in the register each by its own bits, else by the whole word. -/
def clrMask (flds : List Fld) (v : RegWord) : RegWord :=
  let mixed := flds.any fun f => f.acc == .rw || f.acc == .rws
  if mixed then flds.foldl (fun m f =>
      if f.acc == .clr && bitsOf v f.lo f.len == 0 then m ||| maskOf f.lo f.len else m) 0
  else if v = 0 then accMask flds [.clr]
  else 0

/-- The fields of a HIB register that HIB 1 does not have. -/
def absentMask (b : Blk) (off : Nat) : RegWord :=
  if b.typ = .hib ∧ b.inst = 1 ∧ (off = Reg.HIB_MODE ∨ off = Reg.HIB_MI_SMB ∨ off = Reg.HIB_MI) then 0xFFFF_FFFF else 0

/-- The bits that a store leaves alone: RW bits whose write acts through a trigger, SLOT_CTRL.EN, CORE_CTRL.RUN and BOUND (log entry 22). -/
def heldBits (b : Blk) (pg off : Nat) : RegWord :=
  let o := off - 0x080
  match b.typ with
  | .lpe => if 1 ≤ pg ∧ pg ≤ 16 ∧ off = Reg.SLOT_CTRL then 1 else 0
  | .ccl => if (pg = 1 ∧ o % 0x40 = 0 ∧ 0x080 ≤ off) ∨ (pg = 2 ∧ o % 0x10 = 0 ∧ 0x080 ≤ off) then 1 else 0
  | .rtx => if pg = 1 ∧ o % 0x40 = 0 ∧ 0x080 ≤ off then 1 else 0
  | _ => 0

/-- Store `v`, from which the locked bits `l` are kept, into the fields of a register. -/
def State.regStore (s : State) (b : Blk) (pg off : Nat) (l v : RegWord) : State :=
  let flds := fldsOf b pg off
  let p := b.base + pg
  let old := s.rg p off
  let rwm := accMask flds [.rw] &&& ~~~ l &&& ~~~ heldBits b pg off
  let c := accMask flds [.w1c] &&& ~~~ l &&& v
  let s := s.rset p off ((old &&& ~~~ rwm &&& ~~~ c &&& ~~~ (clrMask flds v &&& ~~~ l)) ||| (v &&& rwm))
  let sm := accMask flds [.rws]
  if sm &&& ~~~ l = 0 then s
  else
    let sh := s.shadow p off
    { s with shadows := mapPut s.shadows (regKey p off) (((sh &&& (~~~ sm ||| l)) ||| (v &&& sm &&& ~~~ l))) }

/-! ### What a write starts -/

/-- Triggers of the header (log entry 25). -/
def State.trigHeader (s : State) (b : Blk) (off : Nat) (old v : RegWord) : State :=
  let f := bitsOf v
  if off = Reg.BLK_CTRL then
    let s := if f 1 1 = 1 then s.softReset b else s
    if b.typ = .cxe ∨ b.typ = .aee ∨ b.typ = .hse ∨ b.typ = .ase then s.intakeJudge b.typ.code else s
  else if off = Reg.STG_CTRL then
    if f 0 1 = 1 then s.commitReq b else if f 1 1 = 1 then s.stgAbort b else s
  else if off = Reg.EVT_MASK then
    (List.range 32).foldl (fun s i =>
      if bitsOf old i 1 = 1 ∧ f i 1 = 0 ∧ s.bit b.base Reg.EVT_PEND i then s.deliver (b.src + i) else s) s
  else if off = Reg.LOCK then
    let s := s.rset b.base off (old ||| (v &&& 0xFFFF))
    if bitsOf old 1 1 = 0 ∧ f 1 1 = 1 ∧ s.stgPend b ∧ !(s.blk b.base).active then (s.dropShadows b).stgResult b.base 3 else s
  else s

/-- START and EVICT of the table load of the block at `pg`. -/
def State.trigLoad (s : State) (pg : Nat) (v : RegWord) : State :=
  if bitsOf v 8 1 = 1 then s.loadStart pg
  else if bitsOf v 9 1 = 1 ∧ pg ≠ pTpi then s.evict pg (pg == pDcf && s.codeBusy (s.loadSlot pDcf))
  else s

def State.trigLpe (s : State) (pg off : Nat) (l v : RegWord) : State :=
  let f := bitsOf v
  if 1 ≤ pg ∧ pg ≤ 16 ∧ off = Reg.SLOT_CTRL then
    let n := pg - 1
    let s := s.slotSetEn n (f 0 1 == 1)
    if l ≠ 0 then s
    else if f 1 1 = 1 then s.slotRequest n 1
    else if f 2 1 = 1 then s.slotRequest n 2
    else s
  else if (pg = 29 ∨ pg = 30) ∧ (off - 0x080) % 0x40 = 0 then
    let u := 2 * (pg - 29) + (off - 0x080) / 0x40
    let s := if f 0 1 = 1 then s.traceArm u else s
    let s := if f 1 1 = 1 then s.traceTrigger u false else s
    if f 2 1 = 1 then s.traceStop u else s
  else if pg = 31 ∧ (off = Reg.ACT_SEND 0 ∨ off = Reg.ACT_SEND 1) then (s.fwFrame ((off - Reg.ACT_SEND 0) / 4) v).getD s
  else s

/-- GO of TPI_CMD. -/
def State.tpiGo (s : State) (op : Nat) : State :=
  match op with
  | 1 => s.threadGo
  | 3 => s.seekGo
  | 6 => s.unloadGo
  | m => s.machineGo m

/-- TPI_CTRL.EN is first set: a cartridge present at reset is reported (R188; log entry 43). -/
def State.tpiFirstEn (s : State) : State :=
  if s.tpi.atReset then (s.setTpi { s.tpi with atReset := false }).raise pTpi 6 else s

def State.trigTpi (s : State) (off : Nat) (v : RegWord) : State :=
  let f := bitsOf v
  if off = Reg.TPI_CTRL then (if f 0 1 = 1 then s.tpiFirstEn else s)
  else if off = Reg.TPI_CMD then
    let s := if f 8 1 = 1 then s.tpiGo (f 0 3) else s
    if f 9 1 = 1 then s.machineAbort else s
  else if off = Reg.TPI_LOAD then s.trigLoad pTpi v
  else if off = Reg.TPI_CM_CTRL then (if f 0 1 = 1 then s.cmGo else s)
  else s

def State.trigFtm (s : State) (pg off : Nat) (v : RegWord) : State :=
  let f := bitsOf v
  if pg = 0 then
    if off = Reg.FTM_DISC then (if f 0 1 = 1 then s.discGo else s)
    else if off = Reg.FTM_LOAD then s.trigLoad pFtm v
    else if off = Reg.FTM_STRIPE then (if f 16 1 = 1 then s.stripeClose else s)
    else if off = Reg.FTM_FREE then s.rowPush (f 0 5) (f 8 18)
    else s
  else if pg = 1 ∧ f 1 1 = 1 then (s.mapOut ((off - 0x080) / 4) 6).escalateLost
  else s

def State.trigDmc (s : State) (n pg off : Nat) (old v : RegWord) : State :=
  if pg = 0 ∧ off = Reg.DMC_TRAIN then (if bitsOf v 0 1 = 1 then dmcTrainStart n s else s)
  else if pg = 0 ∧ off = Reg.DMC_ELOG1 ∧ v = 0 then s.rset (pDmc n) Reg.DMC_ELOG0 0
  else if pg = 0 ∧ off = Reg.DMC_ECC then
    -- firmware has marked a device of a rank (R235)
    [16, 24].foldl (fun s lo => if bitsOf v (lo + 4) 1 = 1 ∧ bitsOf old lo 5 ≠ bitsOf v lo 5 then s.raise (pDmc n) 4 else s) s
  else s

/-- Triggers of the core entries of CCL `n` and, with `n` 4, of RTX (log entry 18). -/
def State.trigCore (s : State) (n off : Nat) (v : RegWord) : State :=
  let o := off - 0x080
  let k := 8 * n + o / 0x40
  let w := o % 0x40
  let f := bitsOf v
  if w = 0 then
    let s := if f 1 1 = 1 then s.coreReset k else s
    if f 0 1 = 1 then s.coreRun k else s
  else if w = 0xC then
    if f 8 1 = 1 then s.coreGo k (f 0 6) else if f 9 1 = 1 then s.coreOut k else s
  else if 0x20 ≤ w ∧ w % 8 = 0 then s.supRing (coreId k) ((w - 0x20) / 8) v
  else s

def State.trigCcl (s : State) (n pg off : Nat) (old v : RegWord) : State :=
  let o := off - 0x080
  let f := bitsOf v
  if pg = 0 ∧ off = Reg.CCL_LOAD then (if f 22 1 = 1 then s.loadGo (if n < 4 then pCcl n else pRtx) else s)
  else if pg = 1 then s.trigCore n off v
  else if pg = 2 ∧ o % 0x10 = 0 then
    let x := s.benchOf (64 * n + o / 0x10)
    if (f 0 1 == 1) == (x.state != 0) then s else s.bindBench n (o / 0x10) (f 0 1 == 1)
  else if pg = 3 ∧ o % 0x20 = 0x10 ∧ bitsOf old 16 1 = 0 ∧ f 16 1 = 1 then
    s.setStream (64 * n + o / 0x20) (streamDefault 0)
  else s

/-- Writing 0 to the low word of a count clears the pair. -/
def State.trigPair (s : State) (b : Blk) (pg off : Nat) (v : RegWord) : State :=
  if v = 0 ∧ latchesHigh b pg off ∧ 0x080 ≤ off ∧ b.typ ≠ .emt then s.rset64 (b.base + pg) off 0 else s

def State.trigHib (s : State) (n off : Nat) (old v : RegWord) : State :=
  if off = Reg.HIB_LCTL then s.rset (pHib n) off (s.rg (pHib n) off ||| (v &&& 0x30))
  else if off = Reg.HIB_MI ∧ n = 0 ∧ bitsOf old 0 7 ≠ bitsOf v 0 7 then s.rset (pHib 0) Reg.HIB_MI_SMB 0
  else s

/-- A per-source route to EVT_OUT is written: the pins leave the boot code, except after a boot failure (R554; log entry 26). -/
def State.pinsFree (s : State) : State :=
  if s.bootFailed then s
  else { s with boot := { s.boot with released := true } }.fset pEvf Reg.EVF_PIN 8 1 0

def State.trigEvf (s : State) (pg off : Nat) (v : RegWord) : State :=
  if pg = 0 ∧ off = Reg.EVF_SWSET then (if bitsOf v 31 1 = 1 then s.swSource (bitsOf v 0 8) else s)
  else if pg = 0 ∧ off = Reg.EVF_SRAM_LOG1 ∧ v = 0 then s.rset pEvf Reg.EVF_SRAM_LOG0 0
  else if 1 ≤ pg ∧ pg ≤ 8 ∧ bitsOf v 5 1 = 1 then s.pinsFree
  else s

/-- What a stored write starts: `old` is the word that stood there, `v` the word written without its locked bits. -/
def State.trigger32 (s : State) (b : Blk) (pg off : Nat) (old l v : RegWord) : State :=
  let f := bitsOf v
  if off < 0x080 then s.trigHeader b off old v
  else match b.typ with
  | .tfe => if 1 ≤ pg then s.chWritten (pg - 1) off else s
  | .tdt => if pg = 2 then s.cplWritten ((off - 0x080) / 0x20) ((off - 0x080) % 0x20) else s
  | .fmt => if pg = 0 ∧ off = Reg.FMT_LOAD then s.trigLoad pFmt v else s
  | .dcf =>
    if pg = 0 ∧ off = Reg.DCF_LOAD then s.trigLoad pDcf v
    else if pg = 0 ∧ (off = Reg.DCF_TILE_EN0 ∨ off = Reg.DCF_TILE_EN1) then s.resCheck
    else s
  | .lpe => s.trigLpe pg off l v
  | .tpi => if pg = 0 then s.trigTpi off v else s
  | .flc =>
    if pg = 0 ∧ off = Reg.FLC_TRAIN ∧ f 0 1 = 1 then s.flcTrainGo b.inst
    else if pg = 0 ∧ off = Reg.FLC_RAW 3 ∧ f 0 1 = 1 then s.flcRawGo b.inst
    else s
  | .ftm => s.trigFtm pg off v
  | .dmc => s.trigDmc b.inst pg off old v
  | .ccl => s.trigCcl b.inst pg off old v
  | .rtx => s.trigCcl 4 pg off old v
  | .cxe => s.trigPair b pg off v
  | .aee => s.trigPair b pg off v
  | .hse => s.trigPair b pg off v
  | .ase => if pg = 3 ∧ off % 8 = 4 ∧ f 0 1 = 1 then s.ctxFree ((off - 0x080) / 8) else s.trigPair b pg off v
  | .hib => if pg = 0 then s.trigHib b.inst off old v else s
  | .kpr =>
    if pg = 0 ∧ off = Reg.KPR_ALARM then
      { s with kpr := { s.kpr with latch := s.kpr.latch &&& (15 - f 8 3) } }
    else s
  | .pcr =>
    if pg = 0 ∧ off = Reg.PCR_RST ∧ f 8 1 = 1 then s.warm 2
    else if pg = 1 ∧ off = Reg.PCR_PROF then s.showProf
    else s
  | .agm => if pg = 0 ∧ off = Reg.AGM_CTRL ∧ f 0 1 = 1 ∧ f 1 1 = 1 then s.fset pAgm off 1 1 1 else s
  | .evf => s.trigEvf pg off v
  | _ => s

/-! ### The write -/

/-- Is the write `v` also a write to one of the locked bits `l` (R52)? `cur` is what the register shows (log entry 17). -/
def locksHit (flds : List Fld) (l cur sh v : RegWord) : Bool :=
  ((v ^^^ cur) &&& accMask flds [.rw] &&& l) != 0
    || ((v ^^^ sh) &&& accMask flds [.rws] &&& l) != 0
    || (v &&& accMask flds [.w1s, .w1c] &&& l) != 0
    || (accMask flds [.wo] &&& l) != 0
    || (cur &&& clrMask flds v &&& l) != 0

/-- The active word of a register, computed fields included. -/
def State.regActive (s : State) (b : Blk) (pg off : Nat) : RegWord :=
  match if off < 0x080 then s.hdrView b pg off else s.blkView b pg off with
  | some v => BitVec.ofNat 32 v
  | none => s.rg (b.base + pg) off

/-- A 32-bit write of `v` to the register at offset `off` of register page `page` by `req` (log entry 16). -/
def State.regWrite32 (s : State) (req : Requester) (page off : Nat) (v : RegWord) : State :=
  match blkAt page with
  | none => s
  | some b =>
    let pg := if off < 0x080 then 0 else page - b.base
    let flds := fldsOf b pg off
    if flds.isEmpty then s
    else if b.typ = .kpr ∧ 0x080 ≤ off ∧ req ≠ .core .keeper then s.badWrite b.base off 2
    else if s.badEnc req b pg off v then s.badWrite b.base off 1
    else
      let cur := s.regActive b pg off
      let l := s.lockMask req b pg off ||| absentMask b off
      let hit := locksHit flds (s.lockMask req b pg off) cur (s.shadow (b.base + pg) off) v
      -- the locked RW bits as they are, no locked write-one bits
      let v' := (v &&& ~~~ l) ||| (cur &&& l &&& accMask flds [.rw])
      let s := s.regStore b pg off l v
      let s := if l = 0xFFFF_FFFF then s else s.trigger32 b pg off cur l v'
      if hit then s.badWrite b.base off 2 else s

/-- A write of `n` bytes at offset `o` of the register space: false is a bus error (log entry 20). -/
def State.regWrite (s : State) (req : Requester) (o n v : Nat) : State × Bool :=
  if n = 4 ∧ o % 4 = 0 then (s.regWrite32 req (o / 4096) (o % 4096) (BitVec.ofNat 32 v), true)
  else if n = 8 ∧ o % 8 = 0 then
    ((s.regWrite32 req (o / 4096) (o % 4096) (BitVec.ofNat 32 v)).regWrite32 req (o / 4096) (o % 4096 + 4) (BitVec.ofNat 32 (v / 2 ^ 32)),
      true)
  else (s, false)

/-! ### The rows -/

/-- REGISTER_WRITE: a write of one or two registers at a device address, or by a host at an offset
of BAR0 or BAR2 (R34 to R36). -/
def execRegisterWrite (who : Accessor) (addr : Nat) (wide : Bool) (value : BitVec 64) (s : State) : Host.Outcome State Fault Refusal :=
  next (fun s =>
    match who with
    | .host pf => barWrite (fun s o x => s.bar2Write pf.val o x) addr wide value.toNat s
    | .bar0 k => barWrite (fun s o x => s.bar0Write k.val o x) addr wide value.toNat s
    | .dev req =>
      if addr < regBase ∨ regBase + regSize ≤ addr then s.emit .busError
      else match s.regWrite req (addr - regBase) (if wide then 8 else 4) value.toNat with
        | (s, true) => s
        | (s, false) => s.emit .busError) s

/-- Write the header register at `off` with the bits `bits`, the other bits of RW fields as they are (log entry 18). -/
def State.headerWrite (s : State) (req : Requester) (page off : Nat) (bits keep : RegWord) : State :=
  match blkAt page with
  | none => s
  | some b => s.regWrite32 req page off ((s.rg b.base off &&& keep) ||| bits)

/-- SOFT_RESET: BLK_CTRL.SRST is written. -/
def execSoftReset (req : Requester) (page : Nat) (s : State) : Host.Outcome State Fault Refusal :=
  next (fun s => s.headerWrite req page Reg.BLK_CTRL 2 0xF5) s

/-- COMMIT: STG_CTRL.COMMIT is written. -/
def execCommit (req : Requester) (page : Nat) (s : State) : Host.Outcome State Fault Refusal :=
  next (fun s => s.headerWrite req page Reg.STG_CTRL 1 4) s

/-- STAGING_ABORT: STG_CTRL.ABORT is written. -/
def execStagingAbort (req : Requester) (page : Nat) (s : State) : Host.Outcome State Fault Refusal :=
  next (fun s => s.headerWrite req page Reg.STG_CTRL 2 4) s

/-- LOCK: lock bits are set. -/
def execLock (req : Requester) (page : Nat) (bits : BitVec 16) (s : State) : Host.Outcome State Fault Refusal :=
  next (fun s => s.headerWrite req page Reg.LOCK (bits.setWidth 32) 0) s

end Sys2Proof.Machine
end

