-- ==== Sys2Proof/Machine/CoreMem.lean ====
section
/-! DEFINITION. The memory side of a core: accesses to its address spaces, its caches, buffered stores, loads, stores, atomics and
fetches, and the special registers (R260 to R263, R267 to R274, R285, R286, R306, R575). -/

namespace Sys2Proof.Machine

/-! ### Accesses outside the caches (R31 to R39, R269) -/

/-- Does a device address lie in the register space? -/
def inRegs (a : Nat) : Bool := regBase ≤ a && a < regBase + regSize

/-- `a` lies in a range of the device address map (R31). -/
def inRanges (a : Nat) : Bool :=
  a < 2 ^ 38 || (sramBase ≤ a && a < sramBase + sramSize) || (0x0200_0000_0000 ≤ a && a < 0x0300_0000_0000) || inRegs a

/-- Read `n` bytes at an address of a space of core `k`; none is a bus error. -/
def State.rawRead (s : State) (k space addr n : Nat) : State × Option (List Byte) :=
  match spaceAddr k space addr n with
  | none => (s, none)
  | some a =>
    if space = 0 then
      if inRegs a then
        match s.regRead (.core (coreId k)) (a - regBase) n with
        | (s, some v) => (s, some (leBytes n v))
        | (s, none) => (s, none)
      else s.busRead a n
    else s.sramRead a n

/-- Write bytes at an address of a space of core `k`; false is a bus error. A store that leaves the core is compared with the
releases of its streams (R334). -/
def State.rawWrite (s : State) (k space addr : Nat) (b : List Byte) : State × Bool :=
  match spaceAddr k space addr b.length with
  | none => (s, false)
  | some a =>
    if space = 0 then
      if inRegs a then s.regWrite (.core (coreId k)) (a - regBase) b.length (leNat b)
      else match s.busWrite a b with
        | (s, true) => (s.storeSeen k a b.length, true)
        | (s, false) => (s, false)
    else s.sramWrite a b

/-- A buffered store to `addr` has failed: its bus error is due at the next boundary (R274; log entry 56). -/
def State.bufErr (s : State) (k addr : Nat) : State :=
  let c := s.core k
  s.setCore k { c with storeErr := c.storeErr ++ [BitVec.ofNat 64 addr] }

/-! ### Caches (R272, R575) -/

/-- Lines of each cache: 32 KiB of 64 bytes (R255; log entry 57). -/
def cacheLines : Nat := 512

/-- An access of core `k` through attributes `w` to an address of a space is held in the caches. -/
def cacheable (k : Nat) (w : Word) (space addr : Nat) : Bool :=
  isCompute k && w.getLsbD 6 && (space == 2 || (space == 0 && !inRegs addr))

/-- Space and address of a place of the model's memory map, as a cached line of core `k` has them. -/
def lineSpace (k a : Nat) : Nat × Nat := if a < 2 ^ 48 then (0, a) else (2, a - clusterBase (k / 8))

/-- Write back, if dirty, and invalidate the line at `a` of the data cache; a write-back that fails, or whose parity is wrong, is a
failed buffered store (log entries 57 and 58). -/
def State.lineDrop (s : State) (k a : Nat) : State :=
  let c := s.core k
  match mapFind c.dcache a with
  | none => s
  | some l =>
    let s := s.setCore k { c with dcache := mapDel c.dcache a }
    if !l.dirty then s else
    let (space, addr) := lineSpace k a
    if !l.bad.isEmpty then s.bufErr k addr else
    match s.rawWrite k space addr l.bytes with
    | (s, true) => s
    | (s, false) => s.bufErr k addr

/-- Make room in the data cache for one more line. -/
def State.lineRoom (s : State) (k : Nat) : State :=
  let c := s.core k
  if c.dcache.length < cacheLines then s
  else
    let i := Config.cacheVictim s.free % c.dcache.length
    (s.bump).lineDrop k ((c.dcache.getD i (0, ⟨[], false, []⟩)).1)

/-- Fetch the line at `a` into the data cache. -/
def State.lineFill (s : State) (k a : Nat) : State × Option CacheLine :=
  let (space, addr) := lineSpace k a
  match (s.lineRoom k).rawRead k space addr 64 with
  | (s, none) => (s, none)
  | (s, some b) =>
    let l : CacheLine := ⟨b, false, []⟩
    let c := s.core k
    (s.setCore k { c with dcache := mapPut c.dcache a l }, some l)

/-- The line at `a` of the data cache, fetched if absent; an access to its words `ws` invalidates and refetches a clean line whose
parity is wrong there, and fails on a dirty one (log entry 58). -/
def State.lineGet (s : State) (k a : Nat) (ws : List Nat) : State × Option CacheLine :=
  match mapFind (s.core k).dcache a with
  | none => s.lineFill k a
  | some l =>
    if !ws.any fun w => l.bad.contains w then (s, some l)
    else if l.dirty then (s, none)
    else
      let c := s.core k
      (s.setCore k { c with dcache := mapDel c.dcache a }).lineFill k a

/-- The 8-byte words of a line that `n` bytes at its offset `o` touch. -/
def lineWords (o n : Nat) : List Nat := (List.range 8).filter fun w => 8 * w < o + n && o < 8 * w + 8

/-- Read `n` bytes at a checked address (log entry 57). -/
def State.memLoad (s : State) (k space : Nat) (w : Word) (addr n : Nat) : State × Option (List Byte) :=
  if !cacheable k w space addr then s.rawRead k space addr n else
  match spaceAddr k space (addr / 64 * 64) 64 with
  | none => (s, none)
  | some a =>
    match s.lineGet k a (lineWords (addr % 64) n) with
    | (s, some l) => (s, some ((l.bytes.drop (addr % 64)).take n))
    | (s, none) => (s, none)

/-- Bytes of a list from `o` on replaced. -/
def patch (l : List Byte) (o : Nat) (b : List Byte) : List Byte := l.take o ++ b ++ l.drop (o + b.length)

/-- Store bytes at a checked address; every store is buffered, so a bus error waits for the next boundary (log entry 56). -/
def State.memStore (s : State) (k space : Nat) (w : Word) (addr : Nat) (b : List Byte) : State :=
  let o := addr % 64
  if !cacheable k w space addr then
    match s.rawWrite k space addr b with
    | (s, true) => s
    | (s, false) => s.bufErr k addr
  else match spaceAddr k space (addr / 64 * 64) 64 with
    | none => s.bufErr k addr
    | some a =>
      let ws := lineWords o b.length
      match s.lineGet k a (if b.length < 8 then ws else []) with
      | (s, none) => s.bufErr k addr
      | (s, some l) =>
        let c := s.core k
        s.setCore k { c with
          dcache := mapPut c.dcache a ⟨patch l.bytes o b, true, l.bad.filter fun x => !ws.contains x⟩ }

/-- A parity error strikes a word of a line in a cache of core `k` (log entry 58). -/
def parityStrike (m : FMap CacheLine) (a : Nat) : FMap CacheLine :=
  match mapFind m (a / 64 * 64) with
  | some l => mapPut m (a / 64 * 64) { l with bad := if l.bad.contains (a / 8 % 8) then l.bad else a / 8 % 8 :: l.bad }
  | none => m

/-- A soft error strikes as core `k` is about to load. The device reads its own state tables at once (log entry 112). -/
def State.soften (s : State) (k : Nat) : SoftError → State
  | .sram u =>
    let s := s.strike u
    if deviceStateBase ≤ u.addr ∧ u.addr < cmdBuf then (s.sramWord (u.addr / 8 * 8)).1 else s
  | .dcache a => let c := s.core k; s.setCore k { c with dcache := parityStrike c.dcache a }
  | .icache a => let c := s.core k; s.setCore k { c with icache := parityStrike c.icache a }

/-! ### Fetch (R257, R268, R272) -/

/-- The line at `a` of the instruction cache is present and sound, or is fetched; false is a bus error. -/
def State.iline (s : State) (k a word : Nat) : State × Bool :=
  let c := s.core k
  match mapFind c.icache a with
  | some l =>
    if !l.bad.contains word then (s, true) else
    let (space, addr) := lineSpace k a
    match s.rawRead k space addr 64 with
    | (s, some b) => let c := s.core k; (s.setCore k { c with icache := mapPut c.icache a ⟨b, false, []⟩ }, true)
    | (s, none) => let c := s.core k; (s.setCore k { c with icache := mapDel c.icache a }, false)
  | none =>
    let full := cacheLines ≤ c.icache.length
    let victim := (c.icache.getD (Config.cacheVictim s.free % c.icache.length) (0, ⟨[], false, []⟩)).1
    let (space, addr) := lineSpace k a
    match (if full then s.bump else s).rawRead k space addr 64 with
    | (s, some b) =>
      let c := s.core k
      (s.setCore k { c with icache := mapPut (if full then mapDel c.icache victim else c.icache) a ⟨b, false, []⟩ }, true)
    | (s, none) => (s, false)

/-- The fetch of the instruction at pc: the trap it raises, if any (log entry 54). -/
def State.fetchAt (s : State) (k : Nat) : State × Option TrapInfo :=
  let c := s.core k
  match s.winCheck k c.cw .fetch c.pc.toNat 4 with
  | .error t => (s, some t)
  | .ok (space, addr) =>
    let (s, ok) :=
      if cacheable k (c.wa c.cw) space addr then
        match spaceAddr k space (addr / 64 * 64) 64 with
        | some a => s.iline k a (addr / 8 % 8)
        | none => (s, false)
      else if space = 0 ∧ inRegs addr then (s, false)
      else match s.rawRead k space addr 4 with
        | (s, some _) => (s, true)
        | (s, none) => (s, false)
    (s, if ok then none else some ⟨4, addr, 1⟩)

/-! ### Loads, stores and atomics (R285, R286) -/

/-- Load `size` bytes at offset `off` of window `n`: the bytes, or the trap. -/
def State.winLoad (s : State) (k n off size : Nat) : State × Except TrapInfo (List Byte) :=
  match s.winCheck k n .read off size with
  | .error t => (s, .error t)
  | .ok (space, addr) =>
    match s.memLoad k space ((s.core k).wa n) addr size with
    | (s, some b) => (s, .ok b)
    | (s, none) => (s, .error ⟨4, addr, 0⟩)

/-- Store bytes at offset `off` of window `n`: the trap of its checks, if any. -/
def State.winStore (s : State) (k n off : Nat) (b : List Byte) : State × Option TrapInfo :=
  match s.winCheck k n .write off b.length with
  | .error t => (s, some t)
  | .ok (space, addr) => (s.memStore k space ((s.core k).wa n) addr b, none)

/-- Read and replace 8 bytes as one step: the old value, or the trap (log entry 57). -/
def State.winAtomic (s : State) (k n : Nat) (kind : Access) (off : Nat) (f : Nat → Nat) : State × Except TrapInfo Nat :=
  match s.winCheck k n kind off 8 with
  | .error t => (s, .error t)
  | .ok (space, addr) =>
    if space = 0 ∧ inRegs addr then (s, .error ⟨4, addr, 3⟩) else
    let w := (s.core k).wa n
    let s := if cacheable k w space addr then
        (match spaceAddr k space (addr / 64 * 64) 64 with
        | some a => s.lineDrop k a
        | none => s)
      else s
    match s.rawRead k space addr 8 with
    | (s, none) => (s, .error ⟨4, addr, 3⟩)
    | (s, some b) =>
      match s.rawWrite k space addr (leBytes 8 (f (leNat b))) with
      | (s, true) => (s, .ok (leNat b))
      | (s, false) => (s, .error ⟨4, addr, 3⟩)

/-- CLWB of the line that holds offset `off` of window `n` (R272, R285). -/
def State.winClwb (s : State) (k n off : Nat) : State × Option TrapInfo :=
  match s.winCheck k n .clwb (off / 64 * 64) 64 with
  | .error t => (s, some t)
  | .ok (space, addr) =>
    match spaceAddr k space addr 64 with
    | some a =>
      if space = 0 && !inRanges a then (s, some ⟨4, addr, 0⟩) else if space = 1 then (s, none) else (s.lineDrop k a, none)
    | none => (s, some ⟨4, addr, 0⟩)

/-! ### Special registers (R260 to R262, R306) -/

/-- CORE (R262). -/
def coreIdent (k : Nat) : Word :=
  BitVec.ofNat 64 (localSizeOf k / 1024 * 2 ^ 16 +
    (if k < 32 then k + k / 8 * 2 ^ 12 else if k < 40 then k - 32 + 2 ^ 8 else 2 * 2 ^ 8))

/-- WDOG.COUNT at the present TB (R305). -/
def State.wdogNow (s : State) (c : Core) : Nat :=
  c.wdogCount.toNat - (if c.tctl.getLsbD 1 then (s.tb.toNat - c.wdogFrom.toNat) / 1024 else 0)

/-- A window register number: the window, and 0 WBASE, 1 WLIM or 2 WATTR. -/
def winReg (n : Nat) : Option (Nat × Nat) := if 0x100 ≤ n ∧ n < 0x140 ∧ n % 4 ≠ 3 then some ((n - 0x100) / 4, n % 4) else none

/-- DETAIL for a special register number that is undefined (0x05), or that MFS may not read (0x07). -/
def mfsIll (c : Core) (n : Nat) : Nat :=
  match winReg n with
  | some (w, _) => if c.benchMode && w < 4 then 7 else 0
  | none =>
    if n ≤ 3 then 0
    else if 0x10 ≤ n ∧ n ≤ 0x19 then (if c.benchMode && n != 0x19 then 7 else 0)
    else 5

/-- The value of a special register. -/
def State.mfs (s : State) (k n : Nat) : Word :=
  let c := s.core k
  match winReg n with
  | some (w, 0) => mapGet zeroWord c.wbase w
  | some (w, 1) => mapGet zeroWord c.wlim w
  | some (w, _) => mapGet zeroWord c.wattr w
  | none =>
    match n with
    | 0x00 => c.ps
    | 0x01 => c.wsel.setWidth 64
    | 0x02 => s.tb
    | 0x03 => coreIdent k
    | 0x10 => c.tvb
    | 0x11 => c.tpc
    | 0x12 => c.tps
    | 0x13 => c.tcause
    | 0x14 => c.taddr
    | 0x15 => c.tscr
    | 0x16 => c.tcmp
    | 0x17 => c.tctl
    | 0x18 => BitVec.ofNat 64 (c.wdogLoad.toNat + s.wdogNow c * 2 ^ 32)
    | 0x19 => c.wstk.setWidth 64
    | _ => 0

/-- LIMIT + 1 is a power of two of at least 4,096. -/
def streamSize (l : Nat) : Bool := (List.range 37).any fun i => l + 1 == 2 ^ (12 + i)

/-- Reserved encodings of WATTR (R267). -/
def badWattr (k : Nat) (w : Word) (l : Nat) : Bool :=
  let space := (w >>> 4).toNat % 4
  let st := w.getLsbD 7
  space == 3 || (!isCompute k && (space == 2 || w.getLsbD 6)) || (st && (w.getLsbD 2 || w.getLsbD 3)) || (st && !streamSize l)

/-- Does MTS of `v` to special register `n` write a reserved encoding? -/
def mtsReserved (k : Nat) (c : Core) (n : Nat) (v : Word) : Bool :=
  match winReg n with
  | some (_, 0) => v.toNat % 64 != 0
  | some (w, 1) => (c.wa w).getLsbD 7 && !streamSize (v.toNat % 2 ^ 48)
  | some (w, _) => badWattr k v (c.wl w)
  | none =>
    match n with
    | 0x00 => !c.benchMode && v.getLsbD 4 && !isCompute k
    | 0x12 => v.getLsbD 4 && !isCompute k
    | 0x13 => v.getLsbD 16
    | 0x17 => v.getLsbD 1 && c.wdogLoad == 0
    | 0x18 => c.tctl.getLsbD 1 && v.toNat % 2 ^ 32 == 0
    | _ => false

/-- DETAIL for MTS: an undefined number, or a write that is not permitted or reserved (R261). -/
def mtsIll (k : Nat) (c : Core) (n : Nat) (v : Word) : Nat :=
  match winReg n with
  | some _ => if c.benchMode || mtsReserved k c n v then 7 else 0
  | none =>
    if n ≤ 3 then (if n = 2 ∨ n = 3 ∨ mtsReserved k c n v then 7 else 0)
    else if 0x10 ≤ n ∧ n ≤ 0x19 then
      (if (c.benchMode && n != 0x19) || n == 0x14 || mtsReserved k c n v then 7 else 0)
    else 5

/-- The low `n` bits of a word, the others zero. -/
def lowBits (n : Nat) (v : Word) : Word := v &&& BitVec.ofNat 64 (2 ^ n - 1)

/-- Write a window register. -/
def Core.putWin (c : Core) (w i : Nat) (v : Word) : Core :=
  match i with
  | 0 => { c with wbase := mapSet zeroWord c.wbase w (lowBits 48 v) }
  | 1 => { c with wlim := mapSet zeroWord c.wlim w (lowBits 48 v) }
  | _ => { c with wattr := mapSet zeroWord c.wattr w (lowBits 16 v) }

/-- TCTL as written: setting WEN starts the watchdog's count afresh, and clearing it keeps the count (R305; log entry 59). -/
def State.putTctl (s : State) (c : Core) (v : Word) : Core :=
  let c' := if v.getLsbD 1 && !c.tctl.getLsbD 1 then { c with wdogFrom := s.tb, wdogCount := c.wdogLoad }
    else if !v.getLsbD 1 && c.tctl.getLsbD 1 then { c with wdogFrom := s.tb, wdogCount := BitVec.ofNat 32 (s.wdogNow c) }
    else c
  { c' with tctl := lowBits 2 v }

/-- MTS of a permitted value (log entry 61). -/
def State.mts (s : State) (k n : Nat) (v : Word) : State :=
  let c := s.core k
  s.setCore k (match winReg n with
    | some (w, i) => c.putWin w i v
    | none =>
      match n with
      | 0x00 => { c with ps := if c.benchMode then (c.ps &&& ~~~ (0xF : Word)) ||| lowBits 4 v else v &&& psMask }
      | 0x01 => { c with wsel := v.setWidth 4 }
      | 0x10 => { c with tvb := lowBits 48 v &&& ~~~ (0x3F0 : Word) }
      | 0x11 => { c with tpc := lowBits 48 v }
      | 0x12 => { c with tps := v &&& psMask }
      | 0x13 => { c with tcause := c.tcause &&& ~~~ (0x10000 : Word) }
      | 0x15 => { c with tscr := v }
      | 0x16 => { c with tcmp := v }
      | 0x17 => s.putTctl c v
      | 0x18 => { c with wdogLoad := v.setWidth 32, wdogCount := v.setWidth 32, wdogFrom := s.tb, wdogOnce := false }
      | 0x19 => { c with wstk := v.setWidth 4 }
      | _ => c)

end Sys2Proof.Machine
end

