-- ==== Sys2Proof/Machine/CoreExec.lean ====
section
/-! DEFINITION. The step of a core that every instruction takes: asynchronous traps, the fetch, the illegal encodings, and the
entry of a trap (R299 to R305, R307, R457). -/

namespace Sys2Proof.Machine

/-! ### Trap entry (R301) -/

/-- What a trap taken in Bench mode means for the run of the Bench: SVC #0 delivers the result; the traps that the runtime does not
handle are a Program Fault (R456, R457; log entry 65). -/
def State.benchTrap (s : State) (x : Nat) (t : TrapInfo) (g1 g2 : Word) : State :=
  if t.vec = 6 ∧ t.addr = 0 then s.runDone x g1.toNat g2.toNat
  else if t.vec ≤ 6 then s.runFault x 2 t.vec 0
  else if t.vec = 9 then s.runFault x 4 9 0
  else s

/-- The registers of a core that takes a trap. -/
def Core.trapped (c : Core) (t : TrapInfo) (tpc : Word) (imp multi : Bool) : Core :=
  let b (i : Nat) (x : Bool) : Nat := if x then 2 ^ i else 0
  let wait := match c.mode with
    | .waiting _ => true
    | _ => false
  { c with
    mode := .running
    tps := c.ps, tpc := lowBits 48 tpc, taddr := BitVec.ofNat 64 t.addr
    tcause := BitVec.ofNat 64 (t.vec + t.detail % 256 * 2 ^ 8 + 2 ^ 16 + b 17 imp + b 18 (c.tcause.getLsbD 16) + b 19 wait + b 20 multi)
    ps := (c.ps &&& 0xFF0F) ||| (lowBits 4 c.tvb <<< 20)
    pc := (c.tvb &&& ~~~ (0xF : Word)) + BitVec.ofNat 64 (64 * t.vec) }

/-- Core `k` takes a trap with resume offset `tpc`; a second trap while one is handled stops the core, but for the watchdog. -/
def State.trapTake (s : State) (k : Nat) (t : TrapInfo) (tpc : Word) (imp multi : Bool) : State :=
  let c := s.core k
  if c.tcause.getLsbD 16 && t.vec != 8 then s.coreStop k 1
  else
    let s' := s.setCore k (c.trapped t tpc imp multi)
    match s.ctxOn k with
    | some x => if c.benchMode then s'.benchTrap x t (c.gr 1) (c.gr 2) else s'
    | none => s'

/-! ### Asynchronous traps, in the order of R302 -/

/-- The watchdog of core `k` has expired: COUNT reloads and the trap is taken; or the core stops (R305). The Keeper's second
expiry is a chip warm reset. -/
def State.wdogExpire (s : State) (k : Nat) : State :=
  let c := s.core k
  if c.wdogOnce then (if k = 40 then (s.coreStop k 2).warm 3 else s.coreStop k 2)
  else
    let s := s.setCore k { c with
      wdogOnce := true, wdogCount := c.wdogLoad, wdogFrom := c.wdogFrom + BitVec.ofNat 64 (c.wdogCount.toNat * 1024) }
    s.trapTake k ⟨8, 0, 1⟩ c.pc false false

/-- COUNT of the watchdog has reached zero. -/
def State.wdogDue (s : State) (c : Core) : Bool :=
  c.tctl.getLsbD 1 && decide (c.wdogFrom.toNat + c.wdogCount.toNat * 1024 ≤ s.tb.toNat)

/-- TEN is 1 and TB has reached TCMP (R304). -/
def State.timerDue (s : State) (c : Core) : Bool := c.tctl.getLsbD 0 && decide (c.tcmp.toNat ≤ s.tb.toNat)

/-- The Bench that runs in Bench mode has used up its energy budget (R319). -/
def Core.capDue (c : Core) : Bool := c.benchMode && c.bench.any fun r => decide (r.eRem.toInt < 0)

/-- The asynchronous trap that core `k` takes at the present boundary, if one is due (log entry 55). -/
def State.asyncTrap (s : State) (k : Nat) : Option State :=
  let c := s.core k
  let ae := c.ps.getLsbD 5
  if s.wdogDue c then some (s.wdogExpire k)
  else match c.storeErr with
    | a :: r => some ((s.setCore k { c with storeErr := [] }).trapTake k ⟨4, a.toNat, 2⟩ c.pc true (!r.isEmpty))
    | [] =>
      if ae && c.capDue then some (s.trapTake k ⟨9, 0, 0⟩ c.pc false false)
      else if ae && s.timerDue c then
        some ((s.setCore k { c with tctl := c.tctl &&& ~~~ (1 : Word) }).trapTake k ⟨7, 0, 0⟩ c.pc false false)
      else none

/-! ### One instruction -/

/-- Core `k` executes instructions now: a compute core not while thermal action 3 or 4 stops it (R541). -/
def State.executes (s : State) (k : Nat) : Bool := !(isCompute k && 3 ≤ s.thermal)

/-- Core `k` takes one instruction at pc: the asynchronous trap that is due; or the trap of its fetch; or that of an illegal
encoding, with the word `word`; or what `body` does, which answers a trap of its own or has set pc itself; a buffered store that has failed
meanwhile goes before that trap (R274, R302; log entries 54 and 55). -/
def State.coreStep (s : State) (k : Nat) (ill : Core → Nat) (word : Nat) (body : State → State × Option TrapInfo) : State :=
  let c := s.core k
  if c.mode ≠ .running ∨ !s.executes k then s else
  match s.asyncTrap k with
  | some s => s
  | none =>
    match s.fetchAt k with
    | (s, some t) => s.trapTake k t c.pc false false
    | (s, none) =>
      if ill c ≠ 0 then s.trapTake k ⟨0, word, ill c⟩ c.pc false false
      else match body s with
        | (s, none) => s
        | (s, some t) =>
          if !(s.core k).storeErr.isEmpty then (s.asyncTrap k).getD s else
          s.trapTake k (if t.vec = 0 then { t with addr := word } else t) (if t.vec = 6 then c.pc + 4 else c.pc) false false

/-- The next instruction follows. -/
def Core.advance (c : Core) : Core := { c with pc := c.pc + 4 }

/-- A body that changes only the core's own registers and goes on to the next instruction. -/
def coreBody (k : Nat) (f : Core → Core) (s : State) : State × Option TrapInfo :=
  (s.setCore k (f (s.core k)).advance, none)

/-- What a core has written to the register space may have stopped, restarted or switched it; otherwise the next instruction
follows (log entry 64). -/
def State.afterStore (s : State) (k : Nat) (c : Core) : State :=
  let c' := s.core k
  if c'.mode = .running ∧ c'.pc = c.pc ∧ c'.bench.isSome = c.bench.isSome ∧ c'.wattr = c.wattr then s.setCore k c'.advance else s

end Sys2Proof.Machine
end

