-- ==== Sys2Proof/Machine/CoreData.lean ====
section
/-! DEFINITION. Loads, stores, atomics, cache write-back and the bit instructions (R285 to R287). -/

namespace Sys2Proof.Machine

/-! ### Loads -/

/-- A load of `size` bytes at offset `off` of window `n`: `put` takes the value. -/
def loadBody (k size : Nat) (place : Core → Nat × Nat) (put : Core → Nat → Core) (s : State) : State × Option TrapInfo :=
  let (n, off) := place (s.core k)
  match s.winLoad k n off size with
  | (s, .error t) => (s, some t)
  | (s, .ok b) => (s.setCore k (put (s.core k) (leNat b)).advance, none)

/-- A loaded value of `size` bytes as a word: sign-extended or zero-extended. -/
def loadValue (size : Nat) (signed : Bool) (v : Nat) : Word :=
  if signed then BitVec.ofInt 64 (signedOf (8 * size) v) else BitVec.ofNat 64 v

/-- Window and offset of a long-form access (R271). -/
def placeM (f : FmtM) (size : Nat) (c : Core) : Nat × Nat := (f.wn.toNat, c.offM f size)

/-- Window and offset of a short-form access (R270). -/
def placeS (f : FmtS) (c : Core) : Nat × Nat := (c.wsel.toNat, f.addr.toNat)

/-- A long-form load into g[rd]. -/
def State.loadM (s : State) (c : CoreId) (op : Nat) (f : FmtM) (size : Nat) (signed : Bool) : State :=
  let k := coreNum c
  s.coreStep k (fun _ => 0) (encM op f) (loadBody k size (placeM f size) fun c v => c.setG f.rd.toNat (loadValue size signed v))

/-- A short-form load into g[rd]. -/
def State.loadS (s : State) (c : CoreId) (op : Nat) (f : FmtS) (size : Nat) (signed : Bool) : State :=
  let k := coreNum c
  s.coreStep k (fun _ => 0) (encS op f) (loadBody k size (placeS f) fun c v => c.setG f.rd.toNat (loadValue size signed v))

/-- LD8U (R285). -/
def execLd8u (c : CoreId) (f : FmtM) (s : State) : Host.Outcome State Fault Refusal :=
  next (fun s => s.loadM c 0x1A f 1 false) s

/-- LD16U (R285). -/
def execLd16u (c : CoreId) (f : FmtM) (s : State) : Host.Outcome State Fault Refusal :=
  next (fun s => s.loadM c 0x1B f 2 false) s

/-- LD32U (R285). -/
def execLd32u (c : CoreId) (f : FmtM) (s : State) : Host.Outcome State Fault Refusal :=
  next (fun s => s.loadM c 0x1C f 4 false) s

/-- LD64; a soft error may strike as the load begins (R573, R575). -/
def execLd64 (c : CoreId) (f : FmtM) (soft : Option SoftError) (s : State) : Host.Outcome State Fault Refusal :=
  next (fun s => (match soft with
    | some e => s.soften (coreNum c) e
    | none => s).loadM c 0x1D f 8 false) s

/-- LD8S (R285). -/
def execLd8s (c : CoreId) (f : FmtM) (s : State) : Host.Outcome State Fault Refusal :=
  next (fun s => s.loadM c 0x1E f 1 true) s

/-- LD16S (R285). -/
def execLd16s (c : CoreId) (f : FmtM) (s : State) : Host.Outcome State Fault Refusal :=
  next (fun s => s.loadM c 0x1F f 2 true) s

/-- LD32S (R285). -/
def execLd32s (c : CoreId) (f : FmtM) (s : State) : Host.Outcome State Fault Refusal :=
  next (fun s => s.loadM c 0x20 f 4 true) s

/-- LD8U_S (R270). -/
def execLd8uS (c : CoreId) (f : FmtS) (s : State) : Host.Outcome State Fault Refusal :=
  next (fun s => s.loadS c 0x2A f 1 false) s

/-- LD16U_S (R270). -/
def execLd16uS (c : CoreId) (f : FmtS) (s : State) : Host.Outcome State Fault Refusal :=
  next (fun s => s.loadS c 0x2B f 2 false) s

/-- LD32U_S (R270). -/
def execLd32uS (c : CoreId) (f : FmtS) (s : State) : Host.Outcome State Fault Refusal :=
  next (fun s => s.loadS c 0x2C f 4 false) s

/-- LD64_S (R268, R270). -/
def execLd64S (c : CoreId) (f : FmtS) (s : State) : Host.Outcome State Fault Refusal :=
  next (fun s => s.loadS c 0x2D f 8 false) s

/-- LD8S_S (R270). -/
def execLd8sS (c : CoreId) (f : FmtS) (s : State) : Host.Outcome State Fault Refusal :=
  next (fun s => s.loadS c 0x2E f 1 true) s

/-- LD16S_S (R270). -/
def execLd16sS (c : CoreId) (f : FmtS) (s : State) : Host.Outcome State Fault Refusal :=
  next (fun s => s.loadS c 0x2F f 2 true) s

/-- LD32S_S (R270). -/
def execLd32sS (c : CoreId) (f : FmtS) (s : State) : Host.Outcome State Fault Refusal :=
  next (fun s => s.loadS c 0x30 f 4 true) s

/-! ### Stores -/

/-- A store at offset `off` of window `n`; the register space may act on the core itself. -/
def storeBody (k : Nat) (place : Core → Nat × Nat) (val : Core → List Byte) (s : State) : State × Option TrapInfo :=
  let c := s.core k
  let (n, off) := place c
  match s.winStore k n off (val c) with
  | (s, some t) => (s, some t)
  | (s, none) => (s.afterStore k c, none)

/-- The low bytes of g[rd]. -/
def Core.gBytes (c : Core) (rd : BitVec 5) (size : Nat) : List Byte := leBytes size (c.gr rd.toNat).toNat

/-- A long-form store of the low bytes of g[rd]. -/
def State.storeM (s : State) (c : CoreId) (op : Nat) (f : FmtM) (size : Nat) : State :=
  let k := coreNum c
  s.coreStep k (fun _ => 0) (encM op f) (storeBody k (placeM f size) fun c => c.gBytes f.rd size)

/-- A short-form store of the low bytes of g[rd]. -/
def State.storeS (s : State) (c : CoreId) (op : Nat) (f : FmtS) (size : Nat) : State :=
  let k := coreNum c
  s.coreStep k (fun _ => 0) (encS op f) (storeBody k (placeS f) fun c => c.gBytes f.rd size)

/-- ST8 (R285, R574). -/
def execSt8 (c : CoreId) (f : FmtM) (s : State) : Host.Outcome State Fault Refusal :=
  next (fun s => s.storeM c 0x21 f 1) s

/-- ST16 (R285). -/
def execSt16 (c : CoreId) (f : FmtM) (s : State) : Host.Outcome State Fault Refusal :=
  next (fun s => s.storeM c 0x22 f 2) s

/-- ST32 (R285). -/
def execSt32 (c : CoreId) (f : FmtM) (s : State) : Host.Outcome State Fault Refusal :=
  next (fun s => s.storeM c 0x23 f 4) s

/-- ST64 (R285, R33, R38, R268). -/
def execSt64 (c : CoreId) (f : FmtM) (s : State) : Host.Outcome State Fault Refusal :=
  next (fun s => s.storeM c 0x24 f 8) s

/-- ST8_S (R270). -/
def execSt8S (c : CoreId) (f : FmtS) (s : State) : Host.Outcome State Fault Refusal :=
  next (fun s => s.storeS c 0x31 f 1) s

/-- ST16_S (R270). -/
def execSt16S (c : CoreId) (f : FmtS) (s : State) : Host.Outcome State Fault Refusal :=
  next (fun s => s.storeS c 0x32 f 2) s

/-- ST32_S (R270). -/
def execSt32S (c : CoreId) (f : FmtS) (s : State) : Host.Outcome State Fault Refusal :=
  next (fun s => s.storeS c 0x33 f 4) s

/-- ST64_S (R268, R270). -/
def execSt64S (c : CoreId) (f : FmtS) (s : State) : Host.Outcome State Fault Refusal :=
  next (fun s => s.storeS c 0x34 f 8) s

/-! ### Atomics, write-back and vectors -/

/-- XCHG64 and XADD64: `upd` gives the new value of memory from the old one and g[rd]. -/
def State.atomicM (s : State) (c : CoreId) (op : Nat) (f : FmtM) (kind : Access) (upd : Nat → Nat → Nat) : State :=
  let k := coreNum c
  s.coreStep k (fun _ => 0) (encM op f) fun s =>
    let c := s.core k
    match s.winAtomic k f.wn.toNat kind (c.offM f 8) (fun t => upd t (c.gr f.rd.toNat).toNat) with
    | (s, .error t) => (s, some t)
    | (s, .ok t) => (s.setCore k ((s.core k).setG f.rd.toNat (BitVec.ofNat 64 t)).advance, none)

/-- XCHG64 (R286). -/
def execXchg64 (c : CoreId) (f : FmtM) (s : State) : Host.Outcome State Fault Refusal :=
  next (fun s => s.atomicM c 0x25 f .xchg fun _ v => v) s

/-- XADD64 (R286). -/
def execXadd64 (c : CoreId) (f : FmtM) (s : State) : Host.Outcome State Fault Refusal :=
  next (fun s => s.atomicM c 0x26 f .xadd fun t v => t + v) s

/-- CLWB: the offset is rounded down to a multiple of 64. -/
def execClwb (c : CoreId) (f : FmtM) (s : State) : Host.Outcome State Fault Refusal :=
  next (fun s =>
    let k := coreNum c
    s.coreStep k (fun _ => ill3 (f.rd == 0)) (encM 0x27 f) fun s =>
      match s.winClwb k f.wn.toNat ((s.core k).offM f 64) with
      | (s, some t) => (s, some t)
      | (s, none) => coreBody k id s) s

/-- VLD (R259, R285). -/
def execVld (c : CoreId) (f : FmtM) (s : State) : Host.Outcome State Fault Refusal :=
  next (fun s =>
    let k := coreNum c
    s.coreStep k (fun _ => illV k (ill3 (f.rd.toNat < 16))) (encM 0x28 f)
      (loadBody k 32 (placeM f 32) fun c v => c.setV (f.rd.toNat % 16) (BitVec.ofNat 256 v))) s

/-- VST (R259, R285). -/
def execVst (c : CoreId) (f : FmtM) (s : State) : Host.Outcome State Fault Refusal :=
  next (fun s =>
    let k := coreNum c
    s.coreStep k (fun _ => illV k (ill3 (f.rd.toNat < 16))) (encM 0x29 f)
      (storeBody k (placeM f 32) fun c => leBytes 32 (c.vr (f.rd.toNat % 16)).toNat)) s

/-! ### Bit instructions (R287) -/

/-- A bit instruction: bit bn is checked, and `act` takes its value and C and gives the new bit, if it is written, and the new C. -/
def State.bitStep (s : State) (c : CoreId) (op : Nat) (f : FmtX) (zero : Bool) (act : Bool → Bool → Option Bool × Bool) : State :=
  let k := coreNum c
  s.coreStep k (fun _ => ill3 zero) (encX op f) fun s =>
    let c := s.core k
    let bn := f.bn.toNat
    if !c.bitOk bn then (s, some ⟨2, bn, 0⟩)
    else
      let (w, cy) := act (s.bitGet k bn) (psC c.ps)
      let s := match w with
        | some v => s.bitSet k bn v
        | none => s
      coreBody k (fun c => { c with ps := psPut c.ps 2 cy }) s

/-- The bit's value, complemented with INV at 1. -/
def bitInv (f : FmtX) (b : Bool) : Bool := b != f.f.getLsbD 9

/-- f[8:0] is zero; all of f is zero. -/
def invOnly (f : FmtX) : Bool := f.f.toNat % 512 == 0
def fZero (f : FmtX) : Bool := f.f == 0

/-- LDBC (R275, R277, R287, R327). -/
def execLdbc (c : CoreId) (f : FmtX) (s : State) : Host.Outcome State Fault Refusal :=
  next (fun s => s.bitStep c 0x35 f (invOnly f) fun b _ => (none, bitInv f b)) s

/-- STBC (R287). -/
def execStbc (c : CoreId) (f : FmtX) (s : State) : Host.Outcome State Fault Refusal :=
  next (fun s => s.bitStep c 0x36 f (fZero f) fun _ cy => (some cy, cy)) s

/-- SETB (R265, R275, R276, R287). -/
def execSetb (c : CoreId) (f : FmtX) (s : State) : Host.Outcome State Fault Refusal :=
  next (fun s => s.bitStep c 0x37 f (fZero f) fun _ cy => (some true, cy)) s

/-- CLRB (R287). -/
def execClrb (c : CoreId) (f : FmtX) (s : State) : Host.Outcome State Fault Refusal :=
  next (fun s => s.bitStep c 0x38 f (fZero f) fun _ cy => (some false, cy)) s

/-- INVB (R287). -/
def execInvb (c : CoreId) (f : FmtX) (s : State) : Host.Outcome State Fault Refusal :=
  next (fun s => s.bitStep c 0x39 f (fZero f) fun b cy => (some !b, cy)) s

/-- ANDBC (R287). -/
def execAndbc (c : CoreId) (f : FmtX) (s : State) : Host.Outcome State Fault Refusal :=
  next (fun s => s.bitStep c 0x3A f (invOnly f) fun b cy => (none, cy && bitInv f b)) s

/-- ORBC (R287). -/
def execOrbc (c : CoreId) (f : FmtX) (s : State) : Host.Outcome State Fault Refusal :=
  next (fun s => s.bitStep c 0x3B f (invOnly f) fun b cy => (none, cy || bitInv f b)) s

/-- XORBC (R287). -/
def execXorbc (c : CoreId) (f : FmtX) (s : State) : Host.Outcome State Fault Refusal :=
  next (fun s => s.bitStep c 0x3C f (invOnly f) fun b cy => (none, cy != bitInv f b)) s

/-- TAS (R287). -/
def execTas (c : CoreId) (f : FmtX) (s : State) : Host.Outcome State Fault Refusal :=
  next (fun s => s.bitStep c 0x3D f (fZero f) fun b _ => (some true, b)) s

/-- BTST: a branch by the value of a bit. -/
def execBtst (c : CoreId) (f : FmtX) (s : State) : Host.Outcome State Fault Refusal :=
  next (fun s =>
    let k := coreNum c
    s.coreStep k (fun _ => 0) (encX 0x3E f) fun s =>
      let c := s.core k
      let bn := f.bn.toNat
      if !c.bitOk bn then (s, some ⟨2, bn, 0⟩)
      else if s.bitGet k bn = f.f.getLsbD 9 then (s.setCore k { c with pc := pcRel c.pc (f.f.setWidth 9) }, none)
      else coreBody k id s) s

end Sys2Proof.Machine
end

