-- ==== Sys2Proof/Machine/CoreFlow.lean ====
section
/-! DEFINITION. Jumps, calls, returns, special-register moves, supervisor calls, events, waits and the asynchronous traps
(R260 to R263, R290 to R305). -/

namespace Sys2Proof.Machine

/-! ### Branches and jumps (R290 to R292) -/

/-- An instruction that sets pc to `target`. -/
def State.jumpStep (s : State) (c : CoreId) (ill word : Nat) (target : Core → Word) : State :=
  let k := coreNum c
  s.coreStep k (fun _ => ill) word fun s => (s.setCore k { s.core k with pc := target (s.core k) }, none)

/-- J (R257, R290). -/
def execJ (c : CoreId) (f : FmtJ) (s : State) : Host.Outcome State Fault Refusal :=
  next (fun s => s.jumpStep c 0 (encJ f) fun c => pcRel c.pc f.disp) s

/-- BCC (R290, R291). -/
def execBcc (c : CoreId) (f : FmtB) (s : State) : Host.Outcome State Fault Refusal :=
  next (fun s => s.jumpStep c (orIll (ill3 (f.rd.toNat < 16 && f.ra == 0)) (if f.rd.toNat % 16 = 15 then 5 else 0)) (encB 0x07 f)
    fun c => if condHolds c.ps (f.rd.toNat % 16) then pcRel c.pc f.imm else c.pc + 4) s

/-- JR (R292). -/
def execJr (c : CoreId) (f : FmtY) (s : State) : Host.Outcome State Fault Refusal :=
  next (fun s => s.jumpStep c (ill3 (f.rd == 0 && f.rb == 0)) (encSys 2 f) fun c => c.gr f.ra.toNat) s

/-! ### Calls and returns (R293 to R295) -/

/-- The mask bits that are set, ascending. -/
def maskBits (mask : Nat) : List Nat := (List.range 8).filter fun i => natBits mask i 1 == 1

/-- The frame of a call: the frame word, the return offset, and the pairs. -/
def Core.frame (c : Core) (mask : Nat) : List Word :=
  BitVec.ofNat 64 (mask + c.cw * 2 ^ 8 + 0xCA11 * 2 ^ 16) :: (c.pc + 4) ::
    (maskBits mask).flatMap fun i => [c.gr (16 + 2 * i), c.gr (17 + 2 * i)]

/-- The first trap of the checks of an 8-byte access of kind `a` at each of `n` words from offset `sp`. -/
def State.frameCheck (s : State) (k w : Nat) (a : Access) (sp : Word) (n : Nat) : Option TrapInfo :=
  (List.range n).foldl (fun t i => match t with
    | some t => some t
    | none => match s.winCheck k w a (sp + BitVec.ofNat 64 (8 * i)).toNat 8 with
      | .error t => some t
      | .ok _ => none) none

/-- CALL and CALLR with their target and mask (R294). -/
def callBody (k mask : Nat) (target : Core → Word) (s : State) : State × Option TrapInfo :=
  let c := s.core k
  let words := c.frame mask
  let sp := c.gr 31 - BitVec.ofNat 64 (8 * words.length)
  let w := c.wstk.toNat
  match s.frameCheck k w .write sp words.length with
  | some t => (s, some t)
  | none =>
    let s := (List.range words.length).foldl (fun s i =>
      (s.winStore k w (sp + BitVec.ofNat 64 (8 * i)).toNat (leBytes 8 (words.getD i 0).toNat)).1) s
    let c' := s.core k
    if c'.mode = .running ∧ c'.bench.isSome = c.bench.isSome ∧ c'.wattr = c.wattr then
      (s.setCore k { c'.setG 31 sp with pc := target c }, none)
    else (s, none)

/-- CALL (R290, R293, R294). -/
def execCall (c : CoreId) (f : FmtC) (s : State) : Host.Outcome State Fault Refusal :=
  next (fun s => s.coreStep (coreNum c) (fun _ => 0) (encC f)
    (callBody (coreNum c) f.mask.toNat fun c => pcRel c.pc f.disp)) s

/-- CALLR (R293, R294). -/
def execCallr (c : CoreId) (f : FmtB) (s : State) : Host.Outcome State Fault Refusal :=
  next (fun s => s.coreStep (coreNum c) (fun _ => ill3 (f.rd == 0 && f.imm.toNat < 256)) (encB 0x08 f)
    (callBody (coreNum c) (f.imm.toNat % 256) fun c => c.gr f.ra.toNat)) s

/-- Read `n` words of a frame from offset `sp`: the words, or the first trap. -/
def State.frameRead (s : State) (k w : Nat) (sp : Word) : Nat → State × Except TrapInfo (List Word)
  | 0 => (s, .ok [])
  | n + 1 =>
    match s.winLoad k w sp.toNat 8 with
    | (s, .error t) => (s, .error t)
    | (s, .ok b) =>
      match s.frameRead k w (sp + 8) n with
      | (s, .error t) => (s, .error t)
      | (s, .ok r) => (s, .ok (BitVec.ofNat 64 (leNat b) :: r))

/-- Restore the pairs of a frame; the saved g31 is that of mask bit 7. -/
def Core.restore (c : Core) (bits : List Nat) (vals : List Word) : Core :=
  (List.range bits.length).foldl (fun c j =>
    let i := bits.getD j 0
    (c.setG (16 + 2 * i) (vals.getD (2 * j) 0)).setG (17 + 2 * i) (vals.getD (2 * j + 1) 0)) c

/-- RET (R295). -/
def retBody (k : Nat) (s : State) : State × Option TrapInfo :=
  let c := s.core k
  let w := c.wstk.toNat
  let sp := c.gr 31
  match s.frameRead k w sp 1 with
  | (s, .error t) => (s, some t)
  | (s, .ok l) =>
    let v := (l.headD 0).toNat
    if natBits v 16 16 ≠ 0xCA11 ∨ natBits v 12 4 ≠ 0 ∨ natBits v 32 32 ≠ 0 ∨ natBits v 8 4 ≠ c.cw then (s, some ⟨0, 0, 8⟩)
    else
      let bits := maskBits (v % 256)
      match s.frameRead k w (sp + 8) (1 + 2 * bits.length) with
      | (s, .error t) => (s, some t)
      | (s, .ok r) =>
        let c := (s.core k).setG 31 (sp + BitVec.ofNat 64 (16 + 16 * bits.length))
        (s.setCore k { c.restore bits r.tail with pc := r.headD 0 }, none)

/-- RET (R293, R295). -/
def execRet (c : CoreId) (f : FmtY) (s : State) : Host.Outcome State Fault Refusal :=
  next (fun s => s.coreStep (coreNum c) (fun _ => ill3 (f.rd == 0 && f.ra == 0 && f.rb == 0)) (encSys 0 f) (retBody (coreNum c))) s

/-! ### Special registers (R260 to R263) -/

/-- MFS (R260, R261, R262, R306). -/
def execMfs (c : CoreId) (f : FmtB) (s : State) : Host.Outcome State Fault Refusal :=
  next (fun s =>
    let k := coreNum c
    s.coreStep k (fun c => orIll (ill3 (f.ra == 0)) (mfsIll c f.imm.toNat)) (encB 0x09 f) fun s =>
      coreBody k (fun c => c.setG f.rd.toNat (s.mfs k f.imm.toNat)) s) s

/-- MTS (R263, R258, R260, R261). -/
def execMts (c : CoreId) (f : FmtB) (s : State) : Host.Outcome State Fault Refusal :=
  next (fun s =>
    let k := coreNum c
    s.coreStep k (fun c => orIll (ill3 (f.rd == 0)) (mtsIll k c f.imm.toNat (c.gr f.ra.toNat))) (encB 0x0A f) fun s =>
      coreBody k id (s.mts k f.imm.toNat ((s.core k).gr f.ra.toNat))) s

/-! ### BRK, SVC and TRET (R300, R303, R311) -/

/-- BRK (R300, R266, R301, R302). -/
def execBrk (c : CoreId) (f : FmtY) (s : State) : Host.Outcome State Fault Refusal :=
  next (fun s => s.coreStep (coreNum c) (fun _ => ill3 (f.rd == 0 && f.ra == 0 && f.rb == 0)) (encSys 3 f)
    fun s => (s, some ⟨5, 0, 0⟩)) s

/-- SVC (R300, R266, R301, R456). -/
def execSvc (c : CoreId) (f : FmtY) (s : State) : Host.Outcome State Fault Refusal :=
  next (fun s => s.coreStep (coreNum c) (fun _ => ill3 (f.rd == 0)) (encSys 4 f)
    fun s => (s, some ⟨6, f.ra.toNat * 32 + f.rb.toNat, 0⟩)) s

/-- TRET: ps and pc come back and ACTIVE is cleared; a switch-out cause that arose in the handler takes effect here (R317). -/
def tretBody (k : Nat) (s : State) : State × Option TrapInfo :=
  let c := s.core k
  let s := s.setCore k { c with ps := c.tps, pc := c.tpc, tcause := c.tcause &&& ~~~ (0x10000 : Word) }
  (match c.bench with
    | some r => if c.tps.getLsbD 4 && r.late != 0 then s.switchOut k r.late c.tpc c.tps else s
    | none => s, none)

/-- TRET (R266, R303, R317). -/
def execTret (c : CoreId) (f : FmtY) (s : State) : Host.Outcome State Fault Refusal :=
  next (fun s => s.coreStep (coreNum c)
    (fun c => orIll (ill3 (f.rd == 0 && f.ra == 0 && f.rb == 0)) (if c.benchMode then 6 else 0)) (encSys 1 f) (tretBody (coreNum c))) s

/-! ### Events and waits (R296 to R299) -/

/-- SEV (R297): the core named by g[ra] gets event bit g[rb][7:0]. -/
def execSev (c : CoreId) (f : FmtY) (s : State) : Host.Outcome State Fault Refusal :=
  next (fun s =>
    let k := coreNum c
    s.coreStep k (fun _ => ill3 (f.rd == 0)) (encSys 9 f) fun s =>
      let c := s.core k
      let bit := (c.gr f.rb.toNat).toNat % 256
      match coreNamed ((c.gr f.ra.toNat).toNat % 1024) with
      | none => (s, some ⟨0, 0, 9⟩)
      | some t =>
        if t = 40 ∧ k ≠ 40 then (s, some ⟨0, 0, 9⟩)
        else if c.benchMode && bit < 224 then (s, some ⟨2, 4096 + bit, 0⟩)
        else coreBody k id (s.setEvt t bit)) s

/-- Event group `g`. -/
def Core.evtGroup (c : Core) (g : Nat) : RegWord := mapGet zeroWord c.evt g

/-- Some group that `ee` enables holds a set bit. -/
def Core.anyEvt (c : Core) (ee : Nat) : Bool := (List.range 8).any fun g => natBits ee g 1 == 1 && c.evtGroup g != 0

/-- ps.EE. -/
def Core.eeOf (c : Core) : Nat := (c.ps >>> 8).toNat % 256

/-- EE as WFE takes it, and as WTU and WTUE take it (R296, R298). -/
def Core.eeWfe (c : Core) : Nat := if c.benchMode then 0 else c.eeOf
def Core.eeWtu (c : Core) : Nat := if c.benchMode then 0x80 else c.eeOf

/-- Does a wait end now, and with which register and value? -/
def State.waitOver (s : State) (c : Core) : WaitKind → Option (Nat × Word)
  | .wfe rd grp =>
    if c.evtGroup grp != 0 || c.anyEvt c.eeWfe then some (rd, (c.evtGroup grp).setWidth 64) else none
  | .wtu rd t =>
    if t.toNat ≤ s.tb.toNat then some (rd, BitVec.ofNat 64 (1 + if c.anyEvt c.eeWtu then 2 else 0)) else none
  | .wtue rd t =>
    let due := decide (t.toNat ≤ s.tb.toNat)
    let ev := c.anyEvt c.eeWtu
    if due || ev then some (rd, BitVec.ofNat 64 ((if due then 1 else 0) + if ev then 2 else 0)) else none

/-- Core `k` waits, or goes on at once when the wait is over already. -/
def waitBody (k : Nat) (w : WaitKind) (s : State) : State × Option TrapInfo :=
  let c := s.core k
  match s.waitOver c w with
  | some (rd, v) => coreBody k (fun c => c.setG rd v) s
  | none => (s.setCore k { c with mode := .waiting w }, none)

/-- WFE (R296, R299). -/
def execWfe (c : CoreId) (f : FmtY) (s : State) : Host.Outcome State Fault Refusal :=
  next (fun s =>
    let k := coreNum c
    let grp := f.ra.toNat % 8
    s.coreStep k (fun _ => ill3 (f.ra.toNat < 8 && f.rb == 0)) (encSys 8 f) fun s =>
      if (s.core k).benchMode && grp != 7 then (s, some ⟨2, 4096 + 32 * grp, 0⟩)
      else waitBody k (.wfe f.rd.toNat grp) s) s

/-- WTU (R298, R299). -/
def execWtu (c : CoreId) (f : FmtY) (s : State) : Host.Outcome State Fault Refusal :=
  next (fun s =>
    let k := coreNum c
    s.coreStep k (fun _ => ill3 (f.rb == 0)) (encSys 0xA f) fun s =>
      waitBody k (.wtu f.rd.toNat ((s.core k).gr f.ra.toNat)) s) s

/-- WTUE (R298, R299). -/
def execWtue (c : CoreId) (f : FmtY) (s : State) : Host.Outcome State Fault Refusal :=
  next (fun s =>
    let k := coreNum c
    s.coreStep k (fun _ => ill3 (f.rb == 0)) (encSys 0xB f) fun s =>
      waitBody k (.wtue f.rd.toNat ((s.core k).gr f.ra.toNat)) s) s

/-- Core `k` executes or waits. -/
def State.attends (s : State) (k : Nat) : Bool :=
  s.executes k && (match (s.core k).mode with
    | .running => true
    | .waiting _ => true
    | _ => false)

/-- The asynchronous trap that is due, or else `f`. -/
def State.elseAsync (s : State) (k : Nat) (f : State → State) : State :=
  match s.asyncTrap k with
  | some s => s
  | none => f s

/-- The wait of core `k` ends: the time it waits for is reached, unless an event has ended it before. -/
def State.waitEnd (s : State) (k : Nat) : State :=
  let finish (w : WaitKind) (s : State) : State :=
    match s.waitOver (s.core k) w with
    | some (rd, v) => (coreBody k (fun c => { c.setG rd v with mode := .running }) s).1
    | none => s
  match (s.core k).mode with
  | .waiting w =>
    if (s.waitOver (s.core k) w).isSome then finish w s
    else match w with
      | .wfe _ _ => s
      | .wtu _ t => (s.reach t.toNat).elseAsync k (finish w)
      | .wtue _ t => (s.reach t.toNat).elseAsync k (finish w)
  | _ => s

/-- WAIT_END: the wait is over, unless a trap is due first (R299; log entry 55). -/
def execWaitEnd (c : CoreId) (s : State) : Host.Outcome State Fault Refusal :=
  next (fun s => if s.attends (coreNum c) then s.elseAsync (coreNum c) fun s => s.waitEnd (coreNum c) else s) s

/-! ### Asynchronous traps (R274, R304, R305) -/

/-- TIMER_TRAP: TB reaches TCMP with TEN and AE set. -/
def execTimerTrap (c : CoreId) (s : State) : Host.Outcome State Fault Refusal :=
  next (fun s =>
    let k := coreNum c
    let x := s.core k
    if s.attends k ∧ x.tctl.getLsbD 0 ∧ x.ps.getLsbD 5 then (s.reach x.tcmp.toNat).elseAsync k id else s) s

/-- WATCHDOG_EXPIRY: WDOG.COUNT reaches zero. -/
def execWatchdogExpiry (c : CoreId) (s : State) : Host.Outcome State Fault Refusal :=
  next (fun s =>
    let k := coreNum c
    let x := s.core k
    if s.attends k ∧ x.tctl.getLsbD 1 then (s.reach (x.wdogFrom.toNat + x.wdogCount.toNat * 1024)).elseAsync k id else s) s

/-- STORE_BUS_ERROR: a buffered store has ended in a bus error, the one at `addr` where none is known yet. -/
def execStoreBusError (c : CoreId) (addr : BitVec 64) (s : State) : Host.Outcome State Fault Refusal :=
  next (fun s =>
    let k := coreNum c
    let x := s.core k
    if s.attends k then
      (if x.storeErr.isEmpty then s.setCore k { x with storeErr := [addr] } else s).elseAsync k id
    else s) s

end Sys2Proof.Machine
end

