-- ==== Sys2Proof/Machine/CoreInt.lean ====
section
/-! DEFINITION. Integer instructions, fences, and moves and operations of the vector registers (R281 to R284, R288, R289). -/

namespace Sys2Proof.Machine

/-! ### Register format (R281) -/

/-- A register-format integer instruction: `op` gives its result from a, b and C. -/
def State.intStep (s : State) (c : CoreId) (func : Nat) (f : FmtA) (zero : Bool) (op : Word → Word → Bool → Alu) : State :=
  let k := coreNum c
  s.coreStep k (fun _ => ill3 zero) (encInt func f) (coreBody k fun c =>
    let x := op (c.gr f.ra.toNat) (c.gr f.rb.toNat) (psC c.ps)
    { c.setG f.rd.toNat x.r with ps := if f.s then x.flags c.ps else c.ps })

/-- The instruction of a command that may carry the word the core really meets: an undefined word raises the illegal-instruction
trap (R307). -/
def State.undefStep (s : State) (c : CoreId) (undef : Option (BitVec 32)) (run : State → State) : State :=
  let k := coreNum c
  match undef with
  | some w => if undefinedWord k w.toNat = 0 then run s
    else s.coreStep k (fun _ => undefinedWord k w.toNat) w.toNat fun s => (s, none)
  | none => run s

/-- ADD (R256, R257, R279, R281). -/
def execAdd (c : CoreId) (f : FmtA) (undef : Option (BitVec 32)) (s : State) : Host.Outcome State Fault Refusal :=
  next (fun s => s.undefStep c undef fun s => s.intStep c 0x000 f true fun a b _ => aluAdd a b false) s

/-- ADC (R281). -/
def execAdc (c : CoreId) (f : FmtA) (s : State) : Host.Outcome State Fault Refusal :=
  next (fun s => s.intStep c 0x001 f true aluAdd) s

/-- SUB (R281, R284). -/
def execSub (c : CoreId) (f : FmtA) (s : State) : Host.Outcome State Fault Refusal :=
  next (fun s => s.intStep c 0x002 f true fun a b _ => aluSub a b true) s

/-- SBC (R281). -/
def execSbc (c : CoreId) (f : FmtA) (s : State) : Host.Outcome State Fault Refusal :=
  next (fun s => s.intStep c 0x003 f true aluSub) s

/-- AND (R281). -/
def execAnd (c : CoreId) (f : FmtA) (s : State) : Host.Outcome State Fault Refusal :=
  next (fun s => s.intStep c 0x004 f true fun a b _ => aluPlain (a &&& b)) s

/-- OR (R281). -/
def execOr (c : CoreId) (f : FmtA) (s : State) : Host.Outcome State Fault Refusal :=
  next (fun s => s.intStep c 0x005 f true fun a b _ => aluPlain (a ||| b)) s

/-- XOR (R281). -/
def execXor (c : CoreId) (f : FmtA) (s : State) : Host.Outcome State Fault Refusal :=
  next (fun s => s.intStep c 0x006 f true fun a b _ => aluPlain (a ^^^ b)) s

/-- ANDN (R281). -/
def execAndn (c : CoreId) (f : FmtA) (s : State) : Host.Outcome State Fault Refusal :=
  next (fun s => s.intStep c 0x007 f true fun a b _ => aluPlain (a &&& ~~~ b)) s

/-- SHL (R281). -/
def execShl (c : CoreId) (f : FmtA) (s : State) : Host.Outcome State Fault Refusal :=
  next (fun s => s.intStep c 0x008 f true fun a b _ => aluShl a (b.toNat % 64)) s

/-- SHR (R281). -/
def execShr (c : CoreId) (f : FmtA) (s : State) : Host.Outcome State Fault Refusal :=
  next (fun s => s.intStep c 0x009 f true fun a b _ => aluShr a (b.toNat % 64)) s

/-- SAR (R281). -/
def execSar (c : CoreId) (f : FmtA) (s : State) : Host.Outcome State Fault Refusal :=
  next (fun s => s.intStep c 0x00A f true fun a b _ => aluSar a (b.toNat % 64)) s

/-- ROR (R281). -/
def execRor (c : CoreId) (f : FmtA) (s : State) : Host.Outcome State Fault Refusal :=
  next (fun s => s.intStep c 0x00B f true fun a b _ => aluRor a (b.toNat % 64)) s

/-- MUL (R281, R284). -/
def execMul (c : CoreId) (f : FmtA) (s : State) : Host.Outcome State Fault Refusal :=
  next (fun s => s.intStep c 0x010 f true fun a b _ => aluMul a b) s

/-- MULHS (R281). -/
def execMulhs (c : CoreId) (f : FmtA) (s : State) : Host.Outcome State Fault Refusal :=
  next (fun s => s.intStep c 0x011 f true fun a b _ => aluMulhs a b) s

/-- MULHU (R281). -/
def execMulhu (c : CoreId) (f : FmtA) (s : State) : Host.Outcome State Fault Refusal :=
  next (fun s => s.intStep c 0x012 f true fun a b _ => aluMulhu a b) s

/-- DIVS (R282, R284). -/
def execDivs (c : CoreId) (f : FmtA) (s : State) : Host.Outcome State Fault Refusal :=
  next (fun s => s.intStep c 0x014 f true fun a b _ => aluDivs a b) s

/-- DIVU (R282). -/
def execDivu (c : CoreId) (f : FmtA) (s : State) : Host.Outcome State Fault Refusal :=
  next (fun s => s.intStep c 0x015 f true fun a b _ => aluDivu a b) s

/-- REMS (R282). -/
def execRems (c : CoreId) (f : FmtA) (s : State) : Host.Outcome State Fault Refusal :=
  next (fun s => s.intStep c 0x016 f true fun a b _ => aluRems a b) s

/-- REMU (R282). -/
def execRemu (c : CoreId) (f : FmtA) (s : State) : Host.Outcome State Fault Refusal :=
  next (fun s => s.intStep c 0x017 f true fun a b _ => aluRemu a b) s

/-- MINS (R281). -/
def execMins (c : CoreId) (f : FmtA) (s : State) : Host.Outcome State Fault Refusal :=
  next (fun s => s.intStep c 0x018 f true fun a b _ => aluPlain (if a.toInt ≤ b.toInt then a else b)) s

/-- MAXS (R281). -/
def execMaxs (c : CoreId) (f : FmtA) (s : State) : Host.Outcome State Fault Refusal :=
  next (fun s => s.intStep c 0x019 f true fun a b _ => aluPlain (if a.toInt ≤ b.toInt then b else a)) s

/-- MINU (R281). -/
def execMinu (c : CoreId) (f : FmtA) (s : State) : Host.Outcome State Fault Refusal :=
  next (fun s => s.intStep c 0x01A f true fun a b _ => aluPlain (if a.toNat ≤ b.toNat then a else b)) s

/-- MAXU (R281). -/
def execMaxu (c : CoreId) (f : FmtA) (s : State) : Host.Outcome State Fault Refusal :=
  next (fun s => s.intStep c 0x01B f true fun a b _ => aluPlain (if a.toNat ≤ b.toNat then b else a)) s

/-- CLZ (R281). -/
def execClz (c : CoreId) (f : FmtA) (s : State) : Host.Outcome State Fault Refusal :=
  next (fun s => s.intStep c 0x020 f (f.rb == 0) fun a _ _ => aluPlain (BitVec.ofNat 64 (clzOf a 64))) s

/-- CTZ (R281). -/
def execCtz (c : CoreId) (f : FmtA) (s : State) : Host.Outcome State Fault Refusal :=
  next (fun s => s.intStep c 0x021 f (f.rb == 0) fun a _ _ => aluPlain (BitVec.ofNat 64 (ctzOf a 0 64))) s

/-- POPC (R281). -/
def execPopc (c : CoreId) (f : FmtA) (s : State) : Host.Outcome State Fault Refusal :=
  next (fun s => s.intStep c 0x022 f (f.rb == 0) fun a _ _ => aluPlain (BitVec.ofNat 64 (popOf a.toNat 64))) s

/-- BSWAP (R281). -/
def execBswap (c : CoreId) (f : FmtA) (s : State) : Host.Outcome State Fault Refusal :=
  next (fun s => s.intStep c 0x023 f (f.rb == 0) fun a _ _ => aluPlain (bswapW a)) s

/-- SEXT8 (R281). -/
def execSext8 (c : CoreId) (f : FmtA) (s : State) : Host.Outcome State Fault Refusal :=
  next (fun s => s.intStep c 0x024 f (f.rb == 0) fun a _ _ => aluPlain (sextW 8 a)) s

/-- SEXT16 (R281). -/
def execSext16 (c : CoreId) (f : FmtA) (s : State) : Host.Outcome State Fault Refusal :=
  next (fun s => s.intStep c 0x025 f (f.rb == 0) fun a _ _ => aluPlain (sextW 16 a)) s

/-- SEXT32 (R281). -/
def execSext32 (c : CoreId) (f : FmtA) (s : State) : Host.Outcome State Fault Refusal :=
  next (fun s => s.intStep c 0x026 f (f.rb == 0) fun a _ _ => aluPlain (sextW 32 a)) s

/-- ZEXT8 (R281). -/
def execZext8 (c : CoreId) (f : FmtA) (s : State) : Host.Outcome State Fault Refusal :=
  next (fun s => s.intStep c 0x028 f (f.rb == 0) fun a _ _ => aluPlain (zextW 8 a)) s

/-- ZEXT16 (R281). -/
def execZext16 (c : CoreId) (f : FmtA) (s : State) : Host.Outcome State Fault Refusal :=
  next (fun s => s.intStep c 0x029 f (f.rb == 0) fun a _ _ => aluPlain (zextW 16 a)) s

/-- ZEXT32 (R281). -/
def execZext32 (c : CoreId) (f : FmtA) (s : State) : Host.Outcome State Fault Refusal :=
  next (fun s => s.intStep c 0x02A f (f.rb == 0) fun a _ _ => aluPlain (zextW 32 a)) s

/-! ### Fences (R272, R273) -/

/-- The fields of FENCE and FENCEI that must be zero. -/
def fenceZero (f : FmtA) : Bool := f.rd == 0 && f.ra == 0 && f.rb == 0 && !f.s

/-- FENCE: every earlier access of the core is visible already; the core goes on. -/
def execFence (c : CoreId) (f : FmtA) (s : State) : Host.Outcome State Fault Refusal :=
  next (fun s => s.coreStep (coreNum c) (fun _ => ill3 (fenceZero f)) (encInt 0x030 f) (coreBody (coreNum c) id)) s

/-- FENCEI: the instruction cache is invalidated. -/
def execFencei (c : CoreId) (f : FmtA) (s : State) : Host.Outcome State Fault Refusal :=
  next (fun s => s.coreStep (coreNum c) (fun _ => ill3 (fenceZero f)) (encInt 0x031 f)
    (coreBody (coreNum c) fun c => { c with icache := [] })) s

/-! ### Immediate format (R283) -/

/-- An immediate-format integer instruction: `op` gives its result from a; `write` the result goes to g[rd], `flags` it sets the
flags. -/
def State.immStep (s : State) (c : CoreId) (opc : Nat) (f : FmtB) (zero write flags : Bool) (op : Word → Alu) : State :=
  let k := coreNum c
  s.coreStep k (fun _ => ill3 zero) (encB opc f) (coreBody k fun c =>
    let x := op (c.gr f.ra.toNat)
    { (if write then c.setG f.rd.toNat x.r else c) with ps := if flags then x.flags c.ps else c.ps })

/-- MOVI (R283). -/
def execMovi (c : CoreId) (f : FmtB) (s : State) : Host.Outcome State Fault Refusal :=
  next (fun s => s.immStep c 0x0B f (f.ra == 0) true false fun _ => aluPlain (sextI f.imm)) s

/-- ADDI (R283). -/
def execAddi (c : CoreId) (f : FmtB) (s : State) : Host.Outcome State Fault Refusal :=
  next (fun s => s.immStep c 0x0C f true true false fun a => aluAdd a (sextI f.imm) false) s

/-- ADDIS (R283). -/
def execAddis (c : CoreId) (f : FmtB) (s : State) : Host.Outcome State Fault Refusal :=
  next (fun s => s.immStep c 0x0D f true true true fun a => aluAdd a (sextI f.imm) false) s

/-- CMPI (R283, R284). -/
def execCmpi (c : CoreId) (f : FmtB) (s : State) : Host.Outcome State Fault Refusal :=
  next (fun s => s.immStep c 0x0E f (f.rd == 0) false true fun a => aluSub a (sextI f.imm) true) s

/-- ANDI (R283). -/
def execAndi (c : CoreId) (f : FmtB) (s : State) : Host.Outcome State Fault Refusal :=
  next (fun s => s.immStep c 0x0F f true true false fun a => aluPlain (a &&& zextI f.imm)) s

/-- ORI (R283). -/
def execOri (c : CoreId) (f : FmtB) (s : State) : Host.Outcome State Fault Refusal :=
  next (fun s => s.immStep c 0x10 f true true false fun a => aluPlain (a ||| zextI f.imm)) s

/-- XORI (R283). -/
def execXori (c : CoreId) (f : FmtB) (s : State) : Host.Outcome State Fault Refusal :=
  next (fun s => s.immStep c 0x11 f true true false fun a => aluPlain (a ^^^ zextI f.imm)) s

/-- TSTI (R283). -/
def execTsti (c : CoreId) (f : FmtB) (s : State) : Host.Outcome State Fault Refusal :=
  next (fun s => s.immStep c 0x12 f (f.rd == 0) false true fun a => aluPlain (a &&& zextI f.imm)) s

/-- imm16[15:6] of a shift must be zero. -/
def shiftZero (f : FmtB) : Bool := f.imm.toNat < 64

/-- SHLI (R283). -/
def execShli (c : CoreId) (f : FmtB) (s : State) : Host.Outcome State Fault Refusal :=
  next (fun s => s.immStep c 0x13 f (shiftZero f) true false fun a => aluShl a (f.imm.toNat % 64)) s

/-- SHRI (R283). -/
def execShri (c : CoreId) (f : FmtB) (s : State) : Host.Outcome State Fault Refusal :=
  next (fun s => s.immStep c 0x14 f (shiftZero f) true false fun a => aluShr a (f.imm.toNat % 64)) s

/-- SARI (R283). -/
def execSari (c : CoreId) (f : FmtB) (s : State) : Host.Outcome State Fault Refusal :=
  next (fun s => s.immStep c 0x15 f (shiftZero f) true false fun a => aluSar a (f.imm.toNat % 64)) s

/-- RORI (R283). -/
def execRori (c : CoreId) (f : FmtB) (s : State) : Host.Outcome State Fault Refusal :=
  next (fun s => s.immStep c 0x16 f (shiftZero f) true false fun a => aluRor a (f.imm.toNat % 64)) s

/-- ORH1 (R283). -/
def execOrh1 (c : CoreId) (f : FmtB) (s : State) : Host.Outcome State Fault Refusal :=
  next (fun s => s.immStep c 0x17 f true true false fun a => aluPlain (a ||| (zextI f.imm <<< 16))) s

/-- ORH2 (R283). -/
def execOrh2 (c : CoreId) (f : FmtB) (s : State) : Host.Outcome State Fault Refusal :=
  next (fun s => s.immStep c 0x18 f true true false fun a => aluPlain (a ||| (zextI f.imm <<< 32))) s

/-- ORH3 (R283). -/
def execOrh3 (c : CoreId) (f : FmtB) (s : State) : Host.Outcome State Fault Refusal :=
  next (fun s => s.immStep c 0x19 f true true false fun a => aluPlain (a ||| (zextI f.imm <<< 48))) s

/-! ### Moves between vector and integer registers (R289) -/

/-- A move of format A between the register files; bits [10] and [7:2] of func must be zero, or func is undefined (log entry 60). -/
def State.vmovStep (s : State) (c : CoreId) (sel : Nat) (f : FmtW) (zero : Bool) (g : Core → Core) : State :=
  let k := coreNum c
  s.coreStep k (fun _ => illV k (if f.z ≠ 0 then 2 else ill3 zero)) (encVmov sel f) (coreBody k g)

/-- The lane that g[rb] names. -/
def Core.laneIx (c : Core) (f : FmtW) : Nat := (c.gr f.rb.toNat).toNat % (256 / ewBits f.ew)

/-- The vector register that a 5-bit field names. -/
def vreg (r : BitVec 5) : Nat := r.toNat % 16

/-- VGET (R289). -/
def execVget (c : CoreId) (f : FmtW) (s : State) : Host.Outcome State Fault Refusal :=
  next (fun s => s.vmovStep c 0 f (f.ra.toNat < 16) fun c =>
    c.setG f.rd.toNat (BitVec.ofNat 64 (vecLane (c.vr (vreg f.ra)) (ewBits f.ew) (c.laneIx f)))) s

/-- VPUT (R289). -/
def execVput (c : CoreId) (f : FmtW) (s : State) : Host.Outcome State Fault Refusal :=
  next (fun s => s.vmovStep c 1 f (f.rd.toNat < 16) fun c =>
    c.setV (vreg f.rd) (laneSet (c.vr (vreg f.rd)) (ewBits f.ew) (c.laneIx f) (c.gr f.ra.toNat).toNat)) s

/-- VRSUM (R289). -/
def execVrsum (c : CoreId) (f : FmtW) (s : State) : Host.Outcome State Fault Refusal :=
  next (fun s => s.vmovStep c 2 f (f.ra.toNat < 16 && f.rb == 0) fun c =>
    let w := ewBits f.ew
    c.setG f.rd.toNat (BitVec.ofNat 64 ((List.range (256 / w)).map (vecLane (c.vr (vreg f.ra)) w)).sum)) s

/-- VMSK (R289). -/
def execVmsk (c : CoreId) (f : FmtW) (s : State) : Host.Outcome State Fault Refusal :=
  next (fun s => s.vmovStep c 3 f (f.ra.toNat < 16 && f.rb == 0) fun c =>
    let w := ewBits f.ew
    c.setG f.rd.toNat (BitVec.ofNat 64 ((List.range (256 / w)).map fun i =>
      vecLane (c.vr (vreg f.ra)) w i / 2 ^ (w - 1) * 2 ^ i).sum)) s

/-! ### Vector operations (R288) -/

/-- A format-V instruction: `op` gives the new value of v[vd]. -/
def State.vopStep (s : State) (c : CoreId) (func : Nat) (f : FmtV) (zero : Bool) (op : Core → VecWord) : State :=
  let k := coreNum c
  s.coreStep k (fun _ => illV k (ill3 zero)) (encVop func f) (coreBody k fun c => c.setV f.vd.toNat (op c))

/-- rb names vb: its top bit must be zero (R280). -/
def vbZero (f : FmtV) : Bool := f.rb.toNat < 16

/-- A lane-by-lane operation of va and vb; `op` takes the width and the lanes. -/
def State.vlaneStep (s : State) (c : CoreId) (func : Nat) (f : FmtV) (op : Nat → Nat → Nat → Nat) : State :=
  s.vopStep c func f (vbZero f) fun c =>
    let w := ewBits f.ew
    lanesOf w fun i => op w (vecLane (c.vr f.va.toNat) w i) (vecLane (c.vr (vreg f.rb)) w i)

/-- A bitwise operation of va and vb. -/
def State.vbitStep (s : State) (c : CoreId) (func : Nat) (f : FmtV) (op : VecWord → VecWord → VecWord) : State :=
  s.vopStep c func f (vbZero f && f.ew == 0) fun c => op (c.vr f.va.toNat) (c.vr (vreg f.rb))

/-- A shift of every lane of va by g[rb] mod w. -/
def State.vshiftStep (s : State) (c : CoreId) (func : Nat) (f : FmtV) (op : Nat → Nat → Nat → Nat) : State :=
  s.vopStep c func f true fun c =>
    let w := ewBits f.ew
    let n := (c.gr f.rb.toNat).toNat % w
    lanesOf w fun i => op w (vecLane (c.vr f.va.toNat) w i) n

/-- All ones of width `w`, or zero. -/
def allOnesIf (w : Nat) (b : Bool) : Nat := if b then 2 ^ w - 1 else 0

/-- VADD (R288). -/
def execVadd (c : CoreId) (f : FmtV) (s : State) : Host.Outcome State Fault Refusal :=
  next (fun s => s.vlaneStep c 0x000 f fun _ a b => a + b) s

/-- VSUB (R288). -/
def execVsub (c : CoreId) (f : FmtV) (s : State) : Host.Outcome State Fault Refusal :=
  next (fun s => s.vlaneStep c 0x001 f fun w a b => a + (2 ^ w - b)) s

/-- VMUL (R288). -/
def execVmul (c : CoreId) (f : FmtV) (s : State) : Host.Outcome State Fault Refusal :=
  next (fun s => s.vlaneStep c 0x002 f fun _ a b => a * b) s

/-- VMULHU (R288). -/
def execVmulhu (c : CoreId) (f : FmtV) (s : State) : Host.Outcome State Fault Refusal :=
  next (fun s => s.vlaneStep c 0x003 f fun w a b => a * b / 2 ^ w) s

/-- VMLA (R288). -/
def execVmla (c : CoreId) (f : FmtV) (s : State) : Host.Outcome State Fault Refusal :=
  next (fun s => s.vopStep c 0x004 f (vbZero f) fun c =>
    let w := ewBits f.ew
    lanesOf w fun i =>
      vecLane (c.vr f.vd.toNat) w i + vecLane (c.vr f.va.toNat) w i * vecLane (c.vr (vreg f.rb)) w i) s

/-- VAND (R288). -/
def execVand (c : CoreId) (f : FmtV) (s : State) : Host.Outcome State Fault Refusal :=
  next (fun s => s.vbitStep c 0x008 f fun a b => a &&& b) s

/-- VOR (R288). -/
def execVor (c : CoreId) (f : FmtV) (s : State) : Host.Outcome State Fault Refusal :=
  next (fun s => s.vbitStep c 0x009 f fun a b => a ||| b) s

/-- VXOR (R288). -/
def execVxor (c : CoreId) (f : FmtV) (s : State) : Host.Outcome State Fault Refusal :=
  next (fun s => s.vbitStep c 0x00A f fun a b => a ^^^ b) s

/-- VANDN (R288). -/
def execVandn (c : CoreId) (f : FmtV) (s : State) : Host.Outcome State Fault Refusal :=
  next (fun s => s.vbitStep c 0x00B f fun a b => a &&& ~~~ b) s

/-- VMINU (R288). -/
def execVminu (c : CoreId) (f : FmtV) (s : State) : Host.Outcome State Fault Refusal :=
  next (fun s => s.vlaneStep c 0x00C f fun _ a b => min a b) s

/-- VMAXU (R288). -/
def execVmaxu (c : CoreId) (f : FmtV) (s : State) : Host.Outcome State Fault Refusal :=
  next (fun s => s.vlaneStep c 0x00D f fun _ a b => max a b) s

/-- VCMPEQ (R288). -/
def execVcmpeq (c : CoreId) (f : FmtV) (s : State) : Host.Outcome State Fault Refusal :=
  next (fun s => s.vlaneStep c 0x010 f fun w a b => allOnesIf w (a == b)) s

/-- VCMPGTU (R288). -/
def execVcmpgtu (c : CoreId) (f : FmtV) (s : State) : Host.Outcome State Fault Refusal :=
  next (fun s => s.vlaneStep c 0x011 f fun w a b => allOnesIf w (b < a)) s

/-- VCMPGTS (R288). -/
def execVcmpgts (c : CoreId) (f : FmtV) (s : State) : Host.Outcome State Fault Refusal :=
  next (fun s => s.vlaneStep c 0x012 f fun w a b => allOnesIf w (signedOf w b < signedOf w a)) s

/-- VSHL (R288). -/
def execVshl (c : CoreId) (f : FmtV) (s : State) : Host.Outcome State Fault Refusal :=
  next (fun s => s.vshiftStep c 0x018 f fun _ a n => a * 2 ^ n) s

/-- VSHR (R288). -/
def execVshr (c : CoreId) (f : FmtV) (s : State) : Host.Outcome State Fault Refusal :=
  next (fun s => s.vshiftStep c 0x019 f fun _ a n => a / 2 ^ n) s

/-- VSAR (R288). -/
def execVsar (c : CoreId) (f : FmtV) (s : State) : Host.Outcome State Fault Refusal :=
  next (fun s => s.vshiftStep c 0x01A f fun w a n => unsignedOf w (Int.fdiv (signedOf w a) (2 ^ n : Nat))) s

/-- VPOPC (R288). -/
def execVpopc (c : CoreId) (f : FmtV) (s : State) : Host.Outcome State Fault Refusal :=
  next (fun s => s.vopStep c 0x020 f (f.rb == 0) fun c =>
    let w := ewBits f.ew
    lanesOf w fun i => popOf (vecLane (c.vr f.va.toNat) w i) w) s

/-- VSPLAT (R288). -/
def execVsplat (c : CoreId) (f : FmtV) (s : State) : Host.Outcome State Fault Refusal :=
  next (fun s => s.vopStep c 0x021 f (f.va == 0) fun c => lanesOf (ewBits f.ew) fun _ => (c.gr f.rb.toNat).toNat) s

/-- VPERM (R288). -/
def execVperm (c : CoreId) (f : FmtV) (s : State) : Host.Outcome State Fault Refusal :=
  next (fun s => s.vopStep c 0x022 f (vbZero f && f.ew == 0) fun c =>
    lanesOf 8 fun i => vecLane (c.vr f.va.toNat) 8 (vecLane (c.vr (vreg f.rb)) 8 i % 32)) s

end Sys2Proof.Machine
end

