-- ==== Sys2Proof/Machine/Ports.lean ====
section
/-! DEFINITION. The transfers of the real-time ports (R238 to R240). -/

namespace Sys2Proof.Machine

/-- Another port goes first: it is in panic, and this one is not or has the higher number (R20, R239). -/
def State.rtBehind (s : State) (p : Nat) : Bool :=
  (List.range 4).any fun q => q != p && s.rtFirst q && (!s.rtPanic p || decide (q < p))

/-- The rank and the initialisation let port p at the piece of `k` bytes at `a`: a port in panic may run between two pairs of a catch-up
(R241, R251). -/
def State.rtMay (s : State) (p a k : Nat) : Bool :=
  a + k ≤ s.dramSize && s.initPassed a && s.initPassed (a + k - 1) && (s.rtPanic p || s.rankFree a)

/-- What port p's user has kept back goes into the room there is now (R240). -/
def State.rtRefill (s : State) (p : Nat) : State :=
  if p = 1 then s.fmtFeed (s.fmt.out.length + 1) else if p = 3 then s.ovfFeed s.dcf.outq.length else s

/-- Port `p` moves the next piece that its user has named between its buffer and DRAM, while its need is at least 256 bytes or it is in
panic. -/
def rtTransfer (p : Nat) (s : State) : State :=
  let r := s.rt p
  match r.segs with
  | [] => s
  | (a, k) :: segs =>
    if !s.bit (pDmc 0 + 1) (Reg.DMC_PORT p 0) 0 || s.rtBehind p || !(s.rtPanic p || 256 ≤ s.rtNeed p) || decide (s.rtNeed p < k)
      || !s.rtMay p a k then s
    else if portFetches p then
      match s.dramRead a k [] with
      | (s, some b) =>
        let sz := s.rtSize p
        let m := (List.range k).foldl (fun m i => memSet m (s.rtBase p + (r.pos + i) % sz) (b.getD i 0)) s.mem
        ({ s with mem := m }.setRt p ⟨r.fill + k, (r.pos + k) % sz, segs⟩).rtPanicCheck p
      | (s, none) => s.emit .busError
    else
      let sz := s.rtSize p
      match s.rtRead p (r.pos + sz - r.fill % (sz + 1)) k with
      | (s, some b) =>
        match s.dramWrite a b [] with
        | (s, true) => ((s.setRt p { s.rt p with fill := r.fill - k, segs := segs }).rtPanicCheck p).rtRefill p
        | (s, false) => s.emit .busError
      | (s, none) => s.emit .busError

/-- REAL_TIME_PORT_TRANSFER (R238, R20, R239, R240). -/
def execRealTimePortTransfer (p : Fin 4) (s : State) : Host.Outcome State Fault Refusal := next (rtTransfer p.val) s

end Sys2Proof.Machine
end

