-- ==== Sys2Proof/Machine/Dispatch.lean ====
section
/-! DEFINITION. One arm per command: each calls the command's own meaning. -/

namespace Sys2Proof.Machine

/-- The effect of a command on everything but the queue. -/
def exec (i : Instr) (s : State) : Host.Outcome State Fault Refusal :=
  match i with
  | .registerWrite who addr wide value => Sys2Proof.Machine.execRegisterWrite who addr wide value s
  | .softReset req page => Sys2Proof.Machine.execSoftReset req page s
  | .softResetDone page => Sys2Proof.Machine.execSoftResetDone page s
  | .commit req page => Sys2Proof.Machine.execCommit req page s
  | .commitApply page => Sys2Proof.Machine.execCommitApply page s
  | .stagingAbort req page => Sys2Proof.Machine.execStagingAbort req page s
  | .lock req page bits => Sys2Proof.Machine.execLock req page bits s
  | .energyLoRead req page wide => Sys2Proof.Machine.execEnergyLoRead req page wide s
  | .frameBoundary trks smp => Sys2Proof.Machine.execFrameBoundary trks smp s
  | .dropoutEntry n bits => Sys2Proof.Machine.execDropoutEntry n bits s
  | .dropoutExit n bits => Sys2Proof.Machine.execDropoutExit n bits s
  | .lockDeclared n bits => Sys2Proof.Machine.execLockDeclared n bits s
  | .lockLoss n bits => Sys2Proof.Machine.execLockLoss n bits s
  | .alignmentMove trk upper bits => Sys2Proof.Machine.execAlignmentMove trk upper bits s
  | .bandPassOpen write band => Sys2Proof.Machine.execBandPassOpen write band s
  | .bandPassEnd bits => Sys2Proof.Machine.execBandPassEnd bits s
  | .redetectionRequest trk first len => Sys2Proof.Machine.execRedetectionRequest trk first len s
  | .redetectionStart => Sys2Proof.Machine.execRedetectionStart s
  | .redetectionEnd unit => Sys2Proof.Machine.execRedetectionEnd unit s
  | .fmtLoadStart req => Sys2Proof.Machine.execFmtLoadStart req s
  | .fmtEvict req => Sys2Proof.Machine.execFmtEvict req s
  | .dcfLoadStart req => Sys2Proof.Machine.execDcfLoadStart req s
  | .dcfEvict req => Sys2Proof.Machine.execDcfEvict req s
  | .tpiLoadStart req => Sys2Proof.Machine.execTpiLoadStart req s
  | .ftmLoadStart req => Sys2Proof.Machine.execFtmLoadStart req s
  | .ftmEvict req => Sys2Proof.Machine.execFtmEvict req s
  | .tableLoadEnd page => Sys2Proof.Machine.execTableLoadEnd page s
  | .frameAlignment trk llr => Sys2Proof.Machine.execFrameAlignment trk llr s
  | .dataSetSeparator => Sys2Proof.Machine.execDataSetSeparator s
  | .frameSlotIssue trk => Sys2Proof.Machine.execFrameSlotIssue trk s
  | .frameVerify trk aMiss bMiss res sig => Sys2Proof.Machine.execFrameVerify trk aMiss bMiss res sig s
  | .fmtRwrecRead req wide => Sys2Proof.Machine.execFmtRwrecRead req wide s
  | .codewordRequest words => Sys2Proof.Machine.execCodewordRequest words s
  | .tileDispatch => Sys2Proof.Machine.execTileDispatch s
  | .decodeEnd tile => Sys2Proof.Machine.execDecodeEnd tile s
  | .deadlineExpiry => Sys2Proof.Machine.execDeadlineExpiry s
  | .servoFrameEnd els => Sys2Proof.Machine.execServoFrameEnd els s
  | .companionWindowEnd ai0 ao0 ai1 ao1 => Sys2Proof.Machine.execCompanionWindowEnd ai0 ao0 ai1 ao1 s
  | .slotTrigger n => Sys2Proof.Machine.execSlotTrigger n s
  | .slotEvaluation => Sys2Proof.Machine.execSlotEvaluation s
  | .outputIssue n => Sys2Proof.Machine.execOutputIssue n s
  | .slotDeadlineExpiry n => Sys2Proof.Machine.execSlotDeadlineExpiry n s
  | .sampleTimeout n => Sys2Proof.Machine.execSampleTimeout n s
  | .lpeTimerTick n => Sys2Proof.Machine.execLpeTimerTick n s
  | .slotEnable req n => Sys2Proof.Machine.execSlotEnable req n s
  | .slotDisable req n => Sys2Proof.Machine.execSlotDisable req n s
  | .swap req n => Sys2Proof.Machine.execSwap req n s
  | .handover req n => Sys2Proof.Machine.execHandover req n s
  | .traceArm req n => Sys2Proof.Machine.execTraceArm req n s
  | .traceForce req n => Sys2Proof.Machine.execTraceForce req n s
  | .traceStop req n => Sys2Proof.Machine.execTraceStop req n s
  | .tracePostEnd n => Sys2Proof.Machine.execTracePostEnd n s
  | .pwmCarrierPeriod => Sys2Proof.Machine.execPwmCarrierPeriod s
  | .actSend req lane frame => Sys2Proof.Machine.execActSend req lane frame s
  | .actFrameStart lane => Sys2Proof.Machine.execActFrameStart lane s
  | .actFrameEnd lane rx => Sys2Proof.Machine.execActFrameEnd lane rx s
  | .senseAdcResult n code => Sys2Proof.Machine.execSenseAdcResult n code s
  | .adcDataRead req n => Sys2Proof.Machine.execAdcDataRead req n s
  | .loadMachine req => Sys2Proof.Machine.execLoadMachine req s
  | .threadMachine req => Sys2Proof.Machine.execThreadMachine req s
  | .calibrateMachine req => Sys2Proof.Machine.execCalibrateMachine req s
  | .seekMachine req => Sys2Proof.Machine.execSeekMachine req s
  | .streamMachine req => Sys2Proof.Machine.execStreamMachine req s
  | .backhitchMachine req => Sys2Proof.Machine.execBackhitchMachine req s
  | .unloadMachine req => Sys2Proof.Machine.execUnloadMachine req s
  | .tpiAbort req => Sys2Proof.Machine.execTpiAbort req s
  | .sequencerTick pins tach => Sys2Proof.Machine.execSequencerTick pins tach s
  | .stateTimeout => Sys2Proof.Machine.execStateTimeout s
  | .loadSensorChange level record => Sys2Proof.Machine.execLoadSensorChange level record s
  | .cmTransfer req => Sys2Proof.Machine.execCmTransfer req s
  | .cmTransferEnd rx => Sys2Proof.Machine.execCmTransferEnd rx s
  | .tapeRingConsume => Sys2Proof.Machine.execTapeRingConsume s
  | .writeUnderrun => Sys2Proof.Machine.execWriteUnderrun s
  | .underrunRewriteStart => Sys2Proof.Machine.execUnderrunRewriteStart s
  | .destageStart => Sys2Proof.Machine.execDestageStart s
  | .discovery req => Sys2Proof.Machine.execDiscovery req s
  | .discoveryEnd dies chans => Sys2Proof.Machine.execDiscoveryEnd dies chans s
  | .flcTrainStart req n => Sys2Proof.Machine.execFlcTrainStart req n s
  | .flcTrainEnd n tries => Sys2Proof.Machine.execFlcTrainEnd n tries s
  | .flcRetrainTimer n found => Sys2Proof.Machine.execFlcRetrainTimer n found s
  | .flcRawGo req n => Sys2Proof.Machine.execFlcRawGo req n s
  | .flcRawEnd n timeout data => Sys2Proof.Machine.execFlcRawEnd n timeout data s
  | .flashSliceRead op want => Sys2Proof.Machine.execFlashSliceRead op want s
  | .transitSlotGrant => Sys2Proof.Machine.execTransitSlotGrant s
  | .transitDmaEnd op => Sys2Proof.Machine.execTransitDmaEnd op s
  | .unitProgram op unit loc data stage => Sys2Proof.Machine.execUnitProgram op unit loc data stage s
  | .programEnd op pass => Sys2Proof.Machine.execProgramEnd op pass s
  | .erase die block => Sys2Proof.Machine.execErase die block s
  | .eraseEnd die block pass => Sys2Proof.Machine.execEraseEnd die block pass s
  | .flcTimeout die => Sys2Proof.Machine.execFlcTimeout die s
  | .mapOut req die => Sys2Proof.Machine.execMapOut req die s
  | .stripeClose req => Sys2Proof.Machine.execStripeClose req s
  | .freeRowPush req group block => Sys2Proof.Machine.execFreeRowPush req group block s
  | .patrolRead op loc tag => Sys2Proof.Machine.execPatrolRead op loc tag s
  | .ftmUnrecRead req => Sys2Proof.Machine.execFtmUnrecRead req s
  | .dramRequest write addr len bytes act errs => Sys2Proof.Machine.execDramRequest write addr len bytes act errs s
  | .realTimePortTransfer p => Sys2Proof.Machine.execRealTimePortTransfer p s
  | .refreshTick n rank => Sys2Proof.Machine.execRefreshTick n rank s
  | .refreshIssue n rank => Sys2Proof.Machine.execRefreshIssue n rank s
  | .mr4Poll n rank hot temp => Sys2Proof.Machine.execMr4Poll n rank hot temp s
  | .activationWindowEnd n rank => Sys2Proof.Machine.execActivationWindowEnd n rank s
  | .thresholdHalvingEnd n => Sys2Proof.Machine.execThresholdHalvingEnd n s
  | .commandError n rank => Sys2Proof.Machine.execCommandError n rank s
  | .migrationCopy n => Sys2Proof.Machine.execMigrationCopy n s
  | .dmcTrainStart n => Sys2Proof.Machine.execDmcTrainStart n s
  | .dmcTrainEnd n win0 win1 => Sys2Proof.Machine.execDmcTrainEnd n win0 win1 s
  | .dmcRetrainTimer n wins drift => Sys2Proof.Machine.execDmcRetrainTimer n wins drift s
  | .dramInitialisation n units => Sys2Proof.Machine.execDramInitialisation n units s
  | .add c f undef => Sys2Proof.Machine.execAdd c f undef s
  | .adc c f => Sys2Proof.Machine.execAdc c f s
  | .sub c f => Sys2Proof.Machine.execSub c f s
  | .sbc c f => Sys2Proof.Machine.execSbc c f s
  | .and c f => Sys2Proof.Machine.execAnd c f s
  | .or c f => Sys2Proof.Machine.execOr c f s
  | .xor c f => Sys2Proof.Machine.execXor c f s
  | .andn c f => Sys2Proof.Machine.execAndn c f s
  | .shl c f => Sys2Proof.Machine.execShl c f s
  | .shr c f => Sys2Proof.Machine.execShr c f s
  | .sar c f => Sys2Proof.Machine.execSar c f s
  | .ror c f => Sys2Proof.Machine.execRor c f s
  | .mul c f => Sys2Proof.Machine.execMul c f s
  | .mulhs c f => Sys2Proof.Machine.execMulhs c f s
  | .mulhu c f => Sys2Proof.Machine.execMulhu c f s
  | .divs c f => Sys2Proof.Machine.execDivs c f s
  | .divu c f => Sys2Proof.Machine.execDivu c f s
  | .rems c f => Sys2Proof.Machine.execRems c f s
  | .remu c f => Sys2Proof.Machine.execRemu c f s
  | .mins c f => Sys2Proof.Machine.execMins c f s
  | .maxs c f => Sys2Proof.Machine.execMaxs c f s
  | .minu c f => Sys2Proof.Machine.execMinu c f s
  | .maxu c f => Sys2Proof.Machine.execMaxu c f s
  | .clz c f => Sys2Proof.Machine.execClz c f s
  | .ctz c f => Sys2Proof.Machine.execCtz c f s
  | .popc c f => Sys2Proof.Machine.execPopc c f s
  | .bswap c f => Sys2Proof.Machine.execBswap c f s
  | .sext8 c f => Sys2Proof.Machine.execSext8 c f s
  | .sext16 c f => Sys2Proof.Machine.execSext16 c f s
  | .sext32 c f => Sys2Proof.Machine.execSext32 c f s
  | .zext8 c f => Sys2Proof.Machine.execZext8 c f s
  | .zext16 c f => Sys2Proof.Machine.execZext16 c f s
  | .zext32 c f => Sys2Proof.Machine.execZext32 c f s
  | .fence c f => Sys2Proof.Machine.execFence c f s
  | .fencei c f => Sys2Proof.Machine.execFencei c f s
  | .vget c f => Sys2Proof.Machine.execVget c f s
  | .vput c f => Sys2Proof.Machine.execVput c f s
  | .vrsum c f => Sys2Proof.Machine.execVrsum c f s
  | .vmsk c f => Sys2Proof.Machine.execVmsk c f s
  | .vadd c f => Sys2Proof.Machine.execVadd c f s
  | .vsub c f => Sys2Proof.Machine.execVsub c f s
  | .vmul c f => Sys2Proof.Machine.execVmul c f s
  | .vmulhu c f => Sys2Proof.Machine.execVmulhu c f s
  | .vmla c f => Sys2Proof.Machine.execVmla c f s
  | .vand c f => Sys2Proof.Machine.execVand c f s
  | .vor c f => Sys2Proof.Machine.execVor c f s
  | .vxor c f => Sys2Proof.Machine.execVxor c f s
  | .vandn c f => Sys2Proof.Machine.execVandn c f s
  | .vminu c f => Sys2Proof.Machine.execVminu c f s
  | .vmaxu c f => Sys2Proof.Machine.execVmaxu c f s
  | .vcmpeq c f => Sys2Proof.Machine.execVcmpeq c f s
  | .vcmpgtu c f => Sys2Proof.Machine.execVcmpgtu c f s
  | .vcmpgts c f => Sys2Proof.Machine.execVcmpgts c f s
  | .vshl c f => Sys2Proof.Machine.execVshl c f s
  | .vshr c f => Sys2Proof.Machine.execVshr c f s
  | .vsar c f => Sys2Proof.Machine.execVsar c f s
  | .vpopc c f => Sys2Proof.Machine.execVpopc c f s
  | .vsplat c f => Sys2Proof.Machine.execVsplat c f s
  | .vperm c f => Sys2Proof.Machine.execVperm c f s
  | .j c f => Sys2Proof.Machine.execJ c f s
  | .call c f => Sys2Proof.Machine.execCall c f s
  | .bcc c f => Sys2Proof.Machine.execBcc c f s
  | .callr c f => Sys2Proof.Machine.execCallr c f s
  | .mfs c f => Sys2Proof.Machine.execMfs c f s
  | .mts c f => Sys2Proof.Machine.execMts c f s
  | .movi c f => Sys2Proof.Machine.execMovi c f s
  | .addi c f => Sys2Proof.Machine.execAddi c f s
  | .addis c f => Sys2Proof.Machine.execAddis c f s
  | .cmpi c f => Sys2Proof.Machine.execCmpi c f s
  | .andi c f => Sys2Proof.Machine.execAndi c f s
  | .ori c f => Sys2Proof.Machine.execOri c f s
  | .xori c f => Sys2Proof.Machine.execXori c f s
  | .tsti c f => Sys2Proof.Machine.execTsti c f s
  | .shli c f => Sys2Proof.Machine.execShli c f s
  | .shri c f => Sys2Proof.Machine.execShri c f s
  | .sari c f => Sys2Proof.Machine.execSari c f s
  | .rori c f => Sys2Proof.Machine.execRori c f s
  | .orh1 c f => Sys2Proof.Machine.execOrh1 c f s
  | .orh2 c f => Sys2Proof.Machine.execOrh2 c f s
  | .orh3 c f => Sys2Proof.Machine.execOrh3 c f s
  | .ld8u c f => Sys2Proof.Machine.execLd8u c f s
  | .ld16u c f => Sys2Proof.Machine.execLd16u c f s
  | .ld32u c f => Sys2Proof.Machine.execLd32u c f s
  | .ld64 c f soft => Sys2Proof.Machine.execLd64 c f soft s
  | .ld8s c f => Sys2Proof.Machine.execLd8s c f s
  | .ld16s c f => Sys2Proof.Machine.execLd16s c f s
  | .ld32s c f => Sys2Proof.Machine.execLd32s c f s
  | .st8 c f => Sys2Proof.Machine.execSt8 c f s
  | .st16 c f => Sys2Proof.Machine.execSt16 c f s
  | .st32 c f => Sys2Proof.Machine.execSt32 c f s
  | .st64 c f => Sys2Proof.Machine.execSt64 c f s
  | .xchg64 c f => Sys2Proof.Machine.execXchg64 c f s
  | .xadd64 c f => Sys2Proof.Machine.execXadd64 c f s
  | .clwb c f => Sys2Proof.Machine.execClwb c f s
  | .vld c f => Sys2Proof.Machine.execVld c f s
  | .vst c f => Sys2Proof.Machine.execVst c f s
  | .ld8uS c f => Sys2Proof.Machine.execLd8uS c f s
  | .ld16uS c f => Sys2Proof.Machine.execLd16uS c f s
  | .ld32uS c f => Sys2Proof.Machine.execLd32uS c f s
  | .ld64S c f => Sys2Proof.Machine.execLd64S c f s
  | .ld8sS c f => Sys2Proof.Machine.execLd8sS c f s
  | .ld16sS c f => Sys2Proof.Machine.execLd16sS c f s
  | .ld32sS c f => Sys2Proof.Machine.execLd32sS c f s
  | .st8S c f => Sys2Proof.Machine.execSt8S c f s
  | .st16S c f => Sys2Proof.Machine.execSt16S c f s
  | .st32S c f => Sys2Proof.Machine.execSt32S c f s
  | .st64S c f => Sys2Proof.Machine.execSt64S c f s
  | .ldbc c f => Sys2Proof.Machine.execLdbc c f s
  | .stbc c f => Sys2Proof.Machine.execStbc c f s
  | .setb c f => Sys2Proof.Machine.execSetb c f s
  | .clrb c f => Sys2Proof.Machine.execClrb c f s
  | .invb c f => Sys2Proof.Machine.execInvb c f s
  | .andbc c f => Sys2Proof.Machine.execAndbc c f s
  | .orbc c f => Sys2Proof.Machine.execOrbc c f s
  | .xorbc c f => Sys2Proof.Machine.execXorbc c f s
  | .tas c f => Sys2Proof.Machine.execTas c f s
  | .btst c f => Sys2Proof.Machine.execBtst c f s
  | .ret c f => Sys2Proof.Machine.execRet c f s
  | .tret c f => Sys2Proof.Machine.execTret c f s
  | .jr c f => Sys2Proof.Machine.execJr c f s
  | .brk c f => Sys2Proof.Machine.execBrk c f s
  | .svc c f => Sys2Proof.Machine.execSvc c f s
  | .wfe c f => Sys2Proof.Machine.execWfe c f s
  | .sev c f => Sys2Proof.Machine.execSev c f s
  | .wtu c f => Sys2Proof.Machine.execWtu c f s
  | .wtue c f => Sys2Proof.Machine.execWtue c f s
  | .waitEnd c => Sys2Proof.Machine.execWaitEnd c s
  | .timerTrap c => Sys2Proof.Machine.execTimerTrap c s
  | .watchdogExpiry c => Sys2Proof.Machine.execWatchdogExpiry c s
  | .storeBusError c addr => Sys2Proof.Machine.execStoreBusError c addr s
  | .coreRun c => Sys2Proof.Machine.execCoreRun c s
  | .coreReset c => Sys2Proof.Machine.execCoreReset c s
  | .cclLoad blk => Sys2Proof.Machine.execCclLoad blk s
  | .cclLoadEnd blk => Sys2Proof.Machine.execCclLoadEnd blk s
  | .benchGo c b => Sys2Proof.Machine.execBenchGo c b s
  | .benchOut c => Sys2Proof.Machine.execBenchOut c s
  | .sliceExpiry c => Sys2Proof.Machine.execSliceExpiry c s
  | .tRemExpiry c => Sys2Proof.Machine.execTRemExpiry c s
  | .ringArm c r lo => Sys2Proof.Machine.execRingArm c r lo s
  | .descriptorFetch ring tag host => Sys2Proof.Machine.execDescriptorFetch ring tag host s
  | .engineJobComplete tag nJ host => Sys2Proof.Machine.execEngineJobComplete tag nJ host s
  | .streamFill stream data last => Sys2Proof.Machine.execStreamFill stream data last s
  | .compress tag host => Sys2Proof.Machine.execCompress tag host s
  | .decompress tag host => Sys2Proof.Machine.execDecompress tag host s
  | .check tag host => Sys2Proof.Machine.execCheck tag host s
  | .xtsEnc tag host => Sys2Proof.Machine.execXtsEnc tag host s
  | .xtsDec tag host => Sys2Proof.Machine.execXtsDec tag host s
  | .gcmEnc tag host => Sys2Proof.Machine.execGcmEnc tag host s
  | .gcmDec tag host => Sys2Proof.Machine.execGcmDec tag host s
  | .shutterSlotAllocate tag => Sys2Proof.Machine.execShutterSlotAllocate tag s
  | .gmacGen tag host => Sys2Proof.Machine.execGmacGen tag host s
  | .gmacVer tag host => Sys2Proof.Machine.execGmacVer tag host s
  | .ctr tag host => Sys2Proof.Machine.execCtr tag host s
  | .keyGen tag => Sys2Proof.Machine.execKeyGen tag s
  | .keyLoad tag => Sys2Proof.Machine.execKeyLoad tag s
  | .keyWrap tag => Sys2Proof.Machine.execKeyWrap tag s
  | .keyErase tag => Sys2Proof.Machine.execKeyErase tag s
  | .drbgReseed => Sys2Proof.Machine.execDrbgReseed s
  | .digest tag host => Sys2Proof.Machine.execDigest tag host s
  | .hseVerify tag host => Sys2Proof.Machine.execHseVerify tag host s
  | .crcBlocks tag host => Sys2Proof.Machine.execCrcBlocks tag host s
  | .aseSearch tag host cycs => Sys2Proof.Machine.execAseSearch tag host cycs s
  | .aseSearchCtx tag host cyc => Sys2Proof.Machine.execAseSearchCtx tag host cyc s
  | .aseStep tag => Sys2Proof.Machine.execAseStep tag s
  | .aseCtxFree tag => Sys2Proof.Machine.execAseCtxFree tag s
  | .aseLoad tag host => Sys2Proof.Machine.execAseLoad tag host s
  | .aseInsert tag host => Sys2Proof.Machine.execAseInsert tag host s
  | .aseWrite tag host => Sys2Proof.Machine.execAseWrite tag host s
  | .aseDelete tag => Sys2Proof.Machine.execAseDelete tag s
  | .aseRead tag => Sys2Proof.Machine.execAseRead tag s
  | .aseClear tag => Sys2Proof.Machine.execAseClear tag s
  | .contextFree n => Sys2Proof.Machine.execContextFree n s
  | .linkTraining p best lanes rev => Sys2Proof.Machine.execLinkTraining p best lanes rev s
  | .linkDown p => Sys2Proof.Machine.execLinkDown p s
  | .retrain p best lanes => Sys2Proof.Machine.execRetrain p best lanes s
  | .perstAssert p => Sys2Proof.Machine.execPerstAssert p s
  | .perstRelease p => Sys2Proof.Machine.execPerstRelease p s
  | .l1Entry p sub host => Sys2Proof.Machine.execL1Entry p sub host s
  | .l1Exit p => Sys2Proof.Machine.execL1Exit p s
  | .d3hotEntry func => Sys2Proof.Machine.execD3hotEntry func s
  | .d0Return func => Sys2Proof.Machine.execD0Return func s
  | .doeObject p obj => Sys2Proof.Machine.execDoeObject p obj s
  | .doeAbort p => Sys2Proof.Machine.execDoeAbort p s
  | .getVersion src msg => Sys2Proof.Machine.execGetVersion src msg s
  | .getCertificate src msg => Sys2Proof.Machine.execGetCertificate src msg s
  | .challenge src msg => Sys2Proof.Machine.execChallenge src msg s
  | .keyExchange src msg => Sys2Proof.Machine.execKeyExchange src msg s
  | .getMeasurements src msg => Sys2Proof.Machine.execGetMeasurements src msg s
  | .setCertificate src msg => Sys2Proof.Machine.execSetCertificate src msg s
  | .readNvmeMiDataStructure port dtyp portId ctrlId => Sys2Proof.Machine.execReadNvmeMiDataStructure port dtyp portId ctrlId s
  | .subsystemHealthStatusPoll port clear => Sys2Proof.Machine.execSubsystemHealthStatusPoll port clear s
  | .controllerHealthStatusPoll port start most clear => Sys2Proof.Machine.execControllerHealthStatusPoll port start most clear s
  | .configurationGet port dw0 => Sys2Proof.Machine.execConfigurationGet port dw0 s
  | .configurationSet port dw0 dw1 => Sys2Proof.Machine.execConfigurationSet port dw0 dw1 s
  | .vpdRead port ofs len => Sys2Proof.Machine.execVpdRead port ofs len s
  | .vpdWrite port ofs data => Sys2Proof.Machine.execVpdWrite port ofs data s
  | .nvmeMiReset port typ => Sys2Proof.Machine.execNvmeMiReset port typ s
  | .setEndpointId port eid => Sys2Proof.Machine.execSetEndpointId port eid s
  | .sqDoorbell func q v => Sys2Proof.Machine.execSqDoorbell func q v s
  | .cqDoorbell func q v => Sys2Proof.Machine.execCqDoorbell func q v s
  | .commandFetch tag adm e => Sys2Proof.Machine.execCommandFetch tag adm e s
  | .completionPost func q => Sys2Proof.Machine.execCompletionPost func q s
  | .deleteIoSq tag => Sys2Proof.Machine.execDeleteIoSq tag s
  | .createIoSq tag => Sys2Proof.Machine.execCreateIoSq tag s
  | .deleteIoCq tag => Sys2Proof.Machine.execDeleteIoCq tag s
  | .createIoCq tag => Sys2Proof.Machine.execCreateIoCq tag s
  | .getLogPage tag tun => Sys2Proof.Machine.execGetLogPage tag tun s
  | .identify tag tun => Sys2Proof.Machine.execIdentify tag tun s
  | .abort tag inSq => Sys2Proof.Machine.execAbort tag inSq s
  | .setArbitration tag tun => Sys2Proof.Machine.execSetArbitration tag tun s
  | .setPowerManagement tag tun => Sys2Proof.Machine.execSetPowerManagement tag tun s
  | .setTemperatureThreshold tag tun => Sys2Proof.Machine.execSetTemperatureThreshold tag tun s
  | .setNumberOfQueues tag tun => Sys2Proof.Machine.execSetNumberOfQueues tag tun s
  | .setInterruptCoalescing tag tun => Sys2Proof.Machine.execSetInterruptCoalescing tag tun s
  | .setInterruptVectorConfiguration tag tun => Sys2Proof.Machine.execSetInterruptVectorConfiguration tag tun s
  | .setAsyncEventConfiguration tag tun => Sys2Proof.Machine.execSetAsyncEventConfiguration tag tun s
  | .setTimestamp tag data tun => Sys2Proof.Machine.execSetTimestamp tag data tun s
  | .setBarlisVersion tag tun => Sys2Proof.Machine.execSetBarlisVersion tag tun s
  | .getFeatures tag tun => Sys2Proof.Machine.execGetFeatures tag tun s
  | .asynchronousEventRequest tag => Sys2Proof.Machine.execAsynchronousEventRequest tag s
  | .namespaceManagement tag data => Sys2Proof.Machine.execNamespaceManagement tag data s
  | .namespaceAttachment tag data => Sys2Proof.Machine.execNamespaceAttachment tag data s
  | .firmwareImageDownload tag data => Sys2Proof.Machine.execFirmwareImageDownload tag data s
  | .firmwareCommitReplace tag => Sys2Proof.Machine.execFirmwareCommitReplace tag s
  | .firmwareCommitNextBoot tag image => Sys2Proof.Machine.execFirmwareCommitNextBoot tag image s
  | .firmwareActivate tag image => Sys2Proof.Machine.execFirmwareActivate tag image s
  | .activationStallExpiry => Sys2Proof.Machine.execActivationStallExpiry s
  | .primaryFlexibleAllocation tag => Sys2Proof.Machine.execPrimaryFlexibleAllocation tag s
  | .secondaryOffline tag => Sys2Proof.Machine.execSecondaryOffline tag s
  | .secondaryAssign tag => Sys2Proof.Machine.execSecondaryAssign tag s
  | .secondaryOnline tag => Sys2Proof.Machine.execSecondaryOnline tag s
  | .formatNvm tag => Sys2Proof.Machine.execFormatNvm tag s
  | .sanitizeBlockErase tag => Sys2Proof.Machine.execSanitizeBlockErase tag s
  | .sanitizeCryptoErase tag => Sys2Proof.Machine.execSanitizeCryptoErase tag s
  | .flush tag => Sys2Proof.Machine.execFlush tag s
  | .write tag data mdata => Sys2Proof.Machine.execWrite tag data mdata s
  | .read tag => Sys2Proof.Machine.execRead tag s
  | .writeZeroes tag => Sys2Proof.Machine.execWriteZeroes tag s
  | .deallocate tag data => Sys2Proof.Machine.execDeallocate tag data s
  | .verify tag => Sys2Proof.Machine.execVerify tag s
  | .zoneClose tag => Sys2Proof.Machine.execZoneClose tag s
  | .zoneFinish tag => Sys2Proof.Machine.execZoneFinish tag s
  | .zoneOpen tag => Sys2Proof.Machine.execZoneOpen tag s
  | .zoneReset tag => Sys2Proof.Machine.execZoneReset tag s
  | .reportZones tag => Sys2Proof.Machine.execReportZones tag s
  | .extendedReportZones tag => Sys2Proof.Machine.execExtendedReportZones tag s
  | .zoneAppend tag data mdata => Sys2Proof.Machine.execZoneAppend tag data mdata s
  | .nssr func v => Sys2Proof.Machine.execNssr func v s
  | .flr func => Sys2Proof.Machine.execFlr func s
  | .programLoad tag data codeAt dataAt stackAt => Sys2Proof.Machine.execProgramLoad tag data codeAt dataAt stackAt s
  | .benchStatus tag => Sys2Proof.Machine.execBenchStatus tag s
  | .programUnload tag => Sys2Proof.Machine.execProgramUnload tag s
  | .energyReport tag => Sys2Proof.Machine.execEnergyReport tag s
  | .benchAttachStream tag cb buf => Sys2Proof.Machine.execBenchAttachStream tag cb buf s
  | .benchRun tag rb inAt resAt scrAt => Sys2Proof.Machine.execBenchRun tag rb inAt resAt scrAt s
  | .fixityCompute tag en => Sys2Proof.Machine.execFixityCompute tag en s
  | .fixityVerify tag want en => Sys2Proof.Machine.execFixityVerify tag want en s
  | .transform tag en => Sys2Proof.Machine.execTransform tag en s
  | .search tag data en => Sys2Proof.Machine.execSearch tag data en s
  | .indexLoad tag data en => Sys2Proof.Machine.execIndexLoad tag data en s
  | .stageZone tag room done => Sys2Proof.Machine.execStageZone tag room done s
  | .destageZone tag => Sys2Proof.Machine.execDestageZone tag s
  | .sealZone tag => Sys2Proof.Machine.execSealZone tag s
  | .applyControls k writes => Sys2Proof.Machine.execApplyControls k writes s
  | .freeze k writes frzTo => Sys2Proof.Machine.execFreeze k writes frzTo s
  | .freezeDrained k => Sys2Proof.Machine.execFreezeDrained k s
  | .freezeTimeout k => Sys2Proof.Machine.execFreezeTimeout k s
  | .thaw k writes => Sys2Proof.Machine.execThaw k writes s
  | .save k writes => Sys2Proof.Machine.execSave k writes s
  | .saveEnd k dmaOk => Sys2Proof.Machine.execSaveEnd k dmaOk s
  | .restore k writes => Sys2Proof.Machine.execRestore k writes s
  | .restoreEnd k dmaOk blob places => Sys2Proof.Machine.execRestoreEnd k dmaOk blob places s
  | .release k writes => Sys2Proof.Machine.execRelease k writes s
  | .transomDoorbell k tenant writes db => Sys2Proof.Machine.execTransomDoorbell k tenant writes db s
  | .transomReady k tenant writes ready => Sys2Proof.Machine.execTransomReady k tenant writes ready s
  | .capEvaluation => Sys2Proof.Machine.execCapEvaluation s
  | .provision src blk factory => Sys2Proof.Machine.execProvision src blk factory s
  | .integrate src blk => Sys2Proof.Machine.execIntegrate src blk s
  | .takeOwnership src blk => Sys2Proof.Machine.execTakeOwnership src blk s
  | .transfer src blk => Sys2Proof.Machine.execTransfer src blk s
  | .lifecycleRelease src blk => Sys2Proof.Machine.execLifecycleRelease src blk s
  | .retire src blk => Sys2Proof.Machine.execRetire src blk s
  | .rebind src blk payload opens => Sys2Proof.Machine.execRebind src blk payload opens s
  | .securityEpochRaise src blk => Sys2Proof.Machine.execSecurityEpochRaise src blk s
  | .firmwareApproval src blk => Sys2Proof.Machine.execFirmwareApproval src blk s
  | .tableApproval src blk => Sys2Proof.Machine.execTableApproval src blk s
  | .integratorKeyRotation src blk => Sys2Proof.Machine.execIntegratorKeyRotation src blk s
  | .debugUnlock src blk => Sys2Proof.Machine.execDebugUnlock src blk s
  | .ownerPolicy src blk => Sys2Proof.Machine.execOwnerPolicy src blk s
  | .ownerMigrationKey src blk payload => Sys2Proof.Machine.execOwnerMigrationKey src blk payload s
  | .keyImport src blk payload => Sys2Proof.Machine.execKeyImport src blk payload s
  | .sealRelease src blk => Sys2Proof.Machine.execSealRelease src blk s
  | .journalEntryDurable ok => Sys2Proof.Machine.execJournalEntryDurable ok s
  | .alarm cond => Sys2Proof.Machine.execAlarm cond s
  | .alarmClear src => Sys2Proof.Machine.execAlarmClear src s
  | .profileChange => Sys2Proof.Machine.execProfileChange s
  | .latchedEntry p0 p1 => Sys2Proof.Machine.execLatchedEntry p0 p1 s
  | .shutteredEntry => Sys2Proof.Machine.execShutteredEntry s
  | .entryTimeout => Sys2Proof.Machine.execEntryTimeout s
  | .wake src periods ok => Sys2Proof.Machine.execWake src periods ok s
  | .aonTimerExpiry ok => Sys2Proof.Machine.execAonTimerExpiry ok s
  | .idleExpiry => Sys2Proof.Machine.execIdleExpiry s
  | .governorStep => Sys2Proof.Machine.execGovernorStep s
  | .meteringInterval rails model benches dyn cmds => Sys2Proof.Machine.execMeteringInterval rails model benches dyn cmds s
  | .plannerRun delays span => Sys2Proof.Machine.execPlannerRun delays span s
  | .avsbusTimeout => Sys2Proof.Machine.execAvsbusTimeout s
  | .agmMeasurement delays span => Sys2Proof.Machine.execAgmMeasurement delays span s
  | .sensorSample temps => Sys2Proof.Machine.execSensorSample temps s
  | .powerOnReset x8 sris0 sris1 => Sys2Proof.Machine.execPowerOnReset x8 sris0 sris1 s
  | .porstLow => Sys2Proof.Machine.execPorstLow s
  | .warm req => Sys2Proof.Machine.execWarm req s
  | .bootStage ok img1 img2 fault opens => Sys2Proof.Machine.execBootStage ok img1 img2 fault opens s
  | .mapRestoreEnd tables => Sys2Proof.Machine.execMapRestoreEnd tables s
  | .holdupDrain => Sys2Proof.Machine.execHoldupDrain s
  | .softwareSource req n => Sys2Proof.Machine.execSoftwareSource req n s
  | .pulseEnd pin => Sys2Proof.Machine.execPulseEnd pin s
  | .linkRecovery p ok best lanes => Sys2Proof.Machine.execLinkRecovery p ok best lanes s
  | .pageReadEnd op raw => Sys2Proof.Machine.execPageReadEnd op raw s
  | .controllerReset func en wrr sqn cqn => Sys2Proof.Machine.execControllerReset func en wrr sqn cqn s
  | .numvfsWrite pf n => Sys2Proof.Machine.execNumvfsWrite pf n s
  | .msixUnmask func vec addr data => Sys2Proof.Machine.execMsixUnmask func vec addr data s
  | .interruptCoalescingTimeout func q => Sys2Proof.Machine.execInterruptCoalescingTimeout func q s
  | .avsbusDone => Sys2Proof.Machine.execAvsbusDone s
  | .agmWearPoll => Sys2Proof.Machine.execAgmWearPoll s
  | .bootTimeout => Sys2Proof.Machine.execBootTimeout s
  | .wrWaitExpiry => Sys2Proof.Machine.execWrWaitExpiry s

end Sys2Proof.Machine
end

