-- ==== Sys2Proof/Machine/Step.lean ====
section
/-! DEFINITION. One step of the device: it takes the command at the front of its queue. -/

namespace Sys2Proof.Machine

/-- The front command acts on the state with the queue's rest; on an empty queue the fabric clock ticks (log entry 1; log entry 116). -/
def step (s : State) : Host.Outcome State Fault Refusal :=
  match s.pending with
  | [] => .next s.tick
  | i :: r => exec i { s with pending := r }

/-- The state with the command that a word spells at the front of its queue. -/
def State.withFetchWord (s : State) (nbits w : Nat) : State :=
  match decodeTableWord nbits w with
  | some i => { s with pending := i :: s.pending }
  | none => s

end Sys2Proof.Machine
end

