-- ==== Sys2Proof/Safety.lean ====
section
/-! DEFINITION. The terms that statements about the machine use: what a command leaves behind, when the device serves commands at
all, and when a core takes the instruction that it is commanded with. -/

namespace Sys2Proof.Machine

/-- The command answers a next state, of which `P` holds. -/
def After (i : Instr) (s : State) (P : State → Prop) : Prop := ∃ t, exec i s = .next t ∧ P t

/-- While the device serves commands, the command answers a next state, of which `P` holds. -/
def Acts (i : Instr) (s : State) (P : State → Prop) : Prop := s.live = true → After i s P

/-- The commands that act while power-on reset is held (R549). -/
def overReset (i : Instr) : Bool :=
  match i with
  | .powerOnReset .. => true
  | .porstLow => true
  | _ => false

/-- The commands that the always-on domain takes, so that they act in Latched and Shuttered too (R517, R529, R542, R587; log entry 5). -/
def alwaysOn (i : Instr) : Bool :=
  match i with
  | .alarm .. => true
  | .alarmClear .. => true
  | .wake .. => true
  | .aonTimerExpiry .. => true
  | .holdupDrain => true
  | i => overReset i

/-- Core `k` takes the instruction that it is commanded with: the device serves commands, the core runs, no asynchronous trap is due
at the boundary, and the fetch at pc ends without a trap. -/
def State.ready (s : State) (k : Nat) : Prop :=
  s.live = true ∧ (s.core k).mode = .running ∧ s.executes k = true ∧ s.fresh.asyncTrap k = none ∧ (s.fresh.fetchAt k).2 = none

/-- The state once the instruction at core `k`'s pc is fetched. -/
def State.atFetch (s : State) (k : Nat) : State := (s.fresh.fetchAt k).1

/-- Core `k`'s registers are `c` once its instruction is done, and nothing else has changed since the fetch. -/
def State.coreDone (s : State) (k : Nat) (c : Core) : Host.Outcome State Fault Refusal :=
  .next (s.leaveQueue ((s.atFetch k).setCore k c))

/-- Core `k` takes the trap `t` of its instruction, with resume offset `tpc`. -/
def State.coreTraps (s : State) (k : Nat) (t : TrapInfo) (tpc : Word) : Host.Outcome State Fault Refusal :=
  .next (s.leaveQueue ((s.atFetch k).trapTake k t tpc false false))

/-- The intake of engine `e` hands over job `tag` with OPCODE `op` now; `j` is the job as the instance that takes it has it. -/
def State.hands (s : State) (e tag op : Nat) (j : Job) : Prop := ∃ u pg, s.fresh.takeJob e tag (· == op) = some (u, pg, j)

/-- The ranges `l` are the one range `r`, which lies in shared SRAM where nothing disturbs an access: no DRAM covers it, no upset waits. -/
def State.inShared (s : State) (l : List Range) (r : Range) : Prop :=
  s.dramSize ≤ sramBase ∧ s.upsets = [] ∧ l = [r] ∧ inSram r.addr r.len = true

/-- The result of job `tag`, once it has ended. -/
def State.resultOf (t : State) (tag : Nat) : Option JobResult := (mapFind t.jobs tag).bind Job.result

/-- The completion of command `k` can be posted as soon as it ends: its function's epoch stands, and its CQ has a free entry and holds
nothing back. -/
def State.postable (s : State) (tag : Nat) (k : Cmd) : Prop :=
  tag < miTag ∧ k.epoch = (s.func k.ctrl).epoch ∧ ∃ g, mapFind (s.ctrl k.ctrl).cqs k.cq = some g ∧ g.room ≠ 0 ∧ g.held = []

/-- Command `k` of work tag `tag` has completed with a status, and its tag is free. -/
def State.answered (t : State) (tag : Nat) (k : Cmd) (sct sc : Nat) : Prop :=
  mapFind t.cmds tag = none ∧ ∃ dnr dw0 dw1, Out.completion k.ctrl k.cq k.e.cid sct sc dnr dw0 dw1 ∈ t.out

/-- `k` is an admin command of a function that runs, waits under `tag` and completes on the admin queue. -/
def State.adminReady (s : State) (tag op : Nat) (k : Cmd) : Prop :=
  s.cmdOf tag op true = some k ∧ (s.func k.ctrl).mig = .running ∧ k.cq = 0

/-- `k` is an I/O command on namespace `n` that nothing holds back: no energy cap, no earlier overlapping command, no deferred write
fault, its namespace attached and reachable. -/
def State.ioReady (s : State) (tag op : Nat) (k : Cmd) (n : Ns) : Prop :=
  s.cmdOf tag op false = some k ∧ (s.func k.ctrl).overCap = false ∧ s.mustWait tag k = false ∧ s.firstPend k = false
    ∧ s.attachedNs k.ctrl k.e.nsid = some n ∧ (if k.e.nsid = 1024 then s.tpi.cart.isSome else s.flashReady) = true

/-- A request block with opcode `op` of `src` is heard now and passes the common checks of R499 but that of its signatures: its form,
its SEQ, a lifecycle state in `lcs`, no alarm and no journal fault. -/
def State.reqReady (s : State) (src : Nat) (blk : List Byte) (op : Nat) (lcs : List Nat) : Prop :=
  s.reqHeard src = true ∧ fieldAt blk 4 2 = op ∧ s.reqForm blk = true ∧ fieldAt blk 0x10 4 = s.kpr.nextSeq
    ∧ s.alarmOn = false ∧ s.kpr.fuses.lcs ∈ lcs ∧ s.kpr.jfault = false

/-- The one change that waits for its journal entry is `c`, with entry type `op` and argument `arg`, asked for by `src`. -/
def State.awaits (t : State) (op : Nat) (arg : List Byte) (c : Change) (src : Nat) (epoch : RegWord) : Prop :=
  ∃ role, t.kpr.queue = [⟨op, role, arg, c, src, epoch⟩]

/-- What a mailbox delivers for an answer of object type `typ`: the header of the data object, and the body in whole DW. -/
def doeBytes (typ : Nat) (b : List Byte) : List Byte :=
  let b := b ++ List.replicate ((4 - b.length % 4) % 4) 0
  leBytes 2 1 ++ leBytes 2 typ ++ leBytes 4 (2 + b.length / 4) ++ b

/-- `src`, a mailbox or NVMe-MI, has been answered `b`. -/
def State.told (t : State) (src typ : Nat) (b : List Byte) : Prop := Out.data (if src = 2 then b else doeBytes typ b) ∈ t.out

/-- The request has been decided: with signatures by one of the sets `roles`, all valid, its change `c` waits for its entry, and the
fuses are `f`; else nothing has changed and 0x6002 is the answer. -/
def State.decided (s u : State) (src : Nat) (blk : List Byte) (op : Nat) (roles : List (List Nat)) (arg : List Byte) (c : Change)
    (f : Fuses) : Prop :=
  if s.sigsOk blk roles = true then u.awaits op arg c src (s.epoch pKpr) ∧ u.kpr.fuses = f
  else u.kpr = s.kpr ∧ u.told src 2 (reqAnswer 0x6002 s.kpr.nextSeq)

/-- An SPDM request `m` with code `code` and version `ver` has come from `src`, to be answered with object type `typ`. -/
def State.asked (s : State) (src : Nat) (msg : List Byte) (code ver typ : Nat) (m : List Byte) : Prop :=
  s.kprRuns = true ∧ s.kpr.fuses.lcs ≠ 0 ∧ s.spdmMsg src msg = some (typ, m) ∧ fieldAt m 1 1 = code ∧ fieldAt m 0 1 = ver

/-- The waiting changes that move the lifecycle state or the security epoch. -/
def State.fuseWaits (s : State) : List Change :=
  (s.kpr.queue.map (·.change)).filter fun c => match c with
    | .lifecycle .. => true
    | .secEpoch _ => true
    | _ => false

/-- The lifecycle transitions of R495, from and to. -/
def lifecycleMoves : List (Nat × Nat) := [(0, 1), (1, 2), (2, 3), (3, 3), (3, 2), (3, 4), (2, 4)]

/-- At most one waiting change moves the lifecycle state or the security epoch, and it moves it as R495 and R502 allow. -/
def State.fusesSettle (s : State) : Prop :=
  s.fuseWaits.length ≤ 1 ∧ ∀ c ∈ s.fuseWaits, match c with
    | .lifecycle f t _ _ => s.kpr.fuses.lcs = f ∧ (f, t) ∈ lifecycleMoves
    | .secEpoch e => s.kpr.fuses.secEpoch < e
    | _ => True

/-- What R264 gives a core at reset, but for its pc. -/
def State.coreFresh (s : State) (k : Nat) : Prop :=
  let x := s.core k
  x.ps = 0 ∧ x.wsel = 0 ∧ (∀ r, x.gr r = 0 ∧ x.vr r = 0) ∧ (∀ b, b < 4096 → s.bitGet k b = false)
    ∧ x.wb 0 = 0 ∧ x.wl 0 = localSizeOf k - 1 ∧ x.wa 0 = 0x1F ∧ ∀ w, 1 ≤ w → w < 16 → (x.wa w).getLsbD 0 = false

end Sys2Proof.Machine
end

