-- ==== Sys2Proof/Certificates/Slice0/Obligations.lean ====
section
/-! DEFINITION. The statements about the device that are to be proved. A statement about a command holds in every state that meets its
hypotheses; `Acts c s P` reads: while the device serves commands, `c` answers a next state, of which `P` holds. -/

open Sys2Proof Sys2Proof.Machine

/-- A step takes the command at the front of the queue, and is that command's effect with the queue's rest. With nothing waiting the block
idles: TB counts while its clock runs, and of everything else only the outputs of the last command go (the model's choice, log entry 1). -/
def Obligations.StepRunsTheFrontCommand : Prop :=
  (∀ (c : Instr) (r : List Instr) (s : State), step { s with pending := c :: r } = exec c { s with pending := r })
  ∧ ∀ s : State, s.pending = [] →
    step s = .next { s with out := [], tb := if s.live = true ∧ s.fab = true then s.tb + 1 else s.tb }

/-- However many commands wait, each step serves one, in their order, and none is lost. -/
def Obligations.EveryWaitingCommandIsServed : Prop :=
  ∀ (n : Nat) (s : State), n ≤ s.pending.length → ∃ t, Host.Core.run core n s = .next t ∧ t.pending = s.pending.drop n

/-- While power-on reset is held nothing but its release has an effect, and in Latched and Shuttered only the always-on domain acts. -/
def Obligations.HeldDeviceStandsStill : Prop :=
  ∀ (c : Instr) (s : State),
    (s.boot.held = true → overReset c = false → exec c s = .next s.fresh)
    ∧ (s.power.asleep = true → alwaysOn c = false → exec c s = .next s.fresh)

/-- Every step keeps the memory in its canonical form: addresses rise strictly, and no entry holds what an unlisted address reads as. -/
def Obligations.MemoryKeepsItsForm : Prop :=
  ∀ s t : State, memWf s.mem = true → step s = .next t → memWf t.mem = true

/-- From every state in which the waiting changes are in order, a step moves the lifecycle state only along R495's transitions, never out of
Retired, and never lowers the security epoch; and the waiting changes stay in order. -/
def Obligations.LifecycleMovesOnlyForward : Prop :=
  ∀ s t : State, s.fusesSettle → step s = .next t →
    t.fusesSettle
    ∧ (t.kpr.fuses.lcs = s.kpr.fuses.lcs ∨ (s.kpr.fuses.lcs, t.kpr.fuses.lcs) ∈ lifecycleMoves)
    ∧ (s.kpr.fuses.lcs = 4 → t.kpr.fuses.lcs = 4)
    ∧ s.kpr.fuses.secEpoch ≤ t.kpr.fuses.secEpoch

/-- Right after reset the invariants hold, TB is zero, every register has its reset value, nothing waits, and the device serves commands;
the memories read zero and a fresh die is Blank (the model's choice, log entry 6). -/
def Obligations.ResetState : Prop :=
  memWf State.reset.mem = true ∧ State.reset.fusesSettle ∧ State.reset.tb = 0 ∧ State.reset.pending = [] ∧ State.reset.live = true
  ∧ (∀ p o, State.reset.rg p o = regDefault (regKey p o))
  ∧ (∀ a, memGet State.reset.mem a = 0) ∧ State.reset.kpr.fuses.lcs = 0
  ∧ ∀ c : Instr, ∃ t, step { State.reset with pending := [c] } = .next t ∧ t.pending = []

/-- At core reset a core has the state of R264, and it starts at the START offset of its block. -/
def Obligations.CoreResetState : Prop :=
  (∀ k < 41, State.reset.coreFresh k)
  ∧ (∀ (s : State) (c : CoreId) (q : Nat × Nat), coreEntry (coreNum c) = some q →
    Acts (.coreReset c) s fun t => t.coreFresh (coreNum c) ∧ (t.core (coreNum c)).mode = .inReset)
  ∧ ∀ (s : State) (c : CoreId) (pg e : Nat), coreEntry (coreNum c) = some (pg, e) → (s.core (coreNum c)).mode = .inReset →
    Acts (.coreRun c) s fun t => t.coreFresh (coreNum c) ∧ (t.core (coreNum c)).mode = .running
      ∧ (t.core (coreNum c)).pc = (s.rg (pg + 1) (Reg.CORE e 4)).setWidth 64

/-- A write that puts a reserved encoding into a register stores nothing in it, counts, logs where and why, and raises local event 0 (R51);
STG_CTRL with COMMIT and ABORT together is such a write (R43). -/
def Obligations.ReservedEncodingsAreRejected : Prop :=
  ∀ (s : State) (r : Requester) (page off : Nat) (b : Blk) (v : BitVec 32), blkAt page = some b → page < 4096 → off < 4096 → off % 4 = 0 →
    let pg := if off < 0x80 then 0 else page - b.base
    ((fldsOf b pg off).isEmpty = false → s.badEnc r b pg off v = true →
      Acts (.registerWrite (.dev r) (regBase + page * 4096 + off) false (v.setWidth 64)) s fun t =>
        (∀ q o, regKey q o ∉ [regKey b.base Reg.BAD_WR_CNT, regKey b.base Reg.EVT_PEND, regKey pEvf (Reg.ERR_CNT 3)] → t.rg q o = s.rg q o)
        ∧ t.shadows = s.shadows ∧ t.blks = s.blks
        ∧ t.fget b.base Reg.BAD_WR_CNT 0 16 = min 0xFFFF (s.fget b.base Reg.BAD_WR_CNT 0 16 + 1)
        ∧ t.fget b.base Reg.BAD_WR_CNT 16 12 = off ∧ t.fget b.base Reg.BAD_WR_CNT 28 2 = 1
        ∧ t.bit b.base Reg.EVT_PEND 0 = true)
    ∧ (off = Reg.STG_CTRL → v.getLsbD 0 = true → v.getLsbD 1 = true → s.badEnc r b pg off v = true)

/-- An MSI-X message of a function that is usable is sent, or kept as one pending bit while its vector is masked; of any other function, or
of a vector beyond the table, it is discarded and counted (R566). -/
def Obligations.MessagesMergeWhileMasked : Prop :=
  ∀ (s : State) (k v : Nat),
    (s.usable k = true → v < (s.func k).vi →
      (mapFind (s.func k).unmasked v = none →
        ((s.msix k v).func k).msixPend.contains v = true ∧ (s.msix k v).out = s.out ∧ (s.msix k v).msix k v = s.msix k v)
      ∧ ((mapFind (s.func k).unmasked v).isSome = true → (s.msix k v).out = s.out ++ [.msix k v]))
    ∧ (s.usable k = false ∨ (s.func k).vi ≤ v →
      (s.msix k v).out = s.out ∧ (s.msix k v).funcs = s.funcs
      ∧ (s.msix k v).fget pEvf (Reg.ERR_CNT 3) 0 32 = min (2 ^ 32 - 1) (s.fget pEvf (Reg.ERR_CNT 3) 0 32 + 1))
    ∧ ((s.slotEnabled k = false ∨ (s.isPf k = false ∧ (s.func k).online = false) ∨ (s.func k).d3 = true
        ∨ s.linkUp (s.portOf k) = false) → s.usable k = false)

/-- An entry matches a search key when all its units are valid and key and entry agree in every bit that its care mask names (R377). -/
def Obligations.EntriesMatchByCare : Prop :=
  ∀ (m : FMap AseUnit) (w key sl : Nat), (matchAt m w key sl).isSome = true ↔
    ∀ u < w, ∃ x, mapFind m (w * sl + u) = some x
      ∧ ∀ i, x.care.testBit i = true → (decide (i < 128) && key.testBit (128 * u + i)) = x.key.testBit i

/-- Division by zero and signed overflow: the results, and no trap (R282). A destination g0 discards the result. -/
def Obligations.DivisionCorners : Prop :=
  ∀ (s : State) (c : CoreId) (f : FmtA), s.ready (coreNum c) →
    let x := (s.atFetch (coreNum c)).core (coreNum c)
    let a := x.gr f.ra.toNat
    let b := x.gr f.rb.toNat
    let gives (i : Instr) (r : Word) : Prop :=
      ∃ y, exec i s = s.coreDone (coreNum c) y ∧ y.pc = x.pc + 4 ∧ y.gr f.rd.toNat = if f.rd = 0 then 0 else r
    (b = 0 → gives (.divu c f) 0xFFFF_FFFF_FFFF_FFFF ∧ gives (.remu c f) a ∧ gives (.divs c f) (-1) ∧ gives (.rems c f) a)
    ∧ (a = 0x8000_0000_0000_0000 → b = -1 → gives (.divs c f) 0x8000_0000_0000_0000 ∧ gives (.rems c f) 0)

/-- BCC branches exactly on the conditions of R291, its reserved field values trap, and after a compare the unsigned and the signed
conditions say how the operands compare. -/
def Obligations.BranchConditions : Prop :=
  (∀ (s : State) (c : CoreId) (f : FmtB), s.ready (coreNum c) →
    let k := coreNum c
    let x := (s.atFetch k).core k
    let z := x.ps.getLsbD 0
    let n := x.ps.getLsbD 1
    let cy := x.ps.getLsbD 2
    let v := x.ps.getLsbD 3
    let word := 0x07 * 2 ^ 26 + f.rd.toNat * 2 ^ 21 + f.ra.toNat * 2 ^ 16 + f.imm.toNat
    (∀ taken, f.ra = 0 → (f.rd, taken) ∈ [((0x0 : BitVec 5), true), (0x1, z), (0x2, !z), (0x3, !cy), (0x4, cy),
        (0x5, cy && !z), (0x6, !cy || z), (0x7, n != v), (0x8, n == v), (0x9, !z && n == v), (0xA, z || n != v), (0xB, n),
        (0xC, !n), (0xD, v), (0xE, !v)] →
      exec (.bcc c f) s = s.coreDone k { x with pc := if taken then x.pc + 4 * f.imm.signExtend 64 else x.pc + 4 })
    ∧ (f.ra = 0 → f.rd = 0xF → exec (.bcc c f) s = s.coreTraps k ⟨0, word, 5⟩ x.pc)
    ∧ ((f.ra ≠ 0 ∨ f.rd.getLsbD 4 = true) → exec (.bcc c f) s = s.coreTraps k ⟨0, word, 3⟩ x.pc))
  ∧ ∀ (ps a b : Word),
    let q := (⟨a - b, some (decide (b.toNat ≤ a.toNat)), some (a.msb != b.msb && (a - b).msb != a.msb)⟩ : Alu).flags ps
    (psC q = true ↔ b ≤ a) ∧ (psC q = false ↔ a < b) ∧ (psC q = true ∧ psZ q = false ↔ b < a) ∧ (psZ q = true ↔ a = b)
    ∧ ((psN q != psV q) = true ↔ a.toInt < b.toInt) ∧ (psZ q = false ∧ psN q = psV q ↔ b.toInt < a.toInt)

/-- Each integer instruction of register and of immediate format writes its result to g[rd], sets its flags where it sets any, and goes on
to the next instruction; nothing else changes (R281 to R284). FENCE and FENCEI go on, FENCEI with an empty instruction cache (R272, R273). Z
and N follow the result, C and V the operation where it sets them, and every other bit of ps keeps its value (R284). -/
def Obligations.IntegerInstructions : Prop :=
  ((∀ (s : State) (c : CoreId) (f : FmtA), s.ready (coreNum c) →
    let k := coreNum c
    let x := (s.atFetch k).core k
    let a := x.gr f.ra.toNat
    let b := x.gr f.rb.toNat
    let n := b.toNat % 64
    let cy : Word := if psC x.ps then 1 else 0
    let bits := List.range 64
    let done (i : Instr) (r : Word) (cf vf : Option Bool) : Prop := exec i s = s.coreDone k
      { x.setG f.rd.toNat r with ps := if f.s then (⟨r, cf, vf⟩ : Alu).flags x.ps else x.ps, pc := x.pc + 4 }
    let ov (r : Word) : Bool := a.msb == b.msb && r.msb != a.msb
    let under (r : Word) : Bool := a.msb != b.msb && r.msb != a.msb
    let out (j : Nat) : Option Bool := if n = 0 then none else some (a.getLsbD j)
    let corner : Bool := b == 0 || (a == 2 ^ 63 && b == BitVec.allOnes 64)
    let wide : Bool := a.toInt * b.toInt != (a * b).toInt
    (done (.add c f none) (a + b) (some (decide (2 ^ 64 ≤ a.toNat + b.toNat))) (some (ov (a + b)))
    ∧ done (.adc c f) (a + b + cy) (some (decide (2 ^ 64 ≤ a.toNat + b.toNat + cy.toNat))) (some (ov (a + b + cy)))
    ∧ done (.sub c f) (a - b) (some (decide (b.toNat ≤ a.toNat))) (some (under (a - b)))
    ∧ done (.sbc c f) (a - b - 1 + cy) (some (decide (b.toNat + 1 ≤ a.toNat + cy.toNat))) (some (under (a - b - 1 + cy)))
    ∧ done (.and c f) (a &&& b) none none ∧ done (.or c f) (a ||| b) none none ∧ done (.xor c f) (a ^^^ b) none none
    ∧ done (.andn c f) (a &&& ~~~ b) none none
    ∧ done (.shl c f) (a <<< n) (out (64 - n)) none ∧ done (.shr c f) (a >>> n) (out (n - 1)) none
    ∧ done (.sar c f) (a.sshiftRight n) (out (n - 1)) none ∧ done (.ror c f) (a >>> n ||| a <<< (64 - n)) (out (n - 1)) none
    ∧ done (.mul c f) (a * b) (some wide) (some wide)
    ∧ done (.mulhs c f) ((a.signExtend 128 * b.signExtend 128).extractLsb' 64 64) none none
    ∧ done (.mulhu c f) ((a.setWidth 128 * b.setWidth 128).extractLsb' 64 64) none none
    ∧ done (.divu c f) (if b = 0 then BitVec.allOnes 64 else a / b) none (some (b == 0))
    ∧ done (.remu c f) (if b = 0 then a else a % b) none (some (b == 0))
    ∧ done (.divs c f) (if b = 0 then BitVec.allOnes 64 else a.sdiv b) none (some corner)
    ∧ done (.rems c f) (if b = 0 then a else a.srem b) none (some corner)
    ∧ done (.mins c f) (if b.slt a then b else a) none none ∧ done (.maxs c f) (if b.slt a then a else b) none none
    ∧ done (.minu c f) (if b < a then b else a) none none ∧ done (.maxu c f) (if b < a then a else b) none none)
    ∧ (f.rb = 0 →
      done (.clz c f) (BitVec.ofNat 64 (bits.takeWhile fun i => !a.getLsbD (63 - i)).length) none none
      ∧ done (.ctz c f) (BitVec.ofNat 64 (bits.takeWhile fun i => !a.getLsbD i).length) none none
      ∧ done (.popc c f) (BitVec.ofNat 64 (bits.filter fun i => a.getLsbD i).length) none none
      ∧ done (.sext8 c f) ((a.setWidth 8).signExtend 64) none none ∧ done (.sext16 c f) ((a.setWidth 16).signExtend 64) none none
      ∧ done (.sext32 c f) ((a.setWidth 32).signExtend 64) none none ∧ done (.zext8 c f) ((a.setWidth 8).setWidth 64) none none
      ∧ done (.zext16 c f) ((a.setWidth 16).setWidth 64) none none ∧ done (.zext32 c f) ((a.setWidth 32).setWidth 64) none none
      ∧ ∃ r : Word, done (.bswap c f) r none none ∧ ∀ j < 8, r.extractLsb' (8 * j) 8 = a.extractLsb' (56 - 8 * j) 8)
    ∧ (f.rd = 0 → f.ra = 0 → f.rb = 0 → f.s = false →
      exec (.fence c f) s = s.coreDone k { x with pc := x.pc + 4 }
      ∧ exec (.fencei c f) s = s.coreDone k { x with icache := [], pc := x.pc + 4 }))
  ∧ (∀ (s : State) (c : CoreId) (f : FmtB), s.ready (coreNum c) →
    let k := coreNum c
    let x := (s.atFetch k).core k
    let a := x.gr f.ra.toNat
    let i : Word := f.imm.signExtend 64
    let u : Word := f.imm.setWidth 64
    let n := f.imm.toNat
    let done (j : Instr) (r : Word) : Prop := exec j s = s.coreDone k { x.setG f.rd.toNat r with pc := x.pc + 4 }
    let ov (r b : Word) : Bool := a.msb == b.msb && r.msb != a.msb
    (done (.addi c f) (a + i) ∧ done (.andi c f) (a &&& u) ∧ done (.ori c f) (a ||| u) ∧ done (.xori c f) (a ^^^ u)
      ∧ done (.orh1 c f) (a ||| u <<< 16) ∧ done (.orh2 c f) (a ||| u <<< 32) ∧ done (.orh3 c f) (a ||| u <<< 48))
    ∧ (f.ra = 0 → done (.movi c f) i)
    ∧ (n < 64 → done (.shli c f) (a <<< n) ∧ done (.shri c f) (a >>> n) ∧ done (.sari c f) (a.sshiftRight n)
      ∧ done (.rori c f) (a >>> n ||| a <<< (64 - n)))
    ∧ exec (.addis c f) s = s.coreDone k { x.setG f.rd.toNat (a + i) with
      ps := (⟨a + i, some (decide (2 ^ 64 ≤ a.toNat + i.toNat)), some (ov (a + i) i)⟩ : Alu).flags x.ps, pc := x.pc + 4 }
    ∧ (f.rd = 0 →
      exec (.cmpi c f) s = s.coreDone k { x with
        ps := (⟨a - i, some (decide (i.toNat ≤ a.toNat)), some (a.msb != i.msb && (a - i).msb != a.msb)⟩ : Alu).flags x.ps, pc := x.pc + 4 }
      ∧ exec (.tsti c f) s = s.coreDone k { x with ps := (⟨a &&& u, none, none⟩ : Alu).flags x.ps, pc := x.pc + 4 })))
  ∧ (∀ (ps r : Word) (c v : Option Bool),
    let q := (⟨r, c, v⟩ : Alu).flags ps
    psZ q = (r == 0) ∧ psN q = r.msb ∧ psC q = c.getD (psC ps) ∧ psV q = v.getD (psV ps) ∧ q >>> 4 = ps >>> 4)

/-- Each vector instruction of a compute core has the lane results of its row, the moves between a vector and an integer register among
them, and goes on to the next instruction (R288, R289). -/
def Obligations.VectorInstructions : Prop :=
  (∀ (s : State) (c : CoreId) (f : FmtV), s.ready (coreNum c) → coreNum c < 32 →
    let k := coreNum c
    let x := (s.atFetch k).core k
    let w := ewBits f.ew
    let a := x.vr f.va.toNat
    let b := x.vr (f.rb.toNat % 16)
    let d := x.vr f.vd.toNat
    let g := x.gr f.rb.toNat
    let n := g.toNat % w
    let lane (v : VecWord) (i : Nat) : Nat := v.toNat / 2 ^ (w * i) % 2 ^ w
    let sgn (v : Nat) : Int := if v < 2 ^ (w - 1) then v else (v : Int) - 2 ^ w
    let ones (p : Prop) [Decidable p] : Nat := if p then 2 ^ w - 1 else 0
    let done (j : Instr) (r : VecWord → Prop) : Prop :=
      ∃ v, r v ∧ exec j s = s.coreDone k { x.setV f.vd.toNat v with pc := x.pc + 4 }
    let lanes (j : Instr) (r : Nat → Nat) : Prop := done j fun v => ∀ i < 256 / w, lane v i = r i % 2 ^ w
    (f.rb.toNat < 16 →
      lanes (.vadd c f) (fun i => lane a i + lane b i) ∧ lanes (.vsub c f) (fun i => lane a i + 2 ^ w - lane b i)
      ∧ lanes (.vmul c f) (fun i => lane a i * lane b i) ∧ lanes (.vmulhu c f) (fun i => lane a i * lane b i / 2 ^ w)
      ∧ lanes (.vmla c f) (fun i => lane d i + lane a i * lane b i)
      ∧ lanes (.vminu c f) (fun i => min (lane a i) (lane b i)) ∧ lanes (.vmaxu c f) (fun i => max (lane a i) (lane b i))
      ∧ lanes (.vcmpeq c f) (fun i => ones (lane a i = lane b i)) ∧ lanes (.vcmpgtu c f) (fun i => ones (lane b i < lane a i))
      ∧ lanes (.vcmpgts c f) (fun i => ones (sgn (lane b i) < sgn (lane a i))))
    ∧ (lanes (.vshl c f) (fun i => lane a i * 2 ^ n) ∧ lanes (.vshr c f) (fun i => lane a i / 2 ^ n)
      ∧ done (.vsar c f) fun v => ∀ i < 256 / w, sgn (lane v i) = sgn (lane a i) / (2 ^ n : Int))
    ∧ (f.rb.toNat < 16 → f.ew = 0 →
      done (.vand c f) (· = a &&& b) ∧ done (.vor c f) (· = a ||| b) ∧ done (.vxor c f) (· = a ^^^ b)
      ∧ done (.vandn c f) (· = a &&& ~~~ b)
      ∧ done (.vperm c f) fun v => ∀ i < 32, v.extractLsb' (8 * i) 8 = a.extractLsb' (8 * (b.extractLsb' (8 * i) 8).toNat % 256) 8)
    ∧ (f.rb = 0 → lanes (.vpopc c f) fun i => ((List.range w).filter fun j => (lane a i).testBit j).length)
    ∧ (f.va = 0 → lanes (.vsplat c f) fun _ => g.toNat))
  ∧ (∀ (s : State) (c : CoreId) (f : FmtW), s.ready (coreNum c) → coreNum c < 32 → f.z = 0 →
    let k := coreNum c
    let x := (s.atFetch k).core k
    let w := ewBits f.ew
    let a := x.vr (f.ra.toNat % 16)
    let m := (x.gr f.rb.toNat).toNat % (256 / w)
    let lane (v : VecWord) (i : Nat) : Nat := v.toNat / 2 ^ (w * i) % 2 ^ w
    let put (j : Instr) (r : Word) : Prop := exec j s = s.coreDone k { x.setG f.rd.toNat r with pc := x.pc + 4 }
    (f.ra.toNat < 16 → put (.vget c f) (BitVec.ofNat 64 (lane a m)))
    ∧ (f.ra.toNat < 16 → f.rb = 0 → put (.vrsum c f) (BitVec.ofNat 64 ((List.range (256 / w)).map (lane a)).sum)
      ∧ ∃ r : Word, put (.vmsk c f) r ∧ ∀ i < 64, r.getLsbD i = (decide (i < 256 / w) && a.getLsbD (w * i + w - 1)))
    ∧ (f.rd.toNat < 16 → ∃ v : VecWord, exec (.vput c f) s = s.coreDone k { x.setV f.rd.toNat v with pc := x.pc + 4 }
      ∧ ∀ i < 256 / w, lane v i = if i = m then (x.gr f.ra.toNat).toNat % 2 ^ w else lane (x.vr f.rd.toNat) i))

/-- Each load writes what its window gives at the offset of its form to g[rd] or v[rd]; each store leaves the low bytes of its register
there, atomics answer the old value and CLWB drops its line; or the trap of the access is taken (R268, R270 to R272, R285, R286). -/
def Obligations.LoadsAndStores : Prop :=
  (∀ (s : State) (c : CoreId), s.ready (coreNum c) →
    let k := coreNum c
    let m := s.atFetch k
    let x := m.core k
    let load (j : Instr) (n off size : Nat) (put : Core → List Byte → Core) : Prop :=
      match m.winLoad k n off size with
      | (u, .error t) => exec j s = .next (s.leaveQueue (u.trapTake k t x.pc false false))
      | (u, .ok b) => exec j s = .next (s.leaveQueue (u.setCore k { put (u.core k) b with pc := (u.core k).pc + 4 }))
    let long (j : Instr) (f : FmtM) (size : Nat) (val : Nat → Word) : Prop :=
      load j f.wn.toNat (x.gr f.ra.toNat + f.disp.signExtend 64 * BitVec.ofNat 64 size).toNat size fun q b => q.setG f.rd.toNat (val (leNat b))
    let short (j : Instr) (f : FmtS) (size : Nat) (val : Nat → Word) : Prop :=
      load j x.wsel.toNat f.addr.toNat size fun q b => q.setG f.rd.toNat (val (leNat b))
    let u (v : Nat) : Word := BitVec.ofNat 64 v
    let i8 (v : Nat) : Word := (BitVec.ofNat 8 v).signExtend 64
    let i16 (v : Nat) : Word := (BitVec.ofNat 16 v).signExtend 64
    let i32 (v : Nat) : Word := (BitVec.ofNat 32 v).signExtend 64
    (∀ f : FmtM, long (.ld8u c f) f 1 u ∧ long (.ld16u c f) f 2 u ∧ long (.ld32u c f) f 4 u ∧ long (.ld64 c f none) f 8 u
      ∧ long (.ld8s c f) f 1 i8 ∧ long (.ld16s c f) f 2 i16 ∧ long (.ld32s c f) f 4 i32
      ∧ (k < 32 → f.rd.toNat < 16 → load (.vld c f) f.wn.toNat (x.gr f.ra.toNat + f.disp.signExtend 64 * 32).toNat 32
        fun q b => q.setV f.rd.toNat (BitVec.ofNat 256 (leNat b))))
    ∧ ∀ f : FmtS, short (.ld8uS c f) f 1 u ∧ short (.ld16uS c f) f 2 u ∧ short (.ld32uS c f) f 4 u ∧ short (.ld64S c f) f 8 u
      ∧ short (.ld8sS c f) f 1 i8 ∧ short (.ld16sS c f) f 2 i16 ∧ short (.ld32sS c f) f 4 i32)
  ∧ (∀ (s : State) (c : CoreId), s.ready (coreNum c) →
    let k := coreNum c
    let m := s.atFetch k
    let x := m.core k
    let traps (j : Instr) (t : TrapInfo) (u : State) : Prop := exec j s = .next (s.leaveQueue (u.trapTake k t x.pc false false))
    let store (j : Instr) (n off : Nat) (b : List Byte) : Prop :=
      match m.winStore k n off b with
      | (u, some t) => traps j t u
      | (u, none) => exec j s = .next (s.leaveQueue (u.afterStore k x))
    let offM (f : FmtM) (size : Nat) : Nat := (x.gr f.ra.toNat + f.disp.signExtend 64 * BitVec.ofNat 64 size).toNat
    let bytes (r size : Nat) : List Byte := leBytes size (x.gr r).toNat
    let long (j : Instr) (f : FmtM) (size : Nat) : Prop := store j f.wn.toNat (offM f size) (bytes f.rd.toNat size)
    let short (j : Instr) (f : FmtS) (size : Nat) : Prop := store j x.wsel.toNat f.addr.toNat (bytes f.rd.toNat size)
    let atomic (j : Instr) (f : FmtM) (a : Access) (upd : Nat → Nat) : Prop :=
      match m.winAtomic k f.wn.toNat a (offM f 8) upd with
      | (u, .error t) => traps j t u
      | (u, .ok v) => exec j s = .next (s.leaveQueue (u.setCore k { (u.core k).setG f.rd.toNat (BitVec.ofNat 64 v) with pc := (u.core k).pc + 4 }))
    (∀ f : FmtM, long (.st8 c f) f 1 ∧ long (.st16 c f) f 2 ∧ long (.st32 c f) f 4 ∧ long (.st64 c f) f 8
      ∧ atomic (.xchg64 c f) f .xchg (fun _ => (x.gr f.rd.toNat).toNat)
      ∧ atomic (.xadd64 c f) f .xadd (fun t => t + (x.gr f.rd.toNat).toNat)
      ∧ (k < 32 → f.rd.toNat < 16 → store (.vst c f) f.wn.toNat (offM f 32) (leBytes 32 (x.vr f.rd.toNat).toNat))
      ∧ (f.rd = 0 → match m.winClwb k f.wn.toNat (offM f 64) with
        | (u, some t) => traps (.clwb c f) t u
        | (u, none) => exec (.clwb c f) s = .next (s.leaveQueue (u.setCore k { u.core k with pc := (u.core k).pc + 4 }))))
    ∧ ∀ f : FmtS, short (.st8S c f) f 1 ∧ short (.st16S c f) f 2 ∧ short (.st32S c f) f 4 ∧ short (.st64S c f) f 8)

/-- The checks of R268: an access is granted exactly where each of them passes, and then at BASE + offset. While no soft error stands in the
local store, a load from it gives the bytes of memory, a store changes exactly the bytes it names, and an instruction fetch changes nothing
(R269, R285). -/
def Obligations.WindowsAndLocalStore : Prop :=
  (∀ (s : State) (k n : Nat) (a : Access) (off size : Nat), size ∈ [1, 2, 4, 8, 32] →
    let c := s.core k
    let w := c.wa n
    (w.getLsbD 7 = false → ∀ q, s.winCheck k n a off size = .ok q ↔
      ¬ (c.benchMode = true ∧ n < 4) ∧ w.getLsbD 0 = true ∧ a.granted w = true
      ∧ ¬ (c.benchMode = true ∧ (w >>> 4).toNat % 4 = 2 ∧ c.wb n + off < s.ctxBase (k / 8) + 147456 ∧ s.ctxBase (k / 8) < c.wb n + off + size)
      ∧ off % size = 0 ∧ off + size ≤ c.wl n + 1 ∧ q = ((w >>> 4).toNat % 4, c.wb n + off))
    ∧ (∀ t, s.winCheck k n a off size = .error t → t = ⟨3, off, n⟩ ∨ ∃ d < 4, t = ⟨1, off, n + 16 * a.code + 64 * d⟩)
    ∧ (c.benchMode = true → n < 4 → s.winCheck k n a off size = .error ⟨1, off, n + 16 * a.code⟩)
    ∧ (¬ (c.benchMode = true ∧ n < 4) → w.getLsbD 0 = false → s.winCheck k n a off size = .error ⟨1, off, n + 16 * a.code + 64⟩)
    ∧ (¬ (c.benchMode = true ∧ n < 4) → w.getLsbD 0 = true → a.granted w = false →
      s.winCheck k n a off size = .error ⟨1, off, n + 16 * a.code + 128⟩)
    ∧ (c.benchMode = false → w.getLsbD 0 = true → a.granted w = true → off % size ≠ 0 →
      s.winCheck k n a off size = .error ⟨3, off, n⟩))
  ∧ (∀ (s : State) (k n off addr : Nat), s.upsets = [] →
    (∀ size, s.winCheck k n .read off size = .ok (1, addr) → addr + size ≤ localSizeOf k →
      s.winLoad k n off size = (s, .ok (memRead s.mem (localBase k + addr) size)))
    ∧ ∀ b : List Byte, s.winCheck k n .write off b.length = .ok (1, addr) → addr + b.length ≤ localSizeOf k →
      (s.winStore k n off b).2 = none
      ∧ (∀ i < b.length, memGet (s.winStore k n off b).1.mem (localBase k + addr + i) = b.getD i 0)
      ∧ ∀ a, a < localBase k + addr ∨ localBase k + addr + b.length ≤ a → memGet (s.winStore k n off b).1.mem a = memGet s.mem a)
  ∧ (∀ (s : State) (k addr : Nat), s.upsets = [] → s.winCheck k (s.core k).cw .fetch (s.core k).pc.toNat 4 = .ok (1, addr) →
    addr + 4 ≤ localSizeOf k → s.fetchAt k = (s, none))

/-- Each bit instruction acts on bit bn and on C as its row says, or takes the bit-space fault; what is written to bit RAM or an event bit
reads back and leaves every other bit (R275, R287). -/
def Obligations.BitInstructions : Prop :=
  (∀ (s : State) (c : CoreId) (f : FmtX), s.ready (coreNum c) →
    let k := coreNum c
    let m := s.atFetch k
    let x := m.core k
    let bn := f.bn.toNat
    let v := m.bitGet k bn
    let cy := psC x.ps
    let inv := v != f.f.getLsbD 9
    let carry (j : Instr) (cy' : Bool) : Prop :=
      if x.bitOk bn then exec j s = s.coreDone k { x with ps := psPut x.ps 2 cy', pc := x.pc + 4 } else exec j s = s.coreTraps k ⟨2, bn, 0⟩ x.pc
    let write (j : Instr) (b cy' : Bool) : Prop :=
      if x.bitOk bn then
        let u := m.bitSet k bn b
        exec j s = .next (s.leaveQueue (u.setCore k { u.core k with ps := psPut x.ps 2 cy', pc := x.pc + 4 }))
      else exec j s = s.coreTraps k ⟨2, bn, 0⟩ x.pc
    (f.f.toNat % 512 = 0 →
      carry (.ldbc c f) inv ∧ carry (.andbc c f) (cy && inv) ∧ carry (.orbc c f) (cy || inv) ∧ carry (.xorbc c f) (cy != inv))
    ∧ (f.f = 0 → write (.stbc c f) cy cy ∧ write (.setb c f) true cy ∧ write (.clrb c f) false cy ∧ write (.invb c f) (!v) cy
      ∧ write (.tas c f) true v)
    ∧ exec (.btst c f) s = (if x.bitOk bn then
        s.coreDone k { x with pc := if v = f.f.getLsbD 9 then x.pc + 4 * (f.f.setWidth 9).signExtend 64 else x.pc + 4 }
      else s.coreTraps k ⟨2, bn, 0⟩ x.pc))
  ∧ (∀ (s : State) (k bn : Nat) (v : Bool),
    (bn < 4352 → (s.bitSet k bn v).bitGet k bn = v)
    ∧ (4352 ≤ bn → s.bitSet k bn v = s)
    ∧ (∀ b, b ≠ bn → b < 8192 → (s.bitSet k bn v).bitGet k b = s.bitGet k b)
    ∧ (∀ b, 4352 ≤ b → b < 8192 → s.bitGet k b = false))

/-- J and JR set pc, J measured from itself, and change nothing else (R290, R292). CALL and CALLR write their frame below g31, lower g31 and
go to their target; where a check of the frame fails they take its trap and change nothing. RET restores what the frame at g31 holds and
goes to RETPC, or rejects the frame (R293 to R295). -/
def Obligations.JumpsCallsAndReturns : Prop :=
  (∀ (s : State) (c : CoreId), s.ready (coreNum c) →
    let k := coreNum c
    let x := (s.atFetch k).core k
    (∀ f : FmtJ, exec (.j c f) s = s.coreDone k { x with pc := x.pc + 4 * f.disp.signExtend 64 })
    ∧ ∀ f : FmtY, f.rd = 0 → f.rb = 0 → exec (.jr c f) s = s.coreDone k { x with pc := x.gr f.ra.toNat })
  ∧ (∀ (s : State) (c : CoreId), s.ready (coreNum c) →
    let k := coreNum c
    let m := s.atFetch k
    let x := m.core k
    let w := x.wstk.toNat
    let bitsOn (mask : Nat) : List Nat := (List.range 8).filter fun i => mask.testBit i
    let call (j : Instr) (mask : Nat) (target : Word) : Prop :=
      let on := bitsOn mask
      let sp := x.gr 31 - BitVec.ofNat 64 (16 + 16 * on.length)
      let frame : List Word := BitVec.ofNat 64 (mask + x.cw * 2 ^ 8 + 0xCA11 * 2 ^ 16) :: (x.pc + 4) ::
        on.flatMap fun i => [x.gr (16 + 2 * i), x.gr (17 + 2 * i)]
      let at_ (i : Nat) : Nat := (sp + BitVec.ofNat 64 (8 * i)).toNat
      (∀ i t, i < frame.length → m.winCheck k w .write (at_ i) 8 = .error t →
        (∀ h < i, ∃ q, m.winCheck k w .write (at_ h) 8 = .ok q) → exec j s = s.coreTraps k t x.pc)
      ∧ ∀ base, m.upsets = [] → base + 8 * frame.length ≤ localSizeOf k →
        (∀ i < frame.length, m.winCheck k w .write (at_ i) 8 = .ok (1, base + 8 * i)) →
        ∃ t, exec j s = .next t ∧ t.core k = { x.setG 31 sp with pc := target }
          ∧ (∀ i < frame.length, memRead t.mem (localBase k + base + 8 * i) 8 = leBytes 8 (frame.getD i 0).toNat)
          ∧ ∀ a, a < localBase k + base ∨ localBase k + base + 8 * frame.length ≤ a → memGet t.mem a = memGet m.mem a
    (∀ f : FmtC, call (.call c f) f.mask.toNat (x.pc + 4 * f.disp.signExtend 64))
    ∧ (∀ f : FmtB, f.rd = 0 → f.imm.toNat < 256 → call (.callr c f) f.imm.toNat (x.gr f.ra.toNat))
    ∧ ∀ (f : FmtY) (base : Nat) (word : Nat → Nat), f.rd = 0 → f.ra = 0 → f.rb = 0 → m.upsets = [] → base + 144 ≤ localSizeOf k →
      (∀ i < 18, m.winCheck k w .read (x.gr 31 + BitVec.ofNat 64 (8 * i)).toNat 8 = .ok (1, base + 8 * i)
        ∧ leNat (memRead m.mem (localBase k + base + 8 * i) 8) = word i) →
      let v := word 0
      let on := bitsOn (v % 256)
      if v / 2 ^ 16 % 2 ^ 16 ≠ 0xCA11 ∨ v / 2 ^ 12 % 2 ^ 4 ≠ 0 ∨ v / 2 ^ 32 ≠ 0 ∨ v / 2 ^ 8 % 2 ^ 4 ≠ x.cw
      then exec (.ret c f) s = s.coreTraps k ⟨0, 0x0C00_0000, 8⟩ x.pc
      else ∃ y, exec (.ret c f) s = s.coreDone k y ∧ y.pc = BitVec.ofNat 64 (word 1) ∧ y.ps = x.ps
        ∧ (∀ i < 8, ∀ q, on.idxOf? i = some q →
          y.gr (16 + 2 * i) = BitVec.ofNat 64 (word (2 + 2 * q)) ∧ y.gr (17 + 2 * i) = BitVec.ofNat 64 (word (3 + 2 * q)))
        ∧ (on.contains 7 = false → y.gr 31 = x.gr 31 + BitVec.ofNat 64 (16 + 16 * on.length))
        ∧ ∀ r < 32, r ≠ 31 → (r < 16 ∨ on.contains ((r - 16) / 2) = false) → y.gr r = x.gr r)

/-- MFS reads and MTS writes each special register (R258, R260 to R262, R306, R267): what every number reads as, and what a write leaves. -/
def Obligations.SpecialRegisterMoves : Prop :=
  ∀ (s : State) (c : CoreId) (f : FmtB), s.ready (coreNum c) →
    let k := coreNum c
    let m := s.atFetch k
    let x := m.core k
    let n := f.imm.toNat
    let v := x.gr f.ra.toNat
    let low (b : Nat) : Word := v &&& BitVec.ofNat 64 (2 ^ b - 1)
    let read (q : Word) : Prop := exec (.mfs c f) s = s.coreDone k { x.setG f.rd.toNat q with pc := x.pc + 4 }
    let write (y : Core) : Prop := exec (.mts c f) s = s.coreDone k { y with pc := x.pc + 4 }
    let illegal (j : Instr) (word detail : Nat) : Prop := exec j s = s.coreTraps k ⟨0, word, detail⟩ x.pc
    let mfsWord := 0x09 * 2 ^ 26 + f.rd.toNat * 2 ^ 21 + f.imm.toNat
    let mtsWord := 0x0A * 2 ^ 26 + f.ra.toNat * 2 ^ 16 + f.imm.toNat
    (f.ra = 0 →
      (n = 0x00 → read x.ps) ∧ (n = 0x01 → read (x.wsel.setWidth 64)) ∧ (n = 0x02 → read s.tb)
      ∧ (n = 0x03 → read (BitVec.ofNat 64 (if k < 32 then k + k / 8 * 2 ^ 12 + 256 * 2 ^ 16
        else if k < 40 then k - 32 + 2 ^ 8 + 512 * 2 ^ 16 else 2 * 2 ^ 8 + 128 * 2 ^ 16)))
      ∧ (x.benchMode = false → (n = 0x10 → read x.tvb) ∧ (n = 0x11 → read x.tpc) ∧ (n = 0x12 → read x.tps) ∧ (n = 0x13 → read x.tcause)
        ∧ (n = 0x14 → read x.taddr) ∧ (n = 0x15 → read x.tscr) ∧ (n = 0x16 → read x.tcmp) ∧ (n = 0x17 → read x.tctl)
        ∧ (n = 0x18 → x.tctl.getLsbD 1 = false → read (BitVec.ofNat 64 (x.wdogLoad.toNat + x.wdogCount.toNat * 2 ^ 32))))
      ∧ (n = 0x19 → read (x.wstk.setWidth 64))
      ∧ (∀ w < 16, (x.benchMode = true → 4 ≤ w) →
        (n = 0x100 + 4 * w → read (BitVec.ofNat 64 (x.wb w))) ∧ (n = 0x101 + 4 * w → read (BitVec.ofNat 64 (x.wl w)))
        ∧ (n = 0x102 + 4 * w → read (x.wa w)))
      ∧ (x.benchMode = true → ((0x10 ≤ n ∧ n ≤ 0x18) ∨ (0x100 ≤ n ∧ n < 0x110 ∧ n % 4 ≠ 3)) → illegal (.mfs c f) mfsWord 7)
      ∧ ((4 ≤ n ∧ n < 0x10) ∨ (0x1A ≤ n ∧ n < 0x100) ∨ (0x100 ≤ n ∧ n < 0x140 ∧ n % 4 = 3) ∨ 0x140 ≤ n → illegal (.mfs c f) mfsWord 5))
    ∧ (f.rd = 0 →
      (n = 0x01 → write { x with wsel := v.setWidth 4 })
      ∧ (n = 0x00 → x.benchMode = true → write { x with ps := (x.ps &&& ~~~ (0xF : Word)) ||| low 4 })
      ∧ (n = 0x00 → x.benchMode = false → (k < 32 ∨ v.getLsbD 4 = false) → write { x with ps := v &&& 0xF0_FF3F })
      ∧ (n = 0x00 → x.benchMode = false → 32 ≤ k → v.getLsbD 4 = true → illegal (.mts c f) mtsWord 7)
      ∧ (n = 0x02 ∨ n = 0x03 → illegal (.mts c f) mtsWord 7)
      ∧ (n = 0x19 → write { x with wstk := v.setWidth 4 })
      ∧ (x.benchMode = false →
        (n = 0x10 → write { x with tvb := low 48 &&& ~~~ (0x3F0 : Word) }) ∧ (n = 0x11 → write { x with tpc := low 48 })
        ∧ (n = 0x12 → (k < 32 ∨ v.getLsbD 4 = false) → write { x with tps := v &&& 0xF0_FF3F })
        ∧ (n = 0x13 → v.getLsbD 16 = false → write { x with tcause := x.tcause &&& ~~~ (0x10000 : Word) })
        ∧ (n = 0x13 → v.getLsbD 16 = true → illegal (.mts c f) mtsWord 7)
        ∧ (n = 0x14 → illegal (.mts c f) mtsWord 7)
        ∧ (n = 0x15 → write { x with tscr := v }) ∧ (n = 0x16 → write { x with tcmp := v })
        ∧ (n = 0x17 → v.getLsbD 1 = x.tctl.getLsbD 1 → (v.getLsbD 1 = false ∨ x.wdogLoad ≠ 0) → write { x with tctl := low 2 })
        ∧ (n = 0x17 → v.getLsbD 1 = true → x.wdogLoad = 0 → illegal (.mts c f) mtsWord 7)
        ∧ (n = 0x18 → (x.tctl.getLsbD 1 = false ∨ v.toNat % 2 ^ 32 ≠ 0) → write { x with
          wdogLoad := v.setWidth 32, wdogCount := v.setWidth 32, wdogFrom := m.tb, wdogOnce := false })
        ∧ ∀ w < 16, (n = 0x100 + 4 * w → v.toNat % 64 = 0 → ∃ y, write y ∧ y.wb w = (low 48).toNat ∧ y.wl w = x.wl w ∧ y.wa w = x.wa w)
          ∧ (n = 0x101 + 4 * w → (x.wa w).getLsbD 7 = false → ∃ y, write y ∧ y.wl w = (low 48).toNat ∧ y.wb w = x.wb w ∧ y.wa w = x.wa w)
          ∧ (n = 0x102 + 4 * w → badWattr k v (x.wl w) = false → ∃ y, write y ∧ y.wa w = low 16 ∧ y.wb w = x.wb w ∧ y.wl w = x.wl w)
          ∧ (n = 0x102 + 4 * w → badWattr k v (x.wl w) = true → illegal (.mts c f) mtsWord 7))
      ∧ (x.benchMode = true → ((0x10 ≤ n ∧ n ≤ 0x18) ∨ (0x100 ≤ n ∧ n < 0x140 ∧ n % 4 ≠ 3)) → illegal (.mts c f) mtsWord 7)
      ∧ ((4 ≤ n ∧ n < 0x10) ∨ (0x1A ≤ n ∧ n < 0x100) ∨ (0x100 ≤ n ∧ n < 0x140 ∧ n % 4 = 3) ∨ 0x140 ≤ n → illegal (.mts c f) mtsWord 5))

/-- Taking a trap (R301): what is saved, what ps becomes and where the core goes on; a second trap stops the core, but for the watchdog's.
BRK and SVC take their traps, SVC with the next instruction as its resume offset (R300, R311). TRET sets ps := TPS and pc := TPC and clears
TCAUSE.ACTIVE, and in Bench mode it raises the illegal-instruction trap (R303); a switch-out that waits for the handler's end happens
instead of the Bench's next instruction (R317). -/
def Obligations.TrapsAndTheirReturn : Prop :=
  (∀ (s : State) (k : Nat) (t : TrapInfo) (tpc : Word) (imprecise multi : Bool), t.vec < 10 → t.detail < 256 →
    let x := s.core k
    (x.tcause.getLsbD 16 = false ∨ t.vec = 8 →
      let y := (s.trapTake k t tpc imprecise multi).core k
      y.mode = .running ∧ y.tps = x.ps ∧ y.tpc = tpc &&& 0xFFFF_FFFF_FFFF ∧ y.taddr = BitVec.ofNat 64 t.addr
      ∧ y.tcause.toNat % 16 = t.vec ∧ y.tcause.toNat / 2 ^ 8 % 2 ^ 8 = t.detail ∧ y.tcause.getLsbD 16 = true
      ∧ y.tcause.getLsbD 17 = imprecise ∧ y.tcause.getLsbD 18 = x.tcause.getLsbD 16 ∧ y.tcause.getLsbD 20 = multi
      ∧ (y.tcause.getLsbD 19 = true ↔ ∃ w, x.mode = .waiting w)
      ∧ y.benchMode = false ∧ y.ps.getLsbD 5 = false ∧ y.cw = x.tvb.toNat % 16 ∧ y.ps &&& 0xFF0F = x.ps &&& 0xFF0F
      ∧ y.pc = (x.tvb &&& ~~~ (0xF : Word)) + BitVec.ofNat 64 (64 * t.vec) ∧ y.g = x.g ∧ y.wbase = x.wbase ∧ y.wlim = x.wlim
      ∧ y.wattr = x.wattr ∧ y.tvb = x.tvb)
    ∧ (x.tcause.getLsbD 16 = true → t.vec ≠ 8 → x.bench = none → ((s.trapTake k t tpc imprecise multi).core k).mode = .stopped 1))
  ∧ (∀ (s : State) (c : CoreId) (f : FmtY), s.ready (coreNum c) → f.rd = 0 →
    let k := coreNum c
    let x := (s.atFetch k).core k
    (f.ra = 0 → f.rb = 0 → exec (.brk c f) s = s.coreTraps k ⟨5, 0, 0⟩ x.pc)
    ∧ exec (.svc c f) s = s.coreTraps k ⟨6, f.ra.toNat * 32 + f.rb.toNat, 0⟩ (x.pc + 4))
  ∧ (∀ (s : State) (c : CoreId) (f : FmtY), s.ready (coreNum c) → f.rd = 0 → f.ra = 0 → f.rb = 0 →
    let k := coreNum c
    let x := (s.atFetch k).core k
    (x.benchMode = false → (x.tps.getLsbD 4 = false ∨ ∀ r, x.bench = some r → r.late = 0) → exec (.tret c f) s = s.coreDone k
      { x with ps := x.tps, pc := x.tpc, tcause := x.tcause &&& ~~~ (0x10000 : Word) })
    ∧ (x.benchMode = true → exec (.tret c f) s = s.coreTraps k ⟨0, 0x0C00_0001, 6⟩ x.pc))

/-- Encodings that raise the illegal-instruction trap before any other effect, with their DETAIL (R307): undefined words, non-zero reserved
fields, and vector instructions on a core without vectors. -/
def Obligations.IllegalEncodings : Prop :=
  ∀ (s : State) (c : CoreId), s.ready (coreNum c) →
    let k := coreNum c
    let x := (s.atFetch k).core k
    let ill (j : Instr) (word detail : Nat) : Prop := exec j s = s.coreTraps k ⟨0, word, detail⟩ x.pc
    -- an undefined major opcode or func
    (∀ (f : FmtA) (w : BitVec 32), (w.toNat / 2 ^ 26 = 0 ∨ w.toNat / 2 ^ 26 = 0x3F) → ill (.add c f (some w)) w.toNat 1)
    ∧ (∀ (f : FmtA) (w : BitVec 32), w.toNat / 2 ^ 26 = 1 → intFunc (w.toNat % 1024) = false → ill (.add c f (some w)) w.toNat 2)
    ∧ (∀ (f : FmtA) (w : BitVec 32), w.toNat / 2 ^ 26 = 3 → sysFunc (w.toNat % 2048) = false → ill (.add c f (some w)) w.toNat 2)
    ∧ (∀ (f : FmtA) (w : BitVec 32), w.toNat / 2 ^ 26 = 4 → vopFunc (w.toNat % 2048) = false →
      ill (.add c f (some w)) w.toNat (if k < 32 then 2 else 4))
    -- non-zero reserved fields
    ∧ (∀ (f : FmtA) (n : Nat) (j : Instr), f.rb ≠ 0 → (n, j) ∈ [(0x20, Instr.clz c f), (0x21, .ctz c f), (0x22, .popc c f), (0x23, .bswap c f),
        (0x24, .sext8 c f), (0x25, .sext16 c f), (0x26, .sext32 c f), (0x28, .zext8 c f), (0x29, .zext16 c f), (0x2A, .zext32 c f)] →
      ill j (2 ^ 26 + f.rd.toNat * 2 ^ 21 + f.ra.toNat * 2 ^ 16 + f.rb.toNat * 2 ^ 11 + (n + if f.s then 1024 else 0)) 3)
    ∧ (∀ (f : FmtB) (op : Nat) (j : Instr), f.rd ≠ 0 → (op, j) ∈ [(0x0E, Instr.cmpi c f), (0x12, .tsti c f), (0x0A, .mts c f), (0x08, .callr c f)] →
      ill j (op * 2 ^ 26 + f.rd.toNat * 2 ^ 21 + f.ra.toNat * 2 ^ 16 + f.imm.toNat) 3)
    ∧ (∀ (f : FmtB) (op : Nat) (j : Instr), f.ra ≠ 0 → (op, j) ∈ [(0x0B, Instr.movi c f), (0x09, .mfs c f), (0x07, .bcc c f)] →
      ill j (op * 2 ^ 26 + f.rd.toNat * 2 ^ 21 + f.ra.toNat * 2 ^ 16 + f.imm.toNat) 3)
    ∧ (∀ (f : FmtB) (op : Nat) (j : Instr), 64 ≤ f.imm.toNat → (op, j) ∈ [(0x13, Instr.shli c f), (0x14, .shri c f), (0x15, .sari c f),
        (0x16, .rori c f)] → ill j (op * 2 ^ 26 + f.rd.toNat * 2 ^ 21 + f.ra.toNat * 2 ^ 16 + f.imm.toNat) 3)
    ∧ (∀ f : FmtB, f.ra = 0 → f.rd = 0xF → ill (.bcc c f) (0x07 * 2 ^ 26 + 0xF * 2 ^ 21 + f.imm.toNat) 5)
    ∧ (∀ (f : FmtY) (n : Nat) (j : Instr), f.rd ≠ 0 → (n, j) ∈ [(0, Instr.ret c f), (1, .tret c f), (2, .jr c f), (3, .brk c f), (4, .svc c f),
        (9, .sev c f)] → ill j (0x03 * 2 ^ 26 + f.rd.toNat * 2 ^ 21 + f.ra.toNat * 2 ^ 16 + f.rb.toNat * 2 ^ 11 + n) 3)
    ∧ (∀ (f : FmtX) (op : Nat) (j : Instr), f.f.toNat % 512 ≠ 0 → (op, j) ∈ [(0x35, Instr.ldbc c f), (0x36, .stbc c f), (0x37, .setb c f),
        (0x38, .clrb c f), (0x39, .invb c f), (0x3A, .andbc c f), (0x3B, .orbc c f), (0x3C, .xorbc c f), (0x3D, .tas c f)] →
      ill j (op * 2 ^ 26 + f.bn.toNat * 2 ^ 10 + f.f.toNat) 3)
    -- vectors on a real-time core or the Keeper, whatever the fields hold
    ∧ (32 ≤ k → ∀ (f : FmtV) (n : Nat) (j : Instr), (n, j) ∈ [(0x00, Instr.vadd c f), (0x01, .vsub c f), (0x02, .vmul c f), (0x03, .vmulhu c f),
        (0x04, .vmla c f), (0x08, .vand c f), (0x09, .vor c f), (0x0A, .vxor c f), (0x0B, .vandn c f), (0x0C, .vminu c f), (0x0D, .vmaxu c f),
        (0x10, .vcmpeq c f), (0x11, .vcmpgtu c f), (0x12, .vcmpgts c f), (0x18, .vshl c f), (0x19, .vshr c f), (0x1A, .vsar c f),
        (0x20, .vpopc c f), (0x21, .vsplat c f), (0x22, .vperm c f)] →
      ill j (0x04 * 2 ^ 26 + f.vd.toNat * 2 ^ 22 + f.va.toNat * 2 ^ 18 + f.rb.toNat * 2 ^ 13 + f.ew.toNat * 2 ^ 11 + n) 4)
    ∧ (32 ≤ k → ∀ (f : FmtM) (op : Nat) (j : Instr), (op, j) ∈ [(0x28, Instr.vld c f), (0x29, .vst c f)] →
      ill j (op * 2 ^ 26 + f.rd.toNat * 2 ^ 21 + f.wn.toNat * 2 ^ 17 + f.ra.toNat * 2 ^ 12 + f.disp.toNat) 4)

/-- WFE, WTU and WTUE go on at once where their condition holds and wait otherwise; SEV sets the event bit it names (R296 to R298). -/
def Obligations.EventInstructions : Prop :=
  ∀ (s : State) (c : CoreId) (f : FmtY), s.ready (coreNum c) →
    let k := coreNum c
    let m := s.atFetch k
    let x := m.core k
    let grp (i : Nat) : RegWord := mapGet zeroWord x.evt i
    let on (ee : Nat) : Bool := (List.range 8).any fun i => ee.testBit i && grp i != 0
    let ee := x.ps.toNat / 2 ^ 8 % 2 ^ 8
    let due := decide ((x.gr f.ra.toNat).toNat ≤ m.tb.toNat)
    let ev := on (if x.benchMode then 0x80 else ee)
    let go (j : Instr) (v : Word) : Prop := exec j s = s.coreDone k { x.setG f.rd.toNat v with pc := x.pc + 4 }
    let waits (j : Instr) (w : WaitKind) : Prop := exec j s = s.coreDone k { x with mode := .waiting w }
    (∀ g : Nat, f.ra.toNat = g → g < 8 → f.rb = 0 →
      (x.benchMode = true → g ≠ 7 → exec (.wfe c f) s = s.coreTraps k ⟨2, 4096 + 32 * g, 0⟩ x.pc)
      ∧ (x.benchMode = false ∨ g = 7 →
        if grp g ≠ 0 ∨ (x.benchMode = false ∧ on ee = true) then go (.wfe c f) ((grp g).setWidth 64) else waits (.wfe c f) (.wfe f.rd.toNat g)))
    ∧ (f.rb = 0 →
      (if due then go (.wtu c f) (if ev then 3 else 1) else waits (.wtu c f) (.wtu f.rd.toNat (x.gr f.ra.toNat)))
      ∧ (if due ∨ ev then go (.wtue c f) ((if due then 1 else 0) + if ev then 2 else 0)
        else waits (.wtue c f) (.wtue f.rd.toNat (x.gr f.ra.toNat))))
    ∧ (f.rd = 0 →
      let bit := (x.gr f.rb.toNat).toNat % 256
      let name := (x.gr f.ra.toNat).toNat % 1024
      let word := 0x03 * 2 ^ 26 + f.ra.toNat * 2 ^ 16 + f.rb.toNat * 2 ^ 11 + 9
      (∀ t, (name = t ∧ t < 32 ∨ name = 256 + (t - 32) ∧ 32 ≤ t ∧ t < 40 ∨ name = 512 ∧ t = 40 ∧ k = 40) →
        if x.benchMode ∧ bit < 224 then exec (.sev c f) s = s.coreTraps k ⟨2, 4096 + bit, 0⟩ x.pc
        else ∃ u, exec (.sev c f) s = .next u ∧ u.bitGet t (4096 + bit) = true ∧ (u.core k).pc = x.pc + 4)
      ∧ (32 ≤ name % 256 ∧ name < 256 ∨ 264 ≤ name ∧ name < 512 ∨ 513 ≤ name ∨ name = 512 ∧ k ≠ 40 →
        exec (.sev c f) s = s.coreTraps k ⟨0, word, 9⟩ x.pc))

/-- The ends of waits and the asynchronous traps (R274, R299, R302, R304, R305). -/
def Obligations.WaitsAndAsynchronousTraps : Prop :=
  ∀ (s : State) (c : CoreId), s.attends (coreNum c) = true →
    let k := coreNum c
    let x := s.core k
    let taken (t : State) (vec : Nat) (addr : Word) : Prop :=
      let y := t.core k
      y.tcause.toNat % 16 = vec ∧ y.tpc = x.pc &&& 0xFFFF_FFFF_FFFF ∧ y.taddr = addr ∧ y.tps = x.ps ∧ y.mode = .running
      ∧ (y.tcause.getLsbD 19 = true ↔ ∃ w, x.mode = .waiting w)
    -- a wait that is over writes its register and goes on, where no trap is due
    (∀ w rd v, x.mode = .waiting w → s.fresh.asyncTrap k = none → s.fresh.waitOver x w = some (rd, v) →
      Acts (.waitEnd c) s fun t => t.core k = { x.setG rd v with mode := .running, pc := x.pc + 4 })
    -- a trap that is due is taken first, in the order watchdog, buffered store, energy cap, timer
    ∧ (x.tcause.getLsbD 16 = false → x.tctl.getLsbD 1 = true → x.wdogOnce = false →
      x.wdogFrom.toNat + x.wdogCount.toNat * 1024 < 2 ^ 64 → s.fab = true →
      Acts (.watchdogExpiry c) s fun t => taken t 8 0 ∧ (t.core k).wdogOnce = true ∧ (t.core k).tcause.toNat / 2 ^ 8 % 2 ^ 8 = 1)
    ∧ (x.tctl.getLsbD 1 = true → x.wdogOnce = true → x.bench = none → k < 40 →
      x.wdogFrom.toNat + x.wdogCount.toNat * 1024 < 2 ^ 64 → s.fab = true →
      Acts (.watchdogExpiry c) s fun t => (t.core k).mode = .stopped 2)
    ∧ (∀ addr, x.tcause.getLsbD 16 = false → s.wdogDue x = false → x.storeErr = [] →
      Acts (.storeBusError c addr) s fun t => taken t 4 addr ∧ (t.core k).tcause.getLsbD 17 = true ∧ (t.core k).storeErr = [])
    ∧ (∀ addr a r, x.tcause.getLsbD 16 = false → s.wdogDue x = false → x.storeErr = a :: r →
      Acts (.storeBusError c addr) s fun t => taken t 4 a ∧ (t.core k).tcause.getLsbD 20 = !r.isEmpty)
    -- the timer: due while TEN is 1 and TB has reached TCMP; taking it clears TEN
    ∧ (x.tcause.getLsbD 16 = false → x.tctl.getLsbD 0 = true → x.ps.getLsbD 5 = true → x.tctl.getLsbD 1 = false → x.storeErr = [] →
      x.benchMode = false → s.fab = true →
      Acts (.timerTrap c) s fun t => taken t 7 0 ∧ (t.core k).tctl.getLsbD 0 = false ∧ x.tcmp.toNat ≤ t.tb.toNat)
    ∧ (x.ps.getLsbD 5 = false → Acts (.timerTrap c) s fun t => t.core k = x)

/-- Commands on the page header (R41, R47 to R49, R52 to R59): each, where nothing is locked, has the effect its rule gives it. -/
def Obligations.HeaderCommandsAct : Prop :=
  -- a write of EVT_ROUTE stores its defined fields, and the reserved bits are ignored
  (∀ (s : State) (r : Requester) (page : Nat) (b : Blk) (v : BitVec 64), blkAt page = some b → page < 4096 →
    s.bit b.base Reg.LOCK 2 = false →
    Acts (.registerWrite (.dev r) (regBase + page * 4096 + Reg.EVT_ROUTE) false v) s fun t =>
      t.rg b.base Reg.EVT_ROUTE = (s.rg b.base Reg.EVT_ROUTE &&& ~~~ 0x1F) ||| (v.setWidth 32 &&& 0x1F))
  ∧ (∀ (s : State) (r : Requester) (page : Nat) (b : Blk), blkAt page = some b → s.bit b.base Reg.LOCK 0 = false →
    s.fget b.base Reg.BLK_CTRL 4 4 ≤ 2 →
    Acts (.softReset r page) s fun t => (t.blk b.base).srst = true ∧ t.stgPend b = false)
  ∧ (∀ (s : State) (page : Nat) (b : Blk), blkAt page = some b → (s.blk b.base).srst = true →
    Acts (.softResetDone page) s fun t => (t.blk b.base).srst = false ∧ t.bit b.base Reg.EVT_PEND 3 = true)
  ∧ (∀ (s : State) (r : Requester) (page : Nat) (b : Blk), blkAt page = some b → s.bit b.base Reg.LOCK 1 = false →
    (s.blk b.base).active = false → s.commitBusy b = false →
    Acts (.commit r page) s fun t => (t.blk b.base).active = true ∧ t.shadows = s.shadows)
  ∧ (∀ (s : State) (r : Requester) (page : Nat) (b : Blk), blkAt page = some b → s.bit b.base Reg.LOCK 1 = false →
    (s.blk b.base).active = false → s.commitBusy b = true →
    Acts (.commit r page) s fun t => (t.blk b.base).active = false ∧ t.fget b.base Reg.STG_CTRL 8 2 = 2 ∧ t.shadows = s.shadows
      ∧ t.epoch b.base = s.epoch b.base ∧ t.bit b.base Reg.EVT_PEND 2 = true)
  ∧ (∀ (s : State) (page : Nat) (b : Blk), blkAt page = some b → (s.blk b.base).active = true → (s.blk b.base).held = false →
    (s.blk b.base).older.length < 3 →
    Acts (.commitApply page) s fun t => (t.blk b.base).active = false ∧ t.epoch b.base = s.epoch b.base + 1 ∧ t.stgPend b = false)
  ∧ (∀ (s : State) (r : Requester) (page : Nat) (b : Blk), blkAt page = some b → s.bit b.base Reg.LOCK 1 = false →
    Acts (.stagingAbort r page) s fun t => t.stgPend b = false ∧ (t.blk b.base).active = false ∧ t.fget b.base Reg.STG_CTRL 8 2 = 3
      ∧ t.epoch b.base = s.epoch b.base)
  ∧ (∀ (s : State) (r : Requester) (page : Nat) (b : Blk) (bits : BitVec 16), blkAt page = some b →
    Acts (.lock r page bits) s fun t => t.rg b.base Reg.LOCK = s.rg b.base Reg.LOCK ||| bits.setWidth 32)
  ∧ ∀ (s : State) (r : Requester) (page : Nat) (b : Blk), blkAt page = some b → page < 4096 →
    Acts (.energyLoRead r page false) s fun t =>
      t.out = [.value (s.rg b.base Reg.ENERGY_LO).toNat]
      ∧ mapFind t.latches (latchKey r b.base Reg.ENERGY_HI) = some (s.rg b.base Reg.ENERGY_HI)

/-- Commands of the tape signal path (R70, R71, R74, R76, R81, R86, R87, R93): each, where its rule's condition holds once the channel bits
that come with it have been taken in, has the effect the rule gives it. -/
def Obligations.SignalPathCommandsAct : Prop :=
  -- a frame boundary is counted by every enabled channel that it reaches, and the count of saturated samples starts again
  (∀ (s : State) (trks : List (Fin 64)) (smp : List AdcSample) (n : Nat), s.tape.pass.isSome = true → n < 70 →
    (s.fresh.takeSamples smp).chEn n = true → (s.fresh.takeSamples smp).atBoundary trks n = true →
    Acts (.frameBoundary trks smp) s fun t =>
      (t.chan n).frames = ((s.fresh.takeSamples smp).chan n).frames + 1 ∧ (t.chan n).sat = 0 ∧ (t.chan n).waits = false)
  -- dropout entry: status, step set 3, and event 4
  ∧ (∀ (s : State) (smp : List AdcSample) (n : Fin 70), s.tape.pass.isSome = true →
    (s.fresh.takeSamples smp).dropped n = false →
    ((s.fresh.takeSamples smp).chan n).win.length = (s.fresh.takeSamples smp).tfeF pTfe Reg.TFE_DROP 16 8 →
    ((s.fresh.takeSamples smp).chan n).win.sum
      < (s.fresh.takeSamples smp).tfeF pTfe Reg.TFE_DROP 0 8 * (s.fresh.takeSamples smp).tfeF pTfe Reg.TFE_DROP 16 8 →
    Acts (.dropoutEntry n smp) s fun t => t.dropped n = true ∧ t.fget (pCh n) Reg.CH_STAT 1 2 = 3
      ∧ t.bit pTfe Reg.EVT_PEND 4 = true)
  ∧ (∀ (s : State) (smp : List AdcSample) (n : Fin 70), s.tape.pass.isSome = true →
    (s.fresh.takeSamples smp).dropped n = true →
    ((s.fresh.takeSamples smp).chan n).win.length = (s.fresh.takeSamples smp).tfeF pTfe Reg.TFE_DROP 16 8 →
    (s.fresh.takeSamples smp).tfeF pTfe Reg.TFE_DROP 8 8 * (s.fresh.takeSamples smp).tfeF pTfe Reg.TFE_DROP 16 8
      < ((s.fresh.takeSamples smp).chan n).win.sum →
    Acts (.dropoutExit n smp) s fun t => t.dropped n = false)
  -- lock: the tracking gains, and event 5 for a data input
  ∧ (∀ (s : State) (smp : List AdcSample) (n : Fin 70), s.tape.pass.isSome = true → n.val < 66 →
    (s.fresh.takeSamples smp).tim n 8 1 2 = 1 → (256 ≤ ((s.fresh.takeSamples smp).chan n).lowRun ∨ 64 ≤ n.val) →
    ((s.fresh.takeSamples smp).chan n).waits = false → (s.fresh.takeSamples smp).rateErr = false →
    Acts (.lockDeclared n smp) s fun t => t.tim n 8 0 1 = 1 ∧ t.tim n 8 1 2 = 2
      ∧ (n.val < 64 → t.bit pTdt Reg.EVT_PEND 5 = true))
  -- a loss of lock: acquisition gains, a wait for the next preamble, event 4
  ∧ (∀ (s : State) (smp : List AdcSample) (n : Fin 70), s.tape.pass.isSome = true → n.val < 66 →
    (s.fresh.takeSamples smp).tim n 8 0 1 = 1 → (s.fresh.takeSamples smp).dropped n = false →
    (((s.fresh.takeSamples smp).chan n).fAtLim = true ∨ 1024 ≤ ((s.fresh.takeSamples smp).chan n).highRun) →
    Acts (.lockLoss n smp) s fun t => t.tim n 8 0 1 = 0 ∧ t.tim n 8 1 2 = 1 ∧ (t.chan n).waits = true
      ∧ t.bit pTdt Reg.EVT_PEND 4 = true)
  -- an alignment move of the lower neighbour towards the end where its largest tap has stood for 4,096 bits
  ∧ (∀ (s : State) (smp : List AdcSample) (k : Fin 64), s.tape.pass.isSome = true →
    4096 ≤ ((s.fresh.takeSamples smp).cpl k).lower.1 → ((s.fresh.takeSamples smp).cpl k).lower.2 = true →
    (s.fresh.takeSamples smp).fget (pTdt + 2) (Reg.TDT_CPL k 0x08) 16 4 ∉ [7, 8] →
    Acts (.alignmentMove k false smp) s fun t =>
      t.fget (pTdt + 2) (Reg.TDT_CPL k 0x08) 16 4 = ((s.fresh.takeSamples smp).fget (pTdt + 2) (Reg.TDT_CPL k 0x08) 16 4 + 1) % 16
      ∧ t.bit pTdt Reg.EVT_PEND 6 = true)
  -- at the ends of the offset's range no move is made (R81)
  ∧ (∀ (s : State) (smp : List AdcSample) (k : Fin 64), s.tape.pass.isSome = true →
    (s.fresh.takeSamples smp).fget (pTdt + 2) (Reg.TDT_CPL k 0x08) 16 4 ∈ [7, 8] →
    Acts (.alignmentMove k false smp) s fun t => t = s.fresh.takeSamples smp)
  -- a band pass opens: TFE, TDT and FMT accept it under their epochs
  ∧ (∀ (s : State) (write : Bool) (band : BitVec 8), s.tape.pass = none → s.streaming = true →
    (if write then s.bit pFmt Reg.FMT_CTRL 0 = true ∧ s.fget pFmt Reg.FMT_WFMT 7 1 = 1
      else s.bit pFmt Reg.FMT_CTRL 1 = true ∧ s.readSlots ≠ []) →
    s.intake pTfe = true → s.intake pTdt = true → s.intake pFmt = true →
    Acts (.bandPassOpen write band) s fun t =>
      t.tape.pass = some ⟨s.epoch pTfe, s.epoch pTdt, s.epoch pFmt, band.toNat, write⟩)
  ∧ (∀ (s : State) (smp : List AdcSample), s.tape.pass.isSome = true →
    Acts (.bandPassEnd smp) s fun t => t.tape.pass = none ∧ t.bit pTfe Reg.EVT_PEND 8 = true)
  -- re-detection: the queue and the units
  ∧ (∀ (s : State) (k : Fin 64) (first len : Nat), s.enabled pTdt = true →
    Acts (.redetectionRequest k first len) s fun t =>
      t.tape.queue = s.tape.queue ++ [⟨k, first, len, false⟩] ∧ t.tape.units = s.tape.units)
  ∧ (∀ (s : State) (r : Redetect) (q : List Redetect), s.tape.queue = r :: q → s.tape.units.length < 4 →
    Acts .redetectionStart s fun t => t.tape.queue = q ∧
      if s.redetLate r then t.tape.units = s.tape.units ∧ t.bit pTdt Reg.EVT_PEND 9 = true
      else t.tape.units = s.tape.units ++ [⟨r, s.detect r.track r.first r.len⟩])
  -- the end of a unit: the span's soft decisions take the place of the original ones
  ∧ ∀ (s : State) (u : Fin 4) (r : RedetUnit), s.tape.units[u.val]? = some r →
    Acts (.redetectionEnd u) s fun t => t.tape.units = s.tape.units.eraseIdx u ∧ t.tape.queue = s.tape.queue
      ∧ (t.cpl r.req.track).redo.getLast? = some (r.req.first, r.out)

/-- Commands of the format engine (R115, R116, R122 to R124, R126): each, where it applies, has the effect its rule gives it; the
work tag of a request is the model's choice (log entry 145). -/
def Obligations.FormatEngineCommandsAct : Prop :=
  -- a frame of which no mark is found, or whose track gives none, is lost: FMT_SPOIL2 counts it, and event 5 comes
  (∀ (s : State) (trk : Fin 64) (smp : List AdcSample) (k : Nat) (l : List Int) (al : Option Sys2Proof.Machine.Alignment),
    let u := s.fresh.takeSamples smp
    u.tape.pass.isSome = true → u.frameFormat trk (mapGet (fun _ => 0) u.fmt.leadIn trk == 0) = some (k, l, al) →
    (u.rtrk trk).start + u.frameLen k ≤ (u.cpl trk).done → u.fmt.mismatch = false →
    (((u.inputOf trk).any u.locked && !u.dead trk && !u.rateErr) = true → al = none) →
    Acts (.frameAlignment trk smp) s fun t => t.bit pFmt Reg.EVT_PEND 5 = true
      ∧ (t.rtrk trk).start = (u.rtrk trk).start + u.frameLen k)
  -- a data frame that aligns and needs no re-detection: its header gives its identity, and its codewords become requests to DCF in order
  ∧ (∀ (s : State) (trk : Fin 64) (smp : List AdcSample) (k : Nat) (l : List Int) (a : Sys2Proof.Machine.Alignment) (x : Nat) (f : FrameId),
    let u := s.fresh.takeSamples smp
    let cws := u.cwInputs k l (a.head + u.modLen k (u.ff k 3 4 2)) (u.ff k 3 7 1) ++ u.cwInputs k l a.rest (u.ncw k - u.ff k 3 7 1)
    u.tape.pass.isSome = true → u.frameFormat trk (mapGet (fun _ => 0) u.fmt.leadIn trk == 0) = some (k, l, some a) →
    (u.rtrk trk).start + u.frameLen k ≤ (u.cpl trk).done → u.fmt.mismatch = false →
    ((u.inputOf trk).any u.locked && !u.dead trk && !u.rateErr) = true →
    max (u.ff k 3 0xD 1) 2 ≤ mapGet (fun _ => 0) u.fmt.leadIn trk → a.redetect = false → u.headerAt k l a.head = some (x, f) →
    (u.rtrk trk).held = none → f.frame < u.framesOf k → u.ff k 5 4 1 ≠ 1 →
    Acts (.frameAlignment trk smp) s fun t => (t.rtrk trk).prev = some f ∧ (t.rtrk trk).held = none ∧ t.fmt.rslot = some k
      ∧ t.dcf.want = u.dcf.want ++ (List.range cws.length).filterMap fun i => (cws.getD i none).map fun w =>
        ⟨u.ff k 5 0 2, 0, if u.hardOut then 1 else 0, 0, 0, passTag, u.ff k 5 8 4, .tape f.dsn (u.frameCell k trk f.frame i), w, false⟩)
  ∧ (∀ (s : State) (k : Nat) (p : Pass), s.tape.pass = some p → p.write = false → s.readFmt = some k →
    Acts .dataSetSeparator s fun t => t.fmt.interval = s.fmt.interval + 1)
  -- a track writes its rewrites first, oldest first, and then its next original frame, where port 0 has brought its codewords
  ∧ (∀ (s : State) (k : Nat) (p : Pass) (w : WriteSet) (trk : Fin 64) (f : FrameId × Nat) (r : List (FrameId × Nat)),
    let x := s.wtrk trk
    s.writeFmt = some k → s.tape.pass = some p → p.write = true → trk.val < s.trksOf k → s.streaming = true →
    s.tpi.underrun = none → s.fmt.cur = some w → s.intervalDone k = false →
    s.ff k 3 0xD 1 ≤ mapGet (fun _ => 0) s.fmt.leadIn trk → x.rewrites = f :: r →
    ((((s.fresh.writeGate true).setWtrk trk { x with slots := x.slots + 1 }).setWtrk trk
      { x with slots := x.slots + 1, rewrites := r }).frameUser k trk f.1).2.isSome = true →
    Acts (.frameSlotIssue trk) s fun t => (t.wtrk trk).rewrites = r ∧ (t.wtrk trk).issued = x.issued ++ [f.1]
      ∧ (t.wtrk trk).next = x.next ∧ (t.wtrk trk).slots = x.slots + 1)
  ∧ (∀ (s : State) (k : Nat) (p : Pass) (w : WriteSet) (trk : Fin 64),
    let x := s.wtrk trk
    let j := ((s.fresh.writeGate true).setWtrk trk { x with slots := x.slots + 1 }).jobStart.noteWrote k w.dsn
    s.writeFmt = some k → s.tape.pass = some p → p.write = true → trk.val < s.trksOf k → s.streaming = true →
    s.tpi.underrun = none → s.fmt.cur = some w → s.intervalDone k = false →
    s.ff k 3 0xD 1 ≤ mapGet (fun _ => 0) s.fmt.leadIn trk → x.rewrites = [] → x.next < s.framesOf k →
    ((j.setWtrk trk { x with slots := x.slots + 1, next := x.next + 1 }).frameUser k trk ⟨w.dsn, w.copy, x.next, 0⟩).2.isSome = true →
    Acts (.frameSlotIssue trk) s fun t => (t.wtrk trk).next = x.next + 1
      ∧ (t.wtrk trk).issued = x.issued ++ [⟨w.dsn, w.copy, x.next, 0⟩] ∧ (t.wtrk trk).slots = x.slots + 1)
  -- a track whose frame needs codewords that port 0 has not brought: an underrun, and the data set is to be written again (R197, R240)
  ∧ (∀ (s : State) (k : Nat) (p : Pass) (w : WriteSet) (trk : Fin 64),
    let x := s.wtrk trk
    let j := ((s.fresh.writeGate true).setWtrk trk { x with slots := x.slots + 1 }).jobStart.noteWrote k w.dsn
    s.writeFmt = some k → s.tape.pass = some p → p.write = true → trk.val < s.trksOf k → s.streaming = true →
    s.tpi.underrun = none → s.fmt.cur = some w → s.intervalDone k = false →
    s.ff k 3 0xD 1 ≤ mapGet (fun _ => 0) s.fmt.leadIn trk → x.rewrites = [] → x.next < s.framesOf k →
    ((j.setWtrk trk { x with slots := x.slots + 1, next := x.next + 1 }).frameUser k trk ⟨w.dsn, w.copy, x.next, 0⟩).2 = none →
    Acts (.frameSlotIssue trk) s fun t => t.fmt.cur = none ∧ t.fmt.whole.head? = some ⟨w.dsn, w.copy + 1, 0, w.zone⟩
      ∧ t.tpi.underrun.isSome = true ∧ t.bit pTpi Reg.EVT_PEND 11 = true ∧ t.bit (pDmc 0) Reg.EVT_PEND 11 = true)
  -- the oldest frame that waits is judged
  ∧ (∀ (s : State) (k : Nat) (trk : Fin 64) (a b : Bool) (res : List (Nat × Nat)) (sig : Nat) (f : FrameId) (r : List FrameId),
    s.writeFmt = some k → (s.wtrk trk).issued = f :: r →
    Acts (.frameVerify trk a b res sig) s fun t => (t.wtrk trk).issued = r)
  -- a read of FMT_RWREC answers the head record, removes it, and clears LOST
  ∧ ∀ (s : State) (q : Requester) (wide : Bool),
    Acts (.fmtRwrecRead q wide) s fun t =>
      t.out = [.value (if wide then (s.rg pFmt Reg.FMT_RWDSN).toNat + (s.rg pFmt Reg.FMT_RWREC).toNat * 2 ^ 32
        else (s.rg pFmt Reg.FMT_RWREC).toNat)]
      ∧ t.fmt.queue = s.fmt.queue.drop 1 ∧ t.fmt.lost = 0

/-- A table load or an eviction starts and ends as R105 to R107, R139, R181 and R211 lay down, in FMT, DCF, TPI and FTM alike. -/
def Obligations.TableLoadsAct : Prop :=
  -- START: the load runs
  (∀ (s : State) (q : Requester), s.loadStat pFmt ≠ 1 → s.intake pFmt = true →
    Acts (.fmtLoadStart q) s fun t => t.loadStat pFmt = 1 ∧ (mapFind t.tloads pFmt).isSome = true ∧ t.tables = s.tables)
  ∧ (∀ (s : State) (q : Requester), s.loadStat pDcf ≠ 1 → s.intake pDcf = true →
    Acts (.dcfLoadStart q) s fun t => t.loadStat pDcf = 1 ∧ (mapFind t.tloads pDcf).isSome = true ∧ t.tables = s.tables)
  ∧ (∀ (s : State) (q : Requester), s.loadStat pTpi ≠ 1 → s.intake pTpi = true →
    Acts (.tpiLoadStart q) s fun t => t.loadStat pTpi = 1 ∧ (mapFind t.tloads pTpi).isSome = true ∧ t.tables = s.tables)
  ∧ (∀ (s : State) (q : Requester), s.loadStat pFtm ≠ 1 → s.intake pFtm = true →
    Acts (.ftmLoadStart q) s fun t => t.loadStat pFtm = 1 ∧ (mapFind t.tloads pFtm).isSome = true ∧ t.tables = s.tables)
  -- EVICT: a slot in use stays and STATUS is 0x7; another slot is emptied and STATUS is 0x2
  ∧ (∀ (s : State) (q : Requester), s.loadStat pFmt ≠ 1 → s.enabled pFmt = true →
    Acts (.fmtEvict q) s fun t => if s.slotInUse pFmt (s.loadSlot pFmt) then t.loadStat pFmt = 7 ∧ t.tables = s.tables
      else t.loadStat pFmt = 2 ∧ t.table pFmt (s.loadSlot pFmt) = none)
  ∧ (∀ (s : State) (q : Requester), s.loadStat pDcf ≠ 1 → s.enabled pDcf = true →
    Acts (.dcfEvict q) s fun t => if s.slotInUse pDcf (s.loadSlot pDcf) || s.codeBusy (s.loadSlot pDcf)
      then t.loadStat pDcf = 7 ∧ t.tables = s.tables else t.loadStat pDcf = 2 ∧ t.table pDcf (s.loadSlot pDcf) = none)
  ∧ (∀ (s : State) (q : Requester), s.loadStat pFtm ≠ 1 → s.enabled pFtm = true →
    Acts (.ftmEvict q) s fun t => if s.slotInUse pFtm (s.loadSlot pFtm) then t.loadStat pFtm = 7 ∧ t.tables = s.tables
      else t.loadStat pFtm = 2 ∧ t.table pFtm (s.loadSlot pFtm) = none)
  -- a START or an EVICT while a load runs has no effect
  ∧ (∀ (s : State) (q : Requester), s.loadStat pFmt = 1 →
    Acts (.fmtLoadStart q) s (fun t => t = s.fresh) ∧ Acts (.fmtEvict q) s (fun t => t = s.fresh))
  -- the load ends: what the slot held survives unless STATUS is 0x2; a read error is 0xB
  ∧ (∀ (s : State) (page : Nat) (l : TableLoad), page ∈ [pFmt, pDcf, pTpi, pFtm] → mapFind s.tloads page = some l →
    Acts (.tableLoadEnd page) s fun t => mapFind t.tloads page = none ∧ (t.loadStat page = 2 ∨ t.tables = s.tables)
      ∧ t.bit page Reg.EVT_PEND (loadEvent page) = true ∧ (l.copy = none → t.loadStat page = 0xB))

/-- Commands of the decoder fabric (R132, R140, R144, R145, R147): each, where it applies, has the effect its rule gives it. -/
def Obligations.DecoderFabricCommandsAct : Prop :=
  -- a class-T request with a code is accepted under the epoch and the deadline of the moment
  (∀ (s : State) (words : List RegWord) (k : Nat), s.intake pDcf = true → words ≠ [] → (cwOfWords words).cls = 0 →
    (cwOfWords words).fmt ≠ 3 → s.codeSlot (cwOfWords words).codeId = some k → (cwOfWords words).ver ≤ s.codeVer k →
    s.dcf.qT.length < 512 →
    Acts (.codewordRequest words) s fun t => t.dcf.qT = s.dcf.qT ++ [⟨cwOfWords words, k, s.epoch pDcf, s.tb.toNat,
      s.tb.toNat + s.fget pDcf Reg.DCF_TDEAD 0 12 * 250⟩])
  -- at a full queue T it is not accepted, whatever its code: STATUS 4, event 7
  ∧ (∀ (s : State) (words : List RegWord), s.intake pDcf = true → words ≠ [] → (cwOfWords words).cls = 0 →
    (cwOfWords words).fmt ≠ 3 → 512 ≤ s.dcf.qT.length →
    Acts (.codewordRequest words) s fun t => t.dcf.qT = s.dcf.qT ∧ t.bit pDcf Reg.EVT_PEND 7 = true
      ∧ Out.data (resultBytes (cwOfWords words).tag (.bare 4)) ∈ t.out)
  -- without an enabled slot that holds its code it is accepted and completes at once with STATUS 3, event 6
  ∧ (∀ (s : State) (words : List RegWord), s.intake pDcf = true → words ≠ [] → (cwOfWords words).cls ≠ 3 →
    (cwOfWords words).fmt ≠ 3 → s.dcf.full (cwOfWords words).cls = false → s.codeFor (cwOfWords words) = none →
    Acts (.codewordRequest words) s fun t => t.dcf = s.dcf ∧ t.bit pDcf Reg.EVT_PEND 6 = true
      ∧ Out.data (resultBytes (cwOfWords words).tag (.bare 3)) ∈ t.out)
  -- a full queue H or B does not take a request of its class
  ∧ (∀ (s : State) (words : List RegWord), s.intake pDcf = true → words ≠ [] → (cwOfWords words).cls ∈ [1, 2] →
    (cwOfWords words).fmt ≠ 3 → s.dcf.full (cwOfWords words).cls = true →
    Acts (.codewordRequest words) s fun t => t = s.fresh)
  -- a free tile takes the head of queue T, whatever waits in queues H and B
  ∧ (∀ (s : State) (w : Codeword) (r : List Codeword) (i : Nat), s.enabled pDcf = true → s.dcf.qT = w :: r →
    s.tb.toNat < w.deadline → s.freeTile = some i →
    Acts .tileDispatch s fun t => t.dcf.qT = r ∧ t.dcf.qH = s.dcf.qH ∧ t.dcf.qB = s.dcf.qB
      ∧ (w.req.input ≠ [] → mapFind t.dcf.tiles i =
          some ⟨w, w.req.input.map ((s.code w.slot).toL w.req.fmt), s.tb.toNat⟩))
  -- a decode ends: the tile is free, and the requester has the decoder's result
  ∧ (∀ (s : State) (i : Fin 48) (x : Tile), s.enabled pDcf = true → mapFind s.dcf.tiles i = some x →
    Acts (.decodeEnd i) s fun t => mapFind t.dcf.tiles i = none
      ∧ (x.cw.req.owner = .bus → x.cw.req.wr = false →
        let c := s.code x.cw.slot
        Out.data (resultBytes x.cw.req.tag (c.result (c.iters.getD x.cw.req.cls 1)
          (fun it => x.cw.req.cls == 0 && x.cw.deadline < x.start + (it + 1) * c.iterTime) x.l)) ∈ t.out))
  ∧ ∀ (s : State) (w : Codeword) (r : List Codeword), s.enabled pDcf = true → s.dcf.qT = w :: r →
    Acts .deadlineExpiry s fun t => t.dcf.qT = r ∧ t.bit pDcf Reg.EVT_PEND 5 = true

/-- Commands of the servo demodulator (R152, R155) and the triggers, evaluations and outputs of the loop engine (R159, R161, R164 to R166,
R173):  Commands of slots, trace units, PWM outputs, actuator lanes and converters (R168, R170 to R172, R175 to R178): each, where it
applies, has the effect its rule gives it. -/
def Obligations.LoopEngineCommandsAct : Prop :=
  (-- a servo frame without a valid element delivers no sample and raises event 4
  (∀ (s : State) (els : List (List (List Int))), s.intake pSvd = true → s.bit pSvd Reg.SVD_CTRL 0 = true →
    (∀ e < 4, elementOk (s.fget pSvd (Reg.SVD_TBS 2) 0 4) (els.getD e []) = false) →
    Acts (.servoFrameEnd els) s fun t => t.bit pSvd Reg.SVD_STAT 0 = false ∧ t.bit pSvd Reg.EVT_PEND 4 = true ∧ t.lpe = s.lpe)
  -- otherwise it delivers the TBS speed, with the TB stamp of the delivery
  ∧ (∀ (s : State) (els : List (List (List Int))) (e : Nat), s.intake pSvd = true → s.bit pSvd Reg.SVD_CTRL 0 = true → e < 4 →
    elementOk (s.fget pSvd (Reg.SVD_TBS 2) 0 4) (els.getD e []) = true →
    Acts (.servoFrameEnd els) s fun t => t.bit pSvd Reg.SVD_STAT 0 = true
      ∧ mapFind t.lpe.src 0x05 = some (s.tbsSpeed (([0, 1, 2, 3].filter fun e =>
        elementOk (s.fget pSvd (Reg.SVD_TBS 2) 0 4) (els.getD e [])).map fun e => els.getD e []), s.tb.toNat))
  -- a companion input: too weak a tone raises event 5, another one gives a position
  ∧ (∀ (s : State) (ai0 ao0 ai1 ao1 : BitVec 16), s.intake pSvd = true → s.bit pSvd Reg.SVD_CTRL 1 = true →
    ai0.toNat + ao0.toNat < s.fget pSvd Reg.SVD_CMP 16 8 →
    Acts (.companionWindowEnd ai0 ao0 ai1 ao1) s fun t => t.bit pSvd Reg.SVD_STAT 6 = false ∧ t.bit pSvd Reg.EVT_PEND 5 = true)
  ∧ (∀ (s : State) (ai0 ao0 ai1 ao1 : BitVec 16), s.intake pSvd = true → s.bit pSvd Reg.SVD_CTRL 1 = true →
    s.fget pSvd Reg.SVD_CMP 16 8 ≤ ai0.toNat + ao0.toNat → ai0.toNat + ao0.toNat ≠ 0 →
    Acts (.companionWindowEnd ai0 ao0 ai1 ao1) s fun t => t.bit pSvd Reg.SVD_STAT 6 = true
      ∧ t.rg (pSvd + 1) (Reg.SVD_EL 4 4) = BitVec.ofInt 32 (satS 32 (ratio (((ai0.toNat : Int) - ao0.toNat) *
        (s.fget pSvd Reg.SVD_CMP 8 8 : Int) * 5) ((ai0.toNat : Int) + ao0.toNat) + s.rgI (pSvd + 1) (Reg.SVD_EL 4 0))))
  -- a trigger of the active bank queues an evaluation with its deadline
  ∧ (∀ (s : State) (n : Fin 16) (src stamp : Nat) (rest : List (Nat × Nat)), s.enabled pLpe = true →
    (s.sl n).due = (src, stamp) :: rest → s.slotEn n = true → s.slotState n ≠ 4 → s.fget (pSlot n) Reg.SLOT_CTRL 1 2 = 0 →
    src = s.trigSrc n (s.slotBank n) → (s.sl n).wait = none → (s.sl n).result = none →
    s.stale n (s.bkf n (s.slotBank n) 0 6) stamp = false →
    Acts (.slotTrigger n) s fun t => (t.sl n).wait = some ⟨stamp, stamp + s.fget (pSlot n) Reg.SLOT_TIME 0 12⟩
      ∧ (t.sl n).due = rest)
  -- the waiting evaluation with the earliest deadline runs once a pipe is free; one for a lane joins the lane's queue
  ∧ (∀ (s : State) (n : Nat) (w : Waiting),
    let u := s.reach (min (s.lpe.pipes.getD 0 0) (s.lpe.pipes.getD 1 0))
    let r := u.evaluate n w (u.tb.toNat + u.evalCycles n)
    let l := s.fget (pSlot n) Reg.SLOT_IO 8 4
    s.enabled pLpe = true → s.nextEval = some (n, w) →
    Acts .slotEvaluation s fun t => (t.sl n).wait = none ∧
      (s.fget (pSlot n) Reg.SLOT_IO 0 2 ≠ 2 → (t.sl n).result = some r) ∧
      (s.fget (pSlot n) Reg.SLOT_IO 0 2 = 2 → (s.lane l).queue.length + (s.lane l).safe.length + (s.lane l).fw.length < 16 →
        (t.sl n).result = some { r with queued := true } ∧ (t.lane l).queue = (s.lane l).queue ++ [n]))
  -- an output is issued where its evaluation ends by its deadline; a later one is dropped, an overrun
  ∧ (∀ (s : State) (n : Fin 16) (r : EvalResult), (s.sl n).result = some r → r.queued = false →
    (s.reach r.ready).tb.toNat ≤ r.deadline →
    Acts (.outputIssue n) s fun t => (t.sl n).result = none ∧ t.rg (pSlot n) Reg.SLOT_U = BitVec.ofInt 32 r.u)
  ∧ (∀ (s : State) (n : Fin 16) (r : EvalResult), (s.sl n).result = some r → r.queued = false →
    r.deadline < (s.reach r.ready).tb.toNat →
    Acts (.outputIssue n) s fun t => (t.sl n).result = none ∧ t.bit pLpe Reg.EVT_PEND 4 = true)
  ∧ (∀ (s : State) (n : Fin 16), ((s.sl n).wait.isSome || (s.sl n).result.isSome) = true →
    Acts (.slotDeadlineExpiry n) s fun t => (t.sl n).wait = none ∧ (t.sl n).result = none ∧ t.bit pLpe Reg.EVT_PEND 4 = true)
  -- a sample time-out is an overrun, or the automatic fall-back to the inactive bank
  ∧ (∀ (s : State) (n : Fin 16), s.fget (pSlot n) Reg.SLOT_TIME 16 12 ≠ 0 → s.slotEn n = true → s.slotState n ≠ 4 →
    s.bit (pSlot n) Reg.SLOT_CTRL 4 = false →
    Acts (.sampleTimeout n) s fun t => t.bit pLpe Reg.EVT_PEND 4 = true)
  ∧ (∀ (s : State) (n : Fin 16), s.fget (pSlot n) Reg.SLOT_TIME 16 12 ≠ 0 → s.slotEn n = true → s.slotState n ≠ 4 →
    s.bit (pSlot n) Reg.SLOT_CTRL 4 = true → s.fget (pSlot n) Reg.SLOT_CTRL 1 2 = 0 →
    s.younger n (s.bkf n (1 - s.slotBank n) 0 6)
      (s.reach ((s.sl n).lastTrig + s.fget (pSlot n) Reg.SLOT_TIME 16 12 * 1000)).tb.toNat = true →
    (((s.sl n).wait.isSome || (s.sl n).result.isSome) = true → s.fget (pSlot n) Reg.SLOT_CTRL 13 2 < 2) →
    Acts (.sampleTimeout n) s fun t => t.slotBank n = 1 - s.slotBank n ∧ t.slotState n = 3 ∧ t.bit pLpe Reg.EVT_PEND 8 = true
      ∧ (t.sl n).wait.isSome = true)
  ∧ ∀ (s : State) (n : Fin 2), s.enabled pLpe = true → s.fget pLpe (Reg.LPE_TIMER n) 0 16 ≠ 0 →
    Acts (.lpeTimerTick n) s fun t => mapFind t.lpe.src (0x30 + n) = some (0, s.tb.toNat))
  ∧ (-- EN from 0 to 1: soft start from zero state
  (∀ (s : State) (q : Requester) (n : Fin 16), s.slotEn n = false →
    Acts (.slotEnable q n) s fun t => t.slotEn n = true ∧ t.slotState n = 1 ∧ t.rg (pSlot n) Reg.SLOT_S = 0
      ∧ t.rg64 (pSlot n) Reg.SLOT_D_LO = 0 ∧ (t.sl n).edPrev = 0 ∧ t.bit (pSlot n) Reg.SLOT_CTRL 11 = false
      ∧ ∀ k < 8, t.rg64 (pSlot n) (Reg.SLOT_W k 0) = 0 ∧ t.rg64 (pSlot n) (Reg.SLOT_W k 8) = 0)
  ∧ (∀ (s : State) (q : Requester) (n : Fin 16), s.slotEn n = true →
    Acts (.slotDisable q n) s fun t => t.slotEn n = false ∧ t.slotState n = 0
      ∧ t.rg (pSlot n) Reg.SLOT_U = s.rg (pSlot n) Reg.SLOT_U)
  -- a request is pending; written while another is pending it is a write to a locked field
  ∧ (∀ (s : State) (q : Requester) (n : Fin 16), s.fget (pSlot n) Reg.SLOT_CTRL 1 2 = 0 →
    Acts (.swap q n) s (fun t => t.bit (pSlot n) Reg.SLOT_CTRL 1 = true)
    ∧ Acts (.handover q n) s (fun t => t.bit (pSlot n) Reg.SLOT_CTRL 2 = true))
  ∧ (∀ (s : State) (q : Requester) (n : Fin 16), s.fget (pSlot n) Reg.SLOT_CTRL 1 2 ≠ 0 →
    Acts (.swap q n) s (fun t => t.rg (pSlot n) Reg.SLOT_CTRL = s.rg (pSlot n) Reg.SLOT_CTRL ∧ t.bit pLpe Reg.EVT_PEND 0 = true)
    ∧ Acts (.handover q n) s
      (fun t => t.rg (pSlot n) Reg.SLOT_CTRL = s.rg (pSlot n) Reg.SLOT_CTRL ∧ t.bit pLpe Reg.EVT_PEND 0 = true))
  -- trace units
  ∧ (∀ (s : State) (q : Requester) (u : Fin 4), Acts (.traceArm q u) s fun t => t.trf u 0x18 0 2 = 1 ∧ t.trf u 0x18 16 14 = 0)
  ∧ (∀ (s : State) (q : Requester) (u : Fin 4), s.trf u 0x18 0 2 = 1 →
    Acts (.traceForce q u) s fun t => t.trf u 0x18 0 2 = 2 ∧ t.trf u 0x1C 0 14 = s.trf u 0x18 16 14
      ∧ t.bit pLpe Reg.EVT_PEND 11 = true)
  ∧ (∀ (s : State) (q : Requester) (u : Fin 4), (s.trf u 0x18 0 2 = 1 ∨ s.trf u 0x18 0 2 = 2) →
    Acts (.traceStop q u) s fun t => t.trf u 0x18 0 2 = 3)
  ∧ (∀ (s : State) (u : Fin 4), s.trf u 0x18 0 2 = 2 → (s.trace u).post = 0 →
    Acts (.tracePostEnd u) s fun t => t.trf u 0x18 0 2 = 3 ∧ t.bit pLpe Reg.EVT_PEND 12 = true)
  -- PWM duties are taken up at the carrier period
  ∧ (∀ s : State, s.enabled pLpe = true →
    Acts .pwmCarrierPeriod s fun t => (∀ ch < 8, mapGet (fun _ => 0) t.lpe.duty ch = s.pwmDuty ch)
      ∧ t.out = [.issue "PWM_OUT" (s.fget (pLpe + 31) Reg.PWM_PERIOD 0 16 :: s.fget (pLpe + 31) Reg.PWM_CTRL 8 1
        :: (List.range 8).map fun ch => s.pwmDuty ch * s.fget (pLpe + 31) Reg.PWM_PERIOD 0 16)])
  -- actuator lanes: sixteen frames wait at most, a firmware frame behind every slot frame
  ∧ (∀ (s : State) (q : Requester) (l : Fin 2) (w : BitVec 32),
    (s.lane l).queue.length + (s.lane l).safe.length + (s.lane l).fw.length < 16 →
    Acts (.actSend q l w) s fun t => (t.lane l).fw = (s.lane l).fw ++ [w] ∧ (t.lane l).queue = (s.lane l).queue)
  ∧ (∀ (s : State) (q : Requester) (l : Fin 2) (w : BitVec 32),
    16 ≤ (s.lane l).queue.length + (s.lane l).safe.length + (s.lane l).fw.length →
    Acts (.actSend q l w) s fun t => t.lane l = s.lane l ∧ t.bit pLpe Reg.EVT_PEND 0 = true)
  ∧ (∀ (s : State) (l : Fin 2) (w : BitVec 32) (q : List (BitVec 32)), s.enabled pLpe = true →
    s.bit (pLpe + 31) Reg.ACT_LINK l = true → (s.lane l).busy = none → (s.lane l).safe = [] → (s.lane l).queue = [] →
    (s.lane l).fw = w :: q →
    Acts (.actFrameStart l) s fun t => (t.lane l).busy = some w ∧ (t.lane l).fw = q ∧ t.out = [.issue "lane" [l.val, w.toNat]])
  -- a frame with SAFE_OUT goes before every other one
  ∧ (∀ (s : State) (l : Fin 2) (w : BitVec 32) (q : List (BitVec 32)), s.enabled pLpe = true →
    s.bit (pLpe + 31) Reg.ACT_LINK l = true → (s.lane l).busy = none → (s.lane l).safe = w :: q →
    Acts (.actFrameStart l) s fun t => (t.lane l).busy = some w ∧ (t.lane l).safe = q ∧ (t.lane l).queue = (s.lane l).queue
      ∧ t.out = [.issue "lane" [l.val, w.toNat]])
  ∧ (∀ (s : State) (l : Fin 2) (rx : BitVec 32), (s.lane l).busy.isSome = true →
    Acts (.actFrameEnd l rx) s fun t => (t.lane l).busy = none ∧ t.rg (pLpe + 31) (Reg.ACT_RX l) = rx)
  -- a converter's result is kept, marked fresh and delivered to LPE; a read clears FRESH
  ∧ (∀ (s : State) (n : Fin 8) (code : BitVec 16), s.enabled pLpe = true → s.bit (pLpe + 31) Reg.ADC_CTRL n = true →
    Acts (.senseAdcResult n code) s fun t => t.fget (pLpe + 31) (Reg.ADC_DATA n) 0 16 = code.toNat
      ∧ t.bit (pLpe + 31) (Reg.ADC_DATA n) 16 = true ∧ mapFind t.lpe.src (0x10 + n) = some (code.toInt, s.tb.toNat))
  ∧ ∀ (s : State) (q : Requester) (n : Fin 8),
    Acts (.adcDataRead q n) s fun t => t.out = [.value (s.rg (pLpe + 31) (Reg.ADC_DATA n)).toNat]
      ∧ t.bit (pLpe + 31) (Reg.ADC_DATA n) 16 = false)

/-- Commands that start, step and end the machines of the transport (R184, R186, R188, R192), and those of the CM link, the tape ring and
the write path (R189, R194, R195, R197, R440): each, where it applies, has the effect its rule gives it. -/
def Obligations.TransportCommandsAct : Prop :=
  (-- GO starts machine m at ENTRY[m]; only a transport fault on the way takes it elsewhere
  (∀ (s : State) (q : Requester) (m : Nat) (c : Instr), (m, c) ∈ [(0, Instr.loadMachine q), (1, .threadMachine q),
      (2, .calibrateMachine q), (3, .seekMachine q), (4, .streamMachine q), (5, .backhitchMachine q)] →
    s.seqBusy = false → s.machineEntry m ≠ 0xFF → s.enabled pTpi = true → s.bit pTpi Reg.TPI_CTRL 0 = true →
    Acts c s fun t => t.fget pTpi Reg.TPI_CMD 0 3 = m ∧ (t.bit pTpi Reg.TPI_STAT 12 = true
      ∨ t.fget pTpi Reg.TPI_STAT 8 3 = m ∧ t.fget pTpi Reg.TPI_STAT 0 8 = s.machineEntry m % 256))
  -- the unload machine starts once everything is destaged, and the namespace is detached first
  ∧ (∀ (s : State) (q : Requester), (s.tpi.cart.isSome = true → s.allDestaged = true) →
    s.seqBusy = false → s.machineEntry 6 ≠ 0xFF → s.enabled pTpi = true → s.bit pTpi Reg.TPI_CTRL 0 = true →
    Acts (.unloadMachine q) s fun t => t.tpi.cart = none ∧ t.fget pTpi Reg.TPI_CMD 0 3 = 6 ∧ (t.bit pTpi Reg.TPI_STAT 12 = true
      ∨ t.fget pTpi Reg.TPI_STAT 8 3 = 6 ∧ t.fget pTpi Reg.TPI_STAT 0 8 = s.machineEntry 6 % 256))
  -- GO while a machine runs is a reserved encoding
  ∧ (∀ (s : State) (q : Requester) (c : Instr), c ∈ [Instr.loadMachine q, .threadMachine q, .calibrateMachine q, .seekMachine q,
      .streamMachine q, .backhitchMachine q, .unloadMachine q] → s.seqBusy = true →
    Acts c s fun t => t.rg pTpi Reg.TPI_STAT = s.rg pTpi Reg.TPI_STAT ∧ t.bit pTpi Reg.EVT_PEND 0 = true)
  -- ABORT is a transport fault; without a fault machine every enabled slot goes safe
  ∧ (∀ (s : State) (q : Requester), s.enabled pTpi = true → s.bit pTpi Reg.TPI_CTRL 0 = true →
    Acts (.tpiAbort q) s fun t => t.bit pTpi Reg.TPI_STAT 12 = true ∧ t.bit pTpi Reg.EVT_PEND 5 = true
      ∧ (s.tpi.inFault = false → s.machineEntry 7 = 0xFF → t.fget pTpi Reg.TPI_STAT 13 3 = 5 ∧ t.streaming = false
        ∧ ∀ n < 16, s.slotEn n = true → t.slotState n = 4))
  -- the pins are sampled; a wait that holds selects the next state
  ∧ (∀ (s : State) (pins : BitVec 16) (tach : List (Nat × Nat)), s.enabled pTpi = true → s.seqBusy = false →
    Acts (.sequencerTick pins tach) s fun t => t.rg pTpi Reg.TPI_GPIO_IN =
      (s.rg pTpi Reg.TPI_GPIO_OUT &&& s.rg pTpi Reg.TPI_GPIO_DIR) ||| (pins.setWidth 32 &&& ~~~ s.rg pTpi Reg.TPI_GPIO_DIR))
  ∧ (∀ (s : State) (pins : BitVec 16) (tach : List (Nat × Nat)) (j : Nat), s.enabled pTpi = true → s.bit pTpi Reg.TPI_CTRL 0 = true →
    s.seqBusy = true →
    ((tach.foldl (fun s e => s.tachSample e.1 e.2) (s.fresh.samplePins pins)).reach
      (s.tpi.entered + 1000 * s.stateFld s.seqState 8 4)).waitNext s.seqState = some j →
    Acts (.sequencerTick pins tach) s fun t => t.bit pTpi Reg.TPI_STAT 12 = true ∨ t.seqState = j % 256
      ∨ s.tpi.resume = true ∧ s.fget pTpi Reg.TPI_STAT 8 3 = 3 ∧ t.fget pTpi Reg.TPI_STAT 8 3 = 4)
  ∧ (∀ s : State, s.enabled pTpi = true → s.bit pTpi Reg.TPI_CTRL 0 = true → s.seqBusy = true → s.stateFld s.seqState 4 4 ≠ 0 →
    Acts .stateTimeout s fun t => if s.stateFld s.seqState 2 1 = 0xFF
      then t.bit pTpi Reg.TPI_STAT 12 = true ∧ t.bit pTpi Reg.EVT_PEND 5 = true
      else t.bit pTpi Reg.TPI_STAT 12 = true ∨ t.seqState = s.stateFld s.seqState 2 1 % 256
        ∨ s.tpi.resume = true ∧ s.fget pTpi Reg.TPI_STAT 8 3 = 3 ∧ t.fget pTpi Reg.TPI_STAT 8 3 = 4)
  -- the load sensor: event 6 for an insertion, event 7 for a removal, and a fault where the tape is threaded
  ∧ (∀ (s : State) (level : Bool) (record : List Byte), s.bit pTpi Reg.TPI_STAT 18 = false → (s.loadSensor level).2 = true →
    Acts (.loadSensorChange level record) s fun t => t.bit pTpi Reg.TPI_STAT 18 = true
      ∧ t.tpi.loaded = some (padTo 0x1384 record) ∧ t.bit pTpi Reg.EVT_PEND 6 = true)
  ∧ ∀ (s : State) (level : Bool) (record : List Byte), s.bit pTpi Reg.TPI_STAT 18 = true → (s.loadSensor level).2 = false →
    Acts (.loadSensorChange level record) s fun t => t.bit pTpi Reg.TPI_STAT 18 = false ∧ t.tpi.loaded = none
      ∧ t.tpi.cart = none ∧ t.bit pTpi Reg.EVT_PEND 7 = true
      ∧ (s.bit pTpi Reg.TPI_STAT 17 = true → t.bit pTpi Reg.TPI_STAT 12 = true))
  -- a CM transfer sends LEN bytes; a reserved LEN or DIV beside GO is a reserved encoding
  ∧ ((∀ (s : State) (q : Requester), s.enabled pTpi = true → s.tpi.cm = none → badCm (s.rg pTpi Reg.TPI_CM_CTRL) = false →
    Acts (.cmTransfer q) s fun t => t.bit pTpi Reg.TPI_CM_CTRL 0 = true ∧ t.tpi.cm = some (s.fget pTpi Reg.TPI_CM_CTRL 8 9)
      ∧ t.out = [.issue "CM" ((List.range (s.fget pTpi Reg.TPI_CM_CTRL 8 9)).map fun k =>
        s.fget (pTpi + 2) (Reg.TPI_CM_BUF (k / 4)) (8 * (k % 4)) 8)])
  ∧ (∀ (s : State) (q : Requester), badCm (s.rg pTpi Reg.TPI_CM_CTRL) = true →
    Acts (.cmTransfer q) s fun t => t.tpi = s.tpi ∧ t.rg pTpi Reg.TPI_CM_CTRL = s.rg pTpi Reg.TPI_CM_CTRL
      ∧ t.bit pTpi Reg.EVT_PEND 0 = true)
  ∧ (∀ (s : State) (rx : List Byte) (n : Nat), s.tpi.cm = some n →
    Acts (.cmTransferEnd rx) s fun t => t.bit pTpi Reg.TPI_CM_CTRL 0 = false ∧ t.tpi.cm = none ∧ t.bit pTpi Reg.EVT_PEND 12 = true
      ∧ ∀ k < min n 256, t.fget (pTpi + 2) (Reg.TPI_CM_BUF (k / 4)) (8 * (k % 4)) 8 = (rx.getD k 0).toNat)
  -- the consumer takes the data set with the lowest DSN, wherever it lies
  ∧ (∀ (s : State) (x : RingSet), oldestSet (s.tpi.ring.filter (·.zone.isNone) ++ s.tpi.divert) = some x →
    ((s.tpi.ring.filter (·.zone.isNone)).contains x = true → s.inDram x = true) →
    Acts .tapeRingConsume s fun t => Out.issue "DATA_SET" (x.dsn.getD 0 :: x.bad) ∈ t.out ∧
      if (s.tpi.ring.filter (·.zone.isNone)).contains x then t.tpi.ring = s.tpi.ring.erase x ∧ t.tpi.divert = s.tpi.divert
      else t.tpi.divert = s.tpi.divert.erase x ∧ t.tpi.ring = s.tpi.ring)
  -- a write underrun abandons the data set in progress, which is written again with COPY + 1
  ∧ (∀ (s : State) (w : WriteSet), s.fmt.cur = some w → s.tpi.underrun = none →
    Acts .writeUnderrun s fun t => t.fmt.cur = none ∧ t.fmt.whole = ⟨w.dsn, w.copy + 1, 0, w.zone⟩ :: s.fmt.whole
      ∧ t.tpi.underrun.isSome = true ∧ t.bit pTpi Reg.EVT_PEND 11 = true)
  ∧ (∀ s : State, s.tpi.underrun.isSome = true →
    Acts .underrunRewriteStart s fun t => if s.wrStart then t.tpi.underrun = none else t.tpi.underrun = s.tpi.underrun)
  ∧ (∀ s : State, s.tpi.underrun.isSome = true → s.wrStart = false → s.streaming = true →
    Acts .wrWaitExpiry s fun t => t.tpi.backhitch = true ∧ (s.tpi.backhitch = false → t.bit pTpi Reg.EVT_PEND 10 = true))
  -- destage starts with the first zone that is Full and not destaged
  ∧ ∀ (s : State) (k z : Nat) (x : Zone), s.writeFmt = some k → s.tpi.cart.isSome = true →
    (∀ e ∈ s.zones, e.2.destaging = false) → s.enabled pFmt = true →
    s.zones.find? (fun e => e.2.state == .full && !e.2.destaged) = some (z, x) →
    Acts .destageStart s fun t => ∃ y, mapFind t.zones z = some y ∧ y.destaging = true ∧ y.state = .full)

/-- Commands of discovery, training and raw operations of the flash channels (R200 to R203, R226): each, where it applies, has the effect
its rule gives it. -/
def Obligations.FlashChannelCommandsAct : Prop :=
  -- START while discovery runs or mapping is on is a reserved encoding; otherwise discovery runs
  (∀ (s : State) (q : Requester), s.fget pFtm Reg.FTM_DISC 16 4 = 1 ∨ s.bit pFtm Reg.FTM_CTRL 0 = true →
    Acts (.discovery q) s fun t => t.flash = s.flash ∧ t.rg pFtm Reg.FTM_DISC = s.rg pFtm Reg.FTM_DISC
      ∧ t.bit pFtm Reg.EVT_PEND 0 = true)
  ∧ (∀ (s : State) (q : Requester), s.fget pFtm Reg.FTM_DISC 16 4 ≠ 1 → s.bit pFtm Reg.FTM_CTRL 0 = false → s.intake pFtm = true →
    Acts (.discovery q) s fun t => t.flash.disc = true ∧ t.fget pFtm Reg.FTM_DISC 16 4 = 1)
  -- discovery ends with event 12 and its status; a die is present where it answers, and mapped out with its cause
  ∧ (∀ (s : State) (dies : List DieInfo) (chans : List (List FlcTry)), s.flash.disc = true → s.enabled pFtm = true →
    Acts (.discoveryEnd dies chans) s fun t => t.flash.disc = false ∧ t.bit pFtm Reg.EVT_PEND 12 = true
      ∧ (∀ d < 512, s.enabled (pFlc (chanOf d)) = false → t.bit (pFtm + 1) (Reg.FTM_DIE d) 0 = false)
      ∧ ∀ d < 512, ∀ x, (dies.find? fun y => y.die == d && s.enabled (pFlc (chanOf y.die)) && match dieParams y with
          | some b => decide (y.die % 4 < paramLuns b)
          | none => true) = some x →
        t.bit (pFtm + 1) (Reg.FTM_DIE d) 0 = dieAnswers x
        ∧ (dieAnswers x = true → t.fget pFtm Reg.FTM_DISC 16 4 = 2)
        ∧ (dieAnswers x = false → t.bit (pFtm + 1) (Reg.FTM_DIE d) 1 = true ∧ t.fget (pFtm + 1) (Reg.FTM_DIE d) 2 3 = 1)
        ∧ (dieAnswers x = true → dieParams x = none →
          t.bit (pFtm + 1) (Reg.FTM_DIE d) 1 = true ∧ t.fget (pFtm + 1) (Reg.FTM_DIE d) 2 3 = 2))
  -- training is refused while operations are queued
  ∧ (∀ (s : State) (q : Requester) (n : Fin 16), s.intake (pFlc n) = true → s.fget (pFlc n) Reg.FLC_TRAIN 16 4 ≠ 1 →
    Acts (.flcTrainStart q n) s fun t => t.fget (pFlc n) Reg.FLC_TRAIN 16 4 = if s.flcQueued n then 5 else 1)
  -- it ends at the highest bin that passes in one of two tries; with none, the channel is disabled and its dies are mapped out
  ∧ (∀ (s : State) (n : Fin 16) (tries : List FlcTry) (b : Nat) (x : FlcTry), s.enabled (pFlc n) = true →
    s.fget (pFlc n) Reg.FLC_TRAIN 16 4 = 1 → flcBin (s.flcTop n) tries = (b, some x) → b ≠ 0 →
    Acts (.flcTrainEnd n tries) s fun t => t.fget (pFlc n) Reg.FLC_RATE 8 3 = b
      ∧ t.fget (pFlc n) Reg.FLC_TRAIN 16 4 = (if b = s.flcTop n then 2 else 3)
      ∧ t.rg (pFlc n) Reg.FLC_DLY = tryDelays x ∧ t.bit (pFlc n) Reg.EVT_PEND 4 = true)
  ∧ (∀ (s : State) (n : Fin 16) (tries : List FlcTry), s.enabled (pFlc n) = true → s.fget (pFlc n) Reg.FLC_TRAIN 16 4 = 1 →
    s.flcTop n ≠ 0 → (flcBin (s.flcTop n) tries).1 = 0 →
    Acts (.flcTrainEnd n tries) s fun t => t.fget (pFlc n) Reg.FLC_RATE 8 3 = 0 ∧ t.fget (pFlc n) Reg.FLC_TRAIN 16 4 = 4
      ∧ t.bit (pFlc n) Reg.BLK_CTRL 0 = false ∧ t.bit (pFlc n) Reg.EVT_PEND 5 = true
      ∧ ∀ d ∈ s.chanDies n, t.bit (pFtm + 1) (Reg.FTM_DIE d) 1 = true)
  -- a periodic retrain keeps the bin and takes the new delays; without a window the delays stay and event 5 is raised
  ∧ (∀ (s : State) (n : Fin 16) (found : FlcTry) (p : Int × Nat), mapFind s.flash.trainTemp n = some p → s.enabled (pFlc n) = true →
    s.flcQueued n = false → s.fget (pFlc n) Reg.FLC_RATE 8 3 ≠ 0 → s.fget (pFlc n) Reg.FLC_TRAIN 24 8 ≠ 0 →
    Acts (.flcRetrainTimer n found) s fun t => t.rg (pFlc n) Reg.FLC_RATE = s.rg (pFlc n) Reg.FLC_RATE
      ∧ (mapFind t.flash.trainTemp n).map Prod.fst = some (signedOf 8 (s.fget pFtm Reg.FTM_TEMP 0 8))
      ∧ if tryPasses found then t.rg (pFlc n) Reg.FLC_DLY = tryDelays found ∧ t.bit (pFlc n) Reg.EVT_PEND 4 = true
        else t.rg (pFlc n) Reg.FLC_DLY = s.rg (pFlc n) Reg.FLC_DLY ∧ t.bit (pFlc n) Reg.EVT_PEND 5 = true)
  -- raw commands
  ∧ (∀ (s : State) (q : Requester) (n : Fin 16), s.flcIntake n = true → s.bit (pFlc n) (Reg.FLC_RAW 3) 0 = false →
    Acts (.flcRawGo q n) s fun t => if s.flcQueued n
      then t.bit (pFlc n) (Reg.FLC_RAW 3) 0 = false ∧ t.fget (pFlc n) (Reg.FLC_RAW 3) 16 4 = 5
      else t.bit (pFlc n) (Reg.FLC_RAW 3) 0 = true ∧ t.fget (pFlc n) (Reg.FLC_RAW 3) 16 4 = 1
        ∧ Out.issue "FLC_RAW" ([n.val, (s.rg (pFlc n) (Reg.FLC_RAW 0)).toNat, (s.rg (pFlc n) (Reg.FLC_RAW 1)).toNat,
            (s.rg (pFlc n) (Reg.FLC_RAW 2)).toNat] ++ if s.bit (pFlc n) (Reg.FLC_RAW 0) 23
          then (List.range (min (s.fget (pFlc n) (Reg.FLC_RAW 2) 16 10) 512)).map fun i =>
            s.fget (pFlc n + 1) (Reg.FLC_RAW_BUF (i / 4)) (8 * (i % 4)) 8
          else []) ∈ t.out)
  ∧ ∀ (s : State) (n : Fin 16) (timeout : Bool) (data : List Byte) (ep : RegWord), mapFind s.flash.raws n = some ep →
    Acts (.flcRawEnd n timeout data) s fun t => t.bit (pFlc n) (Reg.FLC_RAW 3) 0 = false
      ∧ t.fget (pFlc n) (Reg.FLC_RAW 3) 16 4 = (if timeout then 3 else 2) ∧ t.bit (pFlc n) Reg.EVT_PEND 9 = true
      ∧ (timeout = true → t.bit (pFlc n) Reg.EVT_PEND 8 = true)
      ∧ (timeout = false → s.bit (pFlc n) (Reg.FLC_RAW 0) 23 = false → ∀ i < min (s.fget (pFlc n) (Reg.FLC_RAW 2) 16 10) 512,
        t.fget (pFlc n + 1) (Reg.FLC_RAW_BUF (i / 4)) (8 * (i % 4)) 8 = (data.getD i 0).toNat)

/-- Commands of reading a flash slice and of its transit slot (R205, R209, R210, R215):  Commands of programs, erases, map-out, stripes,
patrol and the record queue (R201, R206 to R208, R210, R218, R219, R221): each, where it applies, has the effect its rule gives it. -/
def Obligations.FlashUnitCommandsAct : Prop :=
  (-- a unit that is not VALID reads as zeros; a marked slice is unrecoverable; another one is read from its die
  (∀ (s s1 : State) (op unit slice : Nat) (want : SliceWant) (u : SliceUse), s.intake pFtm = true → s.bit pFtm Reg.FTM_CTRL 0 = true →
    mapFind s.flash.reads op = none → s.fresh.sliceTarget want = (s1, unit, slice, u) → u.fits op = true →
    natBits (s1.mapEntry unit).2 41 1 = 0 →
    Acts (.flashSliceRead op want) s fun t => t.flash.reads = s.flash.reads
      ∧ ∀ f e, u = .host f e → Out.hostData f (List.replicate 4096 0) ∈ t.out)
  ∧ (∀ (s s1 : State) (op unit slice : Nat) (want : SliceWant) (u : SliceUse), s.intake pFtm = true → s.bit pFtm Reg.FTM_CTRL 0 = true →
    mapFind s.flash.reads op = none → s.fresh.sliceTarget want = (s1, unit, slice, u) → u.fits op = true →
    natBits (s1.mapEntry unit).2 41 1 = 1 → natBits (s1.mapEntry unit).2 (42 + slice) 1 = 1 →
    Acts (.flashSliceRead op want) s fun t => t.flash.reads = s.flash.reads
      ∧ Out.issue "SLICE_UNRECOVERED" (match u with
        | .host f _ => [op, f, 2, 0x81]
        | _ => [op]) ∈ t.out)
  ∧ (∀ (s s1 : State) (op unit slice : Nat) (want : SliceWant) (u : SliceUse) (l : FlashLoc), s.intake pFtm = true →
    s.bit pFtm Reg.FTM_CTRL 0 = true → mapFind s.flash.reads op = none → s.fresh.sliceTarget want = (s1, unit, slice, u) →
    u.fits op = true →
    natBits (s1.mapEntry unit).2 41 1 = 1 → natBits (s1.mapEntry unit).2 (42 + slice) 1 = 0 → locOf (s1.mapEntry unit).2 = l →
    s.bufferAt l = none → (∀ e ∈ s.flash.reads, e.2.stage ≠ 4) → s.flash.inWait = [] → s.freeCell.isSome = true →
    s.dieLive l.die = true → s.flcIntake (chanOf l.die) = true →
    Acts (.flashSliceRead op want) s fun t => Out.issue "READ_PAGE" [l.die, l.block, l.page, l.slot, slice] ∈ t.out
      ∧ ∃ r, mapFind t.flash.reads op = some r ∧ r.unit = unit ∧ r.slice = slice ∧ r.loc = l ∧ r.use_ = u ∧ r.stage = 1
        ∧ r.cell = s.freeCell ∧ r.reading = true)
  -- while the unit's program is in flight, or has failed and waits to be repeated, its write-buffer copy is read
  ∧ (∀ (s s1 : State) (op unit slice f : Nat) (want : SliceWant) (e : BitVec 16) (b : List Byte), s.intake pFtm = true →
    s.bit pFtm Reg.FTM_CTRL 0 = true → mapFind s.flash.reads op = none →
    s.fresh.sliceTarget want = (s1, unit, slice, .host f e) → (SliceUse.host f e).fits op = true →
    natBits (s1.mapEntry unit).2 41 1 = 1 → natBits (s1.mapEntry unit).2 (42 + slice) 1 = 0 →
    s.bufferAt (locOf (s1.mapEntry unit).2) = some b →
    Acts (.flashSliceRead op want) s fun t => t.flash.reads = s.flash.reads
      ∧ Out.hostData f (padTo 4096 ((b.drop (4096 * slice)).take 4096)) ∈ t.out)
  -- the page read ends: class-B decoding is requested at once, a host read takes its slot first, and stage 3 reads three times
  ∧ (∀ (s : State) (op dst : Nat) (raw : List Byte) (r : SliceRead), mapFind s.flash.reads op = some r → r.reading = true →
    r.use_ = .background dst → r.stage ≤ 2 → s.flash.rebuilds = [] →
    Acts (.pageReadEnd op raw) s fun t => ∃ w, t.dcf.want = s.dcf.want ++ [w] ∧ w.owner = .flash op ∧ w.cls = 2 ∧ w.codeId = 0x0F01
      ∧ w.fmt = 1 ∧ w.inAddr = s.inCell (r.cell.getD 0) ∧ w.outAddr = dst ∧ w.wr = true)
  ∧ (∀ (s : State) (op f : Nat) (raw : List Byte) (e : BitVec 16) (r : SliceRead), mapFind s.flash.reads op = some r →
    r.reading = true → r.use_ = .host f e → r.stage ≤ 2 → r.tslot = none → s.freeSlot = none → s.flash.rebuilds = [] →
    Acts (.pageReadEnd op raw) s fun t => t.flash.waiting = s.flash.waiting ++ [op] ∧ t.dcf.want = s.dcf.want)
  ∧ (∀ (s : State) (op f k : Nat) (raw : List Byte) (e : BitVec 16) (r : SliceRead), mapFind s.flash.reads op = some r →
    r.reading = true → r.use_ = .host f e → r.stage ≤ 2 → r.tslot = none → s.flash.waiting = [] → s.freeSlot = some k →
    s.flash.rebuilds = [] →
    Acts (.pageReadEnd op raw) s fun t => t.flash.slots = k :: s.flash.slots
      ∧ ∃ w, t.dcf.want = s.dcf.want ++ [w] ∧ w.owner = .flash op ∧ w.cls = 1 ∧ w.outAddr = s.slotAddr k ∧ w.wr = true)
  ∧ (∀ (s : State) (op : Nat) (raw : List Byte) (r : SliceRead), mapFind s.flash.reads op = some r → r.reading = true →
    r.stage = 3 → r.raw.length < 2 →
    Acts (.pageReadEnd op raw) s fun t =>
      Out.issue "READ_PAGE" [r.loc.die, r.loc.block, r.loc.page, r.loc.slot, r.slice] ∈ t.out)
  -- the oldest waiting slice takes a free slot
  ∧ (∀ (s : State) (op k : Nat) (q : List Nat) (r : SliceRead), s.flash.waiting = op :: q → s.freeSlot = some k →
    mapFind s.flash.reads op = some r →
    Acts .transitSlotGrant s fun t => t.flash.waiting = q ∧ t.flash.slots = k :: s.flash.slots)
  -- the slot is freed when the DMA ends; a stale epoch frees it without DMA
  ∧ ∀ (s : State) (op f k : Nat) (e : BitVec 16) (r : SliceRead), mapFind s.flash.reads op = some r → r.stage = 7 →
    r.use_ = .host f e → r.tslot = some k → s.flash.waiting = [] → s.inPort3 (s.slotAddr k) = false →
    Acts (.transitDmaEnd op) s fun t => t.flash.slots = s.flash.slots.erase k ∧ mapFind t.flash.reads op = none
      ∧ ((s.func f).epoch = e → ∃ b, Out.hostData f b ∈ t.out)
      ∧ ((s.func f).epoch ≠ e → ∀ b, Out.hostData f b ∉ t.out))
  ∧ (-- a unit is placed at a position of an open row or of the head of FTM_FREE, and programmed
  (∀ (s : State) (op unit : Nat) (l : FlashLoc) (data : List Byte) (stage : Option Nat),
    let row := s.flash.rows.find? fun x => x.group == s.dieReg l.die 7 5 && x.block == l.block
    s.intake pFtm = true → s.bit pFtm Reg.FTM_CTRL 0 = true → s.flcIntake (chanOf l.die) = true → s.tagFree op = true → data ≠ [] →
    s.dieLive l.die = true → s.dieReg l.die 12 4 ≠ l.page % 16 → l.page < s.flash.geom.pages → l.slot < s.flash.geom.units →
    (row.isSome || s.flash.free.head? == some (s.dieReg l.die 7 5, l.block)) = true →
    row.any (fun x => x.closed.contains (l.page, l.slot)) = false →
    (s.fresh.zeroMember l).2 = false → s.stripeAt l = none → s.flash.stripes = [] →
    Acts (.unitProgram op unit l data stage) s fun t => mapFind t.flash.staged unit = stage ∧
      ∃ p, mapFind t.flash.progs op = some p ∧ p.unit = unit ∧ p.loc = l ∧ p.data = data ∧ p.parity = false)
  -- or the oldest unit that waits to be written at a new position is
  ∧ (∀ (s : State) (op unit : Nat) (l : FlashLoc) (stage : Option Nat) (r : Relocate) (q : List Relocate),
    let row := s.flash.rows.find? fun x => x.group == s.dieReg l.die 7 5 && x.block == l.block
    s.intake pFtm = true → s.bit pFtm Reg.FTM_CTRL 0 = true → s.flcIntake (chanOf l.die) = true → s.tagFree op = true → op < 256 →
    s.flash.moves = r :: q →
    s.dieLive l.die = true → s.dieReg l.die 12 4 ≠ l.page % 16 → l.page < s.flash.geom.pages → l.slot < s.flash.geom.units →
    (row.isSome || s.flash.free.head? == some (s.dieReg l.die 7 5, l.block)) = true →
    row.any (fun x => x.closed.contains (l.page, l.slot)) = false →
    (s.fresh.zeroMember l).2 = false → s.stripeAt l = none → s.flash.stripes = [] →
    Acts (.unitProgram op unit l [] stage) s fun t => t.flash.moves = q ∧
      ∃ p, mapFind t.flash.progs op = some p ∧ p.unit = r.unit ∧ p.loc = l ∧ p.data = r.data ∧ p.parity = false)
  -- a program ends: with a failure the unit waits to be written again, and event 6 of its channel is raised
  ∧ (∀ (s : State) (op : Nat) (pass : Bool) (p : Program), mapFind s.flash.progs op = some p →
    Acts (.programEnd op pass) s fun t => (pass = true ∨ op < 65536 → mapFind t.flash.progs op = none)
      ∧ (pass = false → t.bit (pFlc (chanOf p.loc.die)) Reg.EVT_PEND 6 = true
        ∧ (p.parity = false → s.flash.free ≠ [] → (⟨p.unit, p.data, if p.divert.isSome then none else some p.loc,
          p.refresh, p.rebuilt, p.divert⟩ : Relocate) ∈ t.flash.moves)))
  -- an erase of a block waits until no read of it is in flight
  ∧ (∀ (s : State) (d : Fin 512) (b : Nat), s.readsOf d b ≠ 0 → Acts (.erase d b) s fun t => t.flash = s.flash ∧ t.out = [])
  ∧ (∀ (s : State) (d : Fin 512) (b : Nat), s.flcIntake (chanOf d) = true → s.dieLive d = true → s.readsOf d b = 0 →
    s.flash.erases = [] →
    Acts (.erase d b) s fun t => t.flash.erases = [(d.val, b, s.epoch (pFlc (chanOf d)))] ∧ Out.issue "ERASE" [d, b] ∈ t.out)
  ∧ (∀ (s : State) (d : Fin 512) (b : Nat) (pass : Bool) (e : Nat × Nat × RegWord),
    s.flash.erases.find? (fun e => e.1 == d.val && e.2.1 == b) = some e →
    Acts (.eraseEnd d b pass) s fun t => t.flash.erases = s.flash.erases.erase e
      ∧ (pass = true → ∀ l ∈ t.flash.gaps, ¬ (l.die = d.val ∧ l.block = b))
      ∧ (pass = false → t.bit (pFlc (chanOf d)) Reg.EVT_PEND 7 = true))
  -- a die that stays busy past FLC_TO is mapped out with cause 5
  ∧ (∀ (s : State) (d : Fin 512), s.dieBusy d = true → s.dieLive d = true →
    Acts (.flcTimeout d) s fun t => t.bit (pFlc (chanOf d)) Reg.EVT_PEND 8 = true ∧ t.bit (pFtm + 1) (Reg.FTM_DIE d) 1 = true
      ∧ t.fget (pFtm + 1) (Reg.FTM_DIE d) 2 3 = 5 ∧ t.bit pFtm Reg.EVT_PEND 5 = true ∧ t.bit pFtm Reg.EVT_PEND 11 = true
      ∧ ∀ e ∈ t.flash.erases, e.1 ≠ d.val)
  ∧ (∀ (s : State) (q : Requester) (d : Fin 512), s.dieLive d = true →
    Acts (.mapOut q d) s fun t => t.bit (pFtm + 1) (Reg.FTM_DIE d) 1 = true ∧ t.fget (pFtm + 1) (Reg.FTM_DIE d) 2 3 = 6
      ∧ t.bit pFtm Reg.EVT_PEND 5 = true ∧ t.bit pFtm Reg.EVT_PEND 11 = true)
  -- CLOSE closes every open stripe; a free row is pushed while LEVEL is below 1,024
  ∧ (∀ (s : State) (q : Requester), s.enabled pFtm = true → Acts (.stripeClose q) s fun t => t.flash.stripes = [])
  ∧ (∀ (s : State) (q : Requester) (g : Fin 32) (b : BitVec 18), s.flash.free.length < 1024 →
    Acts (.freeRowPush q g b) s fun t => t.flash.free = s.flash.free ++ [(g.val, b.toNat)]
      ∧ t.fget pFtm Reg.FTM_FREE_LVL 0 11 = s.flash.free.length + 1)
  ∧ (∀ (s : State) (q : Requester) (g : Fin 32) (b : BitVec 18), 1024 ≤ s.flash.free.length →
    Acts (.freeRowPush q g b) s fun t => t.flash = s.flash ∧ t.bit pFtm Reg.EVT_PEND 0 = true)
  -- patrol: a place before the last one begins the next pass; a lost tag is a record of KIND 2
  ∧ (∀ (s : State) (op : Nat) (l : FlashLoc) (tag : List Byte), (s.fresh.patrolMay l).2 = true → op < 256 →
    (s.fresh.patrolMay l).1.tagFree op = true → s.bufferAt l = none → fieldAt tag 12 4 ≠ crc32c (tag.take 12) →
    Acts (.patrolRead op l tag) s fun t => (∃ u, t.flash.unrec = s.flash.unrec ++ [(u, 0xF, 2, l.die, l.block)])
      ∧ t.flash.cursor = s.locKey l + 1 ∧ (s.locKey l < s.flash.cursor → t.bit pFtm Reg.EVT_PEND 8 = true))
  -- a parity unit is read whole
  ∧ (∀ (s : State) (op : Nat) (l : FlashLoc) (tag : List Byte), (s.fresh.patrolMay l).2 = true → op < 256 →
    (s.fresh.patrolMay l).1.tagFree op = true → s.bufferAt l = none → fieldAt tag 12 4 = crc32c (tag.take 12) →
    fieldAt tag 0 8 = 2 ^ 64 - 1 → s.flash.inWait = [] → s.freeCell.isSome = true →
    Acts (.patrolRead op l tag) s fun t => (∃ p, mapFind t.flash.patrols op = some p ∧ p.parity = true ∧ p.loc = l ∧ p.left = 4)
      ∧ Out.issue "READ_PAGE" [l.die, l.block, l.page, l.slot, 0] ∈ t.out)
  -- of a data unit that is live at the place, the slices without a mark are
  ∧ (∀ (s : State) (op unit : Nat) (l : FlashLoc) (tag : List Byte),
    let w := (((s.fresh.patrolMay l).1.patrolMove l).mapEntry unit).2
    (s.fresh.patrolMay l).2 = true → op < 256 →
    (s.fresh.patrolMay l).1.tagFree op = true → s.bufferAt l = none → fieldAt tag 12 4 = crc32c (tag.take 12) →
    fieldAt tag 0 8 = unit → unit ≠ 2 ^ 64 - 1 → natBits w 41 1 = 1 → locOf w = l → natBits w 42 1 = 0 →
    s.flash.inWait = [] → s.freeCell.isSome = true →
    Acts (.patrolRead op l tag) s fun t => (∃ p, mapFind t.flash.patrols op = some p ∧ p.unit = unit ∧ p.parity = false ∧ p.loc = l)
      ∧ Out.issue "READ_PAGE" [l.die, l.block, l.page, l.slot, 0] ∈ t.out)
  -- a read of FTM_UNREC2 removes the head, which firmware deals with
  ∧ ∀ (s : State) (q : Requester),
    Acts (.ftmUnrecRead q) s fun t => Out.value (s.rg pFtm (Reg.FTM_UNREC 2)).toNat ∈ t.out
      ∧ (s.flash.rebuilds = [] → (∀ e ∈ s.flash.reads, e.2.stage ≠ 5) → t.flash.unrec = s.flash.unrec.drop 1))

/-- DRAM_REQUEST (R231, R236) and transfers of the real-time ports (R239, R240):  Commands of refresh, errors, migration, training and
initialisation of a DRAM controller (R241, R242, R244, R246 to R252): each, where it applies, has the effect its rule gives it. -/
def Obligations.DramCommandsAct : Prop :=
  (-- outside the window: a bus error
  (∀ (s : State) (w act : Bool) (a n : Nat) (b : List Byte) (errs : List (Nat × Byte)), s.dramSize < a + (if w then b.length else n) →
    Acts (.dramRequest w a n b act errs) s fun t => t.mem = s.mem ∧ Out.busError ∈ t.out)
  -- a whole burst is written as it stands and replaces any error or poison
  ∧ (∀ (s : State) (a n : Nat) (b : List Byte) (errs : List (Nat × Byte)), a % 64 = 0 → b.length = 64 → a + 64 ≤ s.dramSize →
    s.initPassed a = true → s.initPassed (a + 63) = true → s.rankFree a = true → (List.range 4).any s.rtFirst = false →
    Acts (.dramRequest true a n b false errs) s fun t => t.mem = memWrite s.mem a b ∧ mapFind t.dramErr (a / 64) = none)
  -- a clean burst reads as its bytes
  ∧ (∀ (s : State) (a : Nat), a % 64 = 0 → a + 64 ≤ s.dramSize → s.initPassed a = true → s.initPassed (a + 63) = true →
    s.rankFree a = true → (List.range 4).any s.rtFirst = false → mapFind s.dramErr (a / 64) = none →
    Acts (.dramRequest false a 64 [] false []) s fun t => t.mem = s.mem ∧ Out.data ((List.range 64).map fun i => memGet s.mem (a + i)) ∈ t.out)
  -- a poisoned burst gives a bus error, to a read and to a write of less than the burst
  ∧ (∀ (s : State) (w : Bool) (a n : Nat) (b : List Byte), b.length = n → n ≠ 0 → a % 64 + n < 64 → a + n ≤ s.dramSize →
    s.initPassed a = true → s.initPassed (a + n - 1) = true → s.rankFree a = true → (List.range 4).any s.rtFirst = false →
    mapFind s.dramErr (a / 64) = some poisonErr →
    Acts (.dramRequest w a n b false []) s fun t => t.mem = s.mem ∧ Out.busError ∈ t.out)
  -- a request waits while a real-time port is in panic, but for one outside the window
  ∧ (∀ (s : State) (w act : Bool) (a n : Nat) (b : List Byte) (errs : List (Nat × Byte)),
    a + (if w then b.length else n) ≤ s.dramSize → (List.range 4).any s.rtFirst = true →
    Acts (.dramRequest w a n b act errs) s fun t => t = s.fresh)
  -- the user of a drain port leaves bytes in its buffer; a shortfall raises event 11, a panic entry event 10
  ∧ (∀ (s : State) (p a : Nat) (b : List Byte), s.rtSize p < s.rtFillOf p + b.length →
    (s.rtPut p a b).2 = false ∧ (s.rtPut p a b).1.bit (pDmc 0) Reg.EVT_PEND 11 = true ∧ (s.rtPut p a b).1.mem = s.mem)
  ∧ (∀ (s : State) (p a : Nat) (b : List Byte), p < 4 → p ≠ 0 → s.rtFillOf p + b.length ≤ s.rtSize p →
    (s.rtPut p a b).2 = true ∧ (s.rtPut p a b).1.rtFillOf p = s.rtFillOf p + b.length
      ∧ (s.rtPanic p = false → s.fget (pDmc 0 + 1) (Reg.DMC_PORT p 0x08) 0 16 * 4096 ≤ s.rtFillOf p + b.length →
        (s.rtPut p a b).1.rtPanic p = true ∧ (s.rtPut p a b).1.bit (pDmc 0) Reg.EVT_PEND 10 = true))
  -- a drain port moves the next piece to DRAM; panic ends where its need has fallen to RELEASE
  ∧ (∀ (s s1 s2 : State) (p : Fin 4) (a k : Nat) (segs : List (Nat × Nat)) (b : List Byte),
    let r := s.rt p
    p.val ≠ 0 → s.bit (pDmc 0 + 1) (Reg.DMC_PORT p 0) 0 = true → s.rtBehind p = false → r.segs = (a, k) :: segs →
    (s.rtPanic p || decide (256 ≤ s.rtNeed p)) = true → k ≤ r.fill → s.rtMay p a k = true →
    s.fresh.rtRead p (r.pos + s.rtSize p - r.fill % (s.rtSize p + 1)) k = (s1, some b) → s1.dramWrite a b [] = (s2, true) →
    (p.val = 1 → s.fmt.out = []) → (p.val = 3 → s.dcf.outq = []) →
    Acts (.realTimePortTransfer p) s fun t => t.mem = s2.mem ∧ (t.rt p).segs = segs ∧ t.rtFillOf p = r.fill - k
      ∧ (r.fill - k ≤ s.fget (pDmc 0 + 1) (Reg.DMC_PORT p 0x08) 16 16 * 4096 → s.rtPanic p = true → t.rtPanic p = false))
  -- the fetch port brings the next piece into its buffer
  ∧ (∀ (s s1 : State) (a k : Nat) (segs : List (Nat × Nat)) (b : List Byte),
    let r := s.rt 0
    s.bit (pDmc 0 + 1) (Reg.DMC_PORT 0 0) 0 = true → s.rtBehind 0 = false → r.segs = (a, k) :: segs →
    (s.rtPanic 0 || decide (256 ≤ s.rtNeed 0)) = true → k ≤ s.rtNeed 0 → s.rtMay 0 a k = true →
    s.fresh.dramRead a k [] = (s1, some b) →
    Acts (.realTimePortTransfer 0) s fun t => (t.rt 0).segs = segs ∧ t.rtFillOf 0 = r.fill + k)
  -- a port goes behind one in panic with a higher number, and waits while its need is below 256 bytes
  ∧ (∀ (s : State) (p : Fin 4), s.rtBehind p = true ∨ (s.rtPanic p = false ∧ s.rtNeed p < 256) →
    Acts (.realTimePortTransfer p) s fun t => t = s.fresh))
  ∧ ((∀ (s : State) (n : Fin 4) (r : Fin 2), s.rankSt n r ≠ 0 → s.owed n r < 15 →
    Acts (.refreshTick n r) s fun t => t.owed n r = s.owed n r + 1
      ∧ (s.fget (pDmc n) Reg.DMC_REF 0 3 < s.owed n r + 1 → (t.dmc n).catchUp.contains r.val = true))
  -- one refresh, or a pair in catch-up, which ends when owed reaches zero
  ∧ (∀ (s : State) (n : Fin 4) (r : Fin 2), s.owed n r ≠ 0 →
    Acts (.refreshIssue n r) s fun t =>
      t.owed n r = s.owed n r - (if (s.dmc n).catchUp.contains r.val then min 2 (s.owed n r) else 1)
      ∧ (t.owed n r = 0 → (t.dmc n).catchUp.contains r.val = false))
  -- entry to the doubled-refresh range doubles owed, to at most 8
  ∧ (∀ (s : State) (n : Fin 4) (r : Fin 2) (temp : Nat), s.bit (pDmc n) Reg.DMC_REF (12 + r) = false →
    Acts (.mr4Poll n r true temp) s fun t => t.bit (pDmc n) Reg.DMC_REF (12 + r) = true ∧ t.owed n r = min (2 * s.owed n r) 8
      ∧ t.bit (pDmc n) Reg.EVT_PEND 12 = true)
  ∧ (∀ (s : State) (n : Fin 4) (r : Fin 2) (temp : Nat),
    Acts (.mr4Poll n r false temp) s fun t => t.bit (pDmc n) Reg.DMC_REF (12 + r) = false ∧ t.owed n r = s.owed n r)
  ∧ (∀ (s : State) (n : Fin 4) (r : Fin 2), 8192 ≤ mapGet (fun _ => 0) (s.dmc n).refs r →
    Acts (.activationWindowEnd n r) s fun t => ∀ k a, mapFind (t.dmc n).acts k = some a → k / 32 = r.val →
      a.floor = 0 ∧ ∀ e ∈ a.ents, e.count = 0)
  ∧ (∀ (s : State) (n : Fin 4), Acts (.thresholdHalvingEnd n) s fun t => (t.dmc n).half = false)
  -- the commands are repeated twice; the third error is uncorrectable for the rank
  ∧ (∀ (s : State) (n : Fin 4) (r : Fin 2), (s.dmc n).alerts < 2 →
    Acts (.commandError n r) s fun t => (t.dmc n).alerts = (s.dmc n).alerts + 1 ∧ t.rg (pDmc n) Reg.DMC_RANK = s.rg (pDmc n) Reg.DMC_RANK)
  ∧ (∀ (s : State) (n : Fin 4) (r : Fin 2), 2 ≤ (s.dmc n).alerts → s.rankSt n r = 1 → s.rankDeg n r = false →
    (s.dmc n).mig = none → s.rankSt n 1 ≠ 2 →
    Acts (.commandError n r) s fun t => (t.dmc n).alerts = 0 ∧ t.rankDeg n r = true ∧ t.bit (pDmc n) Reg.EVT_PEND 5 = true
      ∧ t.bit (pDmc n) Reg.EVT_PEND 6 = true)
  ∧ (∀ (s : State) (n : Fin 4), 2 ≤ (s.dmc n).alerts → s.rankSt n 0 = 1 → s.rankDeg n 0 = false →
    (s.dmc n).mig = none → s.rankSt n 1 = 2 →
    Acts (.commandError n 0) s fun t => t.rankSt n 0 = 3 ∧ (t.dmc n).mig = some (0, 1) ∧ t.bit (pDmc n) Reg.DMC_RANK 8 = true
      ∧ t.bit (pDmc n) Reg.EVT_PEND 5 = true ∧ t.bit (pDmc n) Reg.EVT_PEND 6 = true)
  -- at the end of the rank the spare becomes mapped in place of the source
  ∧ (∀ (s : State) (n : Fin 4) (src dst : Nat), (s.dmc n).mig = some (src, dst) → dst < 2 →
    Acts (.migrationCopy n) s fun t => t.fget (pDmc n) Reg.DMC_MIG 0 24 = (s.fget (pDmc n) Reg.DMC_MIG 0 24 + 1) % 2 ^ 24
      ∧ (s.rankSize n ≤ (s.fget (pDmc n) Reg.DMC_MIG 0 24 + 1) * 4096 → (t.dmc n).mig = none ∧ t.rankSt n dst = 1
        ∧ (t.dmc n).slots = ((s.dmc n).slots.map fun x => if x = src then dst else x) ∧ t.bit (pDmc n) Reg.EVT_PEND 7 = true))
  -- training
  ∧ (∀ (s : State) (n : Fin 4), (s.blk (pDmc n)).active = true →
    Acts (.dmcTrainStart n) s fun t => t.rg (pDmc n) Reg.DMC_TRAIN = s.rg (pDmc n) Reg.DMC_TRAIN ∧ t.bit (pDmc n) Reg.EVT_PEND 0 = true)
  ∧ (∀ (s : State) (n : Fin 4), (s.blk (pDmc n)).active = false → s.enabled (pDmc n) = true →
    Acts (.dmcTrainStart n) s fun t => t.fget (pDmc n) Reg.DMC_TRAIN 8 4 = if s.noTiming n then 6 else 1)
  ∧ (∀ (s : State) (n : Fin 4) (w0 w1 : List (List Nat)), s.fget (pDmc n) Reg.DMC_TRAIN 8 4 = 1 →
    Acts (.dmcTrainEnd n w0 w1) s fun t => t.bit (pDmc n) Reg.EVT_PEND 13 = true ∧ t.bit (pDmc n) Reg.DMC_INIT 31 = false
      ∧ match trainOutcome (s.fget (pDmc n) Reg.DMC_TRAIN 1 2) ((s.fitted n).map fun r =>
          (r, if r = 0 then trainPass w0 else trainPass w1)) with
        | none => t.fget (pDmc n) Reg.DMC_TRAIN 8 4 = 4 ∧ t.bit (pDmc n) Reg.EVT_PEND 9 = true
        | some (b, l) => t.fget (pDmc n) Reg.DMC_TRAIN 4 2 = b ∧ t.fget (pDmc n) Reg.DMC_TRAIN 8 4 =
          if b = s.fget (pDmc n) Reg.DMC_TRAIN 1 2 ∧ (s.fitted n).all l.contains = true then 2 else 3)
  ∧ (∀ (s : State) (n : Fin 4) (wins : List (List Nat)) (drift : Nat), (s.dmc n).trained = true → s.anyPanic = false →
    (s.dmc n).catchUp = [] → s.fget (pDmc n) Reg.DMC_TRAIN 16 8 ≠ 0 →
    Acts (.dmcRetrainTimer n wins drift) s fun t => (t.dmc n).tempAt = (s.dmc n).temp
      ∧ (wins.all trainSteps = false → t.bit (pDmc n) Reg.EVT_PEND 8 = true))
  -- initialisation writes zeros behind DMC_INIT.PTR
  ∧ ∀ (s : State) (n : Fin 4) (units : Nat), (s.dmc n).trained = true → s.bit (pDmc n) Reg.DMC_INIT 31 = false →
    s.fget (pDmc n) Reg.DMC_INIT 0 24 + units < 2 ^ 24 →
    Acts (.dramInitialisation n units) s fun t =>
      (if s.mappedCap n / 4096 ≤ s.fget (pDmc n) Reg.DMC_INIT 0 24 + units then t.bit (pDmc n) Reg.DMC_INIT 31 = true
        else t.bit (pDmc n) Reg.DMC_INIT 31 = false ∧ t.fget (pDmc n) Reg.DMC_INIT 0 24 = s.fget (pDmc n) Reg.DMC_INIT 0 24 + units)
      ∧ ∀ a i r, a < s.dramSize → s.dramPlace a = (n.val, i, r) → s.fget (pDmc n) Reg.DMC_INIT 0 24 ≤ (i * s.rankSize n + r) / 4096 →
        (i * s.rankSize n + r) / 4096 < min (s.fget (pDmc n) Reg.DMC_INIT 0 24 + units) (s.mappedCap n / 4096) → memGet t.mem a = 0)

/-- Commands that start, reset and load cores and dispatch and switch out Benches (R313, R314, R317, R319): each, where it applies, has the
effect its rule gives it. -/
def Obligations.CoreAndBenchCommandsAct : Prop :=
  -- RUN starts a core held in reset at START; RESET returns it to reset
  (∀ (s : State) (c : CoreId) (pg e : Nat), coreEntry (coreNum c) = some (pg, e) → (s.core (coreNum c)).mode = .inReset →
    Acts (.coreRun c) s fun t => t.core (coreNum c) = { coreDefault (coreNum c) with
      mode := .running, pc := BitVec.ofNat 64 (s.rg (pg + 1) (Reg.CORE e 4)).toNat } ∧ t.bit (pg + 1) (Reg.CORE e 0) 0 = true)
  ∧ (∀ (s : State) (c : CoreId) (pg e : Nat), coreEntry (coreNum c) = some (pg, e) →
    Acts (.coreReset c) s fun t => t.core (coreNum c) = coreDefault (coreNum c) ∧ t.bit (pg + 1) (Reg.CORE e 0) 0 = false
      ∧ ((s.core (coreNum c)).bench = none → t.mem = s.mem))
  -- a LOAD that names a running core or a range beyond the local store is refused
  ∧ (∀ (s : State) (b : Fin 5), mapFind s.loads (loadPage b) = none →
    Acts (.cclLoad b) s fun t =>
      let x := s.loadTarget (loadPage b)
      if (s.core x.2).mode ≠ .inReset ∨ localSizeOf x.2 < x.1 + s.fget (loadPage b) Reg.CCL_LOAD_LEN 3 16 * 8
      then t.fget (loadPage b) Reg.CCL_LOAD 24 4 = 3 ∧ t.bit (loadPage b) Reg.EVT_PEND 7 = true ∧ t.mem = s.mem
      else t.fget (loadPage b) Reg.CCL_LOAD 24 4 = 1 ∧ t.bit (loadPage b) Reg.CCL_LOAD 22 = true)
  -- it ends with the bytes of its source in the local store, or with a read error
  ∧ (∀ (s u : State) (b : Fin 5) (l : LoadOp) (d : List Byte), mapFind s.loads (loadPage b) = some l →
    State.loadRead (l.len / 8 + 1) s.fresh l.src l.len = (u, d, true) → u.upsets = [] →
    Acts (.cclLoadEnd b) s fun t => t.fget (loadPage b) Reg.CCL_LOAD 24 4 = 2 ∧ t.bit (loadPage b) Reg.EVT_PEND 7 = true
      ∧ t.bit (loadPage b) Reg.CCL_LOAD 22 = false ∧ memRead t.mem (localBase (coreNum l.core) + l.dst) d.length = d)
  ∧ (∀ (s u : State) (b : Fin 5) (l : LoadOp) (d : List Byte), mapFind s.loads (loadPage b) = some l →
    State.loadRead (l.len / 8 + 1) s.fresh l.src l.len = (u, d, false) →
    Acts (.cclLoadEnd b) s fun t => t.fget (loadPage b) Reg.CCL_LOAD 24 4 = 4 ∧ t.bit (loadPage b) Reg.EVT_PEND 7 = true
      ∧ t.bit (loadPage b) Reg.CCL_LOAD 22 = false)
  -- GO dispatches a Bench that is ready or switched out; every other GO is a reserved encoding
  ∧ (∀ (s : State) (c : CoreId) (b : Fin 64), s.mayDispatch (coreNum c) b = true →
    (s.func (s.benchOf (64 * (coreNum c / 8) + b)).func).epoch.toNat = (s.benchOf (64 * (coreNum c / 8) + b)).fepoch →
    Acts (.benchGo c b) s fun t => (t.core (coreNum c)).benchMode = true ∧ (t.core (coreNum c)).ps.getLsbD 5 = true
      ∧ (t.core (coreNum c)).bench.map BenchRun.b = some b.val ∧ (t.benchOf (64 * (coreNum c / 8) + b)).state = 2)
  ∧ (∀ (s : State) (c : CoreId) (b : Fin 64), coreNum c < 32 → s.coreOn (coreNum c) = true → s.mayDispatch (coreNum c) b = false →
    Acts (.benchGo c b) s fun t => (t.core (coreNum c)).bench = (s.core (coreNum c)).bench ∧ (t.core (coreNum c)).pc = (s.core (coreNum c)).pc
      ∧ (t.core (coreNum c)).ps = (s.core (coreNum c)).ps ∧ t.benches = s.benches
      ∧ t.bit (pCcl (coreNum c / 8)) Reg.EVT_PEND 0 = true)
  -- OUT of the handler that runs for a Bench, the end of its slice and of its time
  ∧ (∀ (s : State) (c : CoreId) (r : BenchRun), coreNum c < 32 → s.coreOn (coreNum c) = true → (s.core (coreNum c)).bench = some r →
    (s.core (coreNum c)).benchMode = false → (s.core (coreNum c)).tcause.getLsbD 16 = true → (s.core (coreNum c)).tps.getLsbD 4 = true →
    r.late = 0 →
    Acts (.benchOut c) s fun t => (t.core (coreNum c)).bench = none ∧ t.coreFld (coreNum c) 0xC 16 4 = 1)
  ∧ (∀ (s : State) (c : CoreId) (r : BenchRun), coreNum c < 32 → (s.core (coreNum c)).bench = some r →
    (s.core (coreNum c)).benchMode = true → s.coreFld (coreNum c) 0x10 0 20 ≠ 0 →
    Acts (.sliceExpiry c) s fun t => (t.core (coreNum c)).bench = none ∧ t.coreFld (coreNum c) 0xC 16 4 = 2)
  ∧ (∀ (s : State) (c : CoreId) (r : BenchRun), (s.core (coreNum c)).bench = some r → r.late = 0 →
    (s.core (coreNum c)).benchMode = false → s.coreFld (coreNum c) 0x10 0 20 ≠ 0 →
    Acts (.sliceExpiry c) s fun t => (t.core (coreNum c)).bench = some { r with late := 2 })
  ∧ ∀ (s : State) (c : CoreId) (r : BenchRun), coreNum c < 32 → (s.core (coreNum c)).bench = some r →
    (s.core (coreNum c)).benchMode = true → r.tRem ≠ BitVec.allOnes 64 →
    Acts (.tRemExpiry c) s fun t => (t.core (coreNum c)).bench = none ∧ t.coreFld (coreNum c) 0xC 16 4 = 3
      ∧ t.bit (pCcl (coreNum c / 8)) Reg.EVT_PEND 5 = true

/-- Commands of job rings and streams (R325, R326, R328, R332, R333, R335): each, where it applies, has the effect its rule gives it. -/
def Obligations.RingAndStreamCommandsAct : Prop :=
  -- a ring is disarmed, waits for its jobs, or is armed with what its header holds
  (∀ (s : State) (c : CoreId) (r : Fin 4) (lo : RegWord), (coreEntry (coreNum c)).isSome = true → s.ringBusy (.core c r) = false →
    lo.getLsbD 0 = false → Acts (.ringArm c r lo) s fun t => (t.ringOf (.core c r)).armed = false)
  ∧ (∀ (s : State) (c : CoreId) (r : Fin 4) (lo : RegWord), (coreEntry (coreNum c)).isSome = true → s.ringBusy (.core c r) = true →
    Acts (.ringArm c r lo) s fun t => (t.ringOf (.core c r)).wait.isSome = true)
  ∧ (∀ (s : State) (c : CoreId) (r : Fin 4) (lo : RegWord) (pg e a : Nat), coreEntry (coreNum c) = some (pg, e) →
    s.ringBusy (.core c r) = false → lo.getLsbD 0 = true →
    a = (s.rg (pg + 1) (Reg.CORE e (0x24 + 8 * r))).toNat * 2 ^ 32 + lo.toNat / 64 * 64 → s.dramSize ≤ sramBase → s.upsets = [] →
    inSram a 64 = true → s.hdrOk (.core c r) (memRead s.mem a 64) = true →
    Acts (.ringArm c r lo) s fun t =>
      let g := t.ringOf (.core c r)
      let b := memRead s.mem a 64
      g.armed = true ∧ g.halt = false ∧ g.hdr = some a ∧ g.desc = leNat ((b.drop 0x10).take 8) ∧ g.cpl = leNat ((b.drop 0x18).take 8)
        ∧ g.cons = leNat ((b.drop 8).take 4) ∧ g.cprod = leNat ((b.drop 0xC).take 4))
  -- a descriptor is fetched: CONS advances; a producer index out of range halts the ring
  ∧ (∀ (s : State) (c : CoreId) (i tag h : Nat) (host : List Byte),
    let r : RingId := .core c i
    let g := s.ringOf r
    g.armed = true → g.halt = false → g.wait = none → g.hold = none → s.intake (ringBlock r) = true → g.hdr = some h →
    s.dramSize ≤ sramBase → s.upsets = [] → inSram h 64 = true →
    let n := 2 ^ g.log2n
    let ahead := (leNat (memRead s.mem h 4) + 2 ^ 32 - g.cons) % 2 ^ 32
    let unread := (g.cons + 2 ^ 32 - leNat (memRead s.mem (h + 4) 4)) % 2 ^ 32
    (n < ahead → Acts (.descriptorFetch r tag host) s fun t => (t.ringOf r).halt = true ∧ (t.ringOf r).haltCause = 3
      ∧ t.bit (ringBlock r) Reg.EVT_PEND 6 = true)
    ∧ (ahead ≤ n → ahead ≠ 0 → unread < n → g.cons < 2 ^ 32 → s.tagFree tag = true → ringTag r tag = true →
      inSram (g.desc + 64 * (g.cons % n)) 64 = true →
      Acts (.descriptorFetch r tag host) s fun t => (t.ringOf r).cons = (g.cons + 1) % 2 ^ 32))
  -- a job that its engine has ended writes its completion, advances CPROD and is gone
  ∧ (∀ (s : State) (tag nJ h : Nat) (host : List Byte) (j : Job) (x : JobResult), mapFind s.jobs tag = some j → j.result = some x →
    s.jobStale j = false → (s.ringOf j.ring).wait = none → (s.ringOf j.ring).hold = none → (s.ringOf j.ring).hdr = some h →
    s.dramSize ≤ sramBase → s.upsets = [] → inSram h 64 = true →
    inSram ((s.ringOf j.ring).cpl + 32 * ((s.ringOf j.ring).cprod % 2 ^ (s.ringOf j.ring).log2n)) 32 = true →
    Acts (.engineJobComplete tag nJ host) s fun t => mapFind t.jobs tag = none
      ∧ (t.ringOf j.ring).cprod = ((s.ringOf j.ring).cprod + 1) % 2 ^ 32)
  -- the producer of a stream that no command fills writes as far as there is room, and closes it after the last byte
  ∧ ∀ (s : State) (i : Fin 256) (data : List Byte) (last : Bool), s.attachOf i = none → s.strFld i 0x10 16 1 = 1 →
    (s.streamOf i).closed = false →
    Acts (.streamFill i data last) s fun t =>
      let room := 2 ^ s.strFld i 0x10 0 5 - ((s.streamOf i).fill.toNat - (s.streamOf i).rel.toNat)
      (t.streamOf i).fill = (s.streamOf i).fill + BitVec.ofNat 64 (min data.length room) ∧ (t.streamOf i).rel = (s.streamOf i).rel
      ∧ (t.streamOf i).closed = (last && decide (data.length ≤ room))

/-- Compression and hash engine jobs (R339, R341, R345, R346, R348 to R352, R370 to R372): each, where its engine takes it, ends as its rule
says. -/
def Obligations.CompressionAndHashJobsEnd : Prop :=
  (-- a bad parameter or an overlap ends each of them at once: nothing is written
  (∀ (s u : State) (tag pg e op : Nat) (host : List Byte) (j : Job) (i : Instr),
    (op = 1 ∧ i = .compress tag host ∨ op = 2 ∧ i = .decompress tag host ∨ op = 3 ∧ i = .check tag host) →
    s.fresh.takeJob 0x13 tag (· == op) = some (u, pg, j) → cxeRefusal j = some e →
    Acts i s fun t => (mapFind t.jobs tag).bind Job.result = some ⟨e, 0, 0, 0⟩ ∧ t.mem = u.mem)
  -- COMPRESS with NO_GROW, when the output would reach the length of the source
  ∧ (∀ (s u v w : State) (tag pg : Nat) (host b : List Byte) (j : Job),
    s.fresh.takeJob 0x13 tag (· == 1) = some (u, pg, j) → cxeRefusal j = none → natBits j.eflags 0 1 = 1 →
    State.readRanges { u with inp := host } j.func j.src = (v, .ok b) →
    b.length ≤ ((((chunks (1024 * natBits j.param0 16 13) b).filter (!·.isEmpty)).map fun c =>
      (cxeBlock (natBits j.param0 0 3) (natBits j.param0 8 4)
        (v.setting pg ((j.inst.map Prod.snd).getD 0) pg (Reg.CXE_LVL (natBits j.param0 8 4))) c).length)).sum →
    v.writePart j.func j.dst [] = (w, 0) →
    Acts (.compress tag host) s fun t => (mapFind t.jobs tag).bind Job.result = some ⟨0x0102, 0, b.length, 0⟩)
  -- COMPRESS whose blocks fit: every block in turn, as one stream across the destination
  ∧ (∀ (s u v w : State) (tag pg : Nat) (host b : List Byte) (j : Job) (bs : List (List Byte × List Byte)),
    s.fresh.takeJob 0x13 tag (· == 1) = some (u, pg, j) → cxeRefusal j = none → natBits j.eflags 0 2 = 0 →
    State.readRanges { u with inp := host } j.func j.src = (v, .ok b) →
    bs = ((chunks (1024 * natBits j.param0 16 13) b).filter (!·.isEmpty)).map (fun c =>
      (c, cxeBlock (natBits j.param0 0 3) (natBits j.param0 8 4)
        (v.setting pg ((j.inst.map Prod.snd).getD 0) pg (Reg.CXE_LVL (natBits j.param0 8 4))) c)) →
    (bs.flatMap Prod.snd).length ≤ rangesLen j.dst → v.writeRanges j.func j.dst (bs.flatMap Prod.snd) = (w, 0) →
    Acts (.compress tag host) s fun t =>
      let grown := (bs.filter fun x => x.1.length < x.2.length).length
      (mapFind t.jobs tag).bind Job.result =
        some ⟨if grown = 0 then 0 else 0x0101, min grown 65535, b.length, (bs.flatMap Prod.snd).length⟩)
  -- DECOMPRESS and CHECK of a whole source, and of one that fails in a later block
  ∧ (∀ (s u v w : State) (tag pg : Nat) (host b : List Byte) (j : Job) (d : CxeIn),
    s.fresh.takeJob 0x13 tag (· == 2) = some (u, pg, j) → cxeRefusal j = none →
    State.readRanges { u with inp := host } j.func j.src = (v, .ok b) →
    d = cxeDecodeN (natBits j.param0 0 3) b.toArray true (b.length + 1) 0 (rangesLen j.dst) ⟨0, 0, [], false, false⟩ →
    (d.status = 0 → v.writeRanges j.func j.dst d.out = (w, 0) →
      Acts (.decompress tag host) s fun t => (mapFind t.jobs tag).bind Job.result
        = some ⟨0, (if d.unchk then 1 else 0) + (if d.skip then 2 else 0), d.used, d.out.length⟩)
    ∧ (d.status ∈ [0x1010, 0x1011, 0x1012, 0x2010, 0x3010, 0x3011] → v.writePart j.func j.dst d.out = (w, 0) →
      Acts (.decompress tag host) s fun t => (mapFind t.jobs tag).bind Job.result
        = some ⟨d.status, (if d.unchk then 1 else 0) + (if d.skip then 2 else 0), d.used, d.out.length⟩))
  ∧ ∀ (s u v : State) (tag pg : Nat) (host b : List Byte) (j : Job) (d : CxeIn),
    s.fresh.takeJob 0x13 tag (· == 3) = some (u, pg, j) → cxeRefusal j = none →
    State.readRanges { u with inp := host } j.func j.src = (v, .ok b) →
    d = cxeDecodeN (natBits j.param0 0 3) b.toArray false (b.length + 1) 0 (rangesLen j.dst) ⟨0, 0, [], false, false⟩ →
    d.status ∈ [0, 0x1010, 0x1011, 0x1012, 0x3010, 0x3011] →
    Acts (.check tag host) s fun t => t.mem = v.mem ∧ (mapFind t.jobs tag).bind Job.result
      = some ⟨d.status, (if d.unchk then 1 else 0) + (if d.skip then 2 else 0), d.used, 0⟩)
  ∧ ((∀ (s u : State) (tag pg op : Nat) (host : List Byte) (j : Job) (i : Instr),
    (op = 1 ∧ i = .digest tag host ∨ op = 2 ∧ i = .hseVerify tag host ∨ op = 3 ∧ i = .crcBlocks tag host) →
    s.fresh.takeJob 0x15 tag (· == op) = some (u, pg, j) → hseParamsOk j = false →
    Acts i s fun t => (mapFind t.jobs tag).bind Job.result = some ⟨0x1001, 0, 0, 0⟩ ∧ t.mem = u.mem)
  -- a whole message: its digest or CRC is written, or compared with the expected result
  ∧ (∀ (s u v w : State) (tag pg : Nat) (host b : List Byte) (j : Job),
    s.fresh.takeJob 0x15 tag (· == 1) = some (u, pg, j) → hseParamsOk j = true → j.opcode = 1 → j.eflags = 0 →
    State.readRanges { u with inp := host } j.func j.src = (v, .ok b) →
    v.writeRanges j.func j.dst (algDigest (j.param1 % 16) b) = (w, 0) →
    Acts (.digest tag host) s fun t => t.mem = w.mem
      ∧ (mapFind t.jobs tag).bind Job.result = some ⟨0, 0, b.length, (algDigest (j.param1 % 16) b).length⟩)
  ∧ (∀ (s u v v' : State) (tag pg : Nat) (host b x : List Byte) (j : Job),
    s.fresh.takeJob 0x15 tag (· == 2) = some (u, pg, j) → hseParamsOk j = true → j.opcode = 2 → j.eflags = 0 →
    State.readRanges { u with inp := host } j.func j.src = (v, .ok b) → v.readRanges j.func j.dst = (v', .ok x) →
    Acts (.hseVerify tag host) s fun t => t.mem = v'.mem
      ∧ (mapFind t.jobs tag).bind Job.result = some ⟨if x = algDigest (j.param1 % 16) b then 0 else 0x3030, 0, b.length, 0⟩
      ∧ (x ≠ algDigest (j.param1 % 16) b → t.bit pHse Reg.EVT_PEND 5 = true))
  -- a message that goes on: its state record is read, checked and written
  ∧ (∀ (s u v v' w : State) (tag pg op : Nat) (host b r : List Byte) (j : Job) (i : Instr) (st : List Nat) (len : Nat),
    (op = 1 ∧ i = .digest tag host ∨ op = 2 ∧ i = .hseVerify tag host) →
    s.fresh.takeJob 0x15 tag (· == op) = some (u, pg, j) → hseParamsOk j = true → j.eflags = 3 →
    State.readRanges { u with inp := host } j.func j.src = (v, .ok b) → v.readRanges j.func j.aux.toList = (v', .ok r) →
    (recordOf (j.param1 % 16) r = none → Acts i s fun t => (mapFind t.jobs tag).bind Job.result = some ⟨0x1021, 0, 0, 0⟩
      ∧ t.mem = v'.mem)
    ∧ (recordOf (j.param1 % 16) r = some (st, len) →
      v'.writeRanges j.func j.aux.toList (recordBytes (j.param1 % 16) (algAbsorb (j.param1 % 16) st b) (len + b.length)) = (w, 0) →
      Acts i s fun t => (mapFind t.jobs tag).bind Job.result = some ⟨0, 0, b.length, 0⟩ ∧ t.mem = w.mem))
  -- one CRC per block
  ∧ ∀ (s u v w : State) (tag pg : Nat) (host b : List Byte) (j : Job),
    s.fresh.takeJob 0x15 tag (· == 3) = some (u, pg, j) → hseParamsOk j = true →
    State.readRanges { u with inp := host } j.func j.src = (v, .ok b) →
    v.writeRanges j.func j.dst (((chunks (2 ^ (9 + natBits j.param1 16 4)) b).filter (!·.isEmpty)).flatMap
      (algDigest (j.param1 % 16))) = (w, 0) →
    Acts (.crcBlocks tag host) s fun t => t.mem = w.mem ∧ (mapFind t.jobs tag).bind Job.result
      = some ⟨0, 0, b.length, (((chunks (2 ^ (9 + natBits j.param1 16 4)) b).filter (!·.isEmpty)).flatMap
        (algDigest (j.param1 % 16))).length⟩)

/-- Cipher jobs (R357, R360, R362 to R365, R368): each, where its engine takes it, ends as its rule says. Key jobs and the DRBG (R358 to
R361): each, where it applies, has the effect its rule gives it. -/
def Obligations.CipherAndKeyJobsEnd : Prop :=
  (-- a bad parameter, an overlap, a source of odd length, or a slot that does not serve, ends a job without a byte written
  (∀ (s u : State) (tag pg e op : Nat) (host : List Byte) (j : Job) (i : Instr),
    (op = 1 ∧ i = .xtsEnc tag host ∨ op = 2 ∧ i = .xtsDec tag host ∨ op = 3 ∧ i = .gcmEnc tag host ∨ op = 5 ∧ i = .gmacGen tag host
      ∨ op = 6 ∧ i = .gmacVer tag host ∨ op = 7 ∧ i = .ctr tag host) →
    s.fresh.takeJob 0x14 tag (· == op) = some (u, pg, j) →
    (aeeRefusal j = some e ∨ aeeRefusal j = none ∧ State.keyFor { u with inp := host } j = .error e) →
    Acts i s fun t => (mapFind t.jobs tag).bind Job.result = some ⟨e, 0, 0, 0⟩ ∧ t.mem = u.mem ∧ t.kpr.keys = u.kpr.keys)
  -- XTS in both directions
  ∧ (∀ (s u v w : State) (tag pg : Nat) (enc : Bool) (host b : List Byte) (j : Job) (k : KeySlot),
    s.fresh.takeJob 0x14 tag (· == if enc then 1 else 2) = some (u, pg, j) → aeeRefusal j = none →
    State.keyFor { u with inp := host } j = .ok k → State.readRanges { u with inp := host } j.func j.src = (v, .ok b) →
    v.writeRanges j.func j.dst (xts enc k.key (2 ^ natBits j.param1 12 4) j.param0 b) = (w, 0) →
    Acts (if enc then .xtsEnc tag host else .xtsDec tag host) s fun t => (mapFind t.jobs tag).bind Job.result
      = some ⟨0, 0, j.srcLen, (xts enc k.key (2 ^ natBits j.param1 12 4) j.param0 b).length⟩ ∧ t.mem = w.mem)
  -- CTR from the counter block that PARAM0 addresses
  ∧ (∀ (s u v v' w : State) (tag pg : Nat) (host icb b : List Byte) (j : Job) (k : KeySlot),
    s.fresh.takeJob 0x14 tag (· == 7) = some (u, pg, j) → aeeRefusal j = none → State.keyFor { u with inp := host } j = .ok k →
    State.readRanges { u with inp := host } j.func j.aux.toList = (v, .ok icb) → v.readRanges j.func j.src = (v', .ok b) →
    v'.writeRanges j.func j.dst (ctrCrypt k.key icb b) = (w, 0) →
    Acts (.ctr tag host) s fun t => (mapFind t.jobs tag).bind Job.result = some ⟨0, 0, j.srcLen, (ctrCrypt k.key icb b).length⟩
      ∧ t.mem = w.mem)
  -- GCM_ENC and GMAC_GEN take a nonce of SALT and the slot's counter, which is then one more; none is left beyond LOADSEQ's range
  ∧ (∀ (s u : State) (tag pg : Nat) (text : Bool) (host : List Byte) (j : Job) (k : KeySlot),
    s.fresh.takeJob 0x14 tag (· == if text then 3 else 5) = some (u, pg, j) → aeeRefusal j = none →
    State.keyFor { u with inp := host } j = .ok k →
    (k.seq * 2 ^ 32 + 2 ^ 32 - 1 < k.inv + 1 → Acts (if text then .gcmEnc tag host else .gmacGen tag host) s fun t =>
      (mapFind t.jobs tag).bind Job.result = some ⟨0x2030, 0, 0, 0⟩ ∧ t.mem = u.mem)
    ∧ (k.inv + 1 ≤ k.seq * 2 ^ 32 + 2 ^ 32 - 1 → Acts (if text then .gcmEnc tag host else .gmacGen tag host) s fun t =>
      mapFind t.kpr.keys (j.param1 % 512) = some { k with inv := k.inv + 1 }))
  ∧ (∀ (s u v w w' : State) (tag pg : Nat) (host b iv : List Byte) (j : Job) (k : KeySlot),
    s.fresh.takeJob 0x14 tag (· == 3) = some (u, pg, j) → aeeRefusal j = none → State.keyFor { u with inp := host } j = .ok k →
    k.inv + 1 ≤ k.seq * 2 ^ 32 + 2 ^ 32 - 1 → iv = leBytes 4 u.kpr.salt ++ leBytes 8 k.inv →
    State.readRanges { u with
      inp := host, kpr := { u.kpr with keys := mapPut u.kpr.keys (j.param1 % 512) { k with inv := k.inv + 1 } } }
      j.func j.src = (v, .ok b) →
    v.writeRanges j.func j.aux.toList (iv ++ leBytes 4 0
      ++ gcmTag k.key iv (b.take (aeeAad j)) (gcmCrypt k.key iv (b.drop (aeeAad j)))) = (w, 0) →
    w.writeRanges j.func j.dst (gcmCrypt k.key iv (b.drop (aeeAad j))) = (w', 0) →
    Acts (.gcmEnc tag host) s fun t => (mapFind t.jobs tag).bind Job.result
      = some ⟨0, 0, j.srcLen, (gcmCrypt k.key iv (b.drop (aeeAad j))).length⟩ ∧ t.mem = w'.mem)
  -- GMAC_VER compares the whole source's tag
  ∧ (∀ (s u v v' : State) (tag pg : Nat) (host r b : List Byte) (j : Job) (k : KeySlot),
    s.fresh.takeJob 0x14 tag (· == 6) = some (u, pg, j) → aeeRefusal j = none → State.keyFor { u with inp := host } j = .ok k →
    State.readRanges { u with inp := host } j.func j.aux.toList = (v, .ok r) → v.readRanges j.func j.src = (v', .ok b) →
    Acts (.gmacVer tag host) s fun t => t.mem = v'.mem ∧ (mapFind t.jobs tag).bind Job.result
      = some ⟨if gcmTag k.key (r.take 12) b [] = r.drop 16 then 0 else 0x3020, 0, j.srcLen, 0⟩)
  -- GCM_DEC: a Shutter slot first, or 0x2020; then plaintext only under its tag, or zeros over what was released
  ∧ (∀ (s u : State) (tag pg k o : Nat) (j : Job), s.fresh.takeJob 0x14 tag (· == 4) = some (u, pg, j) →
    s.fresh.slotWant pg j = some k → s.fresh.shutFind pg k = some o →
    Acts (.shutterSlotAllocate tag) s fun t => (mapFind t.jobs tag).bind Job.slot = some (o, k))
  ∧ (∀ (s u : State) (tag pg : Nat) (host : List Byte) (j j' : Job), mapFind s.jobs tag = some j' → j'.inst = none →
    s.fresh.takeJob 0x14 tag (· == 4) = some (u, pg, j) → s.fresh.slotWant pg j = none →
    Acts (.gcmDec tag host) s fun t => (mapFind t.jobs tag).bind Job.result = some ⟨(aeeRefusal j).getD 0x2020, 0, 0, 0⟩
      ∧ t.mem = u.mem)
  ∧ ∀ (s v v' w : State) (tag pg : Nat) (host r b : List Byte) (j : Job) (k : KeySlot) (e : RegWord), mapFind s.jobs tag = some j →
    j.inst = some (pg, e) → j.slot.isSome = true → j.result = none → j.opcode = 4 → s.fresh.instFree pg j = true →
    aeeRefusal j = none → State.keyFor { s.fresh with inp := host } j = .ok k →
    State.readRanges { s.fresh with inp := host } j.func j.aux.toList = (v, .ok r) → v.readRanges j.func j.src = (v', .ok b) →
    (gcmTag k.key (r.take 12) (b.take (aeeAad j)) (b.drop (aeeAad j)) = r.drop 16 →
      State.writeRanges { v' with jobs := mapPut v'.jobs tag { j with
        released := if 2 ^ 20 < (b.drop (aeeAad j)).length then earlyBytes (b.drop (aeeAad j)).length else 0 } }
        j.func j.dst (gcmCrypt k.key (r.take 12) (b.drop (aeeAad j))) = (w, 0) →
      Acts (.gcmDec tag host) s fun t => (mapFind t.jobs tag).bind Job.result
        = some ⟨0, 0, j.srcLen, (gcmCrypt k.key (r.take 12) (b.drop (aeeAad j))).length⟩ ∧ t.mem = w.mem)
    ∧ (gcmTag k.key (r.take 12) (b.take (aeeAad j)) (b.drop (aeeAad j)) ≠ r.drop 16 → (b.drop (aeeAad j)).length ≤ 2 ^ 20 →
      Acts (.gcmDec tag host) s fun t => (mapFind t.jobs tag).bind Job.result = some ⟨0x3020, 0, j.srcLen, 0⟩ ∧ t.mem = v'.mem))
  ∧ ((∀ (s u : State) (tag pg : Nat) (j : Job), s.fresh.takeJob 0x14 tag (· == 0x10) = some (u, pg, j) → aeeRefusal j = none →
    u.alarmOn = false → mapFind u.kpr.keys (j.param1 % 512) = none →
    Acts (.keyGen tag) s fun t => (mapFind t.jobs tag).bind Job.result = some ⟨0, 0, 0, 0⟩ ∧ t.kpr.loadSeq = u.kpr.loadSeq + 1
      ∧ ∃ key : List Byte, key.length = keyLen (natBits j.param1 44 4) ∧ mapFind t.kpr.keys (j.param1 % 512)
        = some ⟨natBits j.param1 44 4, natBits j.param1 48 6, j.func, key, (u.kpr.loadSeq + 1) * 2 ^ 32 % 2 ^ 64, u.kpr.loadSeq + 1⟩)
  ∧ (∀ (s u v : State) (tag pg : Nat) (j : Job) (r : List Byte), s.fresh.takeJob 0x14 tag (· == 0x11) = some (u, pg, j) →
    aeeRefusal j = none → u.alarmOn = false → mapFind u.kpr.keys (j.param1 % 512) = none →
    State.dmaRead { u with inp := [] } 0xFFFF (u.wktAt (natBits j.param1 32 12)) 128 = (v, .ok r) →
    Acts (.keyLoad tag) s fun t =>
      if wrapOk r = false ∨ v.kpr.fuses.lcs = 4 then (mapFind t.jobs tag).bind Job.result = some ⟨0x6014, 0, 0, 0⟩ ∧ t.kpr = v.kpr
      else if leNat ((r.drop 6).take 2) ≠ j.func then (mapFind t.jobs tag).bind Job.result = some ⟨0x6015, 0, 0, 0⟩ ∧ t.kpr = v.kpr
      else (mapFind t.jobs tag).bind Job.result = some ⟨0, 0, 0, 0⟩
        ∧ (mapFind t.kpr.keys (j.param1 % 512)).map KeySlot.owner = some j.func
        ∧ (mapFind t.kpr.keys (j.param1 % 512)).map KeySlot.key = some ((gcmCrypt wrapKeyBytes ((r.drop 0x10).take 12)
          ((r.drop 0x20).take 64)).take (keyLen (leNat ((r.drop 5).take 1) % 16))))
  ∧ (∀ (s u w : State) (tag pg : Nat) (j : Job) (k : KeySlot), s.fresh.takeJob 0x14 tag (· == 0x12) = some (u, pg, j) →
    aeeRefusal j = none → u.alarmOn = false → mapFind u.kpr.keys (j.param1 % 512) = some k → k.owner = j.func →
    (k.usage.testBit 5 = true →
      State.dmaWrite { u with inp := [], kpr := { u.kpr with wraps := u.kpr.wraps + 1 } } 0xFFFF
        (u.wktAt (natBits j.param1 32 12)) (u.wrapRecord k) = (w, 0) →
      Acts (.keyWrap tag) s fun t => (mapFind t.jobs tag).bind Job.result = some ⟨0, 0, 0, 0⟩ ∧ t.mem = w.mem
        ∧ t.kpr.keys = u.kpr.keys)
    ∧ (k.usage.testBit 5 = false →
      Acts (.keyWrap tag) s fun t => (mapFind t.jobs tag).bind Job.result = some ⟨0x6013, 0, 0, 0⟩ ∧ t.mem = u.mem))
  ∧ (∀ (s u : State) (tag pg : Nat) (j : Job) (k : KeySlot), s.fresh.takeJob 0x14 tag (· == 0x13) = some (u, pg, j) →
    aeeRefusal j = none → u.alarmOn = false → mapFind u.kpr.keys (j.param1 % 512) = some k →
    Acts (.keyErase tag) s fun t =>
      if k.owner = j.func ∧ k.owner ≠ 0xFFFF
      then (mapFind t.jobs tag).bind Job.result = some ⟨0, 0, 0, 0⟩ ∧ t.kpr.keys = mapDel u.kpr.keys (j.param1 % 512)
      else (mapFind t.jobs tag).bind Job.result = some ⟨0x6012, 0, 0, 0⟩ ∧ t.kpr.keys = u.kpr.keys)
  -- a key job while an alarm is active
  ∧ (∀ (s u : State) (tag pg op : Nat) (j : Job) (i : Instr),
    (op = 0x10 ∧ i = .keyGen tag ∨ op = 0x11 ∧ i = .keyLoad tag ∨ op = 0x12 ∧ i = .keyWrap tag ∨ op = 0x13 ∧ i = .keyErase tag) →
    s.fresh.takeJob 0x14 tag (· == op) = some (u, pg, j) → aeeRefusal j = none → u.alarmOn = true →
    Acts i s fun t => (mapFind t.jobs tag).bind Job.result = some ⟨0x6010, 0, 0, 0⟩ ∧ t.kpr = u.kpr)
  -- the DRBG reseeds itself after 2³² requests, and SALT stays
  ∧ ∀ s : State, s.kpr.seeded = true → 2 ^ 32 ≤ s.kpr.generated →
    Acts .drbgReseed s fun t => t.kpr = { s.kpr with generated := 0 }
      ∧ t.fget (pAee 0) Reg.AEE_DRBG 8 8 = min 255 (s.fget (pAee 0) Reg.AEE_DRBG 8 8 + 1))

/-- Jobs of the associative search engine (R377 to R379, R381 to R388, R391) whose ranges lie in shared SRAM: each, where its engine takes
it, ends as its rule says. LOAD and INSERT (R386, R387) of records in shared SRAM: the entries that stand afterwards, or 0x2041 and no
change. -/
def Obligations.SearchEngineJobsEnd : Prop :=
  (-- parameters, ownership, table, lengths and context are checked before a job runs
  (∀ (s u : State) (tag pg e op : Nat) (host : List Byte) (cycs : List (Option Nat)) (cyc : Option Nat) (j : Job) (i : Instr),
    (op = 1 ∧ i = .aseSearch tag host cycs ∨ op = 2 ∧ i = .aseSearchCtx tag host cyc ∨ op = 3 ∧ i = .aseStep tag
      ∨ op = 4 ∧ i = .aseCtxFree tag ∨ op = 0x10 ∧ i = .aseLoad tag host ∨ op = 0x11 ∧ i = .aseInsert tag host
      ∨ op = 0x12 ∧ i = .aseWrite tag host ∨ op = 0x13 ∧ i = .aseDelete tag ∨ op = 0x14 ∧ i = .aseRead tag
      ∨ op = 0x15 ∧ i = .aseClear tag) →
    s.fresh.takeJob 0x16 tag (· == op) = some (u, pg, j) → u.aseRefusal j = some e →
    Acts i s fun t => (mapFind t.jobs tag).bind Job.result = some ⟨e, 0, 0, 0⟩ ∧ t.mem = u.mem ∧ t.ase = u.ase)
  -- SEARCH: one record per key, of the winner among the matches of the table
  ∧ (∀ (s u : State) (tag pg d m : Nat) (host b : List Byte) (x : Range) (j : Job),
    s.fresh.takeJob 0x16 tag (· == 1) = some (u, pg, j) → u.aseRefusal j = none → s.dramSize ≤ sramBase → s.upsets = [] →
    j.src = [x] → x.len = j.srcLen → inSram x.addr x.len = true → j.dst = [⟨d, m⟩] → inSram d m = true →
    b = (if x.len = 0 then [] else memRead s.mem x.addr x.len) →
    Acts (.aseSearch tag host []) s fun t =>
      let out := ((chunks (16 * s.aseWidth (j.param0 % 16)) b).filter (!·.isEmpty)).flatMap fun k =>
        let ms := s.tableMatches (j.param0 % 16) (leNat k) none
        resultRecord ms.head? ms.length 0 false false false
      (mapFind t.jobs tag).bind Job.result = some ⟨0, 0, j.srcLen, out.length⟩ ∧ memRead t.mem d out.length = out ∧ t.ase = u.ase)
  -- SEARCH_CTX latches the matches after the winner in the first free context
  ∧ (∀ (s u : State) (tag pg d m c : Nat) (host : List Byte) (x : Range) (j : Job),
    s.fresh.takeJob 0x16 tag (· == 2) = some (u, pg, j) → u.aseRefusal j = none → s.dramSize ≤ sramBase → s.upsets = [] →
    j.src = [x] → x.len = j.srcLen → inSram x.addr x.len = true → j.dst = [⟨d, m⟩] → inSram d m = true →
    c < 32 → mapFind s.ase.ctxs c = none → (∀ c' < c, mapFind s.ase.ctxs c' ≠ none) →
    Acts (.aseSearchCtx tag host none) s fun t =>
      let key := leNat (memRead s.mem x.addr x.len)
      let ms := s.tableMatches (j.param0 % 16) key none
      mapFind t.ase.ctxs c = some ⟨j.param0 % 16, j.func, key, ms.tail.map fun y => (y.1, y.2.1), false⟩
        ∧ (mapFind t.jobs tag).bind Job.result = some ⟨0, 0, j.srcLen, 16⟩
        ∧ memRead t.mem d 16 = resultRecord ms.head? ms.length c false false false)
  ∧ (∀ (s u : State) (tag pg : Nat) (host : List Byte) (cyc : Option Nat) (j : Job),
    s.fresh.takeJob 0x16 tag (· == 2) = some (u, pg, j) → u.aseRefusal j = none → (∀ c < 32, mapFind s.ase.ctxs c ≠ none) →
    Acts (.aseSearchCtx tag host cyc) s fun t => (mapFind t.jobs tag).bind Job.result = some ⟨0x2040, 0, 0, 0⟩ ∧ t.ase = u.ase
      ∧ t.bit pAse Reg.EVT_PEND 5 = true)
  -- STEP returns further matches, or one record with MATCH 0 and END 1
  ∧ (∀ (s u : State) (tag pg d m : Nat) (x : AseCtx) (j : Job), s.fresh.takeJob 0x16 tag (· == 3) = some (u, pg, j) →
    u.aseRefusal j = none → s.dramSize ≤ sramBase → s.upsets = [] → j.dst = [⟨d, m⟩] → inSram d m = true →
    mapFind s.ase.ctxs (natBits j.param1 32 5) = some x →
    Acts (.aseStep tag) s fun t =>
      let r := s.ctxNext x.key (natBits j.param1 48 16) x.pos
      let n := (s.tableMatches x.table x.key none).length
      let out := if r.1 = [] then resultRecord none 0 (natBits j.param1 32 5) false x.stale true
        else r.1.flatMap fun e => resultRecord (some (e.1, e.2.1, e.2.2.1)) n (natBits j.param1 32 5) false x.stale e.2.2.2
      mapFind t.ase.ctxs (natBits j.param1 32 5) = some { x with pos := r.2 }
        ∧ (mapFind t.jobs tag).bind Job.result = some ⟨0, 0, j.srcLen, out.length⟩ ∧ memRead t.mem d out.length = out)
  -- contexts are freed by their job and by firmware
  ∧ (∀ (s u : State) (tag pg : Nat) (j : Job), s.fresh.takeJob 0x16 tag (· == 4) = some (u, pg, j) → u.aseRefusal j = none →
    Acts (.aseCtxFree tag) s fun t => mapFind t.ase.ctxs (natBits j.param1 32 5) = none
      ∧ (mapFind t.jobs tag).bind Job.result = some ⟨0, 0, 0, 0⟩)
  ∧ (∀ (s : State) (n : Fin 32), Acts (.contextFree n) s fun t => mapFind t.ase.ctxs n = none ∧ t.ase.units = s.ase.units)
  -- WRITE, DELETE, READ and CLEAR
  ∧ (∀ (s u : State) (tag pg : Nat) (host : List Byte) (x : Range) (j : Job),
    s.fresh.takeJob 0x16 tag (· == 0x12) = some (u, pg, j) → u.aseRefusal j = none → s.dramSize ≤ sramBase → s.upsets = [] →
    j.src = [x] → x.len = j.srcLen → inSram x.addr x.len = true →
    Acts (.aseWrite tag host) s fun t =>
      let w := s.bankWidth (natBits j.param1 0 6)
      entryUnits (t.bankUnits (natBits j.param1 0 6)) w (natBits j.param1 8 11) = some (recordUnits w (memRead s.mem x.addr x.len))
        ∧ (mapFind t.jobs tag).bind Job.result = some ⟨0, 0, j.srcLen, 0⟩)
  ∧ (∀ (s u : State) (tag pg : Nat) (j : Job), s.fresh.takeJob 0x16 tag (· == 0x13) = some (u, pg, j) → u.aseRefusal j = none →
    Acts (.aseDelete tag) s fun t =>
      entryUnits (t.bankUnits (natBits j.param1 0 6)) (s.bankWidth (natBits j.param1 0 6)) (natBits j.param1 8 11) = none
        ∧ (mapFind t.jobs tag).bind Job.result = some ⟨0, 0, 0, 0⟩)
  ∧ (∀ (s u : State) (tag pg d m : Nat) (j : Job), s.fresh.takeJob 0x16 tag (· == 0x14) = some (u, pg, j) → u.aseRefusal j = none →
    s.dramSize ≤ sramBase → s.upsets = [] → j.dst = [⟨d, m⟩] → inSram d m = true →
    Acts (.aseRead tag) s fun t =>
      let w := s.bankWidth (natBits j.param1 0 6)
      let us := (entryUnits (s.bankUnits (natBits j.param1 0 6)) w (natBits j.param1 8 11)).getD (List.replicate w ⟨0, 0, 0⟩)
      memRead t.mem d (32 * w + 8) = us.flatMap (fun y => leBytes 16 y.key) ++ us.flatMap (fun y => leBytes 16 y.care)
          ++ leBytes 8 (us.headD ⟨0, 0, 0⟩).data
        ∧ (mapFind t.jobs tag).bind Job.result = some ⟨0, 0, 0, 32 * w + 8⟩ ∧ t.ase = u.ase)
  ∧ ∀ (s u : State) (tag pg : Nat) (j : Job), s.fresh.takeJob 0x16 tag (· == 0x15) = some (u, pg, j) → u.aseRefusal j = none →
    Acts (.aseClear tag) s fun t => t.bankUnits (natBits j.param1 0 6) = [] ∧ (mapFind t.jobs tag).bind Job.result = some ⟨0, 0, 0, 0⟩)
  ∧ ((∀ (s u : State) (tag pg : Nat) (host : List Byte) (x : Range) (j : Job),
    s.fresh.takeJob 0x16 tag (· == 0x10) = some (u, pg, j) → u.aseRefusal j = none → s.dramSize ≤ sramBase → s.upsets = [] →
    j.src = [x] → x.len = j.srcLen → inSram x.addr x.len = true → natBits j.param1 20 11 = 0 →
    Acts (.aseLoad tag host) s fun t =>
      let b := natBits j.param1 0 6
      let w := s.bankWidth b
      let n := j.srcLen / (32 * w + 8)
      if 1024 / w < natBits j.param1 8 11 + n then (mapFind t.jobs tag).bind Job.result = some ⟨0x2041, 0, 0, 0⟩ ∧ t.ase = u.ase
      else (mapFind t.jobs tag).bind Job.result = some ⟨0, 0, j.srcLen, 0⟩
        ∧ ∀ i < n, entryUnits (t.bankUnits b) w (natBits j.param1 8 11 + i)
          = some (recordUnits w (memRead s.mem (x.addr + (32 * w + 8) * i) (32 * w + 8))))
  ∧ ∀ (s u : State) (tag pg : Nat) (host : List Byte) (x : Range) (j : Job),
    s.fresh.takeJob 0x16 tag (· == 0x11) = some (u, pg, j) → u.aseRefusal j = none → s.dramSize ≤ sramBase → s.upsets = [] →
    j.src = [x] → x.len = j.srcLen → inSram x.addr x.len = true →
    Acts (.aseInsert tag host) s fun t =>
      let b := natBits j.param1 0 6
      let w := s.bankWidth b
      match insertPlan (s.bankUnits b) w (natBits j.param1 8 11) with
      | none => (mapFind t.jobs tag).bind Job.result = some ⟨0x2041, 0, 0, 0⟩ ∧ t.ase = u.ase ∧ t.bit pAse Reg.EVT_PEND 4 = true
      | some (mv, p) => (mapFind t.jobs tag).bind Job.result = some ⟨0, p, j.srcLen, 0⟩
        ∧ entryUnits (t.bankUnits b) w p = some (recordUnits w (memRead s.mem x.addr x.len))
        ∧ ∀ e ∈ mv, entryUnits (t.bankUnits b) w e.2 = entryUnits (s.bankUnits b) w e.1)

/-- Link and DOE commands (R397 to R400, R402, R404, R406 to R409): each, where it applies, has the effect its rule gives it. -/
def Obligations.LinkCommandsAct : Prop :=
  -- training reaches L0 at the target speed and the width of the working lanes, or ends at Gen1 with link-down
  (∀ (s : State) (p : Fin 2) (best lanes : Nat) (rev : Bool), (s.port p).perst = false → s.lstat p 0 6 = 0 → s.x8Chosen = s.x8 →
    s.portUsed p = true → lanes ≠ 0 → 1 ≤ s.targetSpeed p → s.targetSpeed p ≤ best →
    Acts (.linkTraining p best lanes rev) s fun t => t.lstat p 0 6 = 3 ∧ t.lstat p 8 1 = 1 ∧ t.lstat p 9 3 = s.targetSpeed p
      ∧ t.lstat p 12 4 = s.widthOf lanes ∧ t.lstat p 20 1 = (if rev then 1 else 0) ∧ t.bit (pHib p) Reg.EVT_PEND 4 = true
      ∧ t.fget (pHib p) Reg.HIB_LINKUP 0 32 = min (2 ^ 32 - 1) (s.fget (pHib p) Reg.HIB_LINKUP 0 32 + 1))
  ∧ (∀ (s : State) (p : Fin 2) (lanes : Nat) (rev : Bool), (s.port p).perst = false → s.lstat p 0 6 = 0 → s.x8Chosen = s.x8 →
    s.portUsed p = true → lanes ≠ 0 →
    Acts (.linkTraining p 0 lanes rev) s fun t => t.lstat p 0 6 = 0 ∧ t.lstat p 8 1 = 0 ∧ t.bit (pHib p) Reg.EVT_PEND 5 = true)
  -- link-down: the port is in Detect, and no command of its controller is left
  ∧ (∀ (s : State) (p : Fin 2), s.lstat p 0 6 ≠ 0 →
    Acts (.linkDown p) s fun t => t.lstat p 0 6 = 0 ∧ t.lstat p 8 1 = 0 ∧ t.lstat p 9 3 = 0 ∧ t.lstat p 12 4 = 0
      ∧ t.bit (pHib p) Reg.EVT_PEND 5 = true ∧ (s.isPf p = true → ∀ e ∈ t.cmds, e.2.ctrl ≠ p.val))
  -- a retrain takes the target speed and never widens the link
  ∧ (∀ (s : State) (p : Fin 2) (best lanes : Nat), s.linkUp p = true → s.bit (pHib p) Reg.HIB_LCTL 5 = false → lanes ≠ 0 →
    1 ≤ s.targetSpeed p → s.targetSpeed p ≤ best →
    Acts (.retrain p best lanes) s fun t => t.lstat p 0 6 = 3 ∧ t.lstat p 9 3 = s.targetSpeed p
      ∧ t.lstat p 12 4 = min (s.lstat p 12 4) (s.widthOf lanes) ∧ t.bit (pHib p) Reg.HIB_LCTL 4 = false
      ∧ ((s.targetSpeed p ≠ s.lstat p 9 3 ∨ s.widthOf lanes < s.lstat p 12 4) → t.bit (pHib p) Reg.EVT_PEND 6 = true))
  -- Recovery fails: the third failure in a row steps the speed down
  ∧ (∀ (s : State) (p : Fin 2) (best lanes : Nat), s.linkUp p = true → (s.port p).fails + 1 < 3 →
    Acts (.linkRecovery p false best lanes) s fun t => (t.port p).fails = (s.port p).fails + 1
      ∧ t.lstat p 16 3 = s.lstat p 16 3)
  ∧ (∀ (s : State) (p : Fin 2) (best lanes : Nat), s.linkUp p = true → 2 ≤ (s.port p).fails → 2 ≤ s.lstat p 9 3 →
    s.bit (pHib p) Reg.HIB_LCTL 5 = false → s.lstat p 9 3 = s.lstat p 16 3 → s.lstat p 9 3 ≤ best + 1 → lanes ≠ 0 →
    s.lstat p 9 3 ≤ s.fget (pHib p) Reg.HIB_LCTL 0 3 →
    Acts (.linkRecovery p false best lanes) s fun t => t.lstat p 16 3 = s.lstat p 16 3 - 1 ∧ t.lstat p 9 3 = s.lstat p 9 3 - 1
      ∧ t.bit (pHib p) Reg.EVT_PEND 7 = true)
  -- PERST# holds the port in Detect and takes the step-downs back
  ∧ (∀ (s : State) (p : Fin 2), s.portUsed p = true → (s.port p).perst = false →
    Acts (.perstAssert p) s fun t => (t.port p).perst = true ∧ t.lstat p 0 6 = 0 ∧ t.lstat p 16 3 = 5
      ∧ t.rg (pHib p) Reg.HIB_EQ = 0 ∧ t.bit (pHib p) Reg.EVT_PEND 8 = true)
  ∧ (∀ (s : State) (p : Fin 2), Acts (.perstRelease p) s fun t => (t.port p).perst = false)
  -- L1 and its substates, D3hot and D0
  ∧ (∀ (s : State) (p : Fin 2) (sub : Fin 3) (host : BitVec 3), s.lstat p 0 6 = 3 → s.l1Ok p sub host = true →
    Acts (.l1Entry p sub host) s fun t => t.lstat p 0 6 = 5 ∧ t.lstat p 22 2 = 1 + sub)
  ∧ (∀ (s : State) (p : Fin 2), s.lstat p 0 6 = 5 →
    Acts (.l1Exit p) s fun t => t.lstat p 0 6 = 3 ∧ t.lstat p 22 2 = 0
      ∧ t.fget (pHib p) Reg.HIB_L1_TIME 0 32
        = min (2 ^ 32 - 1) (s.fget (pHib p) Reg.HIB_L1_TIME 0 32 + (s.tb.toNat - (s.port p).l1Since) / 1000000))
  ∧ (∀ (s : State) (k : Fin 256), s.slotEnabled k = true → Acts (.d3hotEntry k) s fun t => (t.func k).d3 = true)
  ∧ (∀ (s : State) (k : Fin 256), Acts (.d0Return k) s fun t => t.func k = { s.func k with d3 := false })
  -- the DOE mailbox: discovery is answered, a CMA/SPDM object waits for the Keeper, abort discards it
  ∧ (∀ (s : State) (p : Fin 2) (obj : List Byte), s.portUsed p = true → s.linkUp p = true → s.bit (pHib p) Reg.HIB_DOE 0 = false →
    obj.length ≤ 4096 → leNat (obj.take 2) = 1 →
    (leNat ((obj.drop 2).take 1) ∈ [1, 2] → Acts (.doeObject p obj) s fun t => (t.port p).doe = some obj
      ∧ t.bit (pHib p) Reg.HIB_DOE 0 = true ∧ t.bit (pHib p) Reg.EVT_PEND 9 = true)
    ∧ (leNat ((obj.drop 2).take 1) = 0 → leNat ((obj.drop 8).take 1) < 3 → Acts (.doeObject p obj) s fun t =>
      t.bit (pHib p) Reg.HIB_DOE 0 = false ∧ (t.port p).doe = none ∧ t.out ≠ []))
  ∧ (∀ (s : State) (p : Fin 2) (obj : List Byte), s.portUsed p = true → s.linkUp p = true → s.bit (pHib p) Reg.HIB_DOE 0 = false →
    4096 < obj.length → Acts (.doeObject p obj) s fun t => t.bit (pHib p) Reg.HIB_DOE 1 = true ∧ (t.port p).doe = (s.port p).doe)
  ∧ ∀ (s : State) (p : Fin 2), Acts (.doeAbort p) s fun t => (t.port p).doe = none ∧ t.bit (pHib p) Reg.HIB_DOE 0 = false

/-- Doorbells, fetching and completion (R419 to R424, R420): each command, where it applies, has the effect its rule gives it. -/
def Obligations.QueueCommandsAct : Prop :=
  (∀ (s : State) (c : Fin 256) (q v : Nat) (k : Sq), s.rdy c = true → mapFind (s.ctrl c).sqs q = some k →
    Acts (.sqDoorbell c q v) s fun t =>
      if v < k.size then mapFind (t.ctrl c).sqs q = some { k with tail := v }
      else mapFind (t.ctrl c).sqs q = some k ∧ (t.ctrl c).aers = (s.ctrl c).aers.drop 1)
  ∧ (∀ (s : State) (c : Fin 256) (q v : Nat) (k : Cq), s.rdy c = true → mapFind (s.ctrl c).cqs q = some k → k.headOk v = true →
    Acts (.cqDoorbell c q v) s fun t => mapFind (t.ctrl c).cqs q = some { k with head := v })
  ∧ (∀ (s : State) (c : Fin 256) (q v : Nat), s.rdy c = true → mapFind (s.ctrl c).cqs q = none →
    Acts (.cqDoorbell c q v) s fun t => (t.ctrl c).aers = (s.ctrl c).aers.drop 1)
  -- a completion that a full queue held back is posted once an entry is free
  ∧ (∀ (s : State) (c : Fin 256) (q tag : Nat) (k : Cq) (e : Cqe) (r : List (Nat × Cqe)), mapFind (s.ctrl c).cqs q = some k →
    k.held = (tag, e) :: r → k.room ≠ 0 →
    Acts (.completionPost c q) s fun t => (mapFind (t.ctrl c).cqs q).map Cq.held = some r ∧ mapFind t.cmds tag = none
      ∧ Out.completion c q e.cid e.sct e.sc e.dnr e.dw0 e.dw1 ∈ t.out)
  ∧ (∀ (s : State) (c : Fin 256) (q : Nat) (k : Cq), mapFind (s.ctrl c).cqs q = some k → k.coalesced ≠ 0 →
    Acts (.interruptCoalescingTimeout c q) s fun t => mapFind (t.ctrl c).cqs q = some { k with coalesced := 0 })
  -- a fetch takes the admin queue first, then the I/O queue of the arbiter's choice, and gives the next stamp
  ∧ (∀ (s : State) (tag c : Nat) (a : Fin 256) (e : Sqe) (k : Sq), s.mayFetch tag = true → s.power.idle = none →
    s.pickAdmin a = some c → mapFind (s.ctrl c).sqs 0 = some k → (s.ctrl c).preAbort = [] → barlisKnows true (s.barlisVer c) e.opc = false →
    s.unknownCmd c true e = none →
    Acts (.commandFetch tag a e) s fun t => t.qen.stamp = s.qen.stamp + 1
      ∧ mapFind t.cmds tag = some ⟨c, 0, k.cq, e, s.qen.stamp + 1, (s.func c).epoch, false, false, 0⟩
      ∧ mapFind (t.ctrl c).sqs 0 = some { k with head := if k.head + 1 = k.size then 0 else k.head + 1 })
  ∧ (∀ (s u : State) (tag c q : Nat) (a : Fin 256) (e : Sqe) (k : Sq), s.mayFetch tag = true → s.power.idle = none →
    s.pickAdmin a = none → s.fresh.pickIo = some (u, c, q) → mapFind (u.ctrl c).sqs q = some k → q ≠ 0 → (u.ctrl c).preAbort = [] →
    barlisKnows false (s.barlisVer c) e.opc = false → s.unknownCmd c false e = none →
    Acts (.commandFetch tag a e) s fun t => t.qen.stamp = s.qen.stamp + 1
      ∧ mapFind t.cmds tag = some ⟨c, q, k.cq, e, s.qen.stamp + 1, (s.func c).epoch, false, false, 0⟩
      ∧ mapFind (t.ctrl c).sqs q = some { k with head := if k.head + 1 = k.size then 0 else k.head + 1 })
  -- a fetched command that the device does not implement completes at once
  ∧ ∀ (s : State) (tag c sc : Nat) (a : Fin 256) (e : Sqe) (k : Sq), s.mayFetch tag = true → s.power.idle = none →
    s.pickAdmin a = some c → mapFind (s.ctrl c).sqs 0 = some k → (s.ctrl c).preAbort = [] →
    barlisKnows true (s.barlisVer c) e.opc = false → s.unknownCmd c true e = some sc →
    (∃ g, mapFind (s.ctrl c).cqs k.cq = some g ∧ g.room ≠ 0 ∧ g.held = []) → tag < miTag →
    Acts (.commandFetch tag a e) s fun t => mapFind t.cmds tag = none
      ∧ ∃ dnr dw0 dw1, Out.completion c k.cq e.cid 0 sc dnr dw0 dw1 ∈ t.out

/-- Admin commands of queues, features, Abort and asynchronous events (R413, R416, R418, R419, R434, R445): each, on a function that runs,
has the effect its rule gives it. -/
def Obligations.AdminCommandsAct : Prop :=
  (∀ (s : State) (tag q n : Nat) (k : Cmd), s.adminReady tag 5 k → q = natBits k.e.d10.toNat 0 16 → n = natBits k.e.d10.toNat 16 16 + 1 →
    q ≠ 0 → q ≤ s.grantCq k.ctrl → mapFind (s.ctrl k.ctrl).cqs q = none → 2 ≤ n → k.e.d11.getLsbD 0 = true →
    natBits k.e.d11.toNat 16 16 < s.msixSize k.ctrl →
    Acts (.createIoCq tag) s fun t => mapFind (t.ctrl k.ctrl).cqs q
      = some ⟨n, 0, 0, true, natBits k.e.d11.toNat 16 16, k.e.d11.getLsbD 1, k.e.prp1, [], 0⟩)
  ∧ (∀ (s : State) (tag q n : Nat) (k : Cmd), s.adminReady tag 1 k → q = natBits k.e.d10.toNat 0 16 →
    n = natBits k.e.d10.toNat 16 16 + 1 → q ≠ 0 → q ≤ s.grantSq k.ctrl → mapFind (s.ctrl k.ctrl).sqs q = none →
    natBits k.e.d11.toNat 16 16 ≠ 0 → mapFind (s.ctrl k.ctrl).cqs (natBits k.e.d11.toNat 16 16) ≠ none → 2 ≤ n →
    k.e.d11.getLsbD 0 = true →
    Acts (.createIoSq tag) s fun t => mapFind (t.ctrl k.ctrl).sqs q
      = some ⟨n, 0, 0, natBits k.e.d11.toNat 16 16, prioOf (natBits k.e.d11.toNat 1 2), k.e.prp1⟩)
  -- a queue beyond the grant
  ∧ (∀ (s : State) (tag op : Nat) (k : Cmd) (i : Instr), (op = 5 ∧ i = .createIoCq tag ∧ s.grantCq k.ctrl < natBits k.e.d10.toNat 0 16
      ∨ op = 1 ∧ i = .createIoSq tag ∧ s.grantSq k.ctrl < natBits k.e.d10.toNat 0 16) →
    s.adminReady tag op k → s.postable tag k → Acts i s fun t => t.answered tag k 1 1)
  ∧ (∀ (s : State) (tag : Nat) (k : Cmd), s.adminReady tag 0 k → natBits k.e.d10.toNat 0 16 ≠ 0 →
    Acts (.deleteIoSq tag) s fun t => mapFind (t.ctrl k.ctrl).sqs (natBits k.e.d10.toNat 0 16) = none)
  ∧ (∀ (s : State) (tag q : Nat) (k : Cmd), s.adminReady tag 4 k → q = natBits k.e.d10.toNat 0 16 → q ≠ 0 →
    (s.ctrl k.ctrl).sqs.any (fun e => e.1 != 0 && e.2.cq == q) = false →
    Acts (.deleteIoCq tag) s fun t => mapFind (t.ctrl k.ctrl).cqs q = none)
  -- Abort: a command not yet accepted ends; anything else is not aborted
  ∧ (∀ (s : State) (tag : Nat) (k : Cmd) (e : Nat × Cmd), s.adminReady tag 8 k → s.aborts k.ctrl ≤ 8 →
    s.cmds.find? (fun e => e.1 != tag && e.2.ctrl == k.ctrl && e.2.sq == natBits k.e.d10.toNat 0 16
      && e.2.e.cid == natBits k.e.d10.toNat 16 16 && !e.2.accepted && !e.2.ended) = some e →
    Acts (.abort tag false) s fun t => ∀ x, mapFind t.cmds e.1 = some x → x.ended = true)
  ∧ (∀ (s : State) (tag : Nat) (k : Cmd), s.adminReady tag 8 k → s.postable tag k → s.aborts k.ctrl ≤ 8 →
    s.cmds.find? (fun e => e.1 != tag && e.2.ctrl == k.ctrl && e.2.sq == natBits k.e.d10.toNat 0 16
      && e.2.e.cid == natBits k.e.d10.toNat 16 16 && !e.2.accepted && !e.2.ended) = none →
    Acts (.abort tag false) s fun t => Out.completion k.ctrl k.cq k.e.cid 0 0 false 1 0 ∈ t.out)
  ∧ (∀ (s : State) (tag : Nat) (k : Cmd), s.adminReady tag 0x0C k → (s.ctrl k.ctrl).aers.length < 4 →
    Acts (.asynchronousEventRequest tag) s fun t => (t.ctrl k.ctrl).aers = (s.ctrl k.ctrl).aers ++ [tag] ∧ t.out = [])
  -- features
  ∧ (∀ (s : State) (tag op v id : Nat) (k : Cmd) (i : Instr),
    (op = 1 ∧ i = .setArbitration tag none ∧ id = 1 ∧ v = k.e.d11.toNat
      ∨ op = 2 ∧ i = .setPowerManagement tag none ∧ id = 2 ∧ v = k.e.d11.toNat % 32 ∧ v ≤ (if s.isPf k.ctrl then 2 else 0)
      ∨ op = 4 ∧ i = .setTemperatureThreshold tag none ∧ id = tempKey k.e.d11.toNat ∧ v = 2 ^ 16 + k.e.d11.toNat % 2 ^ 16
        ∧ natBits k.e.d11.toNat 20 2 ≤ 1
      ∨ op = 8 ∧ i = .setInterruptCoalescing tag none ∧ id = 8 ∧ v = k.e.d11.toNat % 2 ^ 16
      ∨ op = 0x0B ∧ i = .setAsyncEventConfiguration tag none ∧ id = 0x0B ∧ v = k.e.d11.toNat) →
    s.adminReady tag 9 k → k.e.d10.toNat % 256 = op → k.e.d10.getLsbD 31 = false →
    Acts i s fun t => t.feature k.ctrl id = v)
  ∧ (∀ (s : State) (tag p : Nat) (k : Cmd), s.adminReady tag 9 k → k.e.d10.toNat % 256 = 7 → k.e.d10.getLsbD 31 = false →
    natBits k.e.d11.toNat 0 16 ≠ 65535 → natBits k.e.d11.toNat 16 16 ≠ 65535 → p = (s.func k.ctrl).vq - 1 →
    Acts (.setNumberOfQueues tag none) s fun t =>
      (t.ctrl k.ctrl).grantSq = min (natBits k.e.d11.toNat 0 16 + 1) p ∧ (t.ctrl k.ctrl).grantCq = min (natBits k.e.d11.toNat 16 16 + 1) p)
  ∧ (∀ (s : State) (tag : Nat) (k : Cmd), s.adminReady tag 9 k → k.e.d10.toNat % 256 = 9 → k.e.d10.getLsbD 31 = false →
    natBits k.e.d11.toNat 0 16 < s.msixSize k.ctrl →
    Acts (.setInterruptVectorConfiguration tag none) s fun t =>
      (t.ctrl k.ctrl).noCoal.contains (natBits k.e.d11.toNat 0 16) = k.e.d11.getLsbD 16)
  ∧ (∀ (s : State) (tag : Nat) (k : Cmd) (data : List Byte), s.adminReady tag 9 k → k.e.d10.toNat % 256 = 0x0E →
    k.e.d10.getLsbD 31 = false → Acts (.setTimestamp tag data none) s fun t => t.timestamp k.ctrl = leNat (data.take 6))
  ∧ (∀ (s : State) (tag v : Nat) (k : Cmd), s.adminReady tag 9 k → k.e.d10.toNat % 256 = 0xC0 → k.e.d10.getLsbD 31 = false →
    v = natBits k.e.d11.toNat 0 16 → v ∈ [0x0100, 0x0101] → (s.ctrl k.ctrl).barlis = false →
    Acts (.setBarlisVersion tag none) s fun t => t.barlisVer k.ctrl = v)
  ∧ (∀ (s : State) (tag : Nat) (k : Cmd), s.adminReady tag 0x0A k → s.postable tag k → k.e.d10.toNat % 256 ≠ 0x0E →
    Acts (.getFeatures tag none) s fun t => mapFind t.cmds tag = none
      ∧ Out.completion k.ctrl k.cq k.e.cid 0 0 false (s.featDw0 k.ctrl (k.e.d10.toNat % 256) k.e.d11.toNat) 0 ∈ t.out)
  -- CC.EN
  ∧ (∀ (s : State) (c : Fin 256) (wrr : Bool) (n m : Nat), s.slotEnabled c = true → (s.ctrl c).en = true →
    Acts (.controllerReset c false wrr n m) s fun t => (t.ctrl c).en = false ∧ (t.ctrl c).sqs = [] ∧ (t.ctrl c).cqs = []
      ∧ (∀ e ∈ t.cmds, e.2.ctrl ≠ c.val) ∧ (t.ctrl c).defer = (s.ctrl c).defer)
  ∧ ∀ (s : State) (c : Fin 256) (wrr : Bool) (n m : Nat), s.slotEnabled c = true → (s.ctrl c).en = false → 2 ≤ n → n ≤ 4096 → 2 ≤ m →
    m ≤ 4096 → Acts (.controllerReset c true wrr n m) s fun t => (t.ctrl c).en = true ∧ (t.ctrl c).wrr = wrr
      ∧ (mapFind (t.ctrl c).sqs 0).map Sq.size = some n ∧ (mapFind (t.ctrl c).cqs 0).map Cq.size = some m

/-- Namespaces, Format and Sanitize (R413, R438, R442, R497): a change that the journal covers waits for its entry; Format acts at once. -/
def Obligations.NamespaceCommandsAct : Prop :=
  (∀ (s : State) (tag size lbaf pi : Nat) (data : List Byte) (k : Cmd), s.adminReady tag 0x0D k → natBits k.e.d10.toNat 0 4 = 0 →
    k.e.nsid ≠ 1024 → size = leNat (data.take 8) → leNat ((data.drop 8).take 8) = size → size ≠ 0 →
    lbaf = leNat ((data.drop 26).take 1) % 16 → pi = leNat ((data.drop 29).take 1) % 8 → formatOk lbaf pi = true →
    s.freeNsid ≠ none → s.findUnits (unitsFor lbaf size) ≠ none → s.kpr.jfault = false →
    Acts (.namespaceManagement tag data) s fun t => ∃ arg, t.kpr.queue = s.kpr.queue ++
      [⟨9, 0, arg, .nsCreate tag lbaf pi size (natBits (leNat ((data.drop 26).take 1)) 4 1 == 1), 3, 0⟩])
  ∧ (∀ (s : State) (tag : Nat) (data : List Byte) (k : Cmd), s.adminReady tag 0x0D k → natBits k.e.d10.toNat 0 4 = 1 →
    k.e.nsid ≠ 1024 → mapFind s.nss k.e.nsid ≠ none → s.kpr.jfault = false →
    Acts (.namespaceManagement tag data) s fun t => ∃ arg, t.kpr.queue = s.kpr.queue ++ [⟨9, 0, arg, .nsDelete tag k.e.nsid, 3, 0⟩])
  ∧ (∀ (s : State) (tag : Nat) (data : List Byte) (k : Cmd), s.adminReady tag 0x0D k → natBits k.e.d10.toNat 0 4 ≤ 1 → k.e.nsid = 1024 →
    s.postable tag k → Acts (.namespaceManagement tag data) s fun t => t.answered tag k 0 2)
  ∧ (∀ (s : State) (tag sel : Nat) (data : List Byte) (k : Cmd) (n : Ns) (l : List Nat), s.adminReady tag 0x15 k →
    mapFind s.nss k.e.nsid = some n → sel = natBits k.e.d10.toNat 0 4 → sel ≤ 1 →
    l = (List.range (leNat (data.take 2))).map (fun i => leNat ((data.drop (2 + 2 * i)).take 2)) → l ≠ [] → l.length ≤ 2047 →
    (∀ c ∈ l, s.slotEnabled c = true) → l.Nodup → (∀ c ∈ l, n.attached.contains c = (sel == 1)) → s.kpr.jfault = false →
    Acts (.namespaceAttachment tag data) s fun t => ∃ arg, t.kpr.queue = s.kpr.queue ++
      [⟨9, 0, arg, .nsAttach tag k.e.nsid l (sel == 0), 3, 0⟩])
  ∧ (∀ (s : State) (tag : Nat) (k : Cmd) (n : Ns), s.adminReady tag 0x80 k → k.e.nsid ≠ 1024 → k.e.nsid ≠ 0xFFFF_FFFF →
    mapFind s.nss k.e.nsid = some n → formatOk (natBits k.e.d10.toNat 0 4) (natBits k.e.d10.toNat 5 3) = true →
    natBits k.e.d10.toNat 8 1 = 0 → natBits k.e.d10.toNat 9 3 ≤ 2 →
    Acts (.formatNvm tag) s fun t => (∀ b ∈ t.blocks, b.1 / 2 ^ 64 ≠ k.e.nsid)
      ∧ mapFind t.nss k.e.nsid = some { n with
          lbaf := natBits k.e.d10.toNat 0 4, pi := natBits k.e.d10.toNat 5 3, ext := natBits k.e.d10.toNat 4 1 == 1
          size := n.units * 16384 / lbaSize (natBits k.e.d10.toNat 0 4) })
  ∧ (∀ (s : State) (tag : Nat) (k : Cmd), s.adminReady tag 0x80 k → k.e.nsid = 1024 → s.postable tag k →
    Acts (.formatNvm tag) s fun t => t.answered tag k 0 0x0B)
  ∧ ∀ (s : State) (tag act : Nat) (k : Cmd) (i : Instr), (act = 2 ∧ i = .sanitizeBlockErase tag ∨ act = 4 ∧ i = .sanitizeCryptoErase tag) →
    s.adminReady tag 0x84 k → natBits k.e.d10.toNat 0 3 = act →
    (s.kpr.seals = [] → s.kpr.jfault = false → Acts i s fun t => ∃ arg, t.kpr.queue = s.kpr.queue ++ [⟨0x0F, 0, arg, .sanitize tag act, 3, 0⟩])
    ∧ (s.kpr.seals ≠ [] → s.postable tag k → Acts i s fun t => t.answered tag k 7 0xC5)

/-- I/O commands (R414, R425 to R428, R431, R435, R437, R439 to R441), without protection information: each, where nothing holds it back,
has the effect its rule gives it. -/
def Obligations.IoCommandsAct : Prop :=
  -- an earlier-stamped overlapping command holds a command back
  (∀ (s : State) (tag op : Nat) (data mdata : List Byte) (k : Cmd) (i : Instr),
    (op = 1 ∧ i = .write tag data mdata ∨ op = 0x7D ∧ i = .zoneAppend tag data mdata ∨ op = 8 ∧ i = .writeZeroes tag
      ∨ op = 9 ∧ i = .deallocate tag data ∨ op = 2 ∧ i = .read tag ∨ op = 0x0C ∧ i = .verify tag) →
    s.cmdOf tag op false = some k → s.mustWait tag k = true →
    Acts i s fun t => t.blocks = s.blocks ∧ t.cmds = s.cmds ∧ t.out = [])
  -- the first command after a deferred write fault is refused, and clears the flag
  ∧ (∀ (s : State) (tag op : Nat) (data mdata : List Byte) (k : Cmd) (i : Instr),
    (op = 1 ∧ i = .write tag data mdata ∨ op = 0x7D ∧ i = .zoneAppend tag data mdata ∨ op = 8 ∧ i = .writeZeroes tag
      ∨ op = 9 ∧ i = .deallocate tag data ∨ op = 2 ∧ i = .read tag ∨ op = 0x0C ∧ i = .verify tag) →
    s.cmdOf tag op false = some k → (s.func k.ctrl).overCap = false → s.mustWait tag k = false → s.firstPend k = true →
    s.postable tag k →
    Acts i s fun t => t.blocks = s.blocks ∧ mapFind (t.ctrl k.ctrl).pend k.e.nsid = none ∧ t.answered tag k 7 0xC0)
  -- WRITE to a flash namespace, and to a tape-backed zone at its write pointer
  ∧ (∀ (s : State) (tag : Nat) (data mdata : List Byte) (k : Cmd) (n : Ns), s.ioReady tag 1 k n → n.pi = 0 →
    n.xfer k.nlb (piCmd n.lbaf k.e).act ≤ 2097152 → k.nlb * lbaSize n.lbaf ≤ data.length → k.nlb * metaSize n.lbaf ≤ mdata.length →
    (k.e.nsid ≠ 1024 ∧ k.slba + k.nlb ≤ n.size
      ∨ k.e.nsid = 1024 ∧ k.slba + k.nlb ≤ s.zoneCount * s.zsze ∧ s.zoneRefuses (k.slba / s.zsze) (k.slba % s.zsze) k.nlb = none) →
    Acts (.write tag data mdata) s fun t =>
      (∀ i < k.nlb, mapFind t.blocks (blockKey k.e.nsid (k.slba + i)) = some
        ⟨(data.drop (i * lbaSize n.lbaf)).take (lbaSize n.lbaf), (mdata.drop (i * metaSize n.lbaf)).take (metaSize n.lbaf),
          k.stamp, k.ctrl, k.sq, k.e.cid, .buffer, false⟩)
      ∧ (∀ b, (∀ i < k.nlb, b ≠ blockKey k.e.nsid (k.slba + i)) → mapFind t.blocks b = mapFind s.blocks b)
      ∧ (k.e.nsid = 1024 → (t.zone (k.slba / s.zsze)).wp = (s.zone (k.slba / s.zsze)).wp + k.nlb)
      ∧ (s.postable tag k → t.answered tag k 0 0))
  ∧ (∀ (s : State) (tag : Nat) (data mdata : List Byte) (k : Cmd) (n : Ns) (r : Nat × Nat), s.ioReady tag 1 k n → k.e.nsid = 1024 →
    k.slba + k.nlb ≤ s.zoneCount * s.zsze → s.zoneRefuses (k.slba / s.zsze) (k.slba % s.zsze) k.nlb = some r → s.postable tag k →
    Acts (.write tag data mdata) s fun t => t.blocks = s.blocks ∧ t.zones = s.zones ∧ t.answered tag k r.1 r.2)
  -- ZONE_APPEND returns the LBA that it was given
  ∧ (∀ (s : State) (tag lba : Nat) (data mdata : List Byte) (k : Cmd) (n : Ns), s.ioReady tag 0x7D k n → n.pi = 0 → k.e.nsid = 1024 →
    n.xfer k.nlb (piCmd n.lbaf k.e).act ≤ 2097152 → k.nlb * lbaSize n.lbaf ≤ data.length → k.nlb * metaSize n.lbaf ≤ mdata.length →
    k.slba < s.zoneCount * s.zsze → k.slba % s.zsze = 0 →
    s.zoneRefuses (k.slba / s.zsze) (s.zone (k.slba / s.zsze)).wp k.nlb = none → lba = k.slba + (s.zone (k.slba / s.zsze)).wp →
    Acts (.zoneAppend tag data mdata) s fun t =>
      (∀ i < k.nlb, (mapFind t.blocks (blockKey 1024 (lba + i))).map Block.data
        = some ((data.drop (i * lbaSize n.lbaf)).take (lbaSize n.lbaf)))
      ∧ (t.zone (k.slba / s.zsze)).wp = (s.zone (k.slba / s.zsze)).wp + k.nlb
      ∧ (s.postable tag k → Out.completion k.ctrl k.cq k.e.cid 0 0 false (lba % 2 ^ 32) (lba / 2 ^ 32) ∈ t.out))
  -- WRITE_ZEROES and DEALLOCATE: the blocks read as zeros
  ∧ (∀ (s : State) (tag : Nat) (k : Cmd) (n : Ns), s.ioReady tag 8 k n → n.pi = 0 → k.e.nsid ≠ 1024 → k.slba + k.nlb ≤ n.size →
    Acts (.writeZeroes tag) s fun t =>
      (∀ i < k.nlb, (t.readBlock k.e.nsid (k.slba + i) n).1 = List.replicate (lbaSize n.lbaf) 0)
      ∧ (s.postable tag k → t.answered tag k 0 0))
  ∧ (∀ (s : State) (tag : Nat) (data : List Byte) (k : Cmd) (n : Ns), s.ioReady tag 9 k n → k.e.nsid ≠ 1024 →
    natBits k.e.d10.toNat 0 8 = 0 → 16 ≤ data.length → leNat ((data.drop 8).take 8) + leNat ((data.drop 4).take 4) ≤ n.size →
    k.e.d11.getLsbD 2 = true →
    Acts (.deallocate tag data) s fun t =>
      (∀ i < leNat ((data.drop 4).take 4), mapFind t.blocks (blockKey k.e.nsid (leNat ((data.drop 8).take 8) + i)) = none)
      ∧ (s.postable tag k → t.answered tag k 0 0))
  -- READ delivers the blocks, VERIFY checks them; a block that the device cannot deliver ends both
  ∧ (∀ (s : State) (tag : Nat) (k : Cmd) (n : Ns), s.ioReady tag 2 k n → n.pi = 0 → k.e.nsid ≠ 1024 → k.slba + k.nlb ≤ n.size →
    n.xfer k.nlb (k.e.d12.getLsbD 29) ≤ 2097152 → s.firstBad k.e.nsid k.slba k.nlb = none → n.ext = false →
    Acts (.read tag) s fun t =>
      Out.hostData k.ctrl ((List.range k.nlb).flatMap fun i => (s.readBlock k.e.nsid (k.slba + i) n).1) ∈ t.out
      ∧ t.blocks = s.blocks ∧ (s.postable tag k → t.answered tag k 0 0))
  ∧ (∀ (s : State) (tag : Nat) (k : Cmd) (n : Ns), s.ioReady tag 0x0C k n → n.pi = 0 → k.e.nsid ≠ 1024 → k.slba + k.nlb ≤ n.size →
    s.postable tag k →
    Acts (.verify tag) s fun t => t.blocks = s.blocks
      ∧ if s.firstBad k.e.nsid k.slba k.nlb = none then t.answered tag k 0 0 else t.answered tag k 2 0x81)
  ∧ (∀ (s : State) (tag a : Nat) (k : Cmd) (n : Ns), s.ioReady tag 2 k n → n.pi = 0 → k.e.nsid ≠ 1024 → k.slba + k.nlb ≤ n.size →
    n.xfer k.nlb (k.e.d12.getLsbD 29) ≤ 2097152 → s.firstBad k.e.nsid k.slba k.nlb = some a → s.postable tag k →
    Acts (.read tag) s fun t => t.answered tag k 2 0x81 ∧ ∀ c b, Out.hostData c b ∉ t.out)
  -- FLUSH completes once every earlier write of its controller has
  ∧ (∀ (s : State) (tag : Nat) (k : Cmd) (n : Ns), s.ioReady tag 0 k n → k.e.nsid ≠ 0xFFFF_FFFF → s.postable tag k →
    Acts (.flush tag) s fun t => t.blocks = s.blocks
      ∧ if s.flushed k then t.answered tag k 0 0 else t.cmds = s.cmds)
  -- zone actions on one zone
  ∧ (∀ (s : State) (tag : Nat) (k : Cmd) (n : Ns) (i : Instr) (z : Nat) (x : Zone), s.ioReady tag 0x79 k n → k.e.nsid = 1024 →
    k.e.d13.getLsbD 8 = false → k.slba < s.zoneCount * s.zsze → k.slba % s.zsze = 0 → z = k.slba / s.zsze →
    (k.e.d13.toNat % 256 = 1 ∧ i = .zoneClose tag ∧ (s.zone z).state.active = true ∧ x = { s.zone z with state := .closed }
      ∨ k.e.d13.toNat % 256 = 2 ∧ i = .zoneFinish tag ∧ (s.zone z).state ∈ [.empty, .implOpen, .explOpen, .closed]
        ∧ x = { s.zone z with state := .full, wp := s.zcap, staged := true }
      ∨ k.e.d13.toNat % 256 = 3 ∧ i = .zoneOpen tag ∧ (s.zone z).state ∈ [.empty, .implOpen, .explOpen, .closed]
        ∧ s.mayActivate (s.zone z).state = true ∧ x = { s.zone z with state := .explOpen }
      ∨ k.e.d13.toNat % 256 = 4 ∧ i = .zoneReset tag ∧ (s.zone z).state ∉ [.readOnly, .offline] ∧ (s.zone z).sealed = false
        ∧ (s.zone z).destaging = false ∧ x = ⟨.empty, 0, false, false, false, false, 0⟩) →
    Acts i s fun t => t.zone z = x ∧ (s.postable tag k → t.answered tag k 0 0))
  -- a sealed zone is neither reset nor opened
  ∧ (∀ (s : State) (tag : Nat) (k : Cmd) (n : Ns) (i : Instr), s.ioReady tag 0x79 k n → k.e.nsid = 1024 → k.e.d13.getLsbD 8 = false →
    k.slba < s.zoneCount * s.zsze → k.slba % s.zsze = 0 → (s.zone (k.slba / s.zsze)).state = .full →
    (s.zone (k.slba / s.zsze)).sealed = true → (s.zone (k.slba / s.zsze)).destaging = false →
    (k.e.d13.toNat % 256 = 3 ∧ i = .zoneOpen tag ∨ k.e.d13.toNat % 256 = 4 ∧ i = .zoneReset tag) → s.postable tag k →
    Acts i s fun t => t.zones = s.zones ∧ t.answered tag k 7 0xC5)
  -- zone reports
  ∧ ∀ (s : State) (tag : Nat) (k : Cmd) (n : Ns) (i : Instr), s.ioReady tag 0x7A k n → k.e.nsid = 1024 → k.slba < s.zoneCount * s.zsze →
    natBits k.e.d13.toNat 8 8 = 0 → k.e.d13.getLsbD 16 = false →
    (k.e.d13.toNat % 256 = 0 ∧ i = .reportZones tag ∨ k.e.d13.toNat % 256 = 1 ∧ i = .extendedReportZones tag) →
    Acts i s fun t =>
      (∃ d, Out.hostData k.ctrl ((leBytes 8 (s.zoneCount - k.slba / s.zsze) ++ d).take (4 * (k.e.d12.toNat + 1))) ∈ t.out)
      ∧ (s.postable tag k → t.answered tag k 0 0)

/-- Barlis commands of programs and Benches (R453 to R455, R457 to R459): each, where nothing holds it back, has the effect its rule gives
it. -/
def Obligations.BarlisProgramCommandsAct : Prop :=
  -- PROGRAM_LOAD stages pieces in order, and binds a Bench with the last
  (∀ (s : State) (tag cA dA sA : Nat) (data : List Byte) (k : Cmd) (st : List Byte), s.adminReady tag 0xC1 k → k.e.nsid = 0 →
    k.only m32 m32 0xF 0 0 0 = true → natBits k.e.d12.toNat 1 3 ∉ [4, 5, 6] → k.e.d12.getLsbD 0 = false → k.e.d10.toNat ≠ 0 →
    k.e.d10.toNat % 4096 = 0 → k.e.d10.toNat ≤ 2097152 → st = (if k.e.d11.toNat = 0 then [] else (s.ctrl k.ctrl).stage.getD []) →
    (k.e.d11.toNat = st.length → k.e.d11.toNat + k.e.d10.toNat ≤ 0x0400_0000 → k.e.d10.toNat ≤ data.length →
      Acts (.programLoad tag data cA dA sA) s fun t => (t.ctrl k.ctrl).stage = some (st ++ data.take k.e.d10.toNat)
        ∧ (s.postable tag k → t.answered tag k 0 0))
    ∧ (k.e.d11.toNat ≠ st.length → Acts (.programLoad tag data cA dA sA) s fun t => (t.ctrl k.ctrl).stage = none
        ∧ (s.postable tag k → t.answered tag k 0 2)))
  ∧ (∀ (s : State) (tag cA dA sA x : Nat) (data st : List Byte) (k : Cmd), s.adminReady tag 0xC1 k → k.e.nsid = 0 →
    k.only m32 m32 0xF 0 0 0 = true → natBits k.e.d12.toNat 1 3 ∉ [4, 5, 6] → k.e.d12.getLsbD 0 = true → k.e.d10.toNat ≠ 0 →
    k.e.d10.toNat ≤ 2097152 → st = (if k.e.d11.toNat = 0 then [] else (s.ctrl k.ctrl).stage.getD []) → k.e.d11.toNat = st.length →
    k.e.d11.toNat + k.e.d10.toNat ≤ 0x0400_0000 → k.e.d10.toNat ≤ data.length →
    (s.imageStatus (st ++ data.take k.e.d10.toNat) = 0 → s.pickBench k.ctrl (natBits k.e.d12.toNat 1 3) = some x →
      Acts (.programLoad tag data cA dA sA) s fun t => (t.benchOf x).prog.isSome = true ∧ (t.ctrl k.ctrl).stage = none
        ∧ (s.postable tag k → ∃ dw0, Out.completion k.ctrl k.cq k.e.cid 0 0 false dw0 x ∈ t.out))
    ∧ (s.imageStatus (st ++ data.take k.e.d10.toNat) ∈ [0x6001, 0x6002] →
      Acts (.programLoad tag data cA dA sA) s fun t => (t.ctrl k.ctrl).stage = none ∧ t.benches = s.benches
        ∧ (s.postable tag k → t.answered tag k 2 0x86)))
  -- PROGRAM_UNLOAD frees the context of a Bench that is on no core and has no job left
  ∧ (∀ (s : State) (tag : Nat) (k : Cmd), s.adminReady tag 0xC4 k → k.e.nsid = 0 → k.only 0xFFFF 0 0 0 0 0 = true →
    s.ownBench k.ctrl k.e.d10.toNat = true → s.coreOfCtx k.e.d10.toNat = none →
    (∀ r < 4, s.ringBusy (.bench k.e.d10.toNat r) = false) →
    Acts (.programUnload tag) s fun t => (t.benchOf k.e.d10.toNat).state = 0 ∧ (t.benchOf k.e.d10.toNat).prog = none)
  ∧ (∀ (s : State) (tag : Nat) (k : Cmd), s.adminReady tag 0xC4 k → k.e.nsid = 0 → s.ownBench k.ctrl k.e.d10.toNat = false →
    s.postable tag k → Acts (.programUnload tag) s fun t => t.answered tag k 0 2 ∧ t.benches = s.benches)
  -- BENCH_RUN starts on an idle Bench, and waits behind a run in progress
  ∧ (∀ (s : State) (tag inA resA scrA x : Nat) (rb : List Byte) (k : Cmd) (n : Ns), s.ioReady tag 0xC1 k n →
    x = natBits k.e.d10.toNat 0 16 → k.e.d11.toNat ≤ rb.length → s.runFieldsBad k rb = false → s.ownBench k.ctrl x = true →
    ((rbExtents rb).map Prod.snd).sum * lbaSize n.lbaf ≤ 2 ^ 30 →
    (∀ e ∈ rbExtents rb, s.rangeRefuses k.e.nsid n e.1 e.2 = none) → k.e.d12.getLsbD 0 = false →
    (((s.benchOf x).prog.map Prog.winReq).getD 0) &&& s.granted x rb = ((s.benchOf x).prog.map Prog.winReq).getD 0 →
    (s.benchOf x).state ≠ 4 →
    ((s.coreOfCtx x).isSome = true → Acts (.benchRun tag rb inA resA scrA) s fun t =>
      (t.benchOf x).waiting.map BenchTask.tag = (s.benchOf x).waiting.map BenchTask.tag ++ [tag] ∧ (t.benchOf x).run = (s.benchOf x).run
        ∧ (mapFind t.cmds tag).map Cmd.accepted = some true)
    ∧ (s.coreOfCtx x = none → (s.benchOf x).prog.isSome = true → (s.benchOf x).run = none → (s.benchOf x).waiting = [] →
      Acts (.benchRun tag rb inA resA scrA) s fun t => (t.benchOf x).run.map BenchTask.tag = some tag
        ∧ (t.benchOf x).run.map BenchTask.arg = some k.e.d15.toNat ∧ (t.benchOf x).waiting = []
        ∧ (mapFind t.cmds tag).map Cmd.accepted = some true))
  -- BENCH_ATTACH_STREAM takes a free stream; STREAM_FILL closes it with the last block, which completes the command
  ∧ (∀ (s : State) (tag cb buf i x : Nat) (k : Cmd) (n : Ns), s.ioReady tag 0xC0 k n → k.e.nsid = 1024 →
    x = natBits k.e.d10.toNat 0 16 → k.only 0xFFFF m32 m32 0x1F0F 0 0 = true → s.ownBench k.ctrl x = true →
    10 ≤ natBits k.e.d13.toNat 0 4 → 12 ≤ natBits k.e.d13.toNat 8 5 → natBits k.e.d13.toNat 8 5 ≤ 30 →
    k.e.d11.toNat + k.e.d12.toNat * 2 ^ 32 < s.zoneCount * s.zsze → (k.e.d11.toNat + k.e.d12.toNat * 2 ^ 32) % s.zsze = 0 →
    mapFind (s.benchOf x).streams (natBits k.e.d13.toNat 0 4) = none → (s.benchOf x).state ≠ 4 → s.freeStream (x / 64) = some i →
    Acts (.benchAttachStream tag cb buf) s fun t => mapFind (t.benchOf x).streams (natBits k.e.d13.toNat 0 4)
        = some (i, tag, (s.zone ((k.e.d11.toNat + k.e.d12.toNat * 2 ^ 32) / s.zsze)).wp)
      ∧ (t.streamOf i).closed = false ∧ (t.streamOf i).fill = 0 ∧ (mapFind t.cmds tag).map Cmd.accepted = some true)
  ∧ (∀ (s : State) (i : Fin 256) (data : List Byte) (last : Bool) (tag blocks : Nat) (k : Cmd), s.attachOf i = some (tag, blocks) →
    mapFind s.cmds tag = some k → k.ended = false → s.strFld i 0x10 16 1 = 1 → (s.streamOf i).closed = false →
    (s.zone ((k.e.d11.toNat + k.e.d12.toNat * 2 ^ 32) / max 1 s.zsze)).staged = false →
    (s.streamOf i).rel = (s.streamOf i).fill → (s.streamOf i).fill.toNat + data.length = blocks * 4096 →
    data.length ≤ 2 ^ s.strFld i 0x10 0 5 → s.postable tag k →
    Acts (.streamFill i data last) s fun t => (t.streamOf i).closed = true
      ∧ ∃ dw0, Out.completion k.ctrl k.cq k.e.cid 0 0 false dw0 blocks ∈ t.out)
  -- BENCH_STATUS
  ∧ ∀ (s : State) (tag : Nat) (k : Cmd), s.adminReady tag 0xC2 k → k.e.nsid = 0 → k.only 0xFFFF 0 0 0 0 0 = true →
    s.ownBench k.ctrl k.e.d10.toNat = true → s.postable tag k →
    Acts (.benchStatus tag) s fun t => t.answered tag k 0 0
      ∧ ∃ d, d.length = 64 ∧ Out.hostData k.ctrl d ∈ t.out ∧ d.head? = some (BitVec.ofNat 8 (s.benchOf k.e.d10.toNat).state)

/-- Barlis commands over stored data, tables and zones, and Energy Report (R460 to R465): each, where nothing holds it back, has the effect
its rule gives it. -/
def Obligations.BarlisDataCommandsAct : Prop :=
  -- FIXITY_COMPUTE and FIXITY_VERIFY
  (∀ (s : State) (tag : Nat) (want : List Byte) (k : Cmd) (n : Ns) (d : List Byte),
    k.only m32 m32 m32 0x10F 0 0 = true → algOut (natBits k.e.d13.toNat 0 4) ≠ 0 →
    s.rangeRefuses k.e.nsid n k.slba (k.e.d12.toNat + 1) = none → (s.engFree 0x15).isSome = true →
    d = algDigest (natBits k.e.d13.toNat 0 4) (s.rangeData k.e.nsid n k.slba (k.e.d12.toNat + 1) (k.e.d13.getLsbD 8)) →
    (s.ioReady tag 0xC2 k n → Acts (.fixityCompute tag []) s fun t => Out.hostData k.ctrl d ∈ t.out
      ∧ (s.postable tag k → t.answered tag k 0 0))
    ∧ (s.ioReady tag 0xC5 k n → s.postable tag k → Acts (.fixityVerify tag want []) s fun t =>
      ∃ dw0, Out.completion k.ctrl k.cq k.e.cid 0 0 false dw0 (if want.take d.length = d then 0 else 1) ∈ t.out))
  ∧ (∀ (s : State) (tag : Nat) (want : List Byte) (k : Cmd) (n : Ns) (r : Nat × Nat), k.only m32 m32 m32 0x10F 0 0 = true →
    algOut (natBits k.e.d13.toNat 0 4) ≠ 0 → s.rangeRefuses k.e.nsid n k.slba (k.e.d12.toNat + 1) = some r →
    s.ioReady tag 0xC5 k n → s.postable tag k → Acts (.fixityVerify tag want []) s fun t => t.answered tag k r.1 r.2)
  -- TRANSFORM: the header and the engine's output, or the status that the engine's maps to
  ∧ (∀ (s u : State) (tag pg : Nat) (k : Cmd) (n : Ns) (x : JobResult) (out : List Byte), s.ioReady tag 0xC6 k n →
    natBits k.e.d13.toNat 0 3 = 3 → k.only m32 m32 m32 7 0xF1FF m32 = true → 65 ≤ k.e.d15.toNat → k.e.d15.toNat ≤ 2097152 →
    k.slba * lbaSize n.lbaf % 2 ^ natBits k.e.d14.toNat 12 4 = 0 → s.rangeRefuses k.e.nsid n k.slba (k.e.d12.toNat + 1) = none →
    s.engFree 0x14 = some pg →
    (State.cmdCharge s.fresh tag []).engRun tag
      (cmdJob k.ctrl 0x14 1 (k.slba * lbaSize n.lbaf / 2 ^ natBits k.e.d14.toNat 12 4)
        (natBits k.e.d14.toNat 0 9 + natBits k.e.d14.toNat 12 4 * 2 ^ 12))
      (s.rangeData k.e.nsid n k.slba (k.e.d12.toNat + 1) false) (k.e.d15.toNat - 64) (fun s j => s.transformRun tag pg j) = (u, x, out) →
    (x.status < 0x200 → Acts (.transform tag []) s fun t => Out.hostData k.ctrl (leBytes 8 x.bytesIn ++ leBytes 8 x.bytesOut
        ++ leBytes 2 x.status ++ leBytes 2 x.detail ++ List.replicate 44 0 ++ out) ∈ t.out)
    ∧ (x.status / 256 = 0x60 → u.postable tag k → mapFind u.cmds tag = some k →
      Acts (.transform tag []) s fun t => t.answered tag k 2 0x86 ∧ ∀ c b, Out.hostData c b ∈ t.out → Out.hostData c b ∈ u.out))
  -- SEARCH frees a context, and delivers what the engine writes
  ∧ (∀ (s : State) (tag : Nat) (k : Cmd), s.cmdOf tag 0xC7 false = some k → k.e.nsid = 0 → k.only 0x30F m32 0x1F m32 0 0 = true →
    natBits k.e.d10.toNat 8 2 = 3 → k.e.d11 = 0 → k.e.d13 = 0 → (s.engFree 0x16).isSome = true →
    s.aseRefusal (cmdJob k.ctrl 0x16 4 (natBits k.e.d10.toNat 0 4) (natBits k.e.d12.toNat 0 5 * 2 ^ 32)) = none →
    Acts (.search tag [] []) s fun t => mapFind t.ase.ctxs (natBits k.e.d12.toNat 0 5) = none
      ∧ (s.postable tag k → t.answered tag k 0 0))
  ∧ (∀ (s u : State) (tag w c : Nat) (data out : List Byte) (k : Cmd) (x : JobResult), s.cmdOf tag 0xC7 false = some k → k.e.nsid = 0 →
    k.only 0x30F m32 0x1F m32 0 0 = true → natBits k.e.d10.toNat 8 2 = 0 → k.e.d12 = 0 → w = s.aseWidth (natBits k.e.d10.toNat 0 4) →
    c = k.e.d11.toNat → k.e.d13.toNat % 16 = 0 → k.e.d13.toNat ≤ 2097152 → 16 * w * c ≤ k.e.d13.toNat → 16 * c ≤ k.e.d13.toNat →
    16 * w * c ≤ data.length → (s.engFree 0x16).isSome = true →
    (State.cmdCharge s.fresh tag []).engRun tag (cmdJob k.ctrl 0x16 1 (natBits k.e.d10.toNat 0 4) 0) (data.take (16 * w * c)) (16 * c)
      (fun s j => match s.aseRefusal j with
        | some e => s.aseFail tag e
        | none => s.aseSearch tag j []) = (u, x, out) → x.status < 0x200 → out ≠ [] →
    Acts (.search tag data []) s fun t => Out.hostData k.ctrl out ∈ t.out)
  -- INDEX_LOAD updates a bank
  ∧ (∀ (s : State) (tag : Nat) (k : Cmd), s.cmdOf tag 0xC9 false = some k → k.e.nsid = 0 →
    k.only 0x73F0F 0x7FF007FF m32 0 0 0 = true → natBits k.e.d10.toNat 16 3 = 4 → k.e.d12 = 0 → natBits k.e.d11.toNat 0 11 ≤ 1024 →
    natBits k.e.d11.toNat 20 11 = 0 → (s.engFree 0x16).isSome = true →
    s.aseRefusal (cmdJob k.ctrl 0x16 0x15 (natBits k.e.d10.toNat 0 4) (natBits k.e.d10.toNat 8 6)) = none →
    Acts (.indexLoad tag [] []) s fun t => t.bankUnits (natBits k.e.d10.toNat 8 6) = [] ∧ (s.postable tag k → t.answered tag k 0 0))
  -- STAGE_ZONE: at once if staged, not without room, and staged when the tape has been read
  ∧ (∀ (s : State) (tag : Nat) (room : Bool) (done : Option (List Nat)) (k : Cmd) (n : Ns), s.ioReady tag 0xC8 k n → k.e.nsid = 1024 →
    k.only m32 m32 0 0 0 0 = true → k.slba < s.zoneCount * s.zsze → k.slba % s.zsze = 0 →
    ((s.zone (k.slba / s.zsze)).staged = true → s.postable tag k → Acts (.stageZone tag room done) s fun t => t.answered tag k 0 0
      ∧ t.zones = s.zones)
    ∧ ((s.zone (k.slba / s.zsze)).staged = false → (s.zone (k.slba / s.zsze)).wp ≠ 0 →
      (room = false → s.postable tag k → Acts (.stageZone tag room done) s fun t => t.answered tag k 0 0x21 ∧ t.zones = s.zones)
      ∧ (room = true → done = none → Acts (.stageZone tag room done) s fun t => (mapFind t.cmds tag).map Cmd.accepted = some true
        ∧ t.divertOn = false ∧ (k.sq ≠ 0 → k.ended = false → t.stageRuns = true))
      ∧ (room = true → done = some [] → Acts (.stageZone tag room done) s fun t => (t.zone (k.slba / s.zsze)).staged = true
        ∧ (s.postable tag k → t.answered tag k 0 0))))
  -- DESTAGE_ZONE completes once the zone is destaged, and evicts its copy; it fails where the destage did; else it waits its turn
  ∧ (∀ (s : State) (tag : Nat) (k : Cmd) (n : Ns), s.ioReady tag 0xC4 k n → k.e.nsid = 1024 → k.only m32 m32 1 0 0 0 = true →
    k.slba < s.zoneCount * s.zsze → k.slba % s.zsze = 0 →
    ((s.zone (k.slba / s.zsze)).destaged = true → Acts (.destageZone tag) s fun t =>
      (t.zone (k.slba / s.zsze)).staged = (!k.e.d12.getLsbD 0 && (s.zone (k.slba / s.zsze)).staged)
        ∧ (s.postable tag k → t.answered tag k 0 0))
    ∧ ((s.zone (k.slba / s.zsze)).destaged = false → (s.zone (k.slba / s.zsze)).state = .readOnly → s.postable tag k →
      Acts (.destageZone tag) s fun t => t.answered tag k 2 0x80)
    ∧ ((s.zone (k.slba / s.zsze)).destaged = false → (s.zone (k.slba / s.zsze)).state = .full → s.zones.any (·.2.destaging) = true →
      Acts (.destageZone tag) s fun t => (mapFind t.cmds tag).map Cmd.accepted = some true ∧ t.zones = s.zones))
  -- SEAL_ZONE waits for the destage, then for its journal entry
  ∧ (∀ (s : State) (tag : Nat) (k : Cmd) (n : Ns), s.ioReady tag 0xCC k n → k.e.nsid = 1024 → k.only m32 m32 1 0 0 0 = true →
    k.slba < s.zoneCount * s.zsze → k.slba % s.zsze = 0 →
    (k.e.d12 = 1 → s.sealOk k.ctrl = true → (s.zone (k.slba / s.zsze)).state = .full → (s.zone (k.slba / s.zsze)).sealed = false →
      (s.zone (k.slba / s.zsze)).destaged = true → s.kpr.jfault = false →
      s.kpr.queue.any (fun i => i.change == .seal tag (k.slba / s.zsze)) = false →
      Acts (.sealZone tag) s fun t => ∃ arg, t.kpr.queue = s.kpr.queue ++ [⟨0x0A, 0, arg, .seal tag (k.slba / s.zsze), 3, 0⟩])
    ∧ (k.e.d12 = 1 → s.sealOk k.ctrl = false → s.postable tag k → Acts (.sealZone tag) s fun t => t.answered tag k 2 0x86)
    ∧ (k.e.d12 = 0 → s.postable tag k → Acts (.sealZone tag) s fun t => t.answered tag k 0 2)
    ∧ (k.e.d12 = 1 → s.sealOk k.ctrl = true → (s.zone (k.slba / s.zsze)).state ≠ .full → s.postable tag k →
      Acts (.sealZone tag) s fun t => t.answered tag k 0 2))
  -- ENERGY_REPORT
  ∧ ∀ (s : State) (tag total power cap : Nat) (ents : List Byte) (k : Cmd), s.adminReady tag 0xC6 k → k.e.nsid = 0 →
    s.energyScope k = some (total, power, cap, ents) →
    k.only 3 (if natBits k.e.d10.toNat 0 2 = 1 then 0xFFFF else 0) m32 0 0 0 = true → 64 + ents.length ≤ k.e.d12.toNat →
    Acts (.energyReport tag) s fun t => Out.hostData k.ctrl (leBytes 2 (ents.length / 16) ++ leBytes 2 (natBits k.e.d10.toNat 0 2)
        ++ leBytes 4 0 ++ leBytes 8 total ++ leBytes 4 power ++ leBytes 4 cap ++ leBytes 8 s.tb.toNat ++ List.replicate 32 0 ++ ents) ∈ t.out
      ∧ (s.postable tag k → t.answered tag k 0 0)

/-- Function resets, VFs, vectors, Virtualization Management, the Transom and energy caps (R466 to R482): each command, where nothing holds
it back, has the effect its rule gives it. -/
def Obligations.FunctionCommandsAct : Prop :=
  -- FLR: the epoch advances, work and keys of the function are gone, its controls stay, and it runs again
  (∀ (s : State) (f : Fin 256), s.slotEnabled f = true → Acts (.flr f) s fun t =>
    (t.func f).epoch = (s.func f).epoch + 1 ∧ (t.func f).flrCnt = satAdd 65535 (s.func f).flrCnt 1 ∧ (t.func f).mig = .running
      ∧ (t.func f).ctl = (s.func f).ctl ∧ (t.func f).granted = (s.func f).granted ∧ (∀ e ∈ t.cmds, e.2.ctrl ≠ f.val)
      ∧ (∀ e ∈ t.kpr.keys, e.2.owner ≠ f.val) ∧ (t.ctrl f).defer = (s.ctrl f).defer ∧ (t.ctrl f).pend = (s.ctrl f).pend)
  -- NumVFs with VF Enable, within TotalVFs; and VF Enable cleared
  ∧ (∀ (s : State) (p : Fin 2) (n : Nat), s.isPf p = true → n ≠ 0 → mapFind s.numVfs p = none →
    n ≤ (if s.x8 then 255 else if p = 0 then s.n0 else 254 - s.n0) →
    Acts (.numvfsWrite p n) s fun t => mapFind t.numVfs p = some n ∧ t.funcs = s.funcs)
  ∧ (∀ (s : State) (p : Fin 2), s.isPf p = true → Acts (.numvfsWrite p 0) s fun t => mapFind t.numVfs p = none)
  -- a vector is unmasked: its entry, and the message that pended
  ∧ (∀ (s : State) (f : Fin 256) (v : Fin 2048) (a : BitVec 64) (d : BitVec 32), s.slotEnabled f = true → v.val < s.msixSize f →
    Acts (.msixUnmask f v a d) s fun t => mapFind (t.func f).unmasked v = some (a.toNat, d.toNat) ∧ v.val ∉ (t.func f).msixPend
      ∧ ((s.func f).msixPend.contains v.val = true → s.usable f = true → Out.msix f v ∈ t.out))
  -- Primary Flexible Allocation, and its refusals
  ∧ (∀ (s : State) (tag n : Nat) (k : Cmd), s.adminReady tag 0x1C k → natBits k.e.d10.toNat 0 4 = 1 → k.cntlid = k.ctrl →
    n = k.resNum → s.postable tag k →
    (k.resType = 0 → n + s.drawn k.ctrl 0 256 ≤ s.pool k.ctrl → Acts (.primaryFlexibleAllocation tag) s fun t =>
      (t.func k.ctrl).flexVq = some n ∧ (t.func k.ctrl).vq = (s.func k.ctrl).vq ∧ t.answered tag k 0 0)
    ∧ (k.resType = 1 → n + s.drawn k.ctrl 1 256 ≤ s.pool k.ctrl → 64 + n ≤ 2048 → Acts (.primaryFlexibleAllocation tag) s fun t =>
      (t.func k.ctrl).flexVi = some n ∧ (t.func k.ctrl).vi = (s.func k.ctrl).vi ∧ t.answered tag k 0 0)
    ∧ (k.resType = 1 → 2048 < 64 + n → Acts (.primaryFlexibleAllocation tag) s fun t =>
      (t.func k.ctrl).flexVi = (s.func k.ctrl).flexVi ∧ t.answered tag k 1 0x21))
  -- Secondary Assign, Online and Offline
  ∧ (∀ (s : State) (tag n : Nat) (k : Cmd), s.adminReady tag 0x1C k → natBits k.e.d10.toNat 0 4 = 8 →
    s.isSecondary k.ctrl k.cntlid = true → k.cntlid ≠ k.ctrl → n = k.resNum → s.postable tag k →
    ((s.func k.cntlid).online = true → k.resType < 2 → Acts (.secondaryAssign tag) s fun t =>
      t.answered tag k 1 0x20 ∧ (t.func k.cntlid).vq = (s.func k.cntlid).vq ∧ (t.func k.cntlid).vi = (s.func k.cntlid).vi)
    ∧ ((s.func k.cntlid).online = false → k.resType = 0 → n ≤ 2049 →
      n - 1 + s.drawn k.ctrl 0 k.cntlid + s.flexOf k.ctrl 0 ≤ s.pool k.ctrl →
      Acts (.secondaryAssign tag) s fun t => (t.func k.cntlid).vq = n ∧ t.answered tag k 0 0)
    ∧ ((s.func k.cntlid).online = false → k.resType = 1 → n ≤ 2048 →
      n + s.drawn k.ctrl 1 k.cntlid + s.flexOf k.ctrl 1 ≤ s.pool k.ctrl →
      Acts (.secondaryAssign tag) s fun t => (t.func k.cntlid).vi = n ∧ t.answered tag k 0 0)
    ∧ ((s.func k.cntlid).online = false → (k.resType = 0 ∧ 2049 < n ∨ k.resType = 1 ∧ 2048 < n) →
      Acts (.secondaryAssign tag) s fun t => t.answered tag k 1 0x21))
  ∧ (∀ (s : State) (tag : Nat) (k : Cmd), s.adminReady tag 0x1C k → natBits k.e.d10.toNat 0 4 = 9 →
    s.isSecondary k.ctrl k.cntlid = true → k.cntlid ≠ k.ctrl → (s.func k.cntlid).online = false → s.postable tag k →
    (2 ≤ (s.func k.cntlid).vq → 1 ≤ (s.func k.cntlid).vi → Acts (.secondaryOnline tag) s fun t =>
      (t.func k.cntlid).online = true ∧ (t.func k.cntlid).ctl = ⟨64, 0, 0, 0⟩
        ∧ t.answered tag k 0 0)
    ∧ ((s.func k.cntlid).vq < 2 ∨ (s.func k.cntlid).vi < 1 → Acts (.secondaryOnline tag) s fun t =>
      (t.func k.cntlid).online = false ∧ t.answered tag k 1 0x21))
  ∧ (∀ (s : State) (tag : Nat) (k : Cmd), s.adminReady tag 0x1C k → natBits k.e.d10.toNat 0 4 = 7 →
    s.isSecondary k.ctrl k.cntlid = true → k.cntlid ≠ k.ctrl →
    ((s.func k.cntlid).mig = .running → (s.func k.cntlid).online = true → Acts (.secondaryOffline tag) s fun t =>
      (t.func k.cntlid).online = false ∧ (t.func k.cntlid).epoch = (s.func k.cntlid).epoch + 1 ∧ ∀ e ∈ t.cmds, e.2.ctrl ≠ k.cntlid)
    ∧ ((s.func k.cntlid).mig ∈ [.draining, .saving, .restoring] → s.postable tag k → Acts (.secondaryOffline tag) s fun t =>
      (t.func k.cntlid).online = (s.func k.cntlid).online ∧ t.answered tag k 0 0x0C))
  -- doorbells of either side set their bits once a version is agreed, and only then
  ∧ (∀ (s : State) (k : Fin 256) (db : BitVec 64), s.upsets = [] →
    (s.agreed k ≠ 0 → Acts (.transomDoorbell k true [] db) s fun t => t.tGet k 8 = s.tGet k 8 ||| (db.toNat &&& 0x1_FFFF_FFFC))
    ∧ (s.agreed k = 0x0100 → Acts (.transomDoorbell k false [] db) s fun t =>
      t.tGet k 0x48 = s.tGet k 0x48 ||| (db.toNat &&& 0xFFFF_FFFE_0000_0000))
    ∧ (s.agreed k = 0 → ∀ tenant, Acts (.transomDoorbell k tenant [] db) s fun t => t.mem = s.mem))
  -- negotiation: the highest common version, or a failure; and READY cleared ends the agreement
  ∧ (∀ (s : State) (k : Fin 256) (lo hi : Nat), s.upsets = [] → s.agreed k = 0 → natBits (s.tGet k 0x40) 32 1 = 1 →
    lo = max (max (s.tGet k 0 % 2 ^ 16) (s.tGet k 0x40 % 2 ^ 16)) 0x0100 →
    hi = min (min (natBits (s.tGet k 0) 16 16) (natBits (s.tGet k 0x40) 16 16)) 0x0101 →
    (lo ≤ hi → Acts (.transomReady k true [] true) s fun t => t.agreed k = hi)
    ∧ (hi < lo → Acts (.transomReady k true [] true) s fun t => t.agreed k = 0 ∧ natBits (t.tGet k 0x60) 16 1 = 1))
  ∧ (∀ (s : State) (k : Fin 256) (tenant : Bool), s.upsets = [] → Acts (.transomReady k tenant [] false) s fun t =>
    t.agreed k = 0 ∧ t.tGet k 8 = 0 ∧ t.tGet k 0x48 = 0)
  -- energy caps: the mean, the 95 % rule, and event and notice at a change
  ∧ ∀ (s : State) (k : Nat) (f : Func), (s.funcs.map Prod.fst).Nodup → mapFind s.funcs k = some f → njSum f.nj ≠ 0 →
    Acts .capEvaluation s fun t => (t.func k).mean = (ratio ((njSum f.nj - f.hist.getD 99 0 : Nat) : Int) 1000000).toNat
      ∧ (f.ctl.ecap = 0 → (t.func k).overCap = false)
      ∧ (f.ctl.ecap ≠ 0 → f.mig ∉ [.frozen, .saved] →
        ((t.func k).overCap = true ↔ if f.overCap = true then f.ctl.ecap * 95 < (t.func k).mean * 100 else f.ctl.ecap < (t.func k).mean))

/-- The manager's requests at CTRL_GO, and freeze, save and restore (R471, R483 to R489): each moves the migration state as the table of
R483 lists, and one that it does not list is refused. -/
def Obligations.MigrationCommandsAct : Prop :=
  -- APPLY_CONTROLS: in force at once, or stored while frozen or saved
  (∀ (s : State) (k : Fin 256) (c : Controls) (bad : Bool), s.upsets = [] → (s.func k).result ≠ 1 →
    s.wantControls k ((s.func k).later.getD (s.func k).ctl) = (c, bad) → Acts (.applyControls k []) s fun t =>
      (t.func k).result = (if bad then 3 else 2)
      ∧ ((s.func k).mig ∉ [.frozen, .saved] → (t.func k).ctl = c
        ∧ ∀ i < 16, s.tableOwner i = 0xFFFF → natBits c.tables i 1 = 1 → t.tableOwner i = k.val)
      ∧ ((s.func k).mig ∈ [.frozen, .saved] → (t.func k).ctl = (s.func k).ctl ∧ (t.func k).later = some c))
  -- a request while RESULT is busy is ignored and counted
  ∧ (∀ (s : State) (k : Fin 256) (i : Instr), i ∈ [Instr.applyControls k [], .freeze k [] 0, .thaw k [], .save k [], .restore k [],
      .release k []] → (s.func k).result = 1 → Acts i s fun t =>
      (t.func k).mig = (s.func k).mig ∧ (t.func k).ctl = (s.func k).ctl ∧ (t.func k).result = 1
        ∧ (t.rg pImg (Reg.ERR_CNT 1)).toNat = satAdd (2 ^ 32 - 1) (s.rg pImg (Reg.ERR_CNT 1)).toNat 1)
  -- FREEZE
  ∧ (∀ (s : State) (k : Fin 256) (w : BitVec 16), s.upsets = [] → (s.func k).result ≠ 1 →
    ((s.func k).mig ∈ [.running, .draining] → Acts (.freeze k [] w) s fun t => (t.func k).mig = .draining ∧ (t.func k).result = 1
      ∧ (t.func k).frzAt = some (s.tb.toNat + 1000000 * (if w = 0 then 1000 else w.toNat)))
    ∧ ((s.func k).mig ∈ [.frozen, .saving, .saved, .restoring] → Acts (.freeze k [] w) s fun t =>
      (t.func k).mig = (s.func k).mig ∧ (t.func k).result = 3))
  -- THAW
  ∧ (∀ (s : State) (k : Fin 256), s.upsets = [] → (s.func k).result ≠ 1 →
    ((s.func k).mig ∈ [.draining, .frozen, .saved] → Acts (.thaw k []) s fun t => (t.func k).mig = .running ∧ (t.func k).later = none)
    ∧ ((s.func k).mig ∈ [.running, .saving, .restoring] → Acts (.thaw k []) s fun t =>
      (t.func k).mig = (s.func k).mig ∧ (t.func k).result = 3))
  -- SAVE
  ∧ (∀ (s : State) (k : Fin 256), s.upsets = [] → (s.func k).result ≠ 1 →
    ((s.func k).mig = .frozen → Acts (.save k []) s fun t => (t.func k).mig = .saving ∧ (t.func k).result = 1)
    ∧ ((s.func k).mig ≠ .frozen → Acts (.save k []) s fun t => (t.func k).mig = (s.func k).mig ∧ (t.func k).result = 3))
  -- RESTORE
  ∧ (∀ (s : State) (k : Fin 256), s.upsets = [] → (s.func k).result ≠ 1 → (s.func k).mig = .running →
    (s.isPf k = false → s.slotEnabled k = true → (s.func k).online = false → Acts (.restore k []) s fun t =>
      (t.func k).mig = .restoring ∧ (t.func k).result = 1)
    ∧ (s.isPf k = true ∨ (s.func k).online = true → Acts (.restore k []) s fun t =>
      (t.func k).mig = .running ∧ (t.func k).result = 3))
  -- RELEASE
  ∧ (∀ (s : State) (k : Fin 256), s.upsets = [] → (s.func k).result ≠ 1 →
    ((s.func k).mig = .saved → Acts (.release k []) s fun t => (t.func k).mig = .running
      ∧ (t.func k).epoch = (s.func k).epoch + 1 ∧ (∀ e ∈ t.cmds, e.2.ctrl ≠ k.val) ∧ ∀ e ∈ t.kpr.keys, e.2.owner ≠ k.val)
    ∧ ((s.func k).mig ≠ .saved → Acts (.release k []) s fun t => (t.func k).mig = (s.func k).mig ∧ (t.func k).result = 3))
  -- the drain ends, or its limit runs out first
  ∧ (∀ (s : State) (k : Fin 256), (s.func k).mig = .draining → (s.func k).frzAt.isSome = true →
    (s.drained k = true → Acts (.freezeDrained k) s fun t => (t.func k).mig = .frozen ∧ (t.func k).result = 2 ∧ (t.func k).overCap = false)
    ∧ (s.drained k = false → Acts (.freezeTimeout k) s fun t =>
      (t.func k).mig = .draining ∧ (t.func k).result = 4 ∧ (t.func k).frzAt = none))
  -- SAVE ends: the blob, or RESULT 5 or 0xC and the function frozen again; all its state stays
  ∧ (∀ (s : State) (k : Fin 256) (m : KeySlot) (len : Nat), (s.func k).mig = .saving → s.kpr.migKey = some m →
    len = 144 + (s.blobSections k).flatten.length →
    (len ≤ 0x0400_0000 → len ≤ s.blobLen k → Acts (.saveEnd k true) s fun t => (t.func k).mig = .saved ∧ (t.func k).result = 2
      ∧ t.cmds = s.cmds ∧ t.ctrls = s.ctrls ∧ t.kpr.keys = s.kpr.keys ∧ t.benches = s.benches
      ∧ (∃ b, b.take 4 = [0x47, 0x41, 0x49, 0x42] ∧ Out.hostData (s.parent k) b ∈ t.out) ∧ (s.upsets = [] → t.blobLen k = len))
    ∧ (len ≤ 0x0400_0000 → len ≤ s.blobLen k → Acts (.saveEnd k false) s fun t => (t.func k).mig = .frozen ∧ (t.func k).result = 0xC)
    ∧ (0x0400_0000 < len ∨ s.blobLen k < len → ∀ ok, Acts (.saveEnd k ok) s fun t => (t.func k).mig = .frozen ∧ (t.func k).result = 5))
  -- RESTORE ends: every check, then the function online and frozen under a new epoch
  ∧ ∀ (s : State) (k : Fin 256) (blob : List Byte) (places : List (Nat × Nat × Nat)), (s.func k).mig = .restoring →
    Acts (.restoreEnd k false blob places) s (fun t => (t.func k).mig = .running ∧ (t.func k).result = 0xC)
    ∧ (∀ r, s.readBlob k blob = .error r → Acts (.restoreEnd k true blob places) s fun t =>
      (t.func k).mig = .running ∧ (t.func k).result = r ∧ (t.func k).epoch = (s.func k).epoch ∧ t.nss = s.nss ∧ t.ctrls = s.ctrls)
    ∧ ∀ x, s.readBlob k blob = .ok x →
      (s.restoreStatus k x ≠ 0 → Acts (.restoreEnd k true blob places) s fun t =>
        (t.func k).mig = .running ∧ (t.func k).result = s.restoreStatus k x ∧ (t.func k).epoch = (s.func k).epoch ∧ t.nss = s.nss)
      ∧ (s.restoreStatus k x = 0 → Acts (.restoreEnd k true blob places) s fun t => (t.func k).mig = .frozen
        ∧ (t.func k).online = true ∧ (t.func k).epoch = (s.func k).epoch + 1 ∧ (t.func k).result = 2)

/-- SPDM requests (R409, R496, R510, R511): each, where the Keeper answers it, is answered as its rule says, through the mailbox or NVMe-MI
alike. -/
def Obligations.AttestationCommandsAct : Prop :=
  (∀ (s : State) (src : Fin 3) (msg m : List Byte) (typ : Nat), s.asked src msg 0x84 0x10 typ m →
    Acts (.getVersion src msg) s fun t => t.told src typ [0x10, 0x04, 0, 0, 0, 1, 0, 0x12])
  -- a request at any other version than 1.2
  ∧ (∀ (s : State) (src : Fin 3) (msg m : List Byte) (typ ver : Nat), ver ≠ 0x12 →
    (s.asked src msg 0x82 ver typ m → Acts (.getCertificate src msg) s fun t => t.told src typ [0x12, 0x7F, 0x41, 0])
    ∧ (s.asked src msg 0xE0 ver typ m → Acts (.getMeasurements src msg) s fun t => t.told src typ [0x12, 0x7F, 0x41, 0])
    ∧ (s.asked src msg 0x83 ver typ m → Acts (.challenge src msg) s fun t => t.told src typ [0x12, 0x7F, 0x41, 0])
    ∧ (s.asked src msg 0xE4 ver typ m → Acts (.keyExchange src msg) s fun t => t.told src typ [0x12, 0x7F, 0x41, 0])
    ∧ (s.asked src msg 0xEE ver typ m → Acts (.setCertificate src msg) s fun t => t.told src typ [0x12, 0x7F, 0x41, 0]))
  -- in Retired, GET_VERSION, GET_CERTIFICATE and GET_MEASUREMENTS only
  ∧ (∀ (s : State) (src : Fin 3) (msg m : List Byte) (typ : Nat), s.kpr.fuses.lcs = 4 →
    (s.asked src msg 0x83 0x12 typ m → Acts (.challenge src msg) s fun t => t.told src typ [0x12, 0x7F, 7, 0])
    ∧ (s.asked src msg 0xE4 0x12 typ m → Acts (.keyExchange src msg) s fun t => t.told src typ [0x12, 0x7F, 7, 0] ∧ t.kpr = s.kpr)
    ∧ (s.asked src msg 0xEE 0x12 typ m → Acts (.setCertificate src msg) s fun t => t.told src typ [0x12, 0x7F, 7, 0] ∧ t.kpr = s.kpr))
  -- a part of a certificate chain
  ∧ (∀ (s : State) (src : Fin 3) (msg m c part : List Byte) (typ : Nat), s.asked src msg 0x82 0x12 typ m →
    s.chain (fieldAt m 2 1 % 16) = some c → part = (c.drop (fieldAt m 4 2)).take (fieldAt m 6 2) → part.length ≤ 4000 →
    Acts (.getCertificate src msg) s fun t => t.told src typ ([0x12, 0x02] ++ leBytes 1 (fieldAt m 2 1 % 16) ++ [0]
      ++ leBytes 2 part.length ++ leBytes 2 (c.length - fieldAt m 4 2 - part.length) ++ part))
  -- one measurement block, or all ten, without a signature
  ∧ (∀ (s : State) (src : Fin 3) (msg m r : List Byte) (typ i : Nat), s.asked src msg 0xE0 0x12 typ m → fieldAt m 2 1 % 2 = 0 →
    fieldAt m 3 1 = i →
    (1 ≤ i → i ≤ 10 → r = s.measurement i → r.length ≤ 4000 → Acts (.getMeasurements src msg) s fun t => ∃ nonce, nonce.length = 32
      ∧ t.told src typ ([0x12, 0x60, 0, 0, 1] ++ leBytes 3 r.length ++ r ++ nonce ++ [0, 0]))
    ∧ (i = 0xFF → r = ((List.range 10).map (· + 1)).flatMap s.measurement → r.length ≤ 4000 → Acts (.getMeasurements src msg) s fun t =>
      ∃ nonce, nonce.length = 32 ∧ t.told src typ ([0x12, 0x60, 0, 0, 10] ++ leBytes 3 r.length ++ r ++ nonce ++ [0, 0])))
  -- a challenge is answered with a signature by the identity key over what was asked and answered
  ∧ (∀ (s : State) (src : Fin 3) (msg m c : List Byte) (typ : Nat), s.asked src msg 0x83 0x12 typ m → s.kpr.fuses.lcs ≠ 4 →
    s.chain (fieldAt m 2 1 % 16) = some c → fieldAt m 3 1 = 0 →
    Acts (.challenge src msg) s fun t => ∃ nonce body, nonce.length = 32
      ∧ body = [0x12, 0x03] ++ leBytes 1 (fieldAt m 2 1 % 16) ++ leBytes 1 (if s.kpr.ownerCert.isSome then 3 else 1) ++ sha384 c ++ nonce
        ++ [] ++ [0, 0]
      ∧ ((Config.identSign (sha384 (m ++ body))).length ≤ 1024 → t.told src typ (body ++ Config.identSign (sha384 (m ++ body)))))
  -- a key exchange opens the session of its source
  ∧ (∀ (s : State) (src : Fin 3) (msg m : List Byte) (typ : Nat), s.asked src msg 0xE4 0x12 typ m → s.kpr.fuses.lcs ≠ 4 →
    (s.chain (fieldAt m 3 1 % 16)).isSome = true → Acts (.keyExchange src msg) s fun t => src.val ∈ t.kpr.sessions
      ∧ ∀ x ∈ s.kpr.sessions, x ∈ t.kpr.sessions)
  -- SET_CERTIFICATE: slot 1, in Owned
  ∧ ∀ (s : State) (src : Fin 3) (msg m : List Byte) (typ : Nat), s.asked src msg 0xEE 0x12 typ m → s.kpr.fuses.lcs ≠ 4 →
    (s.kpr.fuses.lcs = 3 → fieldAt m 2 1 % 16 = 1 → Acts (.setCertificate src msg) s fun t => t.kpr.ownerCert = some (m.drop 4)
      ∧ t.told src typ [0x12, 0x6E, 1, 0])
    ∧ (s.kpr.fuses.lcs ≠ 3 → Acts (.setCertificate src msg) s fun t => t.kpr = s.kpr ∧ t.told src typ [0x12, 0x7F, 1, 0])

/-- Authorised requests (R495 to R503, R514, R515, R519, R520): one that passes every check burns its fuse step where it has one, and its
change waits for the journal entry; one that fails a check changes nothing, counts, and is told the status of the first check it fails. -/
def Obligations.RequestCommandsAct : Prop :=
  -- lifecycle requests: from and to in ARG
  (∀ (s : State) (src : Fin 3) (blk : List Byte) (f t : Nat) (own : Fuses), natBits (argAt blk 0 4) 0 3 = f →
    natBits (argAt blk 0 4) 8 3 = t → own = { s.kpr.fuses with ownerUsed := s.kpr.fuses.ownerUsed + 1 } →
    (f = 0 → t = 1 → s.reqReady src blk 1 [0] → Acts (.provision src blk true) s fun u =>
      s.decided u src blk 1 [[1]] (leBytes 4 0x100) (.lifecycle 0 1 [] []) s.kpr.fuses)
    ∧ (f = 1 → t = 2 → s.reqReady src blk 1 [1] → Acts (.integrate src blk) s fun u =>
      s.decided u src blk 1 [[1]] (leBytes 4 0x201 ++ keyTag (reqKey1 blk)) (.lifecycle 1 2 (reqKey1 blk) []) s.kpr.fuses)
    ∧ (f = 2 → t = 3 → s.reqReady src blk 1 [2] → s.kpr.fuses.ownerUsed < 15 → Acts (.takeOwnership src blk) s fun u =>
      s.decided u src blk 1 [[2, 4]] (leBytes 4 0x302 ++ keyTag (reqKey1 blk)) (.lifecycle 2 3 (reqKey1 blk) (reqKey2 blk)) own)
    ∧ (f = 3 → t = 3 → s.reqReady src blk 1 [3] → s.kpr.fuses.ownerUsed < 15 → Acts (.transfer src blk) s fun u =>
      s.decided u src blk 1 [[3, 4]] (leBytes 4 0x303 ++ keyTag (reqKey1 blk)) (.lifecycle 3 3 (reqKey1 blk) (reqKey2 blk)) own)
    ∧ (f = 3 → t = 2 → s.reqReady src blk 1 [3] → s.kpr.seals = [] → s.kpr.written = false → Acts (.lifecycleRelease src blk) s fun u =>
      s.decided u src blk 1 [[3]] (leBytes 4 0x203) (.lifecycle 3 2 [] []) s.kpr.fuses)
    ∧ (f = s.kpr.fuses.lcs → t = 4 → s.reqReady src blk 1 [2, 3] → s.kpr.seals = [] → Acts (.retire src blk) s fun u =>
      s.decided u src blk 1 [[s.kpr.fuses.lcs]] (leBytes 4 (f + 0x400)) (.lifecycle f 4 [] []) s.kpr.fuses))
  -- the others
  ∧ (∀ (s : State) (src : Fin 3) (blk : List Byte) (e : Nat) (f : Fuses), e = argAt blk 0 4 → f = s.kpr.fuses →
    (s.reqReady src blk 2 [1, 2, 3] → f.secEpoch < e → e < 256 → f.secUsed < 255 →
      ((s.lowTables e).any fun t => s.slotInUse t.1 t.2) = false → Acts (.securityEpochRaise src blk) s fun u =>
        s.decided u src blk 2 [[1], if f.lcs = 3 then [2, 3] else [2]] (leBytes 4 f.secEpoch ++ leBytes 4 e) (.secEpoch e)
          { f with secUsed := f.secUsed + 1 })
    ∧ (s.reqReady src blk 3 [3] → Acts (.firmwareApproval src blk) s fun u =>
      s.decided u src blk 3 [[3]] (leBytes 4 0 ++ argBytes blk 0 12) (.approve (argBytes blk 0 48)) f)
    ∧ (s.reqReady src blk 4 [3] → Acts (.tableApproval src blk) s fun u =>
      s.decided u src blk 4 [[3]] (leBytes 8 0 ++ argBytes blk 0 8) (.approve (argBytes blk 0 48)) f)
    ∧ (s.reqReady src blk 6 [2, 3] → f.ikeyUsed < 7 → Acts (.integratorKeyRotation src blk) s fun u =>
      s.decided u src blk 6 [if f.lcs = 3 then [2, 3] else [2]] (leBytes 4 (s.kpr.intIdx + 1))
        (.ikey (s.kpr.intIdx + 1) (argBytes blk 0 49)) { f with ikeyUsed := f.ikeyUsed + 1 })
    ∧ (s.reqReady src blk 7 [2] → f.dbgUsed < 3 → Acts (.debugUnlock src blk) s fun u =>
      s.decided u src blk 7 [[2]] (leBytes 4 (2 - f.dbgUsed)) .debugUnlock { f with dbgUsed := f.dbgUsed + 1 })
    ∧ (s.reqReady src blk 8 [3] → e &&& 0xFF07 = e → Acts (.ownerPolicy src blk) s fun u =>
      s.decided u src blk 8 [[3]] (leBytes 4 e) (.policy e) f)
    ∧ (s.reqReady src blk 0x0B [3] →
      (∃ x ∈ s.kpr.seals, x.cart = argAt blk 0 8 ∧ x.zone = argAt blk 8 4 ∧ x.expires < s.kpr.lastTime) →
      Acts (.sealRelease src blk) s fun u => s.decided u src blk 0x0B [[3]] (leBytes 8 (argAt blk 0 8) ++ leBytes 4 (argAt blk 8 4))
        (.sealRelease (argAt blk 0 8) (argAt blk 8 4)) f))
  ∧ (∀ (s : State) (src : Fin 3) (blk key : List Byte) (slot func typ usage : Nat), slot = argAt blk 0 2 → func = argAt blk 2 2 →
    typ = argAt blk 4 1 → usage = argAt blk 5 1 →
    (s.reqReady src blk 0x0C [3] → slot = 0xFFFF → key.length = 32 → Acts (.ownerMigrationKey src blk key) s fun u =>
      s.decided u src blk 0x0C [[3]] (leBytes 2 0xFFFF ++ leBytes 2 func) (.migKey key) s.kpr.fuses)
    ∧ (s.reqReady src blk 0x0C [3] → slot < 512 → func < 256 → 1 ≤ typ → typ ≤ 4 → usage < 64 → key.length = keyLen typ →
      mapFind s.kpr.keys slot = none → Acts (.keyImport src blk key) s fun u =>
        s.decided u src blk 0x0C [[3]] (leBytes 2 slot ++ leBytes 2 func) (.keyImport slot func typ usage key) s.kpr.fuses)
    ∧ (s.reqReady src blk 0x0E [3] → s.kpr.sealedTier = true → key.length = 32 → Acts (.rebind src blk key true) s fun u =>
      s.decided u src blk 0x0E [[5]] (argBytes blk 0 8) (.rebind (argAt blk 0 8) key) s.kpr.fuses))
  -- refusals
  ∧ ∀ (s : State) (src : Fin 3) (blk key : List Byte) (x : Nat × Instr), s.reqHeard src = true → fieldAt blk 4 2 = x.1 →
    (s.reqForm blk = false →
      x ∈ [(1, .provision src blk true), (1, .integrate src blk), (1, .takeOwnership src blk), (1, .transfer src blk),
        (1, .lifecycleRelease src blk), (1, .retire src blk), (2, .securityEpochRaise src blk), (3, .firmwareApproval src blk),
        (4, .tableApproval src blk), (6, .integratorKeyRotation src blk), (7, .debugUnlock src blk), (8, .ownerPolicy src blk),
        (0x0B, .sealRelease src blk), (0x0E, .rebind src blk key true)] →
      Acts x.2 s fun u => u.kpr = s.kpr ∧ u.told src 2 (reqAnswer 0x1001 s.kpr.nextSeq)
        ∧ (u.rg pKpr (Reg.ERR_CNT 0)).toNat = satAdd (2 ^ 32 - 1) (s.rg pKpr (Reg.ERR_CNT 0)).toNat 1)
    ∧ (s.reqForm blk = true → fieldAt blk 0x10 4 ≠ s.kpr.nextSeq →
      x ∈ [(1, .provision src blk true), (1, .integrate src blk), (1, .takeOwnership src blk), (1, .transfer src blk),
        (1, .lifecycleRelease src blk), (1, .retire src blk), (2, .securityEpochRaise src blk), (3, .firmwareApproval src blk),
        (4, .tableApproval src blk), (6, .integratorKeyRotation src blk), (7, .debugUnlock src blk), (0x0B, .sealRelease src blk)] →
      Acts x.2 s fun u => u.kpr = s.kpr ∧ u.told src 2 (reqAnswer 0x6003 s.kpr.nextSeq)
        ∧ (u.rg pKpr (Reg.ERR_CNT 0)).toNat = satAdd (2 ^ 32 - 1) (s.rg pKpr (Reg.ERR_CNT 0)).toNat 1)

/-- The configuration journal and alarms (R367, R494, R502, R504 to R507, R515, R517 to R520): an entry becomes durable with its number and
hash, and only then its change takes effect; an alarm erases every key and both Shutters. -/
def Obligations.JournalAndAlarmCommandsAct : Prop :=
  -- an entry is durable
  (∀ (s : State) (i : JItem) (r : List JItem), s.kpr.queue = i :: r → s.kpr.fuses.lcs ≠ 0 ∨ i.typ = 1 →
    Acts (.journalEntryDurable true) s fun t =>
      mapFind t.kpr.entries s.kpr.nextSeq = some (s.journalBurn.entryBytes i) ∧ t.kpr.nextSeq = s.kpr.nextSeq + 1
        ∧ t.kpr.head = sha256 (s.journalBurn.entryBytes i) ∧ t.kpr.lastTime = s.ownerClock
        ∧ (0 < s.kpr.nextSeq → s.kpr.nextSeq % 65536 = 0 → s.kpr.nextSeq ≤ 65536 * 1024 → s.kpr.fuses.steps < s.kpr.nextSeq / 65536 →
          t.kpr.fuses.steps = s.kpr.nextSeq / 65536)
        ∧ (i.src < 2 → (s.port i.src).doe.isSome = true → t.told i.src 2 (reqAnswer 0 s.kpr.nextSeq))
        ∧ (i.src = 2 → t.told 2 2 (reqAnswer 0 s.kpr.nextSeq))
        -- and its change takes effect
        ∧ (∀ f to_ a b, i.change = .lifecycle f to_ a b → t.kpr.fuses.lcs = to_
          ∧ (to_ = 2 → f ≠ 3 → t.kpr.intKeys = [(0, a)]) ∧ (to_ = 3 → t.kpr.ownerKey = a ∧ t.kpr.recoveryKey = b ∧ t.kpr.envelope = some b)
          ∧ (to_ = 4 → t.kpr.keys = [] ∧ t.kpr.tierKey = none ∧ t.kpr.seeded = false
            ∧ ∀ c < 256, s.slotEnabled c = true → (t.ctrl c).cfs = true))
        ∧ (∀ e, i.change = .secEpoch e → t.kpr.fuses.secEpoch = e)
        ∧ (∀ d, i.change = .approve d → d ∈ t.kpr.approved)
        ∧ (∀ k key, i.change = .ikey k key → t.kpr.intKeys = [(k, key)] ∧ t.kpr.intIdx = k)
        ∧ (i.change = .debugUnlock → t.kpr.debug = true ∧ t.kpr.keys = [] ∧ t.kpr.seeded = false)
        ∧ (∀ w, i.change = .policy w → t.kpr.policy = w)
        ∧ (∀ key, i.change = .migKey key → t.kpr.migKey.map KeySlot.key = some key)
        ∧ (∀ slot f typ usage key, i.change = .keyImport slot f typ usage key →
          (mapFind t.kpr.keys slot).map (fun k => (k.typ, k.usage, k.owner, k.key)) = some (typ, usage, f, key))
        ∧ (∀ cart zone, i.change = .sealRelease cart zone → t.kpr.seals = s.kpr.seals.filter fun e => e.cart != cart || e.zone != zone)
        ∧ (∀ o key, i.change = .rebind o key → t.kpr.tierKey = some key ∧ t.kpr.sealedTier = false))
  -- one that cannot be made durable
  ∧ (∀ (s : State) (i : JItem) (r : List JItem), s.kpr.queue = i :: r → i.src = 2 → Acts (.journalEntryDurable false) s fun t =>
    t.kpr.queue = r ∧ t.kpr.nextSeq = s.kpr.nextSeq ∧ t.kpr.entries = s.kpr.entries ∧ t.told 2 2 (reqAnswer 0x7050 s.kpr.nextSeq)
      ∧ (t.rg pKpr (Reg.ERR_CNT 2)).toNat = satAdd (2 ^ 32 - 1) (s.rg pKpr (Reg.ERR_CNT 2)).toNat 1)
  -- an alarm, awake or asleep
  ∧ (∀ (s : State) (c : Fin 6), s.boot.held = false → s.alarmArmed c = true → s.bit pKpr Reg.KPR_ALARM (alarmBit c) = false →
    After (.alarm c) s fun t => t.bit pKpr Reg.KPR_ALARM (alarmBit c) = true ∧ t.kpr.latch = s.kpr.latch ||| 2 ^ alarmBit c
      ∧ t.kpr.keys = [] ∧ t.kpr.seeded = false ∧ (∀ a, shutterBase 0 ≤ a → a < shutterBase 2 → memGet t.mem a = 0)
      ∧ ∀ e ∈ s.jobs, e.2.engine = 0x14 → e.2.inst.isSome = true → (s.jobs.map Prod.fst).Nodup →
        (mapFind t.jobs e.1).bind (fun j => j.result.map JobResult.status) = some 0x6010)
  ∧ (∀ (s : State) (c : Fin 6), s.boot.held = false → s.alarmArmed c = false → After (.alarm c) s fun t => t.kpr = s.kpr ∧ t.mem = s.mem)
  -- the last alarm clears: the DRBG is seeded, and the cause is journalled
  ∧ ∀ (s : State) (i : Fin 3), s.boot.held = false → s.fget pKpr Reg.KPR_ALARM 0 4 = 2 ^ i.val →
    After (.alarmClear i) s fun t => t.alarmOn = false ∧ t.kpr.seeded = true ∧ t.boot.alarmAt = none
      ∧ t.kpr.queue = s.kpr.queue ++ [⟨0x10, 0, leBytes 8 s.kpr.latch ++ leBytes 8 (s.boot.alarmAt.getD 0), .none_, 3, 0⟩]

/-- Profiles, wake, governor, metering, planner and thermal sensors (R525 to R545): each event, where its conditions hold, has the effect
its rule gives it. -/
def Obligations.PowerCommandsAct : Prop :=
  -- PROFILE_CHANGE: Open and Ajar at once; Latched and Shuttered wait
  (∀ s : State, (s.profTarget < 2 → Acts .profileChange s fun t => t.pcr Reg.PCR_PSTAT 0 2 = s.profTarget ∧ t.power.since = none)
    ∧ (2 ≤ s.profTarget → s.power.since = none → Acts .profileChange s fun t => t.power.since = some s.tb.toNat
      ∧ t.pcr Reg.PCR_PSTAT 0 2 = s.pcr Reg.PCR_PSTAT 0 2))
  -- entry, only while every condition of R527 holds
  ∧ (∀ (s : State) (p0 p1 : Bool), s.profTarget = 2 → s.power.since.isSome = true →
    (s.entryBlock 2 = 0 → Acts (.latchedEntry p0 p1) s fun t => t.power.asleep = true ∧ t.pcr Reg.PCR_PSTAT 0 2 = 2 ∧ t.fab = false
      ∧ t.power.saved = s.tb.toNat)
    ∧ (s.entryBlock 2 ≠ 0 → Acts (.latchedEntry p0 p1) s fun t => t.power = s.power ∧ t.fab = s.fab))
  ∧ (∀ s : State, s.profTarget = 3 → s.power.since.isSome = true →
    (s.entryBlock 3 = 0 → Acts .shutteredEntry s fun t => t.power.asleep = true ∧ t.pcr Reg.PCR_PSTAT 0 2 = 3 ∧ t.fab = false
      ∧ Out.issue "CORE_PWR_EN" [0] ∈ t.out)
    ∧ (s.entryBlock 3 ≠ 0 → Acts .shutteredEntry s fun t => t.power = s.power ∧ t.fab = s.fab))
  ∧ (∀ (s : State) (t0 : Nat), s.power.since = some t0 → s.power.told = false → s.entryBlock s.profTarget ≠ 0 →
    Acts .entryTimeout s fun t => t.power.told = true ∧ t.bit pPcr Reg.EVT_PEND 5 = true ∧ t.power.since = some t0)
  -- wake: from Latched; from Shuttered with a resume image that fails; and a wake that cancels an entry
  ∧ (∀ (s : State) (src : Fin 7) (n : Nat) (ok : Bool), s.boot.held = false →
    (if src.val = 6 then s.alarmOn = true else s.bit (pPcr + 1) Reg.PCR_WAKE src = true) →
    (s.power.asleep = true → s.pcr Reg.PCR_PSTAT 0 2 = 2 ∨ ok = true → After (.wake src n ok) s fun t => t.power.asleep = false
      ∧ t.fab = true ∧ t.tb = BitVec.ofNat 64 (s.power.saved + n * 1000000000 / 32768 + 1) ∧ t.pcr Reg.PCR_PSTAT 0 2 < 2
      ∧ t.pcr Reg.PCR_PSTAT 16 8 = src)
    ∧ (s.power.asleep = true → s.pcr Reg.PCR_PSTAT 0 2 = 3 → ok = false → After (.wake src n ok) s fun t =>
      t.rg pPcr Reg.PCR_RST = 0x10 ∧ t.tb = 0 ∧ t.power.asleep = false)
    ∧ (s.power.asleep = false → s.power.since.isSome = true → After (.wake src n ok) s fun t => t.power.since = none
      ∧ t.pcr Reg.PCR_PSTAT 0 2 = s.pcr Reg.PCR_PSTAT 0 2
      ∧ (t.rg pPcr (Reg.ERR_CNT 0)).toNat = satAdd (2 ^ 32 - 1) (s.rg pPcr (Reg.ERR_CNT 0)).toNat 1))
  ∧ (∀ (s : State) (ok : Bool) (sec : Nat), s.boot.held = false → s.power.asleep = true → s.pcr Reg.PCR_PSTAT 0 2 = 2 →
    sec = (s.rg (pPcr + 1) Reg.PCR_AONTMR).toNat → sec ≠ 0 → s.bit (pPcr + 1) Reg.PCR_WAKE 4 = true →
    After (.aonTimerExpiry ok) s fun t => t.power.asleep = false ∧ t.tb = BitVec.ofNat 64 (s.power.saved + sec * 1000000000 + 1))
  -- IDLE runs out: Latched is wanted again
  ∧ (∀ (s : State) (t0 : Nat), s.power.idle = some t0 → Acts .idleExpiry s fun t => t.power.idle = none
    ∧ (s.hostDemand = 2 → s.pcr Reg.PCR_PROF 0 2 = 2 → s.bit (pPcr + 1) Reg.PCR_PROF 4 = false → t.power.since.isSome = true))
  -- the governor, in Ajar
  ∧ (∀ (s : State) (p limit : Nat), s.pcr Reg.PCR_PSTAT 0 2 = 1 → p = 100 * s.fget pEmt Reg.EMT_POWER_MS 0 24 →
    limit = s.pcr Reg.PCR_GOV 0 7 →
    (limit * 20000 < p → s.govSteps < s.clkSteps + 9 → Acts .governorStep s fun t => t.govSteps = s.govSteps + 1)
    ∧ (p < (limit - 5) * 20000 → s.govSteps ≠ 0 → Acts .governorStep s fun t => t.govSteps = s.govSteps - 1))
  ∧ (∀ s : State, s.pcr Reg.PCR_PSTAT 0 2 = 0 → Acts .governorStep s fun t => t.govSteps = s.govSteps)
  -- metering: EMT_DEV is the sum of all block ENERGY; a rail's energy is divided by the activity model; a command and its function are
  -- charged; an interval that misses a reading is counted, and the model's energy stands
  ∧ (∀ (s : State) (rails : List (Option Nat)) (model : List (Nat × Nat × Nat)), Acts (.meteringInterval rails model [] [] []) s fun t =>
    t.rg64 pEmt Reg.EMT_DEV_LO = (allBlks.map fun b => t.rg64 b.base Reg.ENERGY_LO).sum % 2 ^ 64 ∧ t.power.cwWork = [])
  ∧ (∀ (s : State) (rails : List (Option Nat)) (b c : Blk) (r m k nJ : Nat), b ∈ allBlks → c ∈ allBlks → b.base ≠ c.base → r < 8 →
    m + k ≠ 0 → (∀ i < 8, (rails.getD i none).isSome = true) → rails.getD r none = some nJ →
    Acts (.meteringInterval rails [(b.base, r, m), (c.base, r, k)] [] [] []) s fun t =>
      t.rg64 b.base Reg.ENERGY_LO = (mapGet (fun _ => 0) s.power.rem b.base + (ratio (nJ * m : Nat) (m + k : Nat)).toNat) / 1000 % 2 ^ 64
      ∧ t.rg64 c.base Reg.ENERGY_LO = (mapGet (fun _ => 0) s.power.rem c.base + (ratio (nJ * k : Nat) (m + k : Nat)).toNat) / 1000 % 2 ^ 64)
  ∧ (∀ (s : State) (rails : List (Option Nat)) (b : Blk) (tag n nJ : Nat) (k : Cmd), b ∈ allBlks → b.base ≠ pDcf →
    mapFind s.cmds tag = some k → k.ctrl < 256 → n ≠ 0 →
    Acts (.meteringInterval rails [] [] [(b.base, nJ)] [(tag, b.base, n)]) s fun t =>
      mapGet (fun _ => 0) (t.func k.ctrl).nj b.typ.code = mapGet (fun _ => 0) (s.func k.ctrl).nj b.typ.code + nJ
      ∧ (mapFind t.cmds tag).map Cmd.nj = some (k.nj + nJ))
  ∧ (∀ (s : State) (rails : List (Option Nat)) (b : Blk) (r m : Nat), b ∈ allBlks → (∃ i < 8, rails.getD i none = none) →
    Acts (.meteringInterval rails [(b.base, r, m)] [] [] []) s fun t =>
      (t.rg pEmt (Reg.ERR_CNT 0)).toNat = satAdd (2 ^ 32 - 1) (s.rg pEmt (Reg.ERR_CNT 0)).toNat 1
      ∧ t.rg64 b.base Reg.ENERGY_LO = (mapGet (fun _ => 0) s.power.rem b.base + m) / 1000 % 2 ^ 64)
  -- measurements and plans
  ∧ (∀ (s : State) (delays : List Nat) (span : Nat), s.enabled pAgm = true → Acts (.agmMeasurement delays span) s fun t =>
    (∀ i < 48, t.fget (pAgm + 1) (Reg.AGM_MON i 0) 0 12 = delays.getD i 0 % 4096)
      ∧ t.fget pAgm Reg.AGM_STAT 0 8 = satAdd 255 (s.fget pAgm Reg.AGM_STAT 0 8) 1)
  ∧ (∀ (s : State) (delays : List Nat) (span : Nat), s.enabled pAgm = true → s.bit pAgm Reg.AGM_CTRL 0 = true →
    s.bit pAgm Reg.AGM_CTRL 1 = true → s.power.plan = none →
    (s.power.since = none → Acts (.plannerRun delays span) s fun t => ∃ p, t.power.plan = some (p, s.tb.toNat)
      ∧ 650 ≤ p.openMv ∧ p.openMv ≤ 850 ∧ 650 ≤ p.ajarMv ∧ p.ajarMv ≤ 850
      ∧ Out.issue "AVSBUS" [if s.pcr Reg.PCR_PSTAT 0 2 = 0 then p.openMv else p.ajarMv] ∈ t.out)
    ∧ (s.power.since.isSome = true → Acts (.plannerRun delays span) s fun t => t.power = s.power))
  ∧ (∀ (s : State) (p : Plan) (t0 : Nat), s.power.plan = some (p, t0) →
    Acts .avsbusDone s (fun t => t.pcr Reg.PCR_VDD 0 12 = p.openMv % 4096 ∧ t.pcr Reg.PCR_VDD 16 12 = p.ajarMv % 4096
      ∧ t.power.plan = none ∧ t.bit pAgm Reg.AGM_CTRL 1 = false ∧ t.kpr.queue = s.kpr.queue ++
        [⟨0x0D, 0, planRecord p (s.fget pAgm Reg.AGM_STAT 0 8) (s.fget pAgm Reg.AGM_STAT 8 24), .none_, 3, 0⟩])
    ∧ Acts .avsbusTimeout s fun t => t.power.plan = none ∧ t.rg (pPcr + 1) Reg.PCR_VDD = s.rg (pPcr + 1) Reg.PCR_VDD
      ∧ t.bit pAgm Reg.EVT_PEND 7 = true
      ∧ (t.rg pAgm (Reg.ERR_CNT 0)).toNat = satAdd (2 ^ 32 - 1) (s.rg pAgm (Reg.ERR_CNT 0)).toNat 1)
  -- the worst RETRY_AVG and its die
  ∧ (∀ s : State, s.enabled pAgm = true → Acts .agmWearPoll s fun t =>
    (∀ d < 512, s.fget (pFtm + 1) (Reg.FTM_DIE d) 16 8 ≤ t.fget pAgm (Reg.AGM_WEAR 1) 0 8)
      ∧ s.fget (pFtm + 1) (Reg.FTM_DIE (t.fget pAgm (Reg.AGM_WEAR 1) 16 9)) 16 8 = t.fget pAgm (Reg.AGM_WEAR 1) 0 8)
  -- the hottest sensor, and the action of the thresholds it has passed
  ∧ ∀ (s : State) (temps : List (Int × Bool)), s.enabled pAgm = true → temps.length = 12 →
    (∀ x ∈ temps, x.2 = false ∧ -128 ≤ x.1 ∧ x.1 ≤ 127) → Acts (.sensorSample temps) s fun t =>
      (∀ x ∈ temps, x.1 ≤ t.hottest) ∧ (∃ x ∈ temps, x.1 = t.hottest)
      ∧ (∀ i < 4, signedOf 8 (s.fget pAgm (Reg.AGM_THR i) 0 8) < t.hottest → s.power.hot = [] →
        s.fget pAgm (Reg.AGM_THR i) 8 3 ≤ t.thermal)
      ∧ (s.power.hot = [] → (∀ i < 4, t.hottest ≤ signedOf 8 (s.fget pAgm (Reg.AGM_THR i) 0 8)) → t.thermal = 0)

/-- Resets and boot (R546 to R556, R561, R587): each, where its conditions hold, has the effect its rule gives it. -/
def Obligations.ResetAndBootCommandsAct : Prop :=
  -- the release of power-on reset, where it is held
  (∀ (s : State) (x8 a b : Bool), s.boot.held = true → After (.powerOnReset x8 a b) s fun t => t.boot.held = false ∧ t.tb = 0
    ∧ t.rg pPcr Reg.PCR_RST = 1 ∧ t.bootCode = 1 ∧ t.mem = [] ∧ t.cmds = [] ∧ t.jobs = [] ∧ t.kpr.keys = [] ∧ t.kpr.seeded = false
    ∧ t.kpr.fuses = s.kpr.fuses ∧ t.kpr.entries = s.kpr.entries ∧ t.kpr.nextSeq = s.kpr.nextSeq ∧ t.kpr.debug = false
    ∧ t.nss.map (fun e => (e.1, e.2.size, e.2.lbaf, e.2.key)) = s.nss.map (fun e => (e.1, e.2.size, e.2.lbaf, e.2.key))
    ∧ (∀ e ∈ t.blocks, e.2.place ≠ .buffer) ∧ t.pending = s.pending ∧ (t.rg (pHib 0) Reg.HIB_STRAP).getLsbD 0 = x8)
  -- PORST# or PWR_GOOD low, at any time
  ∧ (∀ s : State, After .porstLow s fun t => t.boot.held = true ∧ t.fab = false ∧ t.mem = [] ∧ t.kpr.keys = []
    ∧ t.kpr.fuses = s.kpr.fuses ∧ t.kpr.entries = s.kpr.entries)
  -- chip warm reset: by the Keeper, or by NSSR of a PF
  ∧ (∀ s : State, s.bootFailed = false → 6 ≤ s.bootCode ∨ s.bit pPcr Reg.PCR_RST 0 = true → keysRise s.regs = true →
    (∀ (i : Instr) (cause : Nat), (i, cause) ∈ [(Instr.warm (.core .keeper), 2), (.nssr 0 0x4E564D65, 1)] → Acts i s fun t => t.tb = s.tb
      ∧ t.rg pPcr Reg.PCR_RST = BitVec.ofNat 32 (2 ^ cause + satAdd 65535 (s.fget pPcr Reg.PCR_RST 16 16) 1 * 2 ^ 16)
      ∧ t.bootCode = 1 ∧ t.mem = [] ∧ t.cmds = [] ∧ t.jobs = [] ∧ t.kpr.keys = [] ∧ t.kpr.fuses = s.kpr.fuses
      ∧ (∀ b ∈ allBlks, t.rg b.base Reg.STG_EPOCH = s.rg b.base Reg.STG_EPOCH)
      ∧ t.rg (pHib 0) Reg.HIB_STRAP = s.rg (pHib 0) Reg.HIB_STRAP ∧ ∀ e ∈ t.blocks, e.2.place ≠ .buffer))
  ∧ (∀ (s : State) (req : Requester), req ≠ .core .keeper → Acts (.warm req) s fun t => t.tb = s.tb ∧ t.bootCode = s.bootCode
    ∧ t.fget pPcr Reg.BAD_WR_CNT 0 16 = satAdd 65535 (s.fget pPcr Reg.BAD_WR_CNT 0 16) 1 ∧ t.fget pPcr Reg.BAD_WR_CNT 28 2 = 2)
  ∧ (∀ (s : State) (f : Fin 256) (v : BitVec 32), s.isPf f = false ∨ v ≠ 0x4E564D65 → Acts (.nssr f v) s fun t => t.regs = s.regs
    ∧ t.mem = s.mem ∧ t.kpr = s.kpr)
  -- the boot stages, one after the other
  ∧ (∀ (s : State) (ok fault opens : Bool) (i1 i2 : List Byte), s.bootFailed = false → s.alarmOn = false →
    (s.bootCode = 1 → Acts (.bootStage ok i1 i2 fault opens) s fun t =>
      if ok = true ∧ s.kpr.fuses.lcs < 4 then t.bootCode = 2 ∧ t.bootFailed = false
      else t.bootCode = (if ok = true ∧ s.kpr.fuses.lcs = 4 then 0xE else 8) ∧ t.bootFailed = true ∧ (t.ctrl 0).cfs = true)
    ∧ (s.bootCode = 2 → Acts (.bootStage ok i1 i2 fault opens) s fun t =>
      match s.pickSlot (fun n => (mapFind s.boot.slots n).getD (if n = 1 then i1 else i2)) with
      | some n => t.bootCode = 3 ∧ t.fget pPcr Reg.PCR_BOOT 9 2 = n % 4 ∧ t.bit pPcr Reg.PCR_BOOT 11 = (n != s.boot.nextSlot)
        ∧ t.kpr.seeded = true
      | none => t.bootFailed = true ∧ (t.bootCode = 9 ∨ t.bootCode = 0xA) ∧ (t.ctrl 0).cfs = true)
    ∧ (s.bootCode = 3 → s.window.live.isEmpty = false → Acts (.bootStage ok i1 i2 fault opens) s fun t => t.bootCode = 4
      ∧ (t.core 32).mode = .running ∧ ∀ i, 1 ≤ i → i < 8 → (t.core (32 + i)).mode = .inReset)
    ∧ (s.bootCode = 3 → s.window.live.isEmpty = true → ok = false ∨ (∀ n < 4, (s.dmc n).trained = true) → Acts (.bootStage ok i1 i2 fault opens) s fun t =>
      t.bootCode = 0xB ∧ t.bootFailed = true)
    ∧ (s.bootCode = 4 → Acts (.bootStage ok i1 i2 fault opens) s fun t =>
      t.bootCode = (if ok = true then 5 else 0xC) ∧ t.bootFailed = !ok)
    ∧ (s.bootCode = 5 → s.fget pFtm Reg.FTM_DISC 16 4 = 3 → Acts (.bootStage ok i1 i2 fault opens) s fun t =>
      t.bootCode = 0xD ∧ t.bootFailed = true)
    ∧ (s.bootCode = 5 → s.fget pFtm Reg.FTM_DISC 16 4 = 2 → Acts (.bootStage ok i1 i2 fault opens) s fun t => t.bootCode = 6
      ∧ t.kpr.ready = true ∧ t.kpr.jfault = (s.journalBad || fault) ∧ t.kpr.sealedTier = (s.kpr.fuses.lcs == 3 && !opens) ∧ t.bootFailed = false))
  -- an alarm pauses the boot, and stops it after 1 s; RT0 that does not report stops it
  ∧ (∀ (s : State) (ok fault opens : Bool) (i1 i2 : List Byte), s.alarmOn = true → Acts (.bootStage ok i1 i2 fault opens) s fun t =>
    t.regs = s.regs ∧ t.kpr = s.kpr)
  ∧ (∀ s : State, s.bootFailed = false → s.bootCode < 6 →
    (∀ a, s.alarmOn = true → s.boot.alarmAt = some a → Acts .bootTimeout s fun t => t.bootCode = 0xF ∧ t.bootFailed = true)
    ∧ (∀ a, s.alarmOn = false → s.bootCode = 4 → s.boot.rtAt = some a → Acts .bootTimeout s fun t => t.bootCode = 0xC
      ∧ t.bootFailed = true))
  -- the mapping tables are back: the flash namespaces are ready
  ∧ (∀ (s : State) (l : List (Nat × List Byte)), s.bootFailed = false → 5 ≤ s.bootCode → s.kpr.sealedTier = false →
    s.window.live.isEmpty = false → Acts (.mapRestoreEnd l) s fun t => t.boot.mapReady = true ∧ t.kpr = s.kpr)
  -- the hold-up drain: nothing that a completion has promised stays in the write buffer or undurable
  ∧ (∀ s : State, s.boot.held = false → After .holdupDrain s fun t => t.boot.held = true ∧ t.fab = false
    ∧ Out.issue "CORE_PWR_EN" [0] ∈ t.out
    ∧ (s.power.asleep = false → t.cmds = [] ∧ t.kpr.queue = [] ∧ ∀ e ∈ t.blocks, e.2.place ≠ .buffer))

/-- Firmware slots, Firmware Commit and activation without reset (R552, R559, R560): each command, where nothing holds it back, has the
effect its rule gives it. -/
def Obligations.FirmwareCommandsAct : Prop :=
  -- a piece of an image is kept
  (∀ (s : State) (tag : Nat) (data : List Byte) (k : Cmd) (o n : Nat), s.adminReady tag 0x11 k → n = 4 * (k.e.d10.toNat + 1) →
    o = 4 * k.e.d11.toNat → n ≤ data.length → o + n ≤ 65536 → Acts (.firmwareImageDownload tag data) s fun t =>
      (∀ i < n, mapFind t.boot.download (o + i) = some (data.getD i 0)) ∧ (s.postable tag k → t.answered tag k 0 0))
  -- Firmware Commit: an image that passes its checks waits for its journal entry; else it is refused and no slot changes
  ∧ (∀ (s : State) (tag a slot : Nat) (image b : List Byte) (k : Cmd) (i : Instr), s.adminReady tag 0x10 k →
    a = natBits k.e.d10.toNat 3 3 → slot = s.fwSlot k → 1 ≤ slot → slot ≤ 2 → s.kpr.jfault = false → s.kpr.queue.any isCommit = false →
    (a ≤ 1 ∧ i = .firmwareCommitReplace tag ∧ b = s.downloaded
      ∨ a = 2 ∧ i = .firmwareCommitNextBoot tag image ∧ b = (mapFind s.boot.slots slot).getD image
      ∨ a = 3 ∧ i = .firmwareActivate tag image ∧ b = (mapFind s.boot.slots slot).getD image ∧ s.boot.act = none ∧ s.streaming = false) →
    Acts i s fun t =>
      if s.fwStatus b = 2 then t.kpr.queue = s.kpr.queue ++ [⟨3, 0, commitArg a b, .commit tag a slot b, 3, 0⟩]
        ∧ (mapFind t.cmds tag).map Cmd.accepted = some true
      else t.boot = s.boot ∧ t.kpr = s.kpr ∧ (s.postable tag k → t.answered tag k 1 7 ∨ t.answered tag k 1 0x13))
  -- while the tape streams, new real-time code is not activated
  ∧ (∀ (s : State) (tag slot : Nat) (image b : List Byte) (k : Cmd), s.adminReady tag 0x10 k → natBits k.e.d10.toNat 3 3 = 3 →
    slot = s.fwSlot k → 1 ≤ slot → slot ≤ 2 → s.kpr.queue.any isCommit = false → s.boot.act = none → s.streaming = true →
    b = (mapFind s.boot.slots slot).getD image → sectionOf b 0x0402 ≠ s.boot.rtCode → s.postable tag k →
    Acts (.firmwareActivate tag image) s fun t => t.boot = s.boot ∧ t.kpr = s.kpr
      ∧ (t.answered tag k 1 0x12 ∨ t.answered tag k 1 7 ∨ t.answered tag k 1 0x13))
  -- a commit takes effect with its entry
  ∧ (∀ (s : State) (tag act slot : Nat) (image : List Byte) (x : JItem) (r : List JItem), s.kpr.queue = x :: r → s.kpr.fuses.lcs ≠ 0 →
    x.change = .commit tag act slot image → Acts (.journalEntryDurable true) s fun t =>
      mapFind t.boot.slots slot = some image
        ∧ (act ≤ 2 → t.boot.nextSlot = slot ∧ t.boot.act = s.boot.act)
        ∧ (act = 3 → sectionOf image 0x0402 ≠ s.boot.rtCode → t.boot.act = some (s.tb.toNat, tag, slot)
          ∧ t.boot.nextSlot = s.boot.nextSlot))
  -- an activation ends with the new code, or after 45 ms with the previous one
  ∧ ∀ (s : State) (t0 tag slot : Nat) (image : List Byte), s.boot.act = some (t0, tag, slot) →
    Acts (.firmwareActivate tag image) s (fun t => t.boot.act = none ∧ t.boot.nextSlot = slot
      ∧ t.boot.rtCode = sectionOf ((mapFind s.boot.slots slot).getD []) 0x0402 ∧ (t.core 32).mode = .running)
    ∧ Acts .activationStallExpiry s fun t => t.boot.act = none ∧ t.boot.nextSlot = s.boot.nextSlot ∧ t.boot.rtCode = s.boot.rtCode
      ∧ (t.core 32).mode = .running ∧ ∃ arg, t.kpr.queue = s.kpr.queue ++ [⟨3, 0, arg, .none_, 3, 0⟩]

/-- Identify, log pages, NVMe-MI, software event sources and pulses (R410, R411, R413, R416, R417, R433, R447, R563, R564, R567, R577): each
command, where nothing holds it back, has the effect its rule gives it. -/
def Obligations.ReportAndEventCommandsAct : Prop :=
  -- IDENTIFY, from a queue or tunnelled
  (∀ (s : State) (tag : Nat) (k : Cmd), s.adminReady tag 6 k →
    (∀ b n, s.identData k = (some b, n) → Acts (.identify tag none) s fun t => Out.hostData k.ctrl b ∈ t.out
      ∧ (s.postable tag k → t.answered tag k 0 0))
    ∧ (∀ sc, s.identData k = (none, sc) → s.postable tag k → Acts (.identify tag none) s fun t => t.answered tag k 0 sc))
  ∧ (∀ (s : State) (tag : Nat) (u : Tunnel), s.miPort u.port = true → s.slotEnabled u.ctrl = true → u.e.opc = 6 →
    u.e.d10.toNat % 256 = 1 → Acts (.identify tag (some u)) s fun t => (∃ b, b.length = 4096 ∧ Out.hostData u.ctrl b ∈ t.out)
      ∧ Out.issue "MI response" [0, 0, 0, 0] ∈ t.out ∧ mapFind t.cmds (miTag + u.slot) = none)
  -- GET_LOG_PAGE
  ∧ (∀ (s u : State) (tag lo n : Nat) (k : Cmd) (b : List Byte), s.adminReady tag 2 k →
    n = 4 * (natBits k.e.d10.toNat 16 16 + natBits k.e.d11.toNat 0 16 * 2 ^ 16 + 1) → n ≤ 2097152 →
    lo = k.e.d12.toNat + k.e.d13.toNat * 2 ^ 32 → lo % 4 = 0 → k.e.d14.getLsbD 23 = false → s.fresh.logData k lo n = some (u, b) →
    Acts (.getLogPage tag none) s fun t => Out.hostData k.ctrl b ∈ t.out ∧ (s.postable tag k → t.answered tag k 0 0)
      ∧ (k.e.d10.toNat % 256 = 0xC0 → k.e.d10.getLsbD 8 = false → lo = 0 → 64 + 32 * (s.ctrl k.ctrl).defer.length ≤ n →
        (t.ctrl k.ctrl).defer = [] ∧ (t.ctrl k.ctrl).deferOvf = false))
  -- NVMe-MI data structures and health
  ∧ (∀ (s : State) (p : Fin 3) (portId ctrlId : Nat), s.miPort p = true →
    Acts (.readNvmeMiDataStructure p 0 portId ctrlId) s (fun t =>
      Out.data ([0, 0, 0, 0] ++ pageOf 32 [(0, leBytes 1 (s.miPorts.length - 1) ++ [1, 2])]) ∈ t.out)
    ∧ (s.miPorts.contains portId = false → Acts (.readNvmeMiDataStructure p 1 portId ctrlId) s fun t => Out.data [4, 0, 0, 0] ∈ t.out)
    ∧ ∀ d, 5 ≤ d → Acts (.readNvmeMiDataStructure p d portId ctrlId) s fun t => Out.data [4, 0, 0, 0] ∈ t.out)
  ∧ (∀ (s : State) (p : Fin 3) (clear : Bool), s.miPort p = true → Acts (.subsystemHealthStatusPoll p clear) s fun t =>
    t.mi.health = (if clear then s.miComposite else s.mi.health &&& s.miComposite) ∧ ∃ d, d.length = 12 ∧ Out.data d ∈ t.out)
  ∧ (∀ (s : State) (p : Fin 3) (start most : Nat) (clear : Bool) (l : List Nat), s.miPort p = true →
    l = (s.allCtrls.filter (start ≤ ·)).take (min most 255) → Acts (.controllerHealthStatusPoll p start most clear) s fun t =>
      (∃ d, d.length = 4 + 16 * l.length ∧ Out.data d ∈ t.out) ∧ (clear = true → ∀ c ∈ l, (t.ctrl c).changed = []))
  -- NVMe-MI configuration
  ∧ (∀ (s : State) (p : Fin 3) (w v : BitVec 32) (port m f : Nat), s.miPort p = true → port = natBits w.toNat 24 8 →
    f = natBits w.toNat 8 4 → m = natBits v.toNat 0 16 →
    (w.toNat % 256 = 1 → port = 2 →
      Acts (.configurationGet p w) s (fun t => Out.data ([0] ++ leBytes 3 s.smbFreq) ∈ t.out)
      ∧ (1 ≤ f → f ≤ 3 → Acts (.configurationSet p w v) s fun t => t.smbFreq = f ∧ Out.data [0, 0, 0, 0] ∈ t.out))
    ∧ (w.toNat % 256 = 3 → s.miPorts.contains port = true →
      Acts (.configurationGet p w) s (fun t => Out.data ([0] ++ leBytes 3 (s.mtu port)) ∈ t.out)
      ∧ (64 ≤ m → m ≤ max 64 (Config.maxMtu port).toNat → Acts (.configurationSet p w v) s fun t => t.mtu port = m
        ∧ Out.data [0, 0, 0, 0] ∈ t.out))
    ∧ (4 ≤ w.toNat % 256 → Acts (.configurationGet p w) s (fun t => Out.data [4, 0, 0, 0] ∈ t.out)
      ∧ Acts (.configurationSet p w v) s fun t => Out.data [4, 0, 0, 0] ∈ t.out ∧ t.mi = s.mi))
  ∧ (∀ (s : State) (p : Fin 3) (ofs len : Nat) (data : List Byte), s.miPort p = true →
    (ofs + len ≤ vpdSize → Acts (.vpdRead p ofs len) s fun t =>
      Out.data ([0, 0, 0, 0] ++ (List.range len).map fun i => s.vpd (ofs + i)) ∈ t.out)
    ∧ (vpdSize < ofs + len → Acts (.vpdRead p ofs len) s fun t => Out.data [4, 0, 0, 0] ∈ t.out)
    ∧ (ofs + data.length ≤ vpdSize → Acts (.vpdWrite p ofs data) s fun t => Out.data [0, 0, 0, 0] ∈ t.out
      ∧ ∀ i < data.length, t.vpd (ofs + i) = data.getD i 0)
    ∧ (vpdSize < ofs + data.length → Acts (.vpdWrite p ofs data) s fun t => Out.data [4, 0, 0, 0] ∈ t.out ∧ t.mi = s.mi))
  ∧ (∀ (s : State) (p : Fin 3), s.miPort p = true →
    (s.bootFailed = false → 6 ≤ s.bootCode ∨ s.bit pPcr Reg.PCR_RST 0 = true → Acts (.nvmeMiReset p 0) s fun t =>
      t.bit pPcr Reg.PCR_RST 1 = true ∧ t.bootCode = 1 ∧ t.mem = [] ∧ t.cmds = [] ∧ t.tb = s.tb)
    ∧ ∀ typ, typ ≠ 0 → Acts (.nvmeMiReset p typ) s fun t => Out.data [4, 0, 0, 0] ∈ t.out ∧ t.mem = s.mem)
  ∧ (∀ (s : State) (p : Fin 3) (eid : BitVec 8), s.miPort p = true →
    (eid ≠ 0 → eid ≠ 0xFF → Acts (.setEndpointId p eid) s fun t =>
      if p = 2 then t.fget (pHib 0) Reg.HIB_MI_SMB 0 8 = eid.toNat else t.fget (pHib p) Reg.HIB_MI 24 8 = eid.toNat)
    ∧ (eid = 0 ∨ eid = 0xFF → Acts (.setEndpointId p eid) s fun t => Out.data [2] ∈ t.out ∧ t.regs = s.regs))
  -- a software source pends, and goes where its route sends it
  ∧ (∀ (s : State) (req : Requester) (n : Fin 256) (r : RegWord) (tw : Nat), r = s.route (0xF00 + n) →
    tw = s.rg64 (pEvf + 9) (Reg.EVF_TGT (bitsOf r 8 6)) → Acts (.softwareSource req n) s fun t =>
      t.bit pEvf (Reg.EVF_SWPEND (n / 32)) (n % 32) = true
      ∧ (bitsOf r 0 1 = 0 → t.cores = s.cores ∧ t.funcs = s.funcs ∧ t.out = [])
      ∧ (bitsOf r 0 1 = 1 → bitsOf r 1 1 = 1 → ∀ i < 8, natBits tw i 1 = 1 →
        (mapGet zeroWord (t.core (32 + i)).evt (bitsOf r 16 8 / 32)).getLsbD (bitsOf r 16 8 % 32) = true)
      ∧ (bitsOf r 0 1 = 1 → bitsOf r 2 1 = 1 → ∀ i < 32, natBits tw (8 + i) 1 = 1 →
        (mapGet zeroWord (t.core i).evt (bitsOf r 16 8 / 32)).getLsbD (bitsOf r 16 8 % 32) = true)
      ∧ (bitsOf r 0 1 = 1 → bitsOf r 3 1 = 1 → Out.keeper (bitsOf r 16 8) ∈ t.out))
  ∧ ∀ (s : State) (pin : Fin 4), Acts (.pulseEnd pin) s fun t => pin.val ∉ t.pulses ∧ ∀ x ∈ s.pulses, x ≠ pin.val → x ∈ t.pulses

/-- What the commands of the tape path, the servo, the transport, the flash tier and the DRAM controllers (chapters 3 to 9) leave alone:
each changes at most the parts of the state named beside it, and the outputs. -/
def Obligations.TapeAndStorageCommandsKeep : Prop :=
  (∀ (i : Instr) (s t : State), exec i s = .next t → match i with
  | .frameBoundary .. | .dropoutEntry .. | .lockDeclared .. | .lockLoss .. | .alignmentMove .. =>
    t = { s with out := t.out, regs := t.regs, tape := t.tape, pulses := t.pulses, cores := t.cores, funcs := t.funcs }
  | .dropoutExit .. | .redetectionRequest .. | .fmtRwrecRead .. =>
    t = { s with out := t.out, regs := t.regs, tape := t.tape }
  | .bandPassOpen .. | .bandPassEnd .. =>
    t = { s with out := t.out, regs := t.regs, blks := t.blks, tape := t.tape, pulses := t.pulses, cores := t.cores, funcs := t.funcs }
  | .redetectionStart .. | .redetectionEnd .. | .frameAlignment .. | .loadMachine .. | .calibrateMachine .. | .streamMachine ..
    | .backhitchMachine .. | .tpiAbort .. =>
    t = { s with out := t.out, regs := t.regs, tape := t.tape, tpi := t.tpi, lpe := t.lpe, pulses := t.pulses, cores := t.cores, funcs := t.funcs }
  | .fmtLoadStart .. | .dcfLoadStart .. | .tpiLoadStart .. =>
    t = { s with
      out := t.out, regs := t.regs, blks := t.blks, dmcs := t.dmcs, tloads := t.tloads, pulses := t.pulses, cores := t.cores,
      funcs := t.funcs, ctrls := t.ctrls, qen := t.qen, blocks := t.blocks }
  | .fmtEvict .. | .dcfEvict .. =>
    t = { s with out := t.out, regs := t.regs, tables := t.tables, pulses := t.pulses, cores := t.cores, funcs := t.funcs }
  | .tableLoadEnd .. =>
    t = { s with
      out := t.out, regs := t.regs, blks := t.blks, tables := t.tables, tloads := t.tloads, kpr := t.kpr, pulses := t.pulses,
      cores := t.cores, funcs := t.funcs, free := t.free }
  | .dataSetSeparator .. =>
    t = { s with
      out := t.out, regs := t.regs, blks := t.blks, mem := t.mem, rts := t.rts, tape := t.tape, flash := t.flash, tpi := t.tpi,
      lpe := t.lpe, pulses := t.pulses, cores := t.cores, funcs := t.funcs, ctrls := t.ctrls, cmds := t.cmds, media := t.media }
  | .frameSlotIssue .. =>
    t = { s with
      out := t.out, regs := t.regs, blks := t.blks, mem := t.mem, upsets := t.upsets, dramErr := t.dramErr, dmcs := t.dmcs, rts := t.rts,
      tape := t.tape, tpi := t.tpi, pulses := t.pulses, cores := t.cores, funcs := t.funcs, ctrls := t.ctrls, cmds := t.cmds,
      qen := t.qen, media := t.media, blocks := t.blocks, zones := t.zones }
  | .frameVerify .. =>
    t = { s with
      out := t.out, regs := t.regs, mem := t.mem, upsets := t.upsets, dramErr := t.dramErr, dmcs := t.dmcs, rts := t.rts, tape := t.tape,
      tpi := t.tpi, pulses := t.pulses, cores := t.cores, funcs := t.funcs, ctrls := t.ctrls, cmds := t.cmds, qen := t.qen,
      media := t.media, blocks := t.blocks, zones := t.zones }
  | .codewordRequest .. | .tileDispatch .. =>
    t = { s with
      out := t.out, regs := t.regs, blks := t.blks, mem := t.mem, upsets := t.upsets, dramErr := t.dramErr, dmcs := t.dmcs, rts := t.rts,
      tape := t.tape, flash := t.flash, pulses := t.pulses, cores := t.cores, funcs := t.funcs, ctrls := t.ctrls, qen := t.qen,
      blocks := t.blocks }
  | .decodeEnd .. =>
    t = { s with
      out := t.out, regs := t.regs, blks := t.blks, tb := t.tb, mem := t.mem, upsets := t.upsets, dramErr := t.dramErr, dmcs := t.dmcs,
      rts := t.rts, power := t.power, tape := t.tape, flash := t.flash, pulses := t.pulses, cores := t.cores, funcs := t.funcs,
      ctrls := t.ctrls, qen := t.qen, blocks := t.blocks }
  | .deadlineExpiry .. =>
    t = { s with
      out := t.out, regs := t.regs, blks := t.blks, tb := t.tb, mem := t.mem, upsets := t.upsets, dramErr := t.dramErr, dmcs := t.dmcs,
      rts := t.rts, tape := t.tape, flash := t.flash, pulses := t.pulses, cores := t.cores, funcs := t.funcs, ctrls := t.ctrls,
      qen := t.qen, blocks := t.blocks }
  | .servoFrameEnd .. =>
    t = { s with out := t.out, regs := t.regs, svd := t.svd, lpe := t.lpe, pulses := t.pulses, cores := t.cores, funcs := t.funcs }
  | .companionWindowEnd .. =>
    t = { s with out := t.out, regs := t.regs, lpe := t.lpe, pulses := t.pulses, cores := t.cores, funcs := t.funcs, free := t.free }
  | .slotTrigger .. =>
    t = { s with
      out := t.out, regs := t.regs, mem := t.mem, rts := t.rts, tape := t.tape, tpi := t.tpi, lpe := t.lpe, pulses := t.pulses,
      cores := t.cores, funcs := t.funcs }
  | .slotEvaluation .. | .outputIssue .. | .slotDeadlineExpiry .. | .sampleTimeout .. | .actFrameStart .. =>
    t = { s with
      out := t.out, regs := t.regs, tb := t.tb, mem := t.mem, rts := t.rts, tape := t.tape, tpi := t.tpi, lpe := t.lpe,
      pulses := t.pulses, cores := t.cores, funcs := t.funcs }
  | .lpeTimerTick .. | .pwmCarrierPeriod .. =>
    t = { s with out := t.out, lpe := t.lpe }
  | .slotEnable .. | .slotDisable .. | .traceArm .. | .senseAdcResult .. =>
    t = { s with out := t.out, regs := t.regs, lpe := t.lpe }
  | .swap .. | .handover .. | .tracePostEnd .. =>
    t = { s with out := t.out, regs := t.regs, pulses := t.pulses, cores := t.cores, funcs := t.funcs }
  | .traceForce .. | .actSend .. =>
    t = { s with out := t.out, regs := t.regs, lpe := t.lpe, pulses := t.pulses, cores := t.cores, funcs := t.funcs }
  | .traceStop .. | .adcDataRead .. =>
    t = { s with out := t.out, regs := t.regs }
  | .actFrameEnd .. =>
    t = { s with out := t.out, regs := t.regs, tb := t.tb, lpe := t.lpe }
  | .threadMachine .. | .seekMachine .. =>
    t = { s with
      out := t.out, regs := t.regs, shadows := t.shadows, tape := t.tape, tpi := t.tpi, lpe := t.lpe, pulses := t.pulses,
      cores := t.cores, funcs := t.funcs, ctrls := t.ctrls, cmds := t.cmds, media := t.media, blocks := t.blocks, zones := t.zones,
      shelf := t.shelf, free := t.free }
  | .unloadMachine .. =>
    t = { s with
      out := t.out, regs := t.regs, blks := t.blks, tape := t.tape, tpi := t.tpi, lpe := t.lpe, pulses := t.pulses, cores := t.cores,
      funcs := t.funcs, ctrls := t.ctrls, cmds := t.cmds, blocks := t.blocks, zones := t.zones, shelf := t.shelf, free := t.free }
  | .sequencerTick .. | .stateTimeout .. =>
    t = { s with
      out := t.out, regs := t.regs, shadows := t.shadows, tb := t.tb, tape := t.tape, tpi := t.tpi, lpe := t.lpe, pulses := t.pulses,
      cores := t.cores, funcs := t.funcs, ctrls := t.ctrls, cmds := t.cmds, media := t.media, blocks := t.blocks, zones := t.zones,
      shelf := t.shelf, free := t.free }
  | .loadSensorChange .. =>
    t = { s with
      out := t.out, regs := t.regs, blks := t.blks, tape := t.tape, tpi := t.tpi, lpe := t.lpe, pulses := t.pulses, cores := t.cores,
      funcs := t.funcs, ctrls := t.ctrls, cmds := t.cmds, blocks := t.blocks, zones := t.zones, shelf := t.shelf }
  | .cmTransfer .. | .cmTransferEnd .. =>
    t = { s with out := t.out, regs := t.regs, tpi := t.tpi, pulses := t.pulses, cores := t.cores, funcs := t.funcs }
  | .tapeRingConsume .. =>
    t = { s with
      out := t.out, regs := t.regs, dmcs := t.dmcs, tape := t.tape, flash := t.flash, tpi := t.tpi, lpe := t.lpe, pulses := t.pulses,
      cores := t.cores, funcs := t.funcs, ctrls := t.ctrls, qen := t.qen, blocks := t.blocks, free := t.free }
  | .writeUnderrun .. =>
    t = { s with
      out := t.out, regs := t.regs, blks := t.blks, tape := t.tape, tpi := t.tpi, pulses := t.pulses, cores := t.cores, funcs := t.funcs,
      ctrls := t.ctrls, cmds := t.cmds, media := t.media }
  | .underrunRewriteStart .. =>
    t = { s with out := t.out, tpi := t.tpi }
  | .wrWaitExpiry .. =>
    t = { s with
      out := t.out, regs := t.regs, tb := t.tb, tape := t.tape, tpi := t.tpi, lpe := t.lpe, pulses := t.pulses, cores := t.cores,
      funcs := t.funcs }
  | _ => True)
  ∧ (∀ (i : Instr) (s t : State), exec i s = .next t → match i with
  | .ftmLoadStart .. =>
    t = { s with
      out := t.out, regs := t.regs, blks := t.blks, dmcs := t.dmcs, tloads := t.tloads, pulses := t.pulses, cores := t.cores,
      funcs := t.funcs, ctrls := t.ctrls, qen := t.qen, blocks := t.blocks }
  | .ftmEvict .. =>
    t = { s with out := t.out, regs := t.regs, tables := t.tables, pulses := t.pulses, cores := t.cores, funcs := t.funcs }
  | .discovery .. | .discoveryEnd .. | .freeRowPush .. =>
    t = { s with out := t.out, regs := t.regs, flash := t.flash, pulses := t.pulses, cores := t.cores, funcs := t.funcs }
  | .flcTrainStart .. =>
    t = { s with out := t.out, regs := t.regs }
  | .flcTrainEnd .. | .programEnd .. | .eraseEnd .. | .flcTimeout .. | .mapOut .. | .ftmUnrecRead .. =>
    t = { s with
      out := t.out, regs := t.regs, blks := t.blks, mem := t.mem, upsets := t.upsets, dramErr := t.dramErr, dmcs := t.dmcs, rts := t.rts,
      tape := t.tape, flash := t.flash, pulses := t.pulses, cores := t.cores, funcs := t.funcs, ctrls := t.ctrls, cmds := t.cmds,
      qen := t.qen, media := t.media, blocks := t.blocks }
  | .flcRetrainTimer .. =>
    t = { s with out := t.out, regs := t.regs, tb := t.tb, flash := t.flash, pulses := t.pulses, cores := t.cores, funcs := t.funcs }
  | .flcRawGo .. | .erase .. =>
    t = { s with out := t.out, regs := t.regs, blks := t.blks, flash := t.flash }
  | .flcRawEnd .. =>
    t = { s with out := t.out, regs := t.regs, blks := t.blks, flash := t.flash, pulses := t.pulses, cores := t.cores, funcs := t.funcs }
  | .flashSliceRead .. | .transitSlotGrant .. | .transitDmaEnd .. | .pageReadEnd .. =>
    t = { s with
      out := t.out, regs := t.regs, blks := t.blks, mem := t.mem, upsets := t.upsets, dramErr := t.dramErr, dmcs := t.dmcs, rts := t.rts,
      tape := t.tape, flash := t.flash, pulses := t.pulses, cores := t.cores, funcs := t.funcs, ctrls := t.ctrls, qen := t.qen,
      blocks := t.blocks }
  | .unitProgram .. =>
    t = { s with
      out := t.out, regs := t.regs, blks := t.blks, mem := t.mem, upsets := t.upsets, dramErr := t.dramErr, dmcs := t.dmcs,
      flash := t.flash, pulses := t.pulses, cores := t.cores, funcs := t.funcs, ctrls := t.ctrls, qen := t.qen, blocks := t.blocks }
  | .stripeClose .. =>
    t = { s with
      out := t.out, regs := t.regs, blks := t.blks, flash := t.flash, pulses := t.pulses, cores := t.cores, funcs := t.funcs,
      ctrls := t.ctrls, qen := t.qen, blocks := t.blocks }
  | .patrolRead .. =>
    t = { s with
      out := t.out, regs := t.regs, blks := t.blks, dmcs := t.dmcs, flash := t.flash, pulses := t.pulses, cores := t.cores,
      funcs := t.funcs, ctrls := t.ctrls, qen := t.qen, blocks := t.blocks, free := t.free }
  | .dramRequest .. =>
    t = { s with
      out := t.out, regs := t.regs, mem := t.mem, dramErr := t.dramErr, dmcs := t.dmcs, pulses := t.pulses, cores := t.cores,
      funcs := t.funcs }
  | .realTimePortTransfer .. =>
    t = { s with
      out := t.out, regs := t.regs, mem := t.mem, dramErr := t.dramErr, dmcs := t.dmcs, rts := t.rts, tape := t.tape, pulses := t.pulses,
      cores := t.cores, funcs := t.funcs, ctrls := t.ctrls, qen := t.qen, blocks := t.blocks }
  | .refreshTick .. | .refreshIssue .. =>
    t = { s with out := t.out, regs := t.regs, dmcs := t.dmcs }
  | .mr4Poll .. | .commandError .. =>
    t = { s with out := t.out, regs := t.regs, dmcs := t.dmcs, pulses := t.pulses, cores := t.cores, funcs := t.funcs }
  | .activationWindowEnd .. =>
    t = { s with out := t.out, dmcs := t.dmcs }
  | .thresholdHalvingEnd .. =>
    t = { s with out := t.out, tb := t.tb, dmcs := t.dmcs }
  | .migrationCopy .. =>
    t = { s with
      out := t.out, regs := t.regs, mem := t.mem, dramErr := t.dramErr, dmcs := t.dmcs, pulses := t.pulses, cores := t.cores,
      funcs := t.funcs, ctrls := t.ctrls, cmds := t.cmds, media := t.media }
  | .dmcTrainStart .. =>
    t = { s with out := t.out, regs := t.regs, pulses := t.pulses, cores := t.cores, funcs := t.funcs }
  | .dmcTrainEnd .. =>
    t = { s with
      out := t.out, regs := t.regs, dmcs := t.dmcs, window := t.window, winLost := t.winLost, pulses := t.pulses, cores := t.cores,
      funcs := t.funcs, ctrls := t.ctrls, cmds := t.cmds, media := t.media }
  | .dmcRetrainTimer .. =>
    t = { s with out := t.out, regs := t.regs, tb := t.tb, dmcs := t.dmcs, pulses := t.pulses, cores := t.cores, funcs := t.funcs }
  | .dramInitialisation .. =>
    t = { s with out := t.out, regs := t.regs, mem := t.mem, dramErr := t.dramErr }
  | _ => True)

/-- What the commands of the cores' surroundings and the engines (chapters 12 to 15) leave alone: each changes at most the parts of the
state named beside it, and the outputs. -/
def Obligations.EngineCommandsKeep : Prop :=
  ∀ (i : Instr) (s t : State), exec i s = .next t → match i with
  | .coreRun .. =>
    t = { s with out := t.out, regs := t.regs, cores := t.cores }
  | .coreReset .. =>
    t = { s with
      out := t.out, regs := t.regs, pulses := t.pulses, cores := t.cores, benches := t.benches, rings := t.rings, funcs := t.funcs,
      ctrls := t.ctrls, cmds := t.cmds, qen := t.qen, blocks := t.blocks, free := t.free }
  | .cclLoad .. =>
    t = { s with out := t.out, regs := t.regs, pulses := t.pulses, cores := t.cores, loads := t.loads, funcs := t.funcs }
  | .cclLoadEnd .. =>
    t = { s with
      out := t.out, regs := t.regs, mem := t.mem, upsets := t.upsets, dmcs := t.dmcs, pulses := t.pulses, cores := t.cores,
      loads := t.loads, funcs := t.funcs, ctrls := t.ctrls, qen := t.qen, blocks := t.blocks, free := t.free }
  | .benchGo .. =>
    t = { s with
      out := t.out, regs := t.regs, mem := t.mem, upsets := t.upsets, dramErr := t.dramErr, dmcs := t.dmcs, pulses := t.pulses,
      cores := t.cores, benches := t.benches, rings := t.rings, funcs := t.funcs, ctrls := t.ctrls, cmds := t.cmds, qen := t.qen,
      blocks := t.blocks, inp := t.inp, free := t.free }
  | .benchOut .. =>
    t = { s with
      out := t.out, regs := t.regs, mem := t.mem, upsets := t.upsets, dramErr := t.dramErr, dmcs := t.dmcs, pulses := t.pulses,
      cores := t.cores, benches := t.benches, rings := t.rings, funcs := t.funcs, ctrls := t.ctrls, cmds := t.cmds, qen := t.qen,
      blocks := t.blocks, free := t.free }
  | .sliceExpiry .. | .tRemExpiry .. =>
    t = { s with
      out := t.out, regs := t.regs, tb := t.tb, mem := t.mem, upsets := t.upsets, dramErr := t.dramErr, dmcs := t.dmcs,
      pulses := t.pulses, cores := t.cores, benches := t.benches, rings := t.rings, funcs := t.funcs, ctrls := t.ctrls, cmds := t.cmds,
      qen := t.qen, blocks := t.blocks, free := t.free }
  | .ringArm .. =>
    t = { s with
      out := t.out, regs := t.regs, mem := t.mem, upsets := t.upsets, dramErr := t.dramErr, dmcs := t.dmcs, pulses := t.pulses,
      cores := t.cores, rings := t.rings, funcs := t.funcs, ctrls := t.ctrls, qen := t.qen, blocks := t.blocks, inp := t.inp }
  | .descriptorFetch .. | .engineJobComplete .. =>
    t = { s with
      out := t.out, regs := t.regs, blks := t.blks, mem := t.mem, upsets := t.upsets, dramErr := t.dramErr, dmcs := t.dmcs,
      pulses := t.pulses, cores := t.cores, benches := t.benches, rings := t.rings, jobs := t.jobs, intakes := t.intakes, ase := t.ase,
      funcs := t.funcs, ctrls := t.ctrls, qen := t.qen, blocks := t.blocks, inp := t.inp, free := t.free }
  | .streamFill .. =>
    t = { s with
      out := t.out, regs := t.regs, mem := t.mem, upsets := t.upsets, dramErr := t.dramErr, dmcs := t.dmcs, pulses := t.pulses,
      cores := t.cores, streams := t.streams, funcs := t.funcs, ctrls := t.ctrls, cmds := t.cmds, qen := t.qen, blocks := t.blocks }
  | .compress .. | .decompress .. | .check .. | .xtsEnc .. | .xtsDec .. | .gcmDec .. | .ctr .. | .digest .. | .hseVerify ..
    | .crcBlocks .. | .aseSearch .. | .aseRead .. =>
    t = { s with
      out := t.out, regs := t.regs, blks := t.blks, mem := t.mem, upsets := t.upsets, dramErr := t.dramErr, dmcs := t.dmcs,
      pulses := t.pulses, cores := t.cores, jobs := t.jobs, intakes := t.intakes, funcs := t.funcs, ctrls := t.ctrls, qen := t.qen,
      blocks := t.blocks, inp := t.inp, free := t.free }
  | .gcmEnc .. | .gmacGen .. | .keyWrap .. =>
    t = { s with
      out := t.out, regs := t.regs, blks := t.blks, mem := t.mem, upsets := t.upsets, dramErr := t.dramErr, dmcs := t.dmcs, kpr := t.kpr,
      pulses := t.pulses, cores := t.cores, jobs := t.jobs, intakes := t.intakes, funcs := t.funcs, ctrls := t.ctrls, qen := t.qen,
      blocks := t.blocks, inp := t.inp, free := t.free }
  | .shutterSlotAllocate .. =>
    t = { s with out := t.out, blks := t.blks, jobs := t.jobs, intakes := t.intakes }
  | .gmacVer .. =>
    t = { s with
      out := t.out, regs := t.regs, blks := t.blks, dmcs := t.dmcs, pulses := t.pulses, cores := t.cores, jobs := t.jobs,
      intakes := t.intakes, funcs := t.funcs, ctrls := t.ctrls, qen := t.qen, blocks := t.blocks, inp := t.inp, free := t.free }
  | .keyGen .. | .keyErase .. =>
    t = { s with
      out := t.out, regs := t.regs, blks := t.blks, kpr := t.kpr, pulses := t.pulses, cores := t.cores, jobs := t.jobs,
      intakes := t.intakes, funcs := t.funcs, inp := t.inp, free := t.free }
  | .keyLoad .. =>
    t = { s with
      out := t.out, regs := t.regs, blks := t.blks, dmcs := t.dmcs, kpr := t.kpr, pulses := t.pulses, cores := t.cores, jobs := t.jobs,
      intakes := t.intakes, funcs := t.funcs, ctrls := t.ctrls, qen := t.qen, blocks := t.blocks, inp := t.inp, free := t.free }
  | .drbgReseed .. =>
    t = { s with out := t.out, regs := t.regs, kpr := t.kpr }
  | .aseSearchCtx .. | .aseStep .. =>
    t = { s with
      out := t.out, regs := t.regs, blks := t.blks, mem := t.mem, upsets := t.upsets, dramErr := t.dramErr, dmcs := t.dmcs,
      pulses := t.pulses, cores := t.cores, jobs := t.jobs, intakes := t.intakes, ase := t.ase, funcs := t.funcs, ctrls := t.ctrls,
      qen := t.qen, blocks := t.blocks, inp := t.inp, free := t.free }
  | .aseCtxFree .. | .aseDelete .. | .aseClear .. =>
    t = { s with
      out := t.out, regs := t.regs, blks := t.blks, pulses := t.pulses, cores := t.cores, jobs := t.jobs, intakes := t.intakes,
      ase := t.ase, funcs := t.funcs, inp := t.inp, free := t.free }
  | .aseLoad .. | .aseInsert .. | .aseWrite .. =>
    t = { s with
      out := t.out, regs := t.regs, blks := t.blks, dmcs := t.dmcs, pulses := t.pulses, cores := t.cores, jobs := t.jobs,
      intakes := t.intakes, ase := t.ase, funcs := t.funcs, ctrls := t.ctrls, qen := t.qen, blocks := t.blocks, inp := t.inp,
      free := t.free }
  | .contextFree .. =>
    t = { s with out := t.out, ase := t.ase }
  | _ => True

/-- What the commands of the links, the queues, Barlis and the virtual functions (chapters 16 to 19) leave alone: each changes at most the
parts of the state named beside it, and the outputs. -/
def Obligations.HostCommandsKeep : Prop :=
  ∀ (i : Instr) (s t : State), exec i s = .next t → match i with
  | .destageStart .. =>
    t = { s with
      out := t.out, regs := t.regs, mem := t.mem, upsets := t.upsets, dramErr := t.dramErr, dmcs := t.dmcs, rts := t.rts, tape := t.tape,
      tpi := t.tpi, pulses := t.pulses, cores := t.cores, funcs := t.funcs, ctrls := t.ctrls, qen := t.qen, blocks := t.blocks,
      zones := t.zones }
  | .linkTraining .. | .linkDown .. | .retrain .. | .perstAssert .. | .linkRecovery .. =>
    t = { s with
      out := t.out, regs := t.regs, blks := t.blks, bank := t.bank, mem := t.mem, upsets := t.upsets, dramErr := t.dramErr,
      dmcs := t.dmcs, kpr := t.kpr, pulses := t.pulses, cores := t.cores, benches := t.benches, rings := t.rings, jobs := t.jobs,
      intakes := t.intakes, ase := t.ase, streams := t.streams, funcs := t.funcs, numVfs := t.numVfs, ports := t.ports, ctrls := t.ctrls,
      cmds := t.cmds, qen := t.qen, blocks := t.blocks, inp := t.inp, free := t.free }
  | .perstRelease .. =>
    t = { s with out := t.out, ports := t.ports }
  | .l1Entry .. | .doeAbort .. | .getVersion .. =>
    t = { s with out := t.out, regs := t.regs, ports := t.ports }
  | .l1Exit .. | .setEndpointId .. =>
    t = { s with out := t.out, regs := t.regs }
  | .d3hotEntry .. | .d0Return .. =>
    t = { s with out := t.out, funcs := t.funcs }
  | .doeObject .. =>
    t = { s with out := t.out, regs := t.regs, pulses := t.pulses, cores := t.cores, funcs := t.funcs, ports := t.ports }
  | .readNvmeMiDataStructure .. | .configurationGet .. | .vpdRead .. =>
    t = { s with out := t.out, regs := t.regs, pulses := t.pulses, cores := t.cores, funcs := t.funcs }
  | .subsystemHealthStatusPoll .. =>
    t = { s with out := t.out, regs := t.regs, pulses := t.pulses, cores := t.cores, funcs := t.funcs, mi := t.mi, free := t.free }
  | .controllerHealthStatusPoll .. =>
    t = { s with out := t.out, regs := t.regs, pulses := t.pulses, cores := t.cores, funcs := t.funcs, ctrls := t.ctrls, free := t.free }
  | .configurationSet .. | .vpdWrite .. =>
    t = { s with out := t.out, regs := t.regs, pulses := t.pulses, cores := t.cores, funcs := t.funcs, mi := t.mi }
  | .sqDoorbell .. | .cqDoorbell .. | .completionPost .. | .deleteIoSq .. | .createIoSq .. | .deleteIoCq .. | .createIoCq ..
    | .abort .. | .asynchronousEventRequest .. | .primaryFlexibleAllocation .. | .secondaryAssign .. | .flush .. | .reportZones ..
    | .extendedReportZones .. | .energyReport .. =>
    t = { s with out := t.out, regs := t.regs, funcs := t.funcs, ctrls := t.ctrls, cmds := t.cmds }
  | .commandFetch .. =>
    t = { s with out := t.out, regs := t.regs, power := t.power, funcs := t.funcs, ctrls := t.ctrls, cmds := t.cmds, qen := t.qen }
  | .getLogPage .. =>
    t = { s with
      out := t.out, regs := t.regs, pulses := t.pulses, cores := t.cores, funcs := t.funcs, ctrls := t.ctrls, cmds := t.cmds,
      qen := t.qen, free := t.free }
  | .identify .. | .setArbitration .. | .setTemperatureThreshold .. | .setNumberOfQueues .. | .setInterruptCoalescing ..
    | .setInterruptVectorConfiguration .. | .setAsyncEventConfiguration .. | .setTimestamp .. | .setBarlisVersion .. | .getFeatures .. =>
    t = { s with out := t.out, regs := t.regs, pulses := t.pulses, cores := t.cores, funcs := t.funcs, ctrls := t.ctrls, cmds := t.cmds }
  | .namespaceManagement .. | .namespaceAttachment .. | .sanitizeBlockErase .. | .sanitizeCryptoErase .. | .sealZone .. =>
    t = { s with out := t.out, regs := t.regs, kpr := t.kpr, funcs := t.funcs, ctrls := t.ctrls, cmds := t.cmds }
  | .firmwareImageDownload .. =>
    t = { s with out := t.out, regs := t.regs, boot := t.boot, funcs := t.funcs, ctrls := t.ctrls, cmds := t.cmds }
  | .secondaryOffline .. | .applyControls .. | .freeze .. | .thaw .. | .save .. | .restore .. | .release .. | .transomDoorbell ..
    | .transomReady .. =>
    t = { s with
      out := t.out, regs := t.regs, blks := t.blks, mem := t.mem, upsets := t.upsets, dramErr := t.dramErr, dmcs := t.dmcs, kpr := t.kpr,
      pulses := t.pulses, cores := t.cores, benches := t.benches, rings := t.rings, jobs := t.jobs, intakes := t.intakes, ase := t.ase,
      streams := t.streams, funcs := t.funcs, ctrls := t.ctrls, cmds := t.cmds, qen := t.qen, blocks := t.blocks, inp := t.inp,
      free := t.free }
  | .secondaryOnline .. =>
    t = { s with out := t.out, regs := t.regs, ase := t.ase, funcs := t.funcs, ctrls := t.ctrls, cmds := t.cmds }
  | .formatNvm .. =>
    t = { s with
      out := t.out, regs := t.regs, mem := t.mem, upsets := t.upsets, dramErr := t.dramErr, dmcs := t.dmcs, pulses := t.pulses,
      cores := t.cores, funcs := t.funcs, ctrls := t.ctrls, cmds := t.cmds, qen := t.qen, nss := t.nss, blocks := t.blocks }
  | .read .. | .verify .. | .fixityCompute .. | .fixityVerify .. =>
    t = { s with
      out := t.out, regs := t.regs, dmcs := t.dmcs, pulses := t.pulses, cores := t.cores, funcs := t.funcs, ctrls := t.ctrls,
      cmds := t.cmds, qen := t.qen, blocks := t.blocks }
  | .writeZeroes .. =>
    t = { s with
      out := t.out, regs := t.regs, mem := t.mem, upsets := t.upsets, dramErr := t.dramErr, dmcs := t.dmcs, kpr := t.kpr,
      pulses := t.pulses, cores := t.cores, funcs := t.funcs, ctrls := t.ctrls, cmds := t.cmds, qen := t.qen, blocks := t.blocks }
  | .deallocate .. =>
    t = { s with
      out := t.out, regs := t.regs, mem := t.mem, upsets := t.upsets, dramErr := t.dramErr, dmcs := t.dmcs, pulses := t.pulses,
      cores := t.cores, funcs := t.funcs, ctrls := t.ctrls, cmds := t.cmds, qen := t.qen, blocks := t.blocks }
  | .zoneClose .. | .zoneFinish .. | .zoneOpen .. | .zoneReset .. =>
    t = { s with out := t.out, regs := t.regs, funcs := t.funcs, ctrls := t.ctrls, cmds := t.cmds, blocks := t.blocks, zones := t.zones }
  | .zoneAppend .. =>
    t = { s with
      out := t.out, regs := t.regs, kpr := t.kpr, funcs := t.funcs, ctrls := t.ctrls, cmds := t.cmds, qen := t.qen, blocks := t.blocks,
      zones := t.zones }
  | .flr .. | .numvfsWrite .. =>
    t = { s with
      out := t.out, regs := t.regs, blks := t.blks, mem := t.mem, upsets := t.upsets, dramErr := t.dramErr, dmcs := t.dmcs, kpr := t.kpr,
      pulses := t.pulses, cores := t.cores, benches := t.benches, rings := t.rings, jobs := t.jobs, intakes := t.intakes, ase := t.ase,
      streams := t.streams, funcs := t.funcs, numVfs := t.numVfs, ctrls := t.ctrls, cmds := t.cmds, qen := t.qen, blocks := t.blocks,
      inp := t.inp, free := t.free }
  | .programLoad .. =>
    t = { s with
      out := t.out, regs := t.regs, mem := t.mem, upsets := t.upsets, dramErr := t.dramErr, dmcs := t.dmcs, pulses := t.pulses,
      cores := t.cores, benches := t.benches, rings := t.rings, funcs := t.funcs, ctrls := t.ctrls, cmds := t.cmds, qen := t.qen,
      blocks := t.blocks, free := t.free }
  | .benchStatus .. =>
    t = { s with
      out := t.out, regs := t.regs, pulses := t.pulses, cores := t.cores, funcs := t.funcs, ctrls := t.ctrls, cmds := t.cmds,
      qen := t.qen, blocks := t.blocks, free := t.free }
  | .programUnload .. =>
    t = { s with
      out := t.out, regs := t.regs, pulses := t.pulses, cores := t.cores, benches := t.benches, rings := t.rings, funcs := t.funcs,
      ctrls := t.ctrls, cmds := t.cmds, qen := t.qen, blocks := t.blocks, free := t.free }
  | .benchAttachStream .. =>
    t = { s with
      out := t.out, regs := t.regs, mem := t.mem, upsets := t.upsets, dramErr := t.dramErr, dmcs := t.dmcs, pulses := t.pulses,
      cores := t.cores, benches := t.benches, streams := t.streams, funcs := t.funcs, ctrls := t.ctrls, cmds := t.cmds, qen := t.qen,
      blocks := t.blocks }
  | .benchRun .. =>
    t = { s with
      out := t.out, regs := t.regs, mem := t.mem, upsets := t.upsets, dramErr := t.dramErr, dmcs := t.dmcs, pulses := t.pulses,
      cores := t.cores, benches := t.benches, funcs := t.funcs, ctrls := t.ctrls, cmds := t.cmds, qen := t.qen, blocks := t.blocks,
      free := t.free }
  | .transform .. | .search .. =>
    t = { s with
      out := t.out, regs := t.regs, mem := t.mem, upsets := t.upsets, dramErr := t.dramErr, dmcs := t.dmcs, pulses := t.pulses,
      cores := t.cores, jobs := t.jobs, ase := t.ase, funcs := t.funcs, ctrls := t.ctrls, cmds := t.cmds, qen := t.qen,
      blocks := t.blocks, inp := t.inp, free := t.free }
  | .indexLoad .. =>
    t = { s with
      out := t.out, regs := t.regs, mem := t.mem, dmcs := t.dmcs, pulses := t.pulses, cores := t.cores, jobs := t.jobs, ase := t.ase,
      funcs := t.funcs, ctrls := t.ctrls, cmds := t.cmds, qen := t.qen, blocks := t.blocks, inp := t.inp, free := t.free }
  | .stageZone .. =>
    t = { s with
      out := t.out, regs := t.regs, pulses := t.pulses, cores := t.cores, funcs := t.funcs, ctrls := t.ctrls, cmds := t.cmds,
      blocks := t.blocks, zones := t.zones }
  | .destageZone .. =>
    t = { s with
      out := t.out, regs := t.regs, mem := t.mem, upsets := t.upsets, dramErr := t.dramErr, dmcs := t.dmcs, rts := t.rts, tape := t.tape,
      tpi := t.tpi, pulses := t.pulses, cores := t.cores, funcs := t.funcs, ctrls := t.ctrls, cmds := t.cmds, qen := t.qen,
      blocks := t.blocks, zones := t.zones }
  | .freezeDrained .. =>
    t = { s with
      out := t.out, regs := t.regs, mem := t.mem, upsets := t.upsets, pulses := t.pulses, cores := t.cores, funcs := t.funcs,
      ctrls := t.ctrls, qen := t.qen, blocks := t.blocks }
  | .freezeTimeout .. =>
    t = { s with
      out := t.out, regs := t.regs, tb := t.tb, mem := t.mem, upsets := t.upsets, pulses := t.pulses, cores := t.cores, funcs := t.funcs,
      ctrls := t.ctrls, qen := t.qen, blocks := t.blocks }
  | .saveEnd .. =>
    t = { s with
      out := t.out, regs := t.regs, mem := t.mem, upsets := t.upsets, kpr := t.kpr, pulses := t.pulses, cores := t.cores,
      funcs := t.funcs, ctrls := t.ctrls, qen := t.qen, blocks := t.blocks }
  | .restoreEnd .. =>
    t = { s with
      out := t.out, regs := t.regs, mem := t.mem, upsets := t.upsets, dramErr := t.dramErr, dmcs := t.dmcs, kpr := t.kpr,
      pulses := t.pulses, cores := t.cores, benches := t.benches, rings := t.rings, ase := t.ase, funcs := t.funcs, ctrls := t.ctrls,
      cmds := t.cmds, qen := t.qen, nss := t.nss, blocks := t.blocks, free := t.free }
  | .capEvaluation .. =>
    t = { s with
      out := t.out, regs := t.regs, mem := t.mem, upsets := t.upsets, pulses := t.pulses, cores := t.cores, benches := t.benches,
      funcs := t.funcs, ctrls := t.ctrls, qen := t.qen, blocks := t.blocks }
  | .controllerReset .. =>
    t = { s with out := t.out, funcs := t.funcs, ctrls := t.ctrls, cmds := t.cmds, qen := t.qen }
  | .interruptCoalescingTimeout .. =>
    t = { s with out := t.out, regs := t.regs, funcs := t.funcs, ctrls := t.ctrls }
  | _ => True

/-- What the commands of the page header, security, power, boot and events (chapters 2 and 20 to 23) leave alone: each changes at most the
parts of the state named beside it, and the outputs. -/
def Obligations.ManagementCommandsKeep : Prop :=
  ∀ (i : Instr) (s t : State), exec i s = .next t → match i with
  | .softResetDone .. =>
    t = { s with out := t.out, regs := t.regs, blks := t.blks, pulses := t.pulses, cores := t.cores, funcs := t.funcs }
  | .commitApply .. =>
    t = { s with
      out := t.out, regs := t.regs, shadows := t.shadows, blks := t.blks, kpr := t.kpr, svd := t.svd, pulses := t.pulses,
      cores := t.cores, funcs := t.funcs }
  | .energyLoRead .. =>
    t = { s with
      out := t.out, regs := t.regs, latches := t.latches, blks := t.blks, mem := t.mem, upsets := t.upsets, dramErr := t.dramErr,
      dmcs := t.dmcs, rts := t.rts, tape := t.tape, flash := t.flash, pulses := t.pulses, cores := t.cores, funcs := t.funcs,
      ctrls := t.ctrls, cmds := t.cmds, qen := t.qen, media := t.media, blocks := t.blocks }
  | .getCertificate .. =>
    t = { s with out := t.out, regs := t.regs, ports := t.ports }
  | .challenge .. | .getMeasurements .. =>
    t = { s with out := t.out, regs := t.regs, ports := t.ports, free := t.free }
  | .keyExchange .. =>
    t = { s with out := t.out, regs := t.regs, kpr := t.kpr, ports := t.ports, free := t.free }
  | .setCertificate .. =>
    t = { s with out := t.out, regs := t.regs, kpr := t.kpr, ports := t.ports }
  | .setPowerManagement .. | .sensorSample .. =>
    t = { s with
      out := t.out, regs := t.regs, power := t.power, pulses := t.pulses, cores := t.cores, funcs := t.funcs, ctrls := t.ctrls,
      cmds := t.cmds }
  | .firmwareCommitReplace .. | .firmwareCommitNextBoot .. =>
    t = { s with out := t.out, regs := t.regs, kpr := t.kpr, funcs := t.funcs, ctrls := t.ctrls, cmds := t.cmds }
  | .firmwareActivate .. =>
    t = { s with
      out := t.out, regs := t.regs, mem := t.mem, upsets := t.upsets, kpr := t.kpr, boot := t.boot, pulses := t.pulses, cores := t.cores,
      benches := t.benches, rings := t.rings, funcs := t.funcs, ctrls := t.ctrls, cmds := t.cmds, qen := t.qen, blocks := t.blocks,
      free := t.free }
  | .activationStallExpiry .. =>
    t = { s with
      out := t.out, regs := t.regs, tb := t.tb, mem := t.mem, upsets := t.upsets, kpr := t.kpr, boot := t.boot, pulses := t.pulses,
      cores := t.cores, benches := t.benches, rings := t.rings, funcs := t.funcs, ctrls := t.ctrls, cmds := t.cmds, qen := t.qen,
      blocks := t.blocks, free := t.free }
  | .write .. =>
    t = { s with
      out := t.out, regs := t.regs, mem := t.mem, upsets := t.upsets, dramErr := t.dramErr, dmcs := t.dmcs, kpr := t.kpr,
      pulses := t.pulses, cores := t.cores, funcs := t.funcs, ctrls := t.ctrls, cmds := t.cmds, qen := t.qen, blocks := t.blocks,
      zones := t.zones }
  | .provision .. | .integrate .. | .takeOwnership .. | .transfer .. | .lifecycleRelease .. | .retire .. | .rebind ..
    | .firmwareApproval .. | .tableApproval .. | .integratorKeyRotation .. | .debugUnlock .. | .ownerPolicy .. | .ownerMigrationKey ..
    | .keyImport .. | .sealRelease .. =>
    t = { s with
      out := t.out, regs := t.regs, blks := t.blks, kpr := t.kpr, pulses := t.pulses, cores := t.cores, funcs := t.funcs,
      ports := t.ports }
  | .securityEpochRaise .. =>
    t = { s with
      out := t.out, regs := t.regs, blks := t.blks, tables := t.tables, kpr := t.kpr, pulses := t.pulses, cores := t.cores,
      funcs := t.funcs, ports := t.ports }
  | .journalEntryDurable .. =>
    t = { s with
      out := t.out, regs := t.regs, shadows := t.shadows, blks := t.blks, mem := t.mem, upsets := t.upsets, dramErr := t.dramErr,
      dmcs := t.dmcs, kpr := t.kpr, boot := t.boot, pulses := t.pulses, cores := t.cores, jobs := t.jobs, funcs := t.funcs,
      ports := t.ports, ctrls := t.ctrls, cmds := t.cmds, qen := t.qen, nss := t.nss, blocks := t.blocks, zones := t.zones,
      shelf := t.shelf, free := t.free }
  | .alarm .. =>
    t = { s with
      out := t.out, regs := t.regs, mem := t.mem, upsets := t.upsets, dramErr := t.dramErr, dmcs := t.dmcs, kpr := t.kpr, boot := t.boot,
      pulses := t.pulses, cores := t.cores, jobs := t.jobs, funcs := t.funcs, ctrls := t.ctrls, qen := t.qen, nss := t.nss,
      blocks := t.blocks, free := t.free }
  | .alarmClear .. =>
    t = { s with out := t.out, regs := t.regs, kpr := t.kpr, boot := t.boot, pulses := t.pulses, cores := t.cores, funcs := t.funcs, free := t.free }
  | .profileChange .. =>
    t = { s with out := t.out, regs := t.regs, power := t.power, pulses := t.pulses, cores := t.cores, funcs := t.funcs }
  | .latchedEntry .. | .shutteredEntry .. =>
    t = { s with
      out := t.out, regs := t.regs, fab := t.fab, power := t.power, lpe := t.lpe, pulses := t.pulses, cores := t.cores, funcs := t.funcs,
      ports := t.ports }
  | .entryTimeout .. | .idleExpiry .. | .avsbusTimeout .. =>
    t = { s with out := t.out, regs := t.regs, tb := t.tb, power := t.power, pulses := t.pulses, cores := t.cores, funcs := t.funcs }
  | .governorStep .. | .softwareSource .. | .agmWearPoll .. =>
    t = { s with out := t.out, regs := t.regs, pulses := t.pulses, cores := t.cores, funcs := t.funcs }
  | .meteringInterval .. =>
    t = { s with
      out := t.out, regs := t.regs, telem := t.telem, power := t.power, pulses := t.pulses, cores := t.cores, benches := t.benches,
      funcs := t.funcs, cmds := t.cmds }
  | .plannerRun .. =>
    t = { s with out := t.out, regs := t.regs, power := t.power, free := t.free }
  | .agmMeasurement .. =>
    t = { s with out := t.out, regs := t.regs }
  | .bootStage .. =>
    t = { s with
      out := t.out, regs := t.regs, mem := t.mem, upsets := t.upsets, kpr := t.kpr, boot := t.boot, pulses := t.pulses, cores := t.cores,
      benches := t.benches, rings := t.rings, funcs := t.funcs, ctrls := t.ctrls, cmds := t.cmds, qen := t.qen, nss := t.nss,
      blocks := t.blocks, free := t.free }
  | .mapRestoreEnd .. =>
    t = { s with
      out := t.out, regs := t.regs, mem := t.mem, upsets := t.upsets, dramErr := t.dramErr, dmcs := t.dmcs, boot := t.boot,
      pulses := t.pulses, cores := t.cores, funcs := t.funcs, ctrls := t.ctrls, qen := t.qen, blocks := t.blocks }
  | .holdupDrain .. =>
    t = { s with
      out := t.out, regs := t.regs, shadows := t.shadows, blks := t.blks, fab := t.fab, mem := t.mem, upsets := t.upsets,
      dramErr := t.dramErr, dmcs := t.dmcs, kpr := t.kpr, boot := t.boot, tape := t.tape, flash := t.flash, tpi := t.tpi, lpe := t.lpe,
      pulses := t.pulses, cores := t.cores, jobs := t.jobs, funcs := t.funcs, ports := t.ports, ctrls := t.ctrls, cmds := t.cmds,
      qen := t.qen, nss := t.nss, blocks := t.blocks, zones := t.zones, shelf := t.shelf, free := t.free }
  | .pulseEnd .. =>
    t = { s with out := t.out, pulses := t.pulses }
  | .msixUnmask .. =>
    t = { s with out := t.out, regs := t.regs, funcs := t.funcs }
  | .avsbusDone .. =>
    t = { s with out := t.out, regs := t.regs, kpr := t.kpr, power := t.power, pulses := t.pulses, cores := t.cores, funcs := t.funcs }
  | .bootTimeout .. =>
    t = { s with out := t.out, regs := t.regs, tb := t.tb, ctrls := t.ctrls }
  | _ => True

/-- What commands leave alone among the registers: the NVMe and Barlis commands named first change none but EVF's own; the others none but
those of the blocks named beside them and EVF's. -/
def Obligations.RegistersOfOtherBlocksKeep : Prop :=
  ∀ (i : Instr) (s t : State) (p o : Nat), o < 4096 → exec i s = .next t →
    let inside (q n : Nat) : Prop := q ≤ p ∧ p < q + n
    match i with
  | .abort .. | .asynchronousEventRequest .. | .benchStatus .. | .commandFetch .. | .completionPost .. | .cqDoorbell ..
    | .createIoCq .. | .createIoSq .. | .deleteIoCq .. | .deleteIoSq .. | .energyReport .. | .extendedReportZones ..
    | .firmwareCommitNextBoot .. | .firmwareCommitReplace .. | .firmwareImageDownload .. | .flush .. | .freezeTimeout ..
    | .interruptCoalescingTimeout .. | .msixUnmask .. | .namespaceAttachment .. | .namespaceManagement ..
    | .primaryFlexibleAllocation .. | .reportZones .. | .sanitizeBlockErase .. | .sanitizeCryptoErase .. | .sealZone ..
    | .secondaryAssign .. | .softwareSource .. | .sqDoorbell .. | .zoneAppend .. | .zoneClose .. | .zoneFinish .. | .zoneOpen ..
    | .zoneReset .. => ¬ inside pEvf 16 → t.rg p o = s.rg p o
  | .deallocate .. | .read .. | .verify .. | .write .. | .writeZeroes .. =>
    ¬ inside pEvf 16 → ¬ inside (pDmc 0) 32 → t.rg p o = s.rg p o
  | .stageZone .. => ¬ inside pEvf 16 → ¬ inside pTpi 8 → t.rg p o = s.rg p o
  | .refreshTick n _ | .refreshIssue n _ => ¬ inside (pDmc n.val) 8 → t.rg p o = s.rg p o
  | .governorStep .. | .entryTimeout .. | .profileChange .. | .idleExpiry .. => ¬ inside pEvf 16 → ¬ inside pPcr 8 → t.rg p o = s.rg p o
  | .agmMeasurement .. | .plannerRun .. | .agmWearPoll .. | .avsbusTimeout .. =>
    ¬ inside pEvf 16 → ¬ inside pAgm 16 → t.rg p o = s.rg p o
  | .avsbusDone .. => ¬ inside pEvf 16 → ¬ inside pAgm 16 → ¬ inside pPcr 8 → t.rg p o = s.rg p o
  | _ => True

/-- Cipher and key jobs complete (R357 to R365, R368): each of the thirteen commands of the cipher engines, on conditions of the state, its
job and its operands alone, has its own effect. The ranges of the jobs lie in shared SRAM. -/
def Obligations.CipherJobsComplete : Prop :=
  (∀ (s : State) (tag : Nat) (host : List Byte) (j : Job) (k : KeySlot) (x y : Range),
    s.hands 0x14 tag 1 j → aeeRefusal j = none → s.keyFor j = .ok k → s.inShared j.src x → x.len = j.srcLen → s.inShared j.dst y →
    Acts (.xtsEnc tag host) s fun t =>
      let out := xts true k.key (2 ^ natBits j.param1 12 4) j.param0 (memRead s.mem x.addr x.len)
      t.resultOf tag = some ⟨0, 0, j.srcLen, out.length⟩ ∧ memRead t.mem y.addr out.length = out)
  ∧ (∀ (s : State) (tag : Nat) (host : List Byte) (j : Job) (k : KeySlot) (x y : Range),
    s.hands 0x14 tag 2 j → aeeRefusal j = none → s.keyFor j = .ok k → s.inShared j.src x → x.len = j.srcLen → s.inShared j.dst y →
    Acts (.xtsDec tag host) s fun t =>
      let out := xts false k.key (2 ^ natBits j.param1 12 4) j.param0 (memRead s.mem x.addr x.len)
      t.resultOf tag = some ⟨0, 0, j.srcLen, out.length⟩ ∧ memRead t.mem y.addr out.length = out)
  ∧ (∀ (s : State) (tag : Nat) (host : List Byte) (j : Job) (k : KeySlot) (x y r : Range),
    s.hands 0x14 tag 7 j → aeeRefusal j = none → s.keyFor j = .ok k → s.inShared j.src x → x.len = j.srcLen → s.inShared j.dst y →
    s.inShared j.aux.toList r →
    Acts (.ctr tag host) s fun t =>
      let out := ctrCrypt k.key (memRead s.mem r.addr r.len) (memRead s.mem x.addr x.len)
      t.resultOf tag = some ⟨0, 0, j.srcLen, out.length⟩ ∧ memRead t.mem y.addr out.length = out)
  -- sealing takes the slot's next nonce, which no later job gets again
  ∧ (∀ (s : State) (tag : Nat) (host : List Byte) (j : Job) (k : KeySlot) (x y r : Range),
    s.hands 0x14 tag 3 j → aeeRefusal j = none → s.keyFor j = .ok k → k.inv + 1 ≤ k.seq * 2 ^ 32 + 2 ^ 32 - 1 →
    s.inShared j.src x → x.len = j.srcLen → s.inShared j.dst y → s.inShared j.aux.toList r → r.len = 32 →
    Acts (.gcmEnc tag host) s fun t =>
      let b := memRead s.mem x.addr x.len
      let iv := leBytes 4 s.kpr.salt ++ leBytes 8 k.inv
      let out := gcmCrypt k.key iv (b.drop (aeeAad j))
      let record := iv ++ leBytes 4 0 ++ gcmTag k.key iv (b.take (aeeAad j)) out
      t.resultOf tag = some ⟨0, 0, j.srcLen, out.length⟩ ∧ memRead t.mem y.addr out.length = out
        ∧ memRead t.mem r.addr record.length = record
        ∧ mapFind t.kpr.keys (j.param1 % 512) = some { k with inv := k.inv + 1 })
  ∧ (∀ (s : State) (tag : Nat) (host : List Byte) (j : Job) (k : KeySlot) (x r : Range),
    s.hands 0x14 tag 5 j → aeeRefusal j = none → s.keyFor j = .ok k → k.inv + 1 ≤ k.seq * 2 ^ 32 + 2 ^ 32 - 1 →
    s.inShared j.src x → s.inShared j.aux.toList r → r.len = 32 →
    Acts (.gmacGen tag host) s fun t =>
      let iv := leBytes 4 s.kpr.salt ++ leBytes 8 k.inv
      let record := iv ++ leBytes 4 0 ++ gcmTag k.key iv (memRead s.mem x.addr x.len) []
      t.resultOf tag = some ⟨0, 0, j.srcLen, 0⟩ ∧ memRead t.mem r.addr record.length = record
        ∧ mapFind t.kpr.keys (j.param1 % 512) = some { k with inv := k.inv + 1 })
  ∧ (∀ (s : State) (tag : Nat) (host : List Byte) (j : Job) (k : KeySlot) (x r : Range),
    s.hands 0x14 tag 6 j → aeeRefusal j = none → s.keyFor j = .ok k → s.inShared j.src x → s.inShared j.aux.toList r →
    Acts (.gmacVer tag host) s fun t =>
      let record := memRead s.mem r.addr r.len
      t.mem = s.mem ∧ t.resultOf tag = some ⟨if gcmTag k.key (record.take 12) (memRead s.mem x.addr x.len) [] = record.drop 16
        then 0 else 0x3020, 0, j.srcLen, 0⟩)
  -- GCM_DEC is taken with a Shutter slot, then delivers the whole text under its tag and nothing without it
  ∧ (∀ (s u : State) (tag pg : Nat) (j : Job), s.fresh.takeJob 0x14 tag (· == 4) = some (u, pg, j) → j.opcode = 4 → aeeParamsOk j = true →
    j.srcLen - aeeAad j ≤ 2 ^ 20 → (∀ e ∈ s.jobs, e.2.inst.map Prod.fst = some pg → e.2.slot = none) →
    Acts (.shutterSlotAllocate tag) s fun t => (mapFind t.jobs tag).bind Job.slot = some (0, shutLog (j.srcLen - aeeAad j))
      ∧ t.resultOf tag = j.result)
  ∧ (∀ (s : State) (tag pg : Nat) (host : List Byte) (j : Job) (k : KeySlot) (e : RegWord) (x y r : Range), mapFind s.jobs tag = some j →
    j.inst = some (pg, e) → j.slot.isSome = true → j.result = none → j.opcode = 4 → s.instFree pg j = true → aeeRefusal j = none →
    s.keyFor j = .ok k → s.inShared j.src x → x.len = j.srcLen → s.inShared j.dst y → s.inShared j.aux.toList r →
    Acts (.gcmDec tag host) s fun t =>
      let b := memRead s.mem x.addr x.len
      let record := memRead s.mem r.addr r.len
      let out := gcmCrypt k.key (record.take 12) (b.drop (aeeAad j))
      (gcmTag k.key (record.take 12) (b.take (aeeAad j)) (b.drop (aeeAad j)) = record.drop 16 →
        t.resultOf tag = some ⟨0, 0, j.srcLen, out.length⟩ ∧ memRead t.mem y.addr out.length = out)
      ∧ (gcmTag k.key (record.take 12) (b.take (aeeAad j)) (b.drop (aeeAad j)) ≠ record.drop 16 →
        (b.drop (aeeAad j)).length ≤ 2 ^ 20 → t.resultOf tag = some ⟨0x3020, 0, j.srcLen, 0⟩ ∧ t.mem = s.mem))
  -- key jobs outside an alarm
  ∧ (∀ (s : State) (tag : Nat) (j : Job), s.hands 0x14 tag 0x10 j → aeeRefusal j = none → s.alarmOn = false → s.slotOwn j = 0 →
    Acts (.keyGen tag) s fun t => t.resultOf tag = some ⟨0, 0, 0, 0⟩ ∧ t.kpr.generated = s.kpr.generated + 1
      ∧ ∃ key : List Byte, key.length = keyLen (natBits j.param1 44 4) ∧ mapFind t.kpr.keys (j.param1 % 512)
        = some ⟨natBits j.param1 44 4, natBits j.param1 48 6, j.func, key, (s.kpr.loadSeq + 1) * 2 ^ 32 % 2 ^ 64, s.kpr.loadSeq + 1⟩)
  ∧ (∀ (s : State) (tag : Nat) (j : Job), s.hands 0x14 tag 0x11 j → aeeRefusal j = none → s.alarmOn = false → s.slotOwn j = 0 →
    s.inShared [⟨s.wktAt (natBits j.param1 32 12), 128⟩] ⟨s.wktAt (natBits j.param1 32 12), 128⟩ →
    Acts (.keyLoad tag) s fun t =>
      let r := memRead s.mem (s.wktAt (natBits j.param1 32 12)) 128
      (wrapOk r = false ∨ s.kpr.fuses.lcs = 4 → t.resultOf tag = some ⟨0x6014, 0, 0, 0⟩ ∧ t.kpr = s.kpr)
      ∧ (wrapOk r = true → s.kpr.fuses.lcs ≠ 4 → leNat ((r.drop 6).take 2) ≠ j.func → t.resultOf tag = some ⟨0x6015, 0, 0, 0⟩ ∧ t.kpr = s.kpr)
      ∧ (wrapOk r = true → s.kpr.fuses.lcs ≠ 4 → leNat ((r.drop 6).take 2) = j.func → t.resultOf tag = some ⟨0, 0, 0, 0⟩
        ∧ mapFind t.kpr.keys (j.param1 % 512) = some ⟨leNat ((r.drop 5).take 1) % 16, leNat ((r.drop 8).take 1), j.func,
          (gcmCrypt wrapKeyBytes ((r.drop 0x10).take 12) ((r.drop 0x20).take 64)).take (keyLen (leNat ((r.drop 5).take 1) % 16)),
          (s.kpr.loadSeq + 1) * 2 ^ 32 % 2 ^ 64, s.kpr.loadSeq + 1⟩))
  ∧ (∀ (s : State) (tag : Nat) (j : Job) (k : KeySlot), s.hands 0x14 tag 0x12 j → aeeRefusal j = none → s.alarmOn = false →
    s.keyFor j = .ok k →
    s.inShared [⟨s.wktAt (natBits j.param1 32 12), 128⟩] ⟨s.wktAt (natBits j.param1 32 12), 128⟩ → (s.wrapRecord k).length = 128 →
    Acts (.keyWrap tag) s fun t => t.resultOf tag = some ⟨0, 0, 0, 0⟩ ∧ t.kpr.keys = s.kpr.keys ∧ t.kpr.wraps = s.kpr.wraps + 1
      ∧ memRead t.mem (s.wktAt (natBits j.param1 32 12)) 128 = s.wrapRecord k)
  ∧ (∀ (s : State) (tag : Nat) (j : Job) (k : KeySlot), s.hands 0x14 tag 0x13 j → aeeRefusal j = none → s.alarmOn = false →
    mapFind s.kpr.keys (j.param1 % 512) = some k → k.owner = j.func → k.owner ≠ 0xFFFF →
    Acts (.keyErase tag) s fun t => t.resultOf tag = some ⟨0, 0, 0, 0⟩ ∧ mapFind t.kpr.keys (j.param1 % 512) = none
      ∧ ∀ n, n ≠ j.param1 % 512 → mapFind t.kpr.keys n = mapFind s.kpr.keys n)
  -- the DRBG reseeds itself after 2³² requests, and SALT stays
  ∧ ∀ s : State, s.kpr.seeded = true → 2 ^ 32 ≤ s.kpr.generated →
    Acts .drbgReseed s fun t => t.kpr.generated = 0 ∧ t.kpr.salt = s.kpr.salt ∧ t.kpr.keys = s.kpr.keys
end

