-- ==== Sys2Proof/Laws/Maps.lean ====
section
/-! SUPPORT. Laws of sparse maps: what a read gives after a write, and the canonical form. -/

namespace Sys2Proof.Machine

variable {α : Type}

@[simp] theorem mapFind_mapPut_self (m : FMap α) (k : Nat) (v : α) : mapFind (mapPut m k v) k = some v := by
  induction m with
  | nil => simp [mapPut, mapFind]
  | cons e r ih =>
    simp only [mapPut]
    split
    · simp [mapFind]
    · split
      · simp [mapFind]
      · simp [mapFind, *]

theorem mapFind_mapPut_ne (m : FMap α) {k j : Nat} (v : α) (h : j ≠ k) : mapFind (mapPut m k v) j = mapFind m j := by
  induction m with
  | nil => simp [mapPut, mapFind, h.symm]
  | cons e r ih =>
    simp only [mapPut]
    split
    · rename_i hk; subst hk; simp [mapFind, h.symm]
    · split
      · simp [mapFind, h.symm]
      · simp [mapFind, ih]

@[simp] theorem mapFind_mapDel_self (m : FMap α) (k : Nat) : mapFind (mapDel m k) k = none := by
  induction m with
  | nil => rfl
  | cons e r ih =>
    simp only [mapDel]
    split
    · exact ih
    · simp [mapFind, *]

theorem mapFind_mapDel_ne (m : FMap α) {k j : Nat} (h : j ≠ k) : mapFind (mapDel m k) j = mapFind m j := by
  induction m with
  | nil => rfl
  | cons e r ih =>
    simp only [mapDel]
    split
    · rename_i hk; subst hk; simp [mapFind, h.symm, ih]
    · simp [mapFind, ih]

/-- A read of the key that was written gives the value written. -/
@[simp] theorem mapGet_mapSet_self [DecidableEq α] (d : Nat → α) (m : FMap α) (k : Nat) (v : α) :
    mapGet d (mapSet d m k v) k = v := by
  unfold mapGet mapSet
  split
  · simp [*]
  · simp

/-- A write leaves every other key alone. -/
theorem mapGet_mapSet_ne [DecidableEq α] (d : Nat → α) (m : FMap α) {k j : Nat} (v : α) (h : j ≠ k) :
    mapGet d (mapSet d m k v) j = mapGet d m j := by
  unfold mapGet mapSet
  split
  · rw [mapFind_mapDel_ne m h]
  · rw [mapFind_mapPut_ne m v h]

theorem mapGet_mapSet [DecidableEq α] (d : Nat → α) (m : FMap α) (k j : Nat) (v : α) :
    mapGet d (mapSet d m k v) j = if j = k then v else mapGet d m j := by
  split
  · rename_i h; subst h; simp
  · rename_i h; exact mapGet_mapSet_ne d m v h

@[simp] theorem mapGet_mapPut_self (d : Nat → α) (m : FMap α) (k : Nat) (v : α) : mapGet d (mapPut m k v) k = v := by
  simp [mapGet]

@[simp] theorem mapGet_nil (d : Nat → α) (k : Nat) : mapGet d [] k = d k := rfl

/-! ### The canonical form -/

/-- Every key of the map lies above `a`. -/
def keysAbove (a : Nat) (m : FMap α) : Prop := ∀ e ∈ m, a < e.1

theorem keysRise_cons (a : Nat) (x : α) (r : FMap α) : keysRise ((a, x) :: r) = true ↔ keysAbove a r ∧ keysRise r = true := by
  induction r generalizing a x with
  | nil => simp [keysRise, keysAbove]
  | cons e r ih =>
    obtain ⟨b, y⟩ := e
    simp only [keysRise, Bool.and_eq_true, decide_eq_true_eq, ih b y, keysAbove, List.mem_cons]
    constructor
    · rintro ⟨hab, hb, hr⟩
      refine ⟨fun e he => ?_, hb, hr⟩
      obtain rfl | he := he
      · exact hab
      · exact Nat.lt_trans hab (hb e he)
    · rintro ⟨ha, hb, hr⟩
      exact ⟨ha (b, y) (.inl rfl), hb, hr⟩

theorem mem_mapDel (m : FMap α) (k : Nat) (e : Nat × α) (h : e ∈ mapDel m k) : e ∈ m := by
  induction m with
  | nil => exact h
  | cons x r ih =>
    simp only [mapDel] at h
    split at h
    · exact List.mem_cons_of_mem _ (ih h)
    · obtain rfl | h := List.mem_cons.1 h
      · simp
      · exact List.mem_cons_of_mem _ (ih h)

theorem mem_mapPut (m : FMap α) (k : Nat) (v : α) (e : Nat × α) (h : e ∈ mapPut m k v) : e ∈ m ∨ e = (k, v) := by
  induction m with
  | nil => simp [mapPut] at h; exact .inr h
  | cons x r ih =>
    simp only [mapPut] at h
    split at h
    · obtain rfl | h := List.mem_cons.1 h
      · exact .inr rfl
      · exact .inl (List.mem_cons_of_mem _ h)
    · split at h
      · obtain rfl | h := List.mem_cons.1 h
        · exact .inr rfl
        · exact .inl h
      · obtain rfl | h := List.mem_cons.1 h
        · simp
        · rcases ih h with h | h
          · exact .inl (List.mem_cons_of_mem _ h)
          · exact .inr h

theorem keysRise_mapDel (m : FMap α) (k : Nat) (h : keysRise m = true) : keysRise (mapDel m k) = true := by
  induction m with
  | nil => exact h
  | cons e r ih =>
    obtain ⟨a, x⟩ := e
    have ⟨h1, h2⟩ := (keysRise_cons a x r).1 h
    simp only [mapDel]
    split
    · exact ih h2
    · exact (keysRise_cons a x _).2 ⟨fun e he => h1 e (mem_mapDel _ _ _ he), ih h2⟩

theorem keysRise_mapPut (m : FMap α) (k : Nat) (v : α) (h : keysRise m = true) : keysRise (mapPut m k v) = true := by
  induction m with
  | nil => rfl
  | cons e r ih =>
    obtain ⟨a, x⟩ := e
    have ⟨h1, h2⟩ := (keysRise_cons a x r).1 h
    simp only [mapPut]
    split
    · rename_i hk; subst hk; exact (keysRise_cons _ v r).2 ⟨h1, h2⟩
    · rename_i hk
      split
      · rename_i hlt
        refine (keysRise_cons k v _).2 ⟨fun e he => ?_, h⟩
        obtain rfl | he := List.mem_cons.1 he
        · exact hlt
        · exact Nat.lt_trans hlt (h1 e he)
      · rename_i hlt
        refine (keysRise_cons a x _).2 ⟨fun e he => ?_, ih h2⟩
        rcases mem_mapPut _ _ _ _ he with he | he
        · exact h1 e he
        · subst he; simp only; omega

/-- Writing keeps the canonical form. -/
theorem mapWf_mapSet [DecidableEq α] (d : Nat → α) (m : FMap α) (k : Nat) (v : α) (h : mapWf d m = true) :
    mapWf d (mapSet d m k v) = true := by
  simp only [mapWf, Bool.and_eq_true, List.all_eq_true, ne_eq, decide_not, Bool.not_eq_true', decide_eq_false_iff_not] at h ⊢
  unfold mapSet
  split
  · exact ⟨keysRise_mapDel m k h.1, fun e he => h.2 e (mem_mapDel _ _ _ he)⟩
  · rename_i hv
    refine ⟨keysRise_mapPut m k v h.1, fun e he => ?_⟩
    rcases mem_mapPut _ _ _ _ he with he | he
    · exact h.2 e he
    · subst he; exact hv

end Sys2Proof.Machine
end

