-- ==== Sys2Proof/Laws/State.lean ====
section
/-! SUPPORT. What each update of the state leaves alone, one lemma per field; and what a read gives after an update. -/

namespace Sys2Proof.Machine

/-! ### rset -/

@[simp] theorem State.rset_shadows (s : State) (p o : Nat) (v : RegWord) : (s.rset p o v).shadows = s.shadows := rfl
@[simp] theorem State.rset_latches (s : State) (p o : Nat) (v : RegWord) : (s.rset p o v).latches = s.latches := rfl
@[simp] theorem State.rset_blks (s : State) (p o : Nat) (v : RegWord) : (s.rset p o v).blks = s.blks := rfl
@[simp] theorem State.rset_bank (s : State) (p o : Nat) (v : RegWord) : (s.rset p o v).bank = s.bank := rfl
@[simp] theorem State.rset_telem (s : State) (p o : Nat) (v : RegWord) : (s.rset p o v).telem = s.telem := rfl
@[simp] theorem State.rset_tb (s : State) (p o : Nat) (v : RegWord) : (s.rset p o v).tb = s.tb := rfl
@[simp] theorem State.rset_fab (s : State) (p o : Nat) (v : RegWord) : (s.rset p o v).fab = s.fab := rfl
@[simp] theorem State.rset_mem (s : State) (p o : Nat) (v : RegWord) : (s.rset p o v).mem = s.mem := rfl
@[simp] theorem State.rset_upsets (s : State) (p o : Nat) (v : RegWord) : (s.rset p o v).upsets = s.upsets := rfl
@[simp] theorem State.rset_dramErr (s : State) (p o : Nat) (v : RegWord) : (s.rset p o v).dramErr = s.dramErr := rfl
@[simp] theorem State.rset_dmcs (s : State) (p o : Nat) (v : RegWord) : (s.rset p o v).dmcs = s.dmcs := rfl
@[simp] theorem State.rset_window (s : State) (p o : Nat) (v : RegWord) : (s.rset p o v).window = s.window := rfl
@[simp] theorem State.rset_winLost (s : State) (p o : Nat) (v : RegWord) : (s.rset p o v).winLost = s.winLost := rfl
@[simp] theorem State.rset_rts (s : State) (p o : Nat) (v : RegWord) : (s.rset p o v).rts = s.rts := rfl
@[simp] theorem State.rset_tables (s : State) (p o : Nat) (v : RegWord) : (s.rset p o v).tables = s.tables := rfl
@[simp] theorem State.rset_tloads (s : State) (p o : Nat) (v : RegWord) : (s.rset p o v).tloads = s.tloads := rfl
@[simp] theorem State.rset_kpr (s : State) (p o : Nat) (v : RegWord) : (s.rset p o v).kpr = s.kpr := rfl
@[simp] theorem State.rset_boot (s : State) (p o : Nat) (v : RegWord) : (s.rset p o v).boot = s.boot := rfl
@[simp] theorem State.rset_power (s : State) (p o : Nat) (v : RegWord) : (s.rset p o v).power = s.power := rfl
@[simp] theorem State.rset_tape (s : State) (p o : Nat) (v : RegWord) : (s.rset p o v).tape = s.tape := rfl
@[simp] theorem State.rset_flash (s : State) (p o : Nat) (v : RegWord) : (s.rset p o v).flash = s.flash := rfl
@[simp] theorem State.rset_tpi (s : State) (p o : Nat) (v : RegWord) : (s.rset p o v).tpi = s.tpi := rfl
@[simp] theorem State.rset_svd (s : State) (p o : Nat) (v : RegWord) : (s.rset p o v).svd = s.svd := rfl
@[simp] theorem State.rset_lpe (s : State) (p o : Nat) (v : RegWord) : (s.rset p o v).lpe = s.lpe := rfl
@[simp] theorem State.rset_pulses (s : State) (p o : Nat) (v : RegWord) : (s.rset p o v).pulses = s.pulses := rfl
@[simp] theorem State.rset_cores (s : State) (p o : Nat) (v : RegWord) : (s.rset p o v).cores = s.cores := rfl
@[simp] theorem State.rset_benches (s : State) (p o : Nat) (v : RegWord) : (s.rset p o v).benches = s.benches := rfl
@[simp] theorem State.rset_rings (s : State) (p o : Nat) (v : RegWord) : (s.rset p o v).rings = s.rings := rfl
@[simp] theorem State.rset_jobs (s : State) (p o : Nat) (v : RegWord) : (s.rset p o v).jobs = s.jobs := rfl
@[simp] theorem State.rset_intakes (s : State) (p o : Nat) (v : RegWord) : (s.rset p o v).intakes = s.intakes := rfl
@[simp] theorem State.rset_ase (s : State) (p o : Nat) (v : RegWord) : (s.rset p o v).ase = s.ase := rfl
@[simp] theorem State.rset_loads (s : State) (p o : Nat) (v : RegWord) : (s.rset p o v).loads = s.loads := rfl
@[simp] theorem State.rset_streams (s : State) (p o : Nat) (v : RegWord) : (s.rset p o v).streams = s.streams := rfl
@[simp] theorem State.rset_funcs (s : State) (p o : Nat) (v : RegWord) : (s.rset p o v).funcs = s.funcs := rfl
@[simp] theorem State.rset_numVfs (s : State) (p o : Nat) (v : RegWord) : (s.rset p o v).numVfs = s.numVfs := rfl
@[simp] theorem State.rset_ports (s : State) (p o : Nat) (v : RegWord) : (s.rset p o v).ports = s.ports := rfl
@[simp] theorem State.rset_ctrls (s : State) (p o : Nat) (v : RegWord) : (s.rset p o v).ctrls = s.ctrls := rfl
@[simp] theorem State.rset_cmds (s : State) (p o : Nat) (v : RegWord) : (s.rset p o v).cmds = s.cmds := rfl
@[simp] theorem State.rset_qen (s : State) (p o : Nat) (v : RegWord) : (s.rset p o v).qen = s.qen := rfl
@[simp] theorem State.rset_mi (s : State) (p o : Nat) (v : RegWord) : (s.rset p o v).mi = s.mi := rfl
@[simp] theorem State.rset_media (s : State) (p o : Nat) (v : RegWord) : (s.rset p o v).media = s.media := rfl
@[simp] theorem State.rset_nss (s : State) (p o : Nat) (v : RegWord) : (s.rset p o v).nss = s.nss := rfl
@[simp] theorem State.rset_blocks (s : State) (p o : Nat) (v : RegWord) : (s.rset p o v).blocks = s.blocks := rfl
@[simp] theorem State.rset_zones (s : State) (p o : Nat) (v : RegWord) : (s.rset p o v).zones = s.zones := rfl
@[simp] theorem State.rset_shelf (s : State) (p o : Nat) (v : RegWord) : (s.rset p o v).shelf = s.shelf := rfl
@[simp] theorem State.rset_inp (s : State) (p o : Nat) (v : RegWord) : (s.rset p o v).inp = s.inp := rfl
@[simp] theorem State.rset_out (s : State) (p o : Nat) (v : RegWord) : (s.rset p o v).out = s.out := rfl
@[simp] theorem State.rset_free (s : State) (p o : Nat) (v : RegWord) : (s.rset p o v).free = s.free := rfl
@[simp] theorem State.rset_pending (s : State) (p o : Nat) (v : RegWord) : (s.rset p o v).pending = s.pending := rfl

/-! ### fset -/

@[simp] theorem State.fset_shadows (s : State) (p o lo len v : Nat) : (s.fset p o lo len v).shadows = s.shadows := rfl
@[simp] theorem State.fset_latches (s : State) (p o lo len v : Nat) : (s.fset p o lo len v).latches = s.latches := rfl
@[simp] theorem State.fset_blks (s : State) (p o lo len v : Nat) : (s.fset p o lo len v).blks = s.blks := rfl
@[simp] theorem State.fset_bank (s : State) (p o lo len v : Nat) : (s.fset p o lo len v).bank = s.bank := rfl
@[simp] theorem State.fset_telem (s : State) (p o lo len v : Nat) : (s.fset p o lo len v).telem = s.telem := rfl
@[simp] theorem State.fset_tb (s : State) (p o lo len v : Nat) : (s.fset p o lo len v).tb = s.tb := rfl
@[simp] theorem State.fset_fab (s : State) (p o lo len v : Nat) : (s.fset p o lo len v).fab = s.fab := rfl
@[simp] theorem State.fset_mem (s : State) (p o lo len v : Nat) : (s.fset p o lo len v).mem = s.mem := rfl
@[simp] theorem State.fset_upsets (s : State) (p o lo len v : Nat) : (s.fset p o lo len v).upsets = s.upsets := rfl
@[simp] theorem State.fset_dramErr (s : State) (p o lo len v : Nat) : (s.fset p o lo len v).dramErr = s.dramErr := rfl
@[simp] theorem State.fset_dmcs (s : State) (p o lo len v : Nat) : (s.fset p o lo len v).dmcs = s.dmcs := rfl
@[simp] theorem State.fset_window (s : State) (p o lo len v : Nat) : (s.fset p o lo len v).window = s.window := rfl
@[simp] theorem State.fset_winLost (s : State) (p o lo len v : Nat) : (s.fset p o lo len v).winLost = s.winLost := rfl
@[simp] theorem State.fset_rts (s : State) (p o lo len v : Nat) : (s.fset p o lo len v).rts = s.rts := rfl
@[simp] theorem State.fset_tables (s : State) (p o lo len v : Nat) : (s.fset p o lo len v).tables = s.tables := rfl
@[simp] theorem State.fset_tloads (s : State) (p o lo len v : Nat) : (s.fset p o lo len v).tloads = s.tloads := rfl
@[simp] theorem State.fset_kpr (s : State) (p o lo len v : Nat) : (s.fset p o lo len v).kpr = s.kpr := rfl
@[simp] theorem State.fset_boot (s : State) (p o lo len v : Nat) : (s.fset p o lo len v).boot = s.boot := rfl
@[simp] theorem State.fset_power (s : State) (p o lo len v : Nat) : (s.fset p o lo len v).power = s.power := rfl
@[simp] theorem State.fset_tape (s : State) (p o lo len v : Nat) : (s.fset p o lo len v).tape = s.tape := rfl
@[simp] theorem State.fset_flash (s : State) (p o lo len v : Nat) : (s.fset p o lo len v).flash = s.flash := rfl
@[simp] theorem State.fset_tpi (s : State) (p o lo len v : Nat) : (s.fset p o lo len v).tpi = s.tpi := rfl
@[simp] theorem State.fset_svd (s : State) (p o lo len v : Nat) : (s.fset p o lo len v).svd = s.svd := rfl
@[simp] theorem State.fset_lpe (s : State) (p o lo len v : Nat) : (s.fset p o lo len v).lpe = s.lpe := rfl
@[simp] theorem State.fset_pulses (s : State) (p o lo len v : Nat) : (s.fset p o lo len v).pulses = s.pulses := rfl
@[simp] theorem State.fset_cores (s : State) (p o lo len v : Nat) : (s.fset p o lo len v).cores = s.cores := rfl
@[simp] theorem State.fset_benches (s : State) (p o lo len v : Nat) : (s.fset p o lo len v).benches = s.benches := rfl
@[simp] theorem State.fset_rings (s : State) (p o lo len v : Nat) : (s.fset p o lo len v).rings = s.rings := rfl
@[simp] theorem State.fset_jobs (s : State) (p o lo len v : Nat) : (s.fset p o lo len v).jobs = s.jobs := rfl
@[simp] theorem State.fset_intakes (s : State) (p o lo len v : Nat) : (s.fset p o lo len v).intakes = s.intakes := rfl
@[simp] theorem State.fset_ase (s : State) (p o lo len v : Nat) : (s.fset p o lo len v).ase = s.ase := rfl
@[simp] theorem State.fset_loads (s : State) (p o lo len v : Nat) : (s.fset p o lo len v).loads = s.loads := rfl
@[simp] theorem State.fset_streams (s : State) (p o lo len v : Nat) : (s.fset p o lo len v).streams = s.streams := rfl
@[simp] theorem State.fset_funcs (s : State) (p o lo len v : Nat) : (s.fset p o lo len v).funcs = s.funcs := rfl
@[simp] theorem State.fset_numVfs (s : State) (p o lo len v : Nat) : (s.fset p o lo len v).numVfs = s.numVfs := rfl
@[simp] theorem State.fset_ports (s : State) (p o lo len v : Nat) : (s.fset p o lo len v).ports = s.ports := rfl
@[simp] theorem State.fset_ctrls (s : State) (p o lo len v : Nat) : (s.fset p o lo len v).ctrls = s.ctrls := rfl
@[simp] theorem State.fset_cmds (s : State) (p o lo len v : Nat) : (s.fset p o lo len v).cmds = s.cmds := rfl
@[simp] theorem State.fset_qen (s : State) (p o lo len v : Nat) : (s.fset p o lo len v).qen = s.qen := rfl
@[simp] theorem State.fset_mi (s : State) (p o lo len v : Nat) : (s.fset p o lo len v).mi = s.mi := rfl
@[simp] theorem State.fset_media (s : State) (p o lo len v : Nat) : (s.fset p o lo len v).media = s.media := rfl
@[simp] theorem State.fset_nss (s : State) (p o lo len v : Nat) : (s.fset p o lo len v).nss = s.nss := rfl
@[simp] theorem State.fset_blocks (s : State) (p o lo len v : Nat) : (s.fset p o lo len v).blocks = s.blocks := rfl
@[simp] theorem State.fset_zones (s : State) (p o lo len v : Nat) : (s.fset p o lo len v).zones = s.zones := rfl
@[simp] theorem State.fset_shelf (s : State) (p o lo len v : Nat) : (s.fset p o lo len v).shelf = s.shelf := rfl
@[simp] theorem State.fset_inp (s : State) (p o lo len v : Nat) : (s.fset p o lo len v).inp = s.inp := rfl
@[simp] theorem State.fset_out (s : State) (p o lo len v : Nat) : (s.fset p o lo len v).out = s.out := rfl
@[simp] theorem State.fset_free (s : State) (p o lo len v : Nat) : (s.fset p o lo len v).free = s.free := rfl
@[simp] theorem State.fset_pending (s : State) (p o lo len v : Nat) : (s.fset p o lo len v).pending = s.pending := rfl

/-! ### emit -/

@[simp] theorem State.emit_regs (s : State) (o : Out) : (s.emit o).regs = s.regs := rfl
@[simp] theorem State.emit_shadows (s : State) (o : Out) : (s.emit o).shadows = s.shadows := rfl
@[simp] theorem State.emit_latches (s : State) (o : Out) : (s.emit o).latches = s.latches := rfl
@[simp] theorem State.emit_blks (s : State) (o : Out) : (s.emit o).blks = s.blks := rfl
@[simp] theorem State.emit_bank (s : State) (o : Out) : (s.emit o).bank = s.bank := rfl
@[simp] theorem State.emit_telem (s : State) (o : Out) : (s.emit o).telem = s.telem := rfl
@[simp] theorem State.emit_tb (s : State) (o : Out) : (s.emit o).tb = s.tb := rfl
@[simp] theorem State.emit_fab (s : State) (o : Out) : (s.emit o).fab = s.fab := rfl
@[simp] theorem State.emit_mem (s : State) (o : Out) : (s.emit o).mem = s.mem := rfl
@[simp] theorem State.emit_upsets (s : State) (o : Out) : (s.emit o).upsets = s.upsets := rfl
@[simp] theorem State.emit_dramErr (s : State) (o : Out) : (s.emit o).dramErr = s.dramErr := rfl
@[simp] theorem State.emit_dmcs (s : State) (o : Out) : (s.emit o).dmcs = s.dmcs := rfl
@[simp] theorem State.emit_window (s : State) (o : Out) : (s.emit o).window = s.window := rfl
@[simp] theorem State.emit_winLost (s : State) (o : Out) : (s.emit o).winLost = s.winLost := rfl
@[simp] theorem State.emit_rts (s : State) (o : Out) : (s.emit o).rts = s.rts := rfl
@[simp] theorem State.emit_tables (s : State) (o : Out) : (s.emit o).tables = s.tables := rfl
@[simp] theorem State.emit_tloads (s : State) (o : Out) : (s.emit o).tloads = s.tloads := rfl
@[simp] theorem State.emit_kpr (s : State) (o : Out) : (s.emit o).kpr = s.kpr := rfl
@[simp] theorem State.emit_boot (s : State) (o : Out) : (s.emit o).boot = s.boot := rfl
@[simp] theorem State.emit_power (s : State) (o : Out) : (s.emit o).power = s.power := rfl
@[simp] theorem State.emit_tape (s : State) (o : Out) : (s.emit o).tape = s.tape := rfl
@[simp] theorem State.emit_flash (s : State) (o : Out) : (s.emit o).flash = s.flash := rfl
@[simp] theorem State.emit_tpi (s : State) (o : Out) : (s.emit o).tpi = s.tpi := rfl
@[simp] theorem State.emit_svd (s : State) (o : Out) : (s.emit o).svd = s.svd := rfl
@[simp] theorem State.emit_lpe (s : State) (o : Out) : (s.emit o).lpe = s.lpe := rfl
@[simp] theorem State.emit_pulses (s : State) (o : Out) : (s.emit o).pulses = s.pulses := rfl
@[simp] theorem State.emit_cores (s : State) (o : Out) : (s.emit o).cores = s.cores := rfl
@[simp] theorem State.emit_benches (s : State) (o : Out) : (s.emit o).benches = s.benches := rfl
@[simp] theorem State.emit_rings (s : State) (o : Out) : (s.emit o).rings = s.rings := rfl
@[simp] theorem State.emit_jobs (s : State) (o : Out) : (s.emit o).jobs = s.jobs := rfl
@[simp] theorem State.emit_intakes (s : State) (o : Out) : (s.emit o).intakes = s.intakes := rfl
@[simp] theorem State.emit_ase (s : State) (o : Out) : (s.emit o).ase = s.ase := rfl
@[simp] theorem State.emit_loads (s : State) (o : Out) : (s.emit o).loads = s.loads := rfl
@[simp] theorem State.emit_streams (s : State) (o : Out) : (s.emit o).streams = s.streams := rfl
@[simp] theorem State.emit_funcs (s : State) (o : Out) : (s.emit o).funcs = s.funcs := rfl
@[simp] theorem State.emit_numVfs (s : State) (o : Out) : (s.emit o).numVfs = s.numVfs := rfl
@[simp] theorem State.emit_ports (s : State) (o : Out) : (s.emit o).ports = s.ports := rfl
@[simp] theorem State.emit_ctrls (s : State) (o : Out) : (s.emit o).ctrls = s.ctrls := rfl
@[simp] theorem State.emit_cmds (s : State) (o : Out) : (s.emit o).cmds = s.cmds := rfl
@[simp] theorem State.emit_qen (s : State) (o : Out) : (s.emit o).qen = s.qen := rfl
@[simp] theorem State.emit_mi (s : State) (o : Out) : (s.emit o).mi = s.mi := rfl
@[simp] theorem State.emit_media (s : State) (o : Out) : (s.emit o).media = s.media := rfl
@[simp] theorem State.emit_nss (s : State) (o : Out) : (s.emit o).nss = s.nss := rfl
@[simp] theorem State.emit_blocks (s : State) (o : Out) : (s.emit o).blocks = s.blocks := rfl
@[simp] theorem State.emit_zones (s : State) (o : Out) : (s.emit o).zones = s.zones := rfl
@[simp] theorem State.emit_shelf (s : State) (o : Out) : (s.emit o).shelf = s.shelf := rfl
@[simp] theorem State.emit_inp (s : State) (o : Out) : (s.emit o).inp = s.inp := rfl
@[simp] theorem State.emit_free (s : State) (o : Out) : (s.emit o).free = s.free := rfl
@[simp] theorem State.emit_pending (s : State) (o : Out) : (s.emit o).pending = s.pending := rfl

/-! ### fresh -/

@[simp] theorem State.fresh_regs (s : State) : (s.fresh).regs = s.regs := rfl
@[simp] theorem State.fresh_shadows (s : State) : (s.fresh).shadows = s.shadows := rfl
@[simp] theorem State.fresh_latches (s : State) : (s.fresh).latches = s.latches := rfl
@[simp] theorem State.fresh_blks (s : State) : (s.fresh).blks = s.blks := rfl
@[simp] theorem State.fresh_bank (s : State) : (s.fresh).bank = s.bank := rfl
@[simp] theorem State.fresh_telem (s : State) : (s.fresh).telem = s.telem := rfl
@[simp] theorem State.fresh_tb (s : State) : (s.fresh).tb = s.tb := rfl
@[simp] theorem State.fresh_fab (s : State) : (s.fresh).fab = s.fab := rfl
@[simp] theorem State.fresh_mem (s : State) : (s.fresh).mem = s.mem := rfl
@[simp] theorem State.fresh_upsets (s : State) : (s.fresh).upsets = s.upsets := rfl
@[simp] theorem State.fresh_dramErr (s : State) : (s.fresh).dramErr = s.dramErr := rfl
@[simp] theorem State.fresh_dmcs (s : State) : (s.fresh).dmcs = s.dmcs := rfl
@[simp] theorem State.fresh_window (s : State) : (s.fresh).window = s.window := rfl
@[simp] theorem State.fresh_winLost (s : State) : (s.fresh).winLost = s.winLost := rfl
@[simp] theorem State.fresh_rts (s : State) : (s.fresh).rts = s.rts := rfl
@[simp] theorem State.fresh_tables (s : State) : (s.fresh).tables = s.tables := rfl
@[simp] theorem State.fresh_tloads (s : State) : (s.fresh).tloads = s.tloads := rfl
@[simp] theorem State.fresh_kpr (s : State) : (s.fresh).kpr = s.kpr := rfl
@[simp] theorem State.fresh_boot (s : State) : (s.fresh).boot = s.boot := rfl
@[simp] theorem State.fresh_power (s : State) : (s.fresh).power = s.power := rfl
@[simp] theorem State.fresh_tape (s : State) : (s.fresh).tape = s.tape := rfl
@[simp] theorem State.fresh_flash (s : State) : (s.fresh).flash = s.flash := rfl
@[simp] theorem State.fresh_tpi (s : State) : (s.fresh).tpi = s.tpi := rfl
@[simp] theorem State.fresh_svd (s : State) : (s.fresh).svd = s.svd := rfl
@[simp] theorem State.fresh_lpe (s : State) : (s.fresh).lpe = s.lpe := rfl
@[simp] theorem State.fresh_pulses (s : State) : (s.fresh).pulses = s.pulses := rfl
@[simp] theorem State.fresh_cores (s : State) : (s.fresh).cores = s.cores := rfl
@[simp] theorem State.fresh_benches (s : State) : (s.fresh).benches = s.benches := rfl
@[simp] theorem State.fresh_rings (s : State) : (s.fresh).rings = s.rings := rfl
@[simp] theorem State.fresh_jobs (s : State) : (s.fresh).jobs = s.jobs := rfl
@[simp] theorem State.fresh_intakes (s : State) : (s.fresh).intakes = s.intakes := rfl
@[simp] theorem State.fresh_ase (s : State) : (s.fresh).ase = s.ase := rfl
@[simp] theorem State.fresh_loads (s : State) : (s.fresh).loads = s.loads := rfl
@[simp] theorem State.fresh_streams (s : State) : (s.fresh).streams = s.streams := rfl
@[simp] theorem State.fresh_funcs (s : State) : (s.fresh).funcs = s.funcs := rfl
@[simp] theorem State.fresh_numVfs (s : State) : (s.fresh).numVfs = s.numVfs := rfl
@[simp] theorem State.fresh_ports (s : State) : (s.fresh).ports = s.ports := rfl
@[simp] theorem State.fresh_ctrls (s : State) : (s.fresh).ctrls = s.ctrls := rfl
@[simp] theorem State.fresh_cmds (s : State) : (s.fresh).cmds = s.cmds := rfl
@[simp] theorem State.fresh_qen (s : State) : (s.fresh).qen = s.qen := rfl
@[simp] theorem State.fresh_mi (s : State) : (s.fresh).mi = s.mi := rfl
@[simp] theorem State.fresh_media (s : State) : (s.fresh).media = s.media := rfl
@[simp] theorem State.fresh_nss (s : State) : (s.fresh).nss = s.nss := rfl
@[simp] theorem State.fresh_blocks (s : State) : (s.fresh).blocks = s.blocks := rfl
@[simp] theorem State.fresh_zones (s : State) : (s.fresh).zones = s.zones := rfl
@[simp] theorem State.fresh_shelf (s : State) : (s.fresh).shelf = s.shelf := rfl
@[simp] theorem State.fresh_inp (s : State) : (s.fresh).inp = s.inp := rfl
@[simp] theorem State.fresh_free (s : State) : (s.fresh).free = s.free := rfl
@[simp] theorem State.fresh_pending (s : State) : (s.fresh).pending = s.pending := rfl

/-! ### bump -/

@[simp] theorem State.bump_regs (s : State) : (s.bump).regs = s.regs := rfl
@[simp] theorem State.bump_shadows (s : State) : (s.bump).shadows = s.shadows := rfl
@[simp] theorem State.bump_latches (s : State) : (s.bump).latches = s.latches := rfl
@[simp] theorem State.bump_blks (s : State) : (s.bump).blks = s.blks := rfl
@[simp] theorem State.bump_bank (s : State) : (s.bump).bank = s.bank := rfl
@[simp] theorem State.bump_telem (s : State) : (s.bump).telem = s.telem := rfl
@[simp] theorem State.bump_tb (s : State) : (s.bump).tb = s.tb := rfl
@[simp] theorem State.bump_fab (s : State) : (s.bump).fab = s.fab := rfl
@[simp] theorem State.bump_mem (s : State) : (s.bump).mem = s.mem := rfl
@[simp] theorem State.bump_upsets (s : State) : (s.bump).upsets = s.upsets := rfl
@[simp] theorem State.bump_dramErr (s : State) : (s.bump).dramErr = s.dramErr := rfl
@[simp] theorem State.bump_dmcs (s : State) : (s.bump).dmcs = s.dmcs := rfl
@[simp] theorem State.bump_window (s : State) : (s.bump).window = s.window := rfl
@[simp] theorem State.bump_winLost (s : State) : (s.bump).winLost = s.winLost := rfl
@[simp] theorem State.bump_rts (s : State) : (s.bump).rts = s.rts := rfl
@[simp] theorem State.bump_tables (s : State) : (s.bump).tables = s.tables := rfl
@[simp] theorem State.bump_tloads (s : State) : (s.bump).tloads = s.tloads := rfl
@[simp] theorem State.bump_kpr (s : State) : (s.bump).kpr = s.kpr := rfl
@[simp] theorem State.bump_boot (s : State) : (s.bump).boot = s.boot := rfl
@[simp] theorem State.bump_power (s : State) : (s.bump).power = s.power := rfl
@[simp] theorem State.bump_tape (s : State) : (s.bump).tape = s.tape := rfl
@[simp] theorem State.bump_flash (s : State) : (s.bump).flash = s.flash := rfl
@[simp] theorem State.bump_tpi (s : State) : (s.bump).tpi = s.tpi := rfl
@[simp] theorem State.bump_svd (s : State) : (s.bump).svd = s.svd := rfl
@[simp] theorem State.bump_lpe (s : State) : (s.bump).lpe = s.lpe := rfl
@[simp] theorem State.bump_pulses (s : State) : (s.bump).pulses = s.pulses := rfl
@[simp] theorem State.bump_cores (s : State) : (s.bump).cores = s.cores := rfl
@[simp] theorem State.bump_benches (s : State) : (s.bump).benches = s.benches := rfl
@[simp] theorem State.bump_rings (s : State) : (s.bump).rings = s.rings := rfl
@[simp] theorem State.bump_jobs (s : State) : (s.bump).jobs = s.jobs := rfl
@[simp] theorem State.bump_intakes (s : State) : (s.bump).intakes = s.intakes := rfl
@[simp] theorem State.bump_ase (s : State) : (s.bump).ase = s.ase := rfl
@[simp] theorem State.bump_loads (s : State) : (s.bump).loads = s.loads := rfl
@[simp] theorem State.bump_streams (s : State) : (s.bump).streams = s.streams := rfl
@[simp] theorem State.bump_funcs (s : State) : (s.bump).funcs = s.funcs := rfl
@[simp] theorem State.bump_numVfs (s : State) : (s.bump).numVfs = s.numVfs := rfl
@[simp] theorem State.bump_ports (s : State) : (s.bump).ports = s.ports := rfl
@[simp] theorem State.bump_ctrls (s : State) : (s.bump).ctrls = s.ctrls := rfl
@[simp] theorem State.bump_cmds (s : State) : (s.bump).cmds = s.cmds := rfl
@[simp] theorem State.bump_qen (s : State) : (s.bump).qen = s.qen := rfl
@[simp] theorem State.bump_mi (s : State) : (s.bump).mi = s.mi := rfl
@[simp] theorem State.bump_media (s : State) : (s.bump).media = s.media := rfl
@[simp] theorem State.bump_nss (s : State) : (s.bump).nss = s.nss := rfl
@[simp] theorem State.bump_blocks (s : State) : (s.bump).blocks = s.blocks := rfl
@[simp] theorem State.bump_zones (s : State) : (s.bump).zones = s.zones := rfl
@[simp] theorem State.bump_shelf (s : State) : (s.bump).shelf = s.shelf := rfl
@[simp] theorem State.bump_inp (s : State) : (s.bump).inp = s.inp := rfl
@[simp] theorem State.bump_out (s : State) : (s.bump).out = s.out := rfl
@[simp] theorem State.bump_pending (s : State) : (s.bump).pending = s.pending := rfl

/-! ### setBlk -/

@[simp] theorem State.setBlk_regs (s : State) (pg : Nat) (b : BlkState) : (s.setBlk pg b).regs = s.regs := rfl
@[simp] theorem State.setBlk_shadows (s : State) (pg : Nat) (b : BlkState) : (s.setBlk pg b).shadows = s.shadows := rfl
@[simp] theorem State.setBlk_latches (s : State) (pg : Nat) (b : BlkState) : (s.setBlk pg b).latches = s.latches := rfl
@[simp] theorem State.setBlk_bank (s : State) (pg : Nat) (b : BlkState) : (s.setBlk pg b).bank = s.bank := rfl
@[simp] theorem State.setBlk_telem (s : State) (pg : Nat) (b : BlkState) : (s.setBlk pg b).telem = s.telem := rfl
@[simp] theorem State.setBlk_tb (s : State) (pg : Nat) (b : BlkState) : (s.setBlk pg b).tb = s.tb := rfl
@[simp] theorem State.setBlk_fab (s : State) (pg : Nat) (b : BlkState) : (s.setBlk pg b).fab = s.fab := rfl
@[simp] theorem State.setBlk_mem (s : State) (pg : Nat) (b : BlkState) : (s.setBlk pg b).mem = s.mem := rfl
@[simp] theorem State.setBlk_upsets (s : State) (pg : Nat) (b : BlkState) : (s.setBlk pg b).upsets = s.upsets := rfl
@[simp] theorem State.setBlk_dramErr (s : State) (pg : Nat) (b : BlkState) : (s.setBlk pg b).dramErr = s.dramErr := rfl
@[simp] theorem State.setBlk_dmcs (s : State) (pg : Nat) (b : BlkState) : (s.setBlk pg b).dmcs = s.dmcs := rfl
@[simp] theorem State.setBlk_window (s : State) (pg : Nat) (b : BlkState) : (s.setBlk pg b).window = s.window := rfl
@[simp] theorem State.setBlk_winLost (s : State) (pg : Nat) (b : BlkState) : (s.setBlk pg b).winLost = s.winLost := rfl
@[simp] theorem State.setBlk_rts (s : State) (pg : Nat) (b : BlkState) : (s.setBlk pg b).rts = s.rts := rfl
@[simp] theorem State.setBlk_tables (s : State) (pg : Nat) (b : BlkState) : (s.setBlk pg b).tables = s.tables := rfl
@[simp] theorem State.setBlk_tloads (s : State) (pg : Nat) (b : BlkState) : (s.setBlk pg b).tloads = s.tloads := rfl
@[simp] theorem State.setBlk_kpr (s : State) (pg : Nat) (b : BlkState) : (s.setBlk pg b).kpr = s.kpr := rfl
@[simp] theorem State.setBlk_boot (s : State) (pg : Nat) (b : BlkState) : (s.setBlk pg b).boot = s.boot := rfl
@[simp] theorem State.setBlk_power (s : State) (pg : Nat) (b : BlkState) : (s.setBlk pg b).power = s.power := rfl
@[simp] theorem State.setBlk_tape (s : State) (pg : Nat) (b : BlkState) : (s.setBlk pg b).tape = s.tape := rfl
@[simp] theorem State.setBlk_flash (s : State) (pg : Nat) (b : BlkState) : (s.setBlk pg b).flash = s.flash := rfl
@[simp] theorem State.setBlk_tpi (s : State) (pg : Nat) (b : BlkState) : (s.setBlk pg b).tpi = s.tpi := rfl
@[simp] theorem State.setBlk_svd (s : State) (pg : Nat) (b : BlkState) : (s.setBlk pg b).svd = s.svd := rfl
@[simp] theorem State.setBlk_lpe (s : State) (pg : Nat) (b : BlkState) : (s.setBlk pg b).lpe = s.lpe := rfl
@[simp] theorem State.setBlk_pulses (s : State) (pg : Nat) (b : BlkState) : (s.setBlk pg b).pulses = s.pulses := rfl
@[simp] theorem State.setBlk_cores (s : State) (pg : Nat) (b : BlkState) : (s.setBlk pg b).cores = s.cores := rfl
@[simp] theorem State.setBlk_benches (s : State) (pg : Nat) (b : BlkState) : (s.setBlk pg b).benches = s.benches := rfl
@[simp] theorem State.setBlk_rings (s : State) (pg : Nat) (b : BlkState) : (s.setBlk pg b).rings = s.rings := rfl
@[simp] theorem State.setBlk_jobs (s : State) (pg : Nat) (b : BlkState) : (s.setBlk pg b).jobs = s.jobs := rfl
@[simp] theorem State.setBlk_intakes (s : State) (pg : Nat) (b : BlkState) : (s.setBlk pg b).intakes = s.intakes := rfl
@[simp] theorem State.setBlk_ase (s : State) (pg : Nat) (b : BlkState) : (s.setBlk pg b).ase = s.ase := rfl
@[simp] theorem State.setBlk_loads (s : State) (pg : Nat) (b : BlkState) : (s.setBlk pg b).loads = s.loads := rfl
@[simp] theorem State.setBlk_streams (s : State) (pg : Nat) (b : BlkState) : (s.setBlk pg b).streams = s.streams := rfl
@[simp] theorem State.setBlk_funcs (s : State) (pg : Nat) (b : BlkState) : (s.setBlk pg b).funcs = s.funcs := rfl
@[simp] theorem State.setBlk_numVfs (s : State) (pg : Nat) (b : BlkState) : (s.setBlk pg b).numVfs = s.numVfs := rfl
@[simp] theorem State.setBlk_ports (s : State) (pg : Nat) (b : BlkState) : (s.setBlk pg b).ports = s.ports := rfl
@[simp] theorem State.setBlk_ctrls (s : State) (pg : Nat) (b : BlkState) : (s.setBlk pg b).ctrls = s.ctrls := rfl
@[simp] theorem State.setBlk_cmds (s : State) (pg : Nat) (b : BlkState) : (s.setBlk pg b).cmds = s.cmds := rfl
@[simp] theorem State.setBlk_qen (s : State) (pg : Nat) (b : BlkState) : (s.setBlk pg b).qen = s.qen := rfl
@[simp] theorem State.setBlk_mi (s : State) (pg : Nat) (b : BlkState) : (s.setBlk pg b).mi = s.mi := rfl
@[simp] theorem State.setBlk_media (s : State) (pg : Nat) (b : BlkState) : (s.setBlk pg b).media = s.media := rfl
@[simp] theorem State.setBlk_nss (s : State) (pg : Nat) (b : BlkState) : (s.setBlk pg b).nss = s.nss := rfl
@[simp] theorem State.setBlk_blocks (s : State) (pg : Nat) (b : BlkState) : (s.setBlk pg b).blocks = s.blocks := rfl
@[simp] theorem State.setBlk_zones (s : State) (pg : Nat) (b : BlkState) : (s.setBlk pg b).zones = s.zones := rfl
@[simp] theorem State.setBlk_shelf (s : State) (pg : Nat) (b : BlkState) : (s.setBlk pg b).shelf = s.shelf := rfl
@[simp] theorem State.setBlk_inp (s : State) (pg : Nat) (b : BlkState) : (s.setBlk pg b).inp = s.inp := rfl
@[simp] theorem State.setBlk_out (s : State) (pg : Nat) (b : BlkState) : (s.setBlk pg b).out = s.out := rfl
@[simp] theorem State.setBlk_free (s : State) (pg : Nat) (b : BlkState) : (s.setBlk pg b).free = s.free := rfl
@[simp] theorem State.setBlk_pending (s : State) (pg : Nat) (b : BlkState) : (s.setBlk pg b).pending = s.pending := rfl

/-! ### setCore -/

@[simp] theorem State.setCore_regs (s : State) (k : Nat) (c : Core) : (s.setCore k c).regs = s.regs := rfl
@[simp] theorem State.setCore_shadows (s : State) (k : Nat) (c : Core) : (s.setCore k c).shadows = s.shadows := rfl
@[simp] theorem State.setCore_latches (s : State) (k : Nat) (c : Core) : (s.setCore k c).latches = s.latches := rfl
@[simp] theorem State.setCore_blks (s : State) (k : Nat) (c : Core) : (s.setCore k c).blks = s.blks := rfl
@[simp] theorem State.setCore_bank (s : State) (k : Nat) (c : Core) : (s.setCore k c).bank = s.bank := rfl
@[simp] theorem State.setCore_telem (s : State) (k : Nat) (c : Core) : (s.setCore k c).telem = s.telem := rfl
@[simp] theorem State.setCore_tb (s : State) (k : Nat) (c : Core) : (s.setCore k c).tb = s.tb := rfl
@[simp] theorem State.setCore_fab (s : State) (k : Nat) (c : Core) : (s.setCore k c).fab = s.fab := rfl
@[simp] theorem State.setCore_mem (s : State) (k : Nat) (c : Core) : (s.setCore k c).mem = s.mem := rfl
@[simp] theorem State.setCore_upsets (s : State) (k : Nat) (c : Core) : (s.setCore k c).upsets = s.upsets := rfl
@[simp] theorem State.setCore_dramErr (s : State) (k : Nat) (c : Core) : (s.setCore k c).dramErr = s.dramErr := rfl
@[simp] theorem State.setCore_dmcs (s : State) (k : Nat) (c : Core) : (s.setCore k c).dmcs = s.dmcs := rfl
@[simp] theorem State.setCore_window (s : State) (k : Nat) (c : Core) : (s.setCore k c).window = s.window := rfl
@[simp] theorem State.setCore_winLost (s : State) (k : Nat) (c : Core) : (s.setCore k c).winLost = s.winLost := rfl
@[simp] theorem State.setCore_rts (s : State) (k : Nat) (c : Core) : (s.setCore k c).rts = s.rts := rfl
@[simp] theorem State.setCore_tables (s : State) (k : Nat) (c : Core) : (s.setCore k c).tables = s.tables := rfl
@[simp] theorem State.setCore_tloads (s : State) (k : Nat) (c : Core) : (s.setCore k c).tloads = s.tloads := rfl
@[simp] theorem State.setCore_kpr (s : State) (k : Nat) (c : Core) : (s.setCore k c).kpr = s.kpr := rfl
@[simp] theorem State.setCore_boot (s : State) (k : Nat) (c : Core) : (s.setCore k c).boot = s.boot := rfl
@[simp] theorem State.setCore_power (s : State) (k : Nat) (c : Core) : (s.setCore k c).power = s.power := rfl
@[simp] theorem State.setCore_tape (s : State) (k : Nat) (c : Core) : (s.setCore k c).tape = s.tape := rfl
@[simp] theorem State.setCore_flash (s : State) (k : Nat) (c : Core) : (s.setCore k c).flash = s.flash := rfl
@[simp] theorem State.setCore_tpi (s : State) (k : Nat) (c : Core) : (s.setCore k c).tpi = s.tpi := rfl
@[simp] theorem State.setCore_svd (s : State) (k : Nat) (c : Core) : (s.setCore k c).svd = s.svd := rfl
@[simp] theorem State.setCore_lpe (s : State) (k : Nat) (c : Core) : (s.setCore k c).lpe = s.lpe := rfl
@[simp] theorem State.setCore_pulses (s : State) (k : Nat) (c : Core) : (s.setCore k c).pulses = s.pulses := rfl
@[simp] theorem State.setCore_benches (s : State) (k : Nat) (c : Core) : (s.setCore k c).benches = s.benches := rfl
@[simp] theorem State.setCore_rings (s : State) (k : Nat) (c : Core) : (s.setCore k c).rings = s.rings := rfl
@[simp] theorem State.setCore_jobs (s : State) (k : Nat) (c : Core) : (s.setCore k c).jobs = s.jobs := rfl
@[simp] theorem State.setCore_intakes (s : State) (k : Nat) (c : Core) : (s.setCore k c).intakes = s.intakes := rfl
@[simp] theorem State.setCore_ase (s : State) (k : Nat) (c : Core) : (s.setCore k c).ase = s.ase := rfl
@[simp] theorem State.setCore_loads (s : State) (k : Nat) (c : Core) : (s.setCore k c).loads = s.loads := rfl
@[simp] theorem State.setCore_streams (s : State) (k : Nat) (c : Core) : (s.setCore k c).streams = s.streams := rfl
@[simp] theorem State.setCore_funcs (s : State) (k : Nat) (c : Core) : (s.setCore k c).funcs = s.funcs := rfl
@[simp] theorem State.setCore_numVfs (s : State) (k : Nat) (c : Core) : (s.setCore k c).numVfs = s.numVfs := rfl
@[simp] theorem State.setCore_ports (s : State) (k : Nat) (c : Core) : (s.setCore k c).ports = s.ports := rfl
@[simp] theorem State.setCore_ctrls (s : State) (k : Nat) (c : Core) : (s.setCore k c).ctrls = s.ctrls := rfl
@[simp] theorem State.setCore_cmds (s : State) (k : Nat) (c : Core) : (s.setCore k c).cmds = s.cmds := rfl
@[simp] theorem State.setCore_qen (s : State) (k : Nat) (c : Core) : (s.setCore k c).qen = s.qen := rfl
@[simp] theorem State.setCore_mi (s : State) (k : Nat) (c : Core) : (s.setCore k c).mi = s.mi := rfl
@[simp] theorem State.setCore_media (s : State) (k : Nat) (c : Core) : (s.setCore k c).media = s.media := rfl
@[simp] theorem State.setCore_nss (s : State) (k : Nat) (c : Core) : (s.setCore k c).nss = s.nss := rfl
@[simp] theorem State.setCore_blocks (s : State) (k : Nat) (c : Core) : (s.setCore k c).blocks = s.blocks := rfl
@[simp] theorem State.setCore_zones (s : State) (k : Nat) (c : Core) : (s.setCore k c).zones = s.zones := rfl
@[simp] theorem State.setCore_shelf (s : State) (k : Nat) (c : Core) : (s.setCore k c).shelf = s.shelf := rfl
@[simp] theorem State.setCore_inp (s : State) (k : Nat) (c : Core) : (s.setCore k c).inp = s.inp := rfl
@[simp] theorem State.setCore_out (s : State) (k : Nat) (c : Core) : (s.setCore k c).out = s.out := rfl
@[simp] theorem State.setCore_free (s : State) (k : Nat) (c : Core) : (s.setCore k c).free = s.free := rfl
@[simp] theorem State.setCore_pending (s : State) (k : Nat) (c : Core) : (s.setCore k c).pending = s.pending := rfl

/-! ### setFunc -/

@[simp] theorem State.setFunc_regs (s : State) (k : Nat) (f : Func) : (s.setFunc k f).regs = s.regs := rfl
@[simp] theorem State.setFunc_shadows (s : State) (k : Nat) (f : Func) : (s.setFunc k f).shadows = s.shadows := rfl
@[simp] theorem State.setFunc_latches (s : State) (k : Nat) (f : Func) : (s.setFunc k f).latches = s.latches := rfl
@[simp] theorem State.setFunc_blks (s : State) (k : Nat) (f : Func) : (s.setFunc k f).blks = s.blks := rfl
@[simp] theorem State.setFunc_bank (s : State) (k : Nat) (f : Func) : (s.setFunc k f).bank = s.bank := rfl
@[simp] theorem State.setFunc_telem (s : State) (k : Nat) (f : Func) : (s.setFunc k f).telem = s.telem := rfl
@[simp] theorem State.setFunc_tb (s : State) (k : Nat) (f : Func) : (s.setFunc k f).tb = s.tb := rfl
@[simp] theorem State.setFunc_fab (s : State) (k : Nat) (f : Func) : (s.setFunc k f).fab = s.fab := rfl
@[simp] theorem State.setFunc_mem (s : State) (k : Nat) (f : Func) : (s.setFunc k f).mem = s.mem := rfl
@[simp] theorem State.setFunc_upsets (s : State) (k : Nat) (f : Func) : (s.setFunc k f).upsets = s.upsets := rfl
@[simp] theorem State.setFunc_dramErr (s : State) (k : Nat) (f : Func) : (s.setFunc k f).dramErr = s.dramErr := rfl
@[simp] theorem State.setFunc_dmcs (s : State) (k : Nat) (f : Func) : (s.setFunc k f).dmcs = s.dmcs := rfl
@[simp] theorem State.setFunc_window (s : State) (k : Nat) (f : Func) : (s.setFunc k f).window = s.window := rfl
@[simp] theorem State.setFunc_winLost (s : State) (k : Nat) (f : Func) : (s.setFunc k f).winLost = s.winLost := rfl
@[simp] theorem State.setFunc_rts (s : State) (k : Nat) (f : Func) : (s.setFunc k f).rts = s.rts := rfl
@[simp] theorem State.setFunc_tables (s : State) (k : Nat) (f : Func) : (s.setFunc k f).tables = s.tables := rfl
@[simp] theorem State.setFunc_tloads (s : State) (k : Nat) (f : Func) : (s.setFunc k f).tloads = s.tloads := rfl
@[simp] theorem State.setFunc_kpr (s : State) (k : Nat) (f : Func) : (s.setFunc k f).kpr = s.kpr := rfl
@[simp] theorem State.setFunc_boot (s : State) (k : Nat) (f : Func) : (s.setFunc k f).boot = s.boot := rfl
@[simp] theorem State.setFunc_power (s : State) (k : Nat) (f : Func) : (s.setFunc k f).power = s.power := rfl
@[simp] theorem State.setFunc_tape (s : State) (k : Nat) (f : Func) : (s.setFunc k f).tape = s.tape := rfl
@[simp] theorem State.setFunc_flash (s : State) (k : Nat) (f : Func) : (s.setFunc k f).flash = s.flash := rfl
@[simp] theorem State.setFunc_tpi (s : State) (k : Nat) (f : Func) : (s.setFunc k f).tpi = s.tpi := rfl
@[simp] theorem State.setFunc_svd (s : State) (k : Nat) (f : Func) : (s.setFunc k f).svd = s.svd := rfl
@[simp] theorem State.setFunc_lpe (s : State) (k : Nat) (f : Func) : (s.setFunc k f).lpe = s.lpe := rfl
@[simp] theorem State.setFunc_pulses (s : State) (k : Nat) (f : Func) : (s.setFunc k f).pulses = s.pulses := rfl
@[simp] theorem State.setFunc_cores (s : State) (k : Nat) (f : Func) : (s.setFunc k f).cores = s.cores := rfl
@[simp] theorem State.setFunc_benches (s : State) (k : Nat) (f : Func) : (s.setFunc k f).benches = s.benches := rfl
@[simp] theorem State.setFunc_rings (s : State) (k : Nat) (f : Func) : (s.setFunc k f).rings = s.rings := rfl
@[simp] theorem State.setFunc_jobs (s : State) (k : Nat) (f : Func) : (s.setFunc k f).jobs = s.jobs := rfl
@[simp] theorem State.setFunc_intakes (s : State) (k : Nat) (f : Func) : (s.setFunc k f).intakes = s.intakes := rfl
@[simp] theorem State.setFunc_ase (s : State) (k : Nat) (f : Func) : (s.setFunc k f).ase = s.ase := rfl
@[simp] theorem State.setFunc_loads (s : State) (k : Nat) (f : Func) : (s.setFunc k f).loads = s.loads := rfl
@[simp] theorem State.setFunc_streams (s : State) (k : Nat) (f : Func) : (s.setFunc k f).streams = s.streams := rfl
@[simp] theorem State.setFunc_numVfs (s : State) (k : Nat) (f : Func) : (s.setFunc k f).numVfs = s.numVfs := rfl
@[simp] theorem State.setFunc_ports (s : State) (k : Nat) (f : Func) : (s.setFunc k f).ports = s.ports := rfl
@[simp] theorem State.setFunc_ctrls (s : State) (k : Nat) (f : Func) : (s.setFunc k f).ctrls = s.ctrls := rfl
@[simp] theorem State.setFunc_cmds (s : State) (k : Nat) (f : Func) : (s.setFunc k f).cmds = s.cmds := rfl
@[simp] theorem State.setFunc_qen (s : State) (k : Nat) (f : Func) : (s.setFunc k f).qen = s.qen := rfl
@[simp] theorem State.setFunc_mi (s : State) (k : Nat) (f : Func) : (s.setFunc k f).mi = s.mi := rfl
@[simp] theorem State.setFunc_media (s : State) (k : Nat) (f : Func) : (s.setFunc k f).media = s.media := rfl
@[simp] theorem State.setFunc_nss (s : State) (k : Nat) (f : Func) : (s.setFunc k f).nss = s.nss := rfl
@[simp] theorem State.setFunc_blocks (s : State) (k : Nat) (f : Func) : (s.setFunc k f).blocks = s.blocks := rfl
@[simp] theorem State.setFunc_zones (s : State) (k : Nat) (f : Func) : (s.setFunc k f).zones = s.zones := rfl
@[simp] theorem State.setFunc_shelf (s : State) (k : Nat) (f : Func) : (s.setFunc k f).shelf = s.shelf := rfl
@[simp] theorem State.setFunc_inp (s : State) (k : Nat) (f : Func) : (s.setFunc k f).inp = s.inp := rfl
@[simp] theorem State.setFunc_out (s : State) (k : Nat) (f : Func) : (s.setFunc k f).out = s.out := rfl
@[simp] theorem State.setFunc_free (s : State) (k : Nat) (f : Func) : (s.setFunc k f).free = s.free := rfl
@[simp] theorem State.setFunc_pending (s : State) (k : Nat) (f : Func) : (s.setFunc k f).pending = s.pending := rfl

/-! ### setBench -/

@[simp] theorem State.setBench_regs (s : State) (x : Nat) (b : Bench) : (s.setBench x b).regs = s.regs := rfl
@[simp] theorem State.setBench_shadows (s : State) (x : Nat) (b : Bench) : (s.setBench x b).shadows = s.shadows := rfl
@[simp] theorem State.setBench_latches (s : State) (x : Nat) (b : Bench) : (s.setBench x b).latches = s.latches := rfl
@[simp] theorem State.setBench_blks (s : State) (x : Nat) (b : Bench) : (s.setBench x b).blks = s.blks := rfl
@[simp] theorem State.setBench_bank (s : State) (x : Nat) (b : Bench) : (s.setBench x b).bank = s.bank := rfl
@[simp] theorem State.setBench_telem (s : State) (x : Nat) (b : Bench) : (s.setBench x b).telem = s.telem := rfl
@[simp] theorem State.setBench_tb (s : State) (x : Nat) (b : Bench) : (s.setBench x b).tb = s.tb := rfl
@[simp] theorem State.setBench_fab (s : State) (x : Nat) (b : Bench) : (s.setBench x b).fab = s.fab := rfl
@[simp] theorem State.setBench_mem (s : State) (x : Nat) (b : Bench) : (s.setBench x b).mem = s.mem := rfl
@[simp] theorem State.setBench_upsets (s : State) (x : Nat) (b : Bench) : (s.setBench x b).upsets = s.upsets := rfl
@[simp] theorem State.setBench_dramErr (s : State) (x : Nat) (b : Bench) : (s.setBench x b).dramErr = s.dramErr := rfl
@[simp] theorem State.setBench_dmcs (s : State) (x : Nat) (b : Bench) : (s.setBench x b).dmcs = s.dmcs := rfl
@[simp] theorem State.setBench_window (s : State) (x : Nat) (b : Bench) : (s.setBench x b).window = s.window := rfl
@[simp] theorem State.setBench_winLost (s : State) (x : Nat) (b : Bench) : (s.setBench x b).winLost = s.winLost := rfl
@[simp] theorem State.setBench_rts (s : State) (x : Nat) (b : Bench) : (s.setBench x b).rts = s.rts := rfl
@[simp] theorem State.setBench_tables (s : State) (x : Nat) (b : Bench) : (s.setBench x b).tables = s.tables := rfl
@[simp] theorem State.setBench_tloads (s : State) (x : Nat) (b : Bench) : (s.setBench x b).tloads = s.tloads := rfl
@[simp] theorem State.setBench_kpr (s : State) (x : Nat) (b : Bench) : (s.setBench x b).kpr = s.kpr := rfl
@[simp] theorem State.setBench_boot (s : State) (x : Nat) (b : Bench) : (s.setBench x b).boot = s.boot := rfl
@[simp] theorem State.setBench_power (s : State) (x : Nat) (b : Bench) : (s.setBench x b).power = s.power := rfl
@[simp] theorem State.setBench_tape (s : State) (x : Nat) (b : Bench) : (s.setBench x b).tape = s.tape := rfl
@[simp] theorem State.setBench_flash (s : State) (x : Nat) (b : Bench) : (s.setBench x b).flash = s.flash := rfl
@[simp] theorem State.setBench_tpi (s : State) (x : Nat) (b : Bench) : (s.setBench x b).tpi = s.tpi := rfl
@[simp] theorem State.setBench_svd (s : State) (x : Nat) (b : Bench) : (s.setBench x b).svd = s.svd := rfl
@[simp] theorem State.setBench_lpe (s : State) (x : Nat) (b : Bench) : (s.setBench x b).lpe = s.lpe := rfl
@[simp] theorem State.setBench_pulses (s : State) (x : Nat) (b : Bench) : (s.setBench x b).pulses = s.pulses := rfl
@[simp] theorem State.setBench_cores (s : State) (x : Nat) (b : Bench) : (s.setBench x b).cores = s.cores := rfl
@[simp] theorem State.setBench_rings (s : State) (x : Nat) (b : Bench) : (s.setBench x b).rings = s.rings := rfl
@[simp] theorem State.setBench_jobs (s : State) (x : Nat) (b : Bench) : (s.setBench x b).jobs = s.jobs := rfl
@[simp] theorem State.setBench_intakes (s : State) (x : Nat) (b : Bench) : (s.setBench x b).intakes = s.intakes := rfl
@[simp] theorem State.setBench_ase (s : State) (x : Nat) (b : Bench) : (s.setBench x b).ase = s.ase := rfl
@[simp] theorem State.setBench_loads (s : State) (x : Nat) (b : Bench) : (s.setBench x b).loads = s.loads := rfl
@[simp] theorem State.setBench_streams (s : State) (x : Nat) (b : Bench) : (s.setBench x b).streams = s.streams := rfl
@[simp] theorem State.setBench_funcs (s : State) (x : Nat) (b : Bench) : (s.setBench x b).funcs = s.funcs := rfl
@[simp] theorem State.setBench_numVfs (s : State) (x : Nat) (b : Bench) : (s.setBench x b).numVfs = s.numVfs := rfl
@[simp] theorem State.setBench_ports (s : State) (x : Nat) (b : Bench) : (s.setBench x b).ports = s.ports := rfl
@[simp] theorem State.setBench_ctrls (s : State) (x : Nat) (b : Bench) : (s.setBench x b).ctrls = s.ctrls := rfl
@[simp] theorem State.setBench_cmds (s : State) (x : Nat) (b : Bench) : (s.setBench x b).cmds = s.cmds := rfl
@[simp] theorem State.setBench_qen (s : State) (x : Nat) (b : Bench) : (s.setBench x b).qen = s.qen := rfl
@[simp] theorem State.setBench_mi (s : State) (x : Nat) (b : Bench) : (s.setBench x b).mi = s.mi := rfl
@[simp] theorem State.setBench_media (s : State) (x : Nat) (b : Bench) : (s.setBench x b).media = s.media := rfl
@[simp] theorem State.setBench_nss (s : State) (x : Nat) (b : Bench) : (s.setBench x b).nss = s.nss := rfl
@[simp] theorem State.setBench_blocks (s : State) (x : Nat) (b : Bench) : (s.setBench x b).blocks = s.blocks := rfl
@[simp] theorem State.setBench_zones (s : State) (x : Nat) (b : Bench) : (s.setBench x b).zones = s.zones := rfl
@[simp] theorem State.setBench_shelf (s : State) (x : Nat) (b : Bench) : (s.setBench x b).shelf = s.shelf := rfl
@[simp] theorem State.setBench_inp (s : State) (x : Nat) (b : Bench) : (s.setBench x b).inp = s.inp := rfl
@[simp] theorem State.setBench_out (s : State) (x : Nat) (b : Bench) : (s.setBench x b).out = s.out := rfl
@[simp] theorem State.setBench_free (s : State) (x : Nat) (b : Bench) : (s.setBench x b).free = s.free := rfl
@[simp] theorem State.setBench_pending (s : State) (x : Nat) (b : Bench) : (s.setBench x b).pending = s.pending := rfl

/-! ### setStream -/

@[simp] theorem State.setStream_regs (s : State) (i : Nat) (x : Stream) : (s.setStream i x).regs = s.regs := rfl
@[simp] theorem State.setStream_shadows (s : State) (i : Nat) (x : Stream) : (s.setStream i x).shadows = s.shadows := rfl
@[simp] theorem State.setStream_latches (s : State) (i : Nat) (x : Stream) : (s.setStream i x).latches = s.latches := rfl
@[simp] theorem State.setStream_blks (s : State) (i : Nat) (x : Stream) : (s.setStream i x).blks = s.blks := rfl
@[simp] theorem State.setStream_bank (s : State) (i : Nat) (x : Stream) : (s.setStream i x).bank = s.bank := rfl
@[simp] theorem State.setStream_telem (s : State) (i : Nat) (x : Stream) : (s.setStream i x).telem = s.telem := rfl
@[simp] theorem State.setStream_tb (s : State) (i : Nat) (x : Stream) : (s.setStream i x).tb = s.tb := rfl
@[simp] theorem State.setStream_fab (s : State) (i : Nat) (x : Stream) : (s.setStream i x).fab = s.fab := rfl
@[simp] theorem State.setStream_mem (s : State) (i : Nat) (x : Stream) : (s.setStream i x).mem = s.mem := rfl
@[simp] theorem State.setStream_upsets (s : State) (i : Nat) (x : Stream) : (s.setStream i x).upsets = s.upsets := rfl
@[simp] theorem State.setStream_dramErr (s : State) (i : Nat) (x : Stream) : (s.setStream i x).dramErr = s.dramErr := rfl
@[simp] theorem State.setStream_dmcs (s : State) (i : Nat) (x : Stream) : (s.setStream i x).dmcs = s.dmcs := rfl
@[simp] theorem State.setStream_window (s : State) (i : Nat) (x : Stream) : (s.setStream i x).window = s.window := rfl
@[simp] theorem State.setStream_winLost (s : State) (i : Nat) (x : Stream) : (s.setStream i x).winLost = s.winLost := rfl
@[simp] theorem State.setStream_rts (s : State) (i : Nat) (x : Stream) : (s.setStream i x).rts = s.rts := rfl
@[simp] theorem State.setStream_tables (s : State) (i : Nat) (x : Stream) : (s.setStream i x).tables = s.tables := rfl
@[simp] theorem State.setStream_tloads (s : State) (i : Nat) (x : Stream) : (s.setStream i x).tloads = s.tloads := rfl
@[simp] theorem State.setStream_kpr (s : State) (i : Nat) (x : Stream) : (s.setStream i x).kpr = s.kpr := rfl
@[simp] theorem State.setStream_boot (s : State) (i : Nat) (x : Stream) : (s.setStream i x).boot = s.boot := rfl
@[simp] theorem State.setStream_power (s : State) (i : Nat) (x : Stream) : (s.setStream i x).power = s.power := rfl
@[simp] theorem State.setStream_tape (s : State) (i : Nat) (x : Stream) : (s.setStream i x).tape = s.tape := rfl
@[simp] theorem State.setStream_flash (s : State) (i : Nat) (x : Stream) : (s.setStream i x).flash = s.flash := rfl
@[simp] theorem State.setStream_tpi (s : State) (i : Nat) (x : Stream) : (s.setStream i x).tpi = s.tpi := rfl
@[simp] theorem State.setStream_svd (s : State) (i : Nat) (x : Stream) : (s.setStream i x).svd = s.svd := rfl
@[simp] theorem State.setStream_lpe (s : State) (i : Nat) (x : Stream) : (s.setStream i x).lpe = s.lpe := rfl
@[simp] theorem State.setStream_pulses (s : State) (i : Nat) (x : Stream) : (s.setStream i x).pulses = s.pulses := rfl
@[simp] theorem State.setStream_cores (s : State) (i : Nat) (x : Stream) : (s.setStream i x).cores = s.cores := rfl
@[simp] theorem State.setStream_benches (s : State) (i : Nat) (x : Stream) : (s.setStream i x).benches = s.benches := rfl
@[simp] theorem State.setStream_rings (s : State) (i : Nat) (x : Stream) : (s.setStream i x).rings = s.rings := rfl
@[simp] theorem State.setStream_jobs (s : State) (i : Nat) (x : Stream) : (s.setStream i x).jobs = s.jobs := rfl
@[simp] theorem State.setStream_intakes (s : State) (i : Nat) (x : Stream) : (s.setStream i x).intakes = s.intakes := rfl
@[simp] theorem State.setStream_ase (s : State) (i : Nat) (x : Stream) : (s.setStream i x).ase = s.ase := rfl
@[simp] theorem State.setStream_loads (s : State) (i : Nat) (x : Stream) : (s.setStream i x).loads = s.loads := rfl
@[simp] theorem State.setStream_funcs (s : State) (i : Nat) (x : Stream) : (s.setStream i x).funcs = s.funcs := rfl
@[simp] theorem State.setStream_numVfs (s : State) (i : Nat) (x : Stream) : (s.setStream i x).numVfs = s.numVfs := rfl
@[simp] theorem State.setStream_ports (s : State) (i : Nat) (x : Stream) : (s.setStream i x).ports = s.ports := rfl
@[simp] theorem State.setStream_ctrls (s : State) (i : Nat) (x : Stream) : (s.setStream i x).ctrls = s.ctrls := rfl
@[simp] theorem State.setStream_cmds (s : State) (i : Nat) (x : Stream) : (s.setStream i x).cmds = s.cmds := rfl
@[simp] theorem State.setStream_qen (s : State) (i : Nat) (x : Stream) : (s.setStream i x).qen = s.qen := rfl
@[simp] theorem State.setStream_mi (s : State) (i : Nat) (x : Stream) : (s.setStream i x).mi = s.mi := rfl
@[simp] theorem State.setStream_media (s : State) (i : Nat) (x : Stream) : (s.setStream i x).media = s.media := rfl
@[simp] theorem State.setStream_nss (s : State) (i : Nat) (x : Stream) : (s.setStream i x).nss = s.nss := rfl
@[simp] theorem State.setStream_blocks (s : State) (i : Nat) (x : Stream) : (s.setStream i x).blocks = s.blocks := rfl
@[simp] theorem State.setStream_zones (s : State) (i : Nat) (x : Stream) : (s.setStream i x).zones = s.zones := rfl
@[simp] theorem State.setStream_shelf (s : State) (i : Nat) (x : Stream) : (s.setStream i x).shelf = s.shelf := rfl
@[simp] theorem State.setStream_inp (s : State) (i : Nat) (x : Stream) : (s.setStream i x).inp = s.inp := rfl
@[simp] theorem State.setStream_out (s : State) (i : Nat) (x : Stream) : (s.setStream i x).out = s.out := rfl
@[simp] theorem State.setStream_free (s : State) (i : Nat) (x : Stream) : (s.setStream i x).free = s.free := rfl
@[simp] theorem State.setStream_pending (s : State) (i : Nat) (x : Stream) : (s.setStream i x).pending = s.pending := rfl

/-! ### setRing -/

@[simp] theorem State.setRing_regs (s : State) (r : RingId) (x : Ring) : (s.setRing r x).regs = s.regs := rfl
@[simp] theorem State.setRing_shadows (s : State) (r : RingId) (x : Ring) : (s.setRing r x).shadows = s.shadows := rfl
@[simp] theorem State.setRing_latches (s : State) (r : RingId) (x : Ring) : (s.setRing r x).latches = s.latches := rfl
@[simp] theorem State.setRing_blks (s : State) (r : RingId) (x : Ring) : (s.setRing r x).blks = s.blks := rfl
@[simp] theorem State.setRing_bank (s : State) (r : RingId) (x : Ring) : (s.setRing r x).bank = s.bank := rfl
@[simp] theorem State.setRing_telem (s : State) (r : RingId) (x : Ring) : (s.setRing r x).telem = s.telem := rfl
@[simp] theorem State.setRing_tb (s : State) (r : RingId) (x : Ring) : (s.setRing r x).tb = s.tb := rfl
@[simp] theorem State.setRing_fab (s : State) (r : RingId) (x : Ring) : (s.setRing r x).fab = s.fab := rfl
@[simp] theorem State.setRing_mem (s : State) (r : RingId) (x : Ring) : (s.setRing r x).mem = s.mem := rfl
@[simp] theorem State.setRing_upsets (s : State) (r : RingId) (x : Ring) : (s.setRing r x).upsets = s.upsets := rfl
@[simp] theorem State.setRing_dramErr (s : State) (r : RingId) (x : Ring) : (s.setRing r x).dramErr = s.dramErr := rfl
@[simp] theorem State.setRing_dmcs (s : State) (r : RingId) (x : Ring) : (s.setRing r x).dmcs = s.dmcs := rfl
@[simp] theorem State.setRing_window (s : State) (r : RingId) (x : Ring) : (s.setRing r x).window = s.window := rfl
@[simp] theorem State.setRing_winLost (s : State) (r : RingId) (x : Ring) : (s.setRing r x).winLost = s.winLost := rfl
@[simp] theorem State.setRing_rts (s : State) (r : RingId) (x : Ring) : (s.setRing r x).rts = s.rts := rfl
@[simp] theorem State.setRing_tables (s : State) (r : RingId) (x : Ring) : (s.setRing r x).tables = s.tables := rfl
@[simp] theorem State.setRing_tloads (s : State) (r : RingId) (x : Ring) : (s.setRing r x).tloads = s.tloads := rfl
@[simp] theorem State.setRing_kpr (s : State) (r : RingId) (x : Ring) : (s.setRing r x).kpr = s.kpr := rfl
@[simp] theorem State.setRing_boot (s : State) (r : RingId) (x : Ring) : (s.setRing r x).boot = s.boot := rfl
@[simp] theorem State.setRing_power (s : State) (r : RingId) (x : Ring) : (s.setRing r x).power = s.power := rfl
@[simp] theorem State.setRing_tape (s : State) (r : RingId) (x : Ring) : (s.setRing r x).tape = s.tape := rfl
@[simp] theorem State.setRing_flash (s : State) (r : RingId) (x : Ring) : (s.setRing r x).flash = s.flash := rfl
@[simp] theorem State.setRing_tpi (s : State) (r : RingId) (x : Ring) : (s.setRing r x).tpi = s.tpi := rfl
@[simp] theorem State.setRing_svd (s : State) (r : RingId) (x : Ring) : (s.setRing r x).svd = s.svd := rfl
@[simp] theorem State.setRing_lpe (s : State) (r : RingId) (x : Ring) : (s.setRing r x).lpe = s.lpe := rfl
@[simp] theorem State.setRing_pulses (s : State) (r : RingId) (x : Ring) : (s.setRing r x).pulses = s.pulses := rfl
@[simp] theorem State.setRing_cores (s : State) (r : RingId) (x : Ring) : (s.setRing r x).cores = s.cores := rfl
@[simp] theorem State.setRing_benches (s : State) (r : RingId) (x : Ring) : (s.setRing r x).benches = s.benches := rfl
@[simp] theorem State.setRing_jobs (s : State) (r : RingId) (x : Ring) : (s.setRing r x).jobs = s.jobs := rfl
@[simp] theorem State.setRing_intakes (s : State) (r : RingId) (x : Ring) : (s.setRing r x).intakes = s.intakes := rfl
@[simp] theorem State.setRing_ase (s : State) (r : RingId) (x : Ring) : (s.setRing r x).ase = s.ase := rfl
@[simp] theorem State.setRing_loads (s : State) (r : RingId) (x : Ring) : (s.setRing r x).loads = s.loads := rfl
@[simp] theorem State.setRing_streams (s : State) (r : RingId) (x : Ring) : (s.setRing r x).streams = s.streams := rfl
@[simp] theorem State.setRing_funcs (s : State) (r : RingId) (x : Ring) : (s.setRing r x).funcs = s.funcs := rfl
@[simp] theorem State.setRing_numVfs (s : State) (r : RingId) (x : Ring) : (s.setRing r x).numVfs = s.numVfs := rfl
@[simp] theorem State.setRing_ports (s : State) (r : RingId) (x : Ring) : (s.setRing r x).ports = s.ports := rfl
@[simp] theorem State.setRing_ctrls (s : State) (r : RingId) (x : Ring) : (s.setRing r x).ctrls = s.ctrls := rfl
@[simp] theorem State.setRing_cmds (s : State) (r : RingId) (x : Ring) : (s.setRing r x).cmds = s.cmds := rfl
@[simp] theorem State.setRing_qen (s : State) (r : RingId) (x : Ring) : (s.setRing r x).qen = s.qen := rfl
@[simp] theorem State.setRing_mi (s : State) (r : RingId) (x : Ring) : (s.setRing r x).mi = s.mi := rfl
@[simp] theorem State.setRing_media (s : State) (r : RingId) (x : Ring) : (s.setRing r x).media = s.media := rfl
@[simp] theorem State.setRing_nss (s : State) (r : RingId) (x : Ring) : (s.setRing r x).nss = s.nss := rfl
@[simp] theorem State.setRing_blocks (s : State) (r : RingId) (x : Ring) : (s.setRing r x).blocks = s.blocks := rfl
@[simp] theorem State.setRing_zones (s : State) (r : RingId) (x : Ring) : (s.setRing r x).zones = s.zones := rfl
@[simp] theorem State.setRing_shelf (s : State) (r : RingId) (x : Ring) : (s.setRing r x).shelf = s.shelf := rfl
@[simp] theorem State.setRing_inp (s : State) (r : RingId) (x : Ring) : (s.setRing r x).inp = s.inp := rfl
@[simp] theorem State.setRing_out (s : State) (r : RingId) (x : Ring) : (s.setRing r x).out = s.out := rfl
@[simp] theorem State.setRing_free (s : State) (r : RingId) (x : Ring) : (s.setRing r x).free = s.free := rfl
@[simp] theorem State.setRing_pending (s : State) (r : RingId) (x : Ring) : (s.setRing r x).pending = s.pending := rfl

/-! ### setIntake -/

@[simp] theorem State.setIntake_regs (s : State) (e : Nat) (x : Intake) : (s.setIntake e x).regs = s.regs := rfl
@[simp] theorem State.setIntake_shadows (s : State) (e : Nat) (x : Intake) : (s.setIntake e x).shadows = s.shadows := rfl
@[simp] theorem State.setIntake_latches (s : State) (e : Nat) (x : Intake) : (s.setIntake e x).latches = s.latches := rfl
@[simp] theorem State.setIntake_blks (s : State) (e : Nat) (x : Intake) : (s.setIntake e x).blks = s.blks := rfl
@[simp] theorem State.setIntake_bank (s : State) (e : Nat) (x : Intake) : (s.setIntake e x).bank = s.bank := rfl
@[simp] theorem State.setIntake_telem (s : State) (e : Nat) (x : Intake) : (s.setIntake e x).telem = s.telem := rfl
@[simp] theorem State.setIntake_tb (s : State) (e : Nat) (x : Intake) : (s.setIntake e x).tb = s.tb := rfl
@[simp] theorem State.setIntake_fab (s : State) (e : Nat) (x : Intake) : (s.setIntake e x).fab = s.fab := rfl
@[simp] theorem State.setIntake_mem (s : State) (e : Nat) (x : Intake) : (s.setIntake e x).mem = s.mem := rfl
@[simp] theorem State.setIntake_upsets (s : State) (e : Nat) (x : Intake) : (s.setIntake e x).upsets = s.upsets := rfl
@[simp] theorem State.setIntake_dramErr (s : State) (e : Nat) (x : Intake) : (s.setIntake e x).dramErr = s.dramErr := rfl
@[simp] theorem State.setIntake_dmcs (s : State) (e : Nat) (x : Intake) : (s.setIntake e x).dmcs = s.dmcs := rfl
@[simp] theorem State.setIntake_window (s : State) (e : Nat) (x : Intake) : (s.setIntake e x).window = s.window := rfl
@[simp] theorem State.setIntake_winLost (s : State) (e : Nat) (x : Intake) : (s.setIntake e x).winLost = s.winLost := rfl
@[simp] theorem State.setIntake_rts (s : State) (e : Nat) (x : Intake) : (s.setIntake e x).rts = s.rts := rfl
@[simp] theorem State.setIntake_tables (s : State) (e : Nat) (x : Intake) : (s.setIntake e x).tables = s.tables := rfl
@[simp] theorem State.setIntake_tloads (s : State) (e : Nat) (x : Intake) : (s.setIntake e x).tloads = s.tloads := rfl
@[simp] theorem State.setIntake_kpr (s : State) (e : Nat) (x : Intake) : (s.setIntake e x).kpr = s.kpr := rfl
@[simp] theorem State.setIntake_boot (s : State) (e : Nat) (x : Intake) : (s.setIntake e x).boot = s.boot := rfl
@[simp] theorem State.setIntake_power (s : State) (e : Nat) (x : Intake) : (s.setIntake e x).power = s.power := rfl
@[simp] theorem State.setIntake_tape (s : State) (e : Nat) (x : Intake) : (s.setIntake e x).tape = s.tape := rfl
@[simp] theorem State.setIntake_flash (s : State) (e : Nat) (x : Intake) : (s.setIntake e x).flash = s.flash := rfl
@[simp] theorem State.setIntake_tpi (s : State) (e : Nat) (x : Intake) : (s.setIntake e x).tpi = s.tpi := rfl
@[simp] theorem State.setIntake_svd (s : State) (e : Nat) (x : Intake) : (s.setIntake e x).svd = s.svd := rfl
@[simp] theorem State.setIntake_lpe (s : State) (e : Nat) (x : Intake) : (s.setIntake e x).lpe = s.lpe := rfl
@[simp] theorem State.setIntake_pulses (s : State) (e : Nat) (x : Intake) : (s.setIntake e x).pulses = s.pulses := rfl
@[simp] theorem State.setIntake_cores (s : State) (e : Nat) (x : Intake) : (s.setIntake e x).cores = s.cores := rfl
@[simp] theorem State.setIntake_benches (s : State) (e : Nat) (x : Intake) : (s.setIntake e x).benches = s.benches := rfl
@[simp] theorem State.setIntake_rings (s : State) (e : Nat) (x : Intake) : (s.setIntake e x).rings = s.rings := rfl
@[simp] theorem State.setIntake_jobs (s : State) (e : Nat) (x : Intake) : (s.setIntake e x).jobs = s.jobs := rfl
@[simp] theorem State.setIntake_ase (s : State) (e : Nat) (x : Intake) : (s.setIntake e x).ase = s.ase := rfl
@[simp] theorem State.setIntake_loads (s : State) (e : Nat) (x : Intake) : (s.setIntake e x).loads = s.loads := rfl
@[simp] theorem State.setIntake_streams (s : State) (e : Nat) (x : Intake) : (s.setIntake e x).streams = s.streams := rfl
@[simp] theorem State.setIntake_funcs (s : State) (e : Nat) (x : Intake) : (s.setIntake e x).funcs = s.funcs := rfl
@[simp] theorem State.setIntake_numVfs (s : State) (e : Nat) (x : Intake) : (s.setIntake e x).numVfs = s.numVfs := rfl
@[simp] theorem State.setIntake_ports (s : State) (e : Nat) (x : Intake) : (s.setIntake e x).ports = s.ports := rfl
@[simp] theorem State.setIntake_ctrls (s : State) (e : Nat) (x : Intake) : (s.setIntake e x).ctrls = s.ctrls := rfl
@[simp] theorem State.setIntake_cmds (s : State) (e : Nat) (x : Intake) : (s.setIntake e x).cmds = s.cmds := rfl
@[simp] theorem State.setIntake_qen (s : State) (e : Nat) (x : Intake) : (s.setIntake e x).qen = s.qen := rfl
@[simp] theorem State.setIntake_mi (s : State) (e : Nat) (x : Intake) : (s.setIntake e x).mi = s.mi := rfl
@[simp] theorem State.setIntake_media (s : State) (e : Nat) (x : Intake) : (s.setIntake e x).media = s.media := rfl
@[simp] theorem State.setIntake_nss (s : State) (e : Nat) (x : Intake) : (s.setIntake e x).nss = s.nss := rfl
@[simp] theorem State.setIntake_blocks (s : State) (e : Nat) (x : Intake) : (s.setIntake e x).blocks = s.blocks := rfl
@[simp] theorem State.setIntake_zones (s : State) (e : Nat) (x : Intake) : (s.setIntake e x).zones = s.zones := rfl
@[simp] theorem State.setIntake_shelf (s : State) (e : Nat) (x : Intake) : (s.setIntake e x).shelf = s.shelf := rfl
@[simp] theorem State.setIntake_inp (s : State) (e : Nat) (x : Intake) : (s.setIntake e x).inp = s.inp := rfl
@[simp] theorem State.setIntake_out (s : State) (e : Nat) (x : Intake) : (s.setIntake e x).out = s.out := rfl
@[simp] theorem State.setIntake_free (s : State) (e : Nat) (x : Intake) : (s.setIntake e x).free = s.free := rfl
@[simp] theorem State.setIntake_pending (s : State) (e : Nat) (x : Intake) : (s.setIntake e x).pending = s.pending := rfl

/-! ### setDmc -/

@[simp] theorem State.setDmc_regs (s : State) (n : Nat) (d : Dmc) : (s.setDmc n d).regs = s.regs := rfl
@[simp] theorem State.setDmc_shadows (s : State) (n : Nat) (d : Dmc) : (s.setDmc n d).shadows = s.shadows := rfl
@[simp] theorem State.setDmc_latches (s : State) (n : Nat) (d : Dmc) : (s.setDmc n d).latches = s.latches := rfl
@[simp] theorem State.setDmc_blks (s : State) (n : Nat) (d : Dmc) : (s.setDmc n d).blks = s.blks := rfl
@[simp] theorem State.setDmc_bank (s : State) (n : Nat) (d : Dmc) : (s.setDmc n d).bank = s.bank := rfl
@[simp] theorem State.setDmc_telem (s : State) (n : Nat) (d : Dmc) : (s.setDmc n d).telem = s.telem := rfl
@[simp] theorem State.setDmc_tb (s : State) (n : Nat) (d : Dmc) : (s.setDmc n d).tb = s.tb := rfl
@[simp] theorem State.setDmc_fab (s : State) (n : Nat) (d : Dmc) : (s.setDmc n d).fab = s.fab := rfl
@[simp] theorem State.setDmc_mem (s : State) (n : Nat) (d : Dmc) : (s.setDmc n d).mem = s.mem := rfl
@[simp] theorem State.setDmc_upsets (s : State) (n : Nat) (d : Dmc) : (s.setDmc n d).upsets = s.upsets := rfl
@[simp] theorem State.setDmc_dramErr (s : State) (n : Nat) (d : Dmc) : (s.setDmc n d).dramErr = s.dramErr := rfl
@[simp] theorem State.setDmc_window (s : State) (n : Nat) (d : Dmc) : (s.setDmc n d).window = s.window := rfl
@[simp] theorem State.setDmc_winLost (s : State) (n : Nat) (d : Dmc) : (s.setDmc n d).winLost = s.winLost := rfl
@[simp] theorem State.setDmc_rts (s : State) (n : Nat) (d : Dmc) : (s.setDmc n d).rts = s.rts := rfl
@[simp] theorem State.setDmc_tables (s : State) (n : Nat) (d : Dmc) : (s.setDmc n d).tables = s.tables := rfl
@[simp] theorem State.setDmc_tloads (s : State) (n : Nat) (d : Dmc) : (s.setDmc n d).tloads = s.tloads := rfl
@[simp] theorem State.setDmc_kpr (s : State) (n : Nat) (d : Dmc) : (s.setDmc n d).kpr = s.kpr := rfl
@[simp] theorem State.setDmc_boot (s : State) (n : Nat) (d : Dmc) : (s.setDmc n d).boot = s.boot := rfl
@[simp] theorem State.setDmc_power (s : State) (n : Nat) (d : Dmc) : (s.setDmc n d).power = s.power := rfl
@[simp] theorem State.setDmc_tape (s : State) (n : Nat) (d : Dmc) : (s.setDmc n d).tape = s.tape := rfl
@[simp] theorem State.setDmc_flash (s : State) (n : Nat) (d : Dmc) : (s.setDmc n d).flash = s.flash := rfl
@[simp] theorem State.setDmc_tpi (s : State) (n : Nat) (d : Dmc) : (s.setDmc n d).tpi = s.tpi := rfl
@[simp] theorem State.setDmc_svd (s : State) (n : Nat) (d : Dmc) : (s.setDmc n d).svd = s.svd := rfl
@[simp] theorem State.setDmc_lpe (s : State) (n : Nat) (d : Dmc) : (s.setDmc n d).lpe = s.lpe := rfl
@[simp] theorem State.setDmc_pulses (s : State) (n : Nat) (d : Dmc) : (s.setDmc n d).pulses = s.pulses := rfl
@[simp] theorem State.setDmc_cores (s : State) (n : Nat) (d : Dmc) : (s.setDmc n d).cores = s.cores := rfl
@[simp] theorem State.setDmc_benches (s : State) (n : Nat) (d : Dmc) : (s.setDmc n d).benches = s.benches := rfl
@[simp] theorem State.setDmc_rings (s : State) (n : Nat) (d : Dmc) : (s.setDmc n d).rings = s.rings := rfl
@[simp] theorem State.setDmc_jobs (s : State) (n : Nat) (d : Dmc) : (s.setDmc n d).jobs = s.jobs := rfl
@[simp] theorem State.setDmc_intakes (s : State) (n : Nat) (d : Dmc) : (s.setDmc n d).intakes = s.intakes := rfl
@[simp] theorem State.setDmc_ase (s : State) (n : Nat) (d : Dmc) : (s.setDmc n d).ase = s.ase := rfl
@[simp] theorem State.setDmc_loads (s : State) (n : Nat) (d : Dmc) : (s.setDmc n d).loads = s.loads := rfl
@[simp] theorem State.setDmc_streams (s : State) (n : Nat) (d : Dmc) : (s.setDmc n d).streams = s.streams := rfl
@[simp] theorem State.setDmc_funcs (s : State) (n : Nat) (d : Dmc) : (s.setDmc n d).funcs = s.funcs := rfl
@[simp] theorem State.setDmc_numVfs (s : State) (n : Nat) (d : Dmc) : (s.setDmc n d).numVfs = s.numVfs := rfl
@[simp] theorem State.setDmc_ports (s : State) (n : Nat) (d : Dmc) : (s.setDmc n d).ports = s.ports := rfl
@[simp] theorem State.setDmc_ctrls (s : State) (n : Nat) (d : Dmc) : (s.setDmc n d).ctrls = s.ctrls := rfl
@[simp] theorem State.setDmc_cmds (s : State) (n : Nat) (d : Dmc) : (s.setDmc n d).cmds = s.cmds := rfl
@[simp] theorem State.setDmc_qen (s : State) (n : Nat) (d : Dmc) : (s.setDmc n d).qen = s.qen := rfl
@[simp] theorem State.setDmc_mi (s : State) (n : Nat) (d : Dmc) : (s.setDmc n d).mi = s.mi := rfl
@[simp] theorem State.setDmc_media (s : State) (n : Nat) (d : Dmc) : (s.setDmc n d).media = s.media := rfl
@[simp] theorem State.setDmc_nss (s : State) (n : Nat) (d : Dmc) : (s.setDmc n d).nss = s.nss := rfl
@[simp] theorem State.setDmc_blocks (s : State) (n : Nat) (d : Dmc) : (s.setDmc n d).blocks = s.blocks := rfl
@[simp] theorem State.setDmc_zones (s : State) (n : Nat) (d : Dmc) : (s.setDmc n d).zones = s.zones := rfl
@[simp] theorem State.setDmc_shelf (s : State) (n : Nat) (d : Dmc) : (s.setDmc n d).shelf = s.shelf := rfl
@[simp] theorem State.setDmc_inp (s : State) (n : Nat) (d : Dmc) : (s.setDmc n d).inp = s.inp := rfl
@[simp] theorem State.setDmc_out (s : State) (n : Nat) (d : Dmc) : (s.setDmc n d).out = s.out := rfl
@[simp] theorem State.setDmc_free (s : State) (n : Nat) (d : Dmc) : (s.setDmc n d).free = s.free := rfl
@[simp] theorem State.setDmc_pending (s : State) (n : Nat) (d : Dmc) : (s.setDmc n d).pending = s.pending := rfl

/-! ### setPort -/

@[simp] theorem State.setPort_regs (s : State) (p : Nat) (x : Port) : (s.setPort p x).regs = s.regs := rfl
@[simp] theorem State.setPort_shadows (s : State) (p : Nat) (x : Port) : (s.setPort p x).shadows = s.shadows := rfl
@[simp] theorem State.setPort_latches (s : State) (p : Nat) (x : Port) : (s.setPort p x).latches = s.latches := rfl
@[simp] theorem State.setPort_blks (s : State) (p : Nat) (x : Port) : (s.setPort p x).blks = s.blks := rfl
@[simp] theorem State.setPort_bank (s : State) (p : Nat) (x : Port) : (s.setPort p x).bank = s.bank := rfl
@[simp] theorem State.setPort_telem (s : State) (p : Nat) (x : Port) : (s.setPort p x).telem = s.telem := rfl
@[simp] theorem State.setPort_tb (s : State) (p : Nat) (x : Port) : (s.setPort p x).tb = s.tb := rfl
@[simp] theorem State.setPort_fab (s : State) (p : Nat) (x : Port) : (s.setPort p x).fab = s.fab := rfl
@[simp] theorem State.setPort_mem (s : State) (p : Nat) (x : Port) : (s.setPort p x).mem = s.mem := rfl
@[simp] theorem State.setPort_upsets (s : State) (p : Nat) (x : Port) : (s.setPort p x).upsets = s.upsets := rfl
@[simp] theorem State.setPort_dramErr (s : State) (p : Nat) (x : Port) : (s.setPort p x).dramErr = s.dramErr := rfl
@[simp] theorem State.setPort_dmcs (s : State) (p : Nat) (x : Port) : (s.setPort p x).dmcs = s.dmcs := rfl
@[simp] theorem State.setPort_window (s : State) (p : Nat) (x : Port) : (s.setPort p x).window = s.window := rfl
@[simp] theorem State.setPort_winLost (s : State) (p : Nat) (x : Port) : (s.setPort p x).winLost = s.winLost := rfl
@[simp] theorem State.setPort_rts (s : State) (p : Nat) (x : Port) : (s.setPort p x).rts = s.rts := rfl
@[simp] theorem State.setPort_tables (s : State) (p : Nat) (x : Port) : (s.setPort p x).tables = s.tables := rfl
@[simp] theorem State.setPort_tloads (s : State) (p : Nat) (x : Port) : (s.setPort p x).tloads = s.tloads := rfl
@[simp] theorem State.setPort_kpr (s : State) (p : Nat) (x : Port) : (s.setPort p x).kpr = s.kpr := rfl
@[simp] theorem State.setPort_boot (s : State) (p : Nat) (x : Port) : (s.setPort p x).boot = s.boot := rfl
@[simp] theorem State.setPort_power (s : State) (p : Nat) (x : Port) : (s.setPort p x).power = s.power := rfl
@[simp] theorem State.setPort_tape (s : State) (p : Nat) (x : Port) : (s.setPort p x).tape = s.tape := rfl
@[simp] theorem State.setPort_flash (s : State) (p : Nat) (x : Port) : (s.setPort p x).flash = s.flash := rfl
@[simp] theorem State.setPort_tpi (s : State) (p : Nat) (x : Port) : (s.setPort p x).tpi = s.tpi := rfl
@[simp] theorem State.setPort_svd (s : State) (p : Nat) (x : Port) : (s.setPort p x).svd = s.svd := rfl
@[simp] theorem State.setPort_lpe (s : State) (p : Nat) (x : Port) : (s.setPort p x).lpe = s.lpe := rfl
@[simp] theorem State.setPort_pulses (s : State) (p : Nat) (x : Port) : (s.setPort p x).pulses = s.pulses := rfl
@[simp] theorem State.setPort_cores (s : State) (p : Nat) (x : Port) : (s.setPort p x).cores = s.cores := rfl
@[simp] theorem State.setPort_benches (s : State) (p : Nat) (x : Port) : (s.setPort p x).benches = s.benches := rfl
@[simp] theorem State.setPort_rings (s : State) (p : Nat) (x : Port) : (s.setPort p x).rings = s.rings := rfl
@[simp] theorem State.setPort_jobs (s : State) (p : Nat) (x : Port) : (s.setPort p x).jobs = s.jobs := rfl
@[simp] theorem State.setPort_intakes (s : State) (p : Nat) (x : Port) : (s.setPort p x).intakes = s.intakes := rfl
@[simp] theorem State.setPort_ase (s : State) (p : Nat) (x : Port) : (s.setPort p x).ase = s.ase := rfl
@[simp] theorem State.setPort_loads (s : State) (p : Nat) (x : Port) : (s.setPort p x).loads = s.loads := rfl
@[simp] theorem State.setPort_streams (s : State) (p : Nat) (x : Port) : (s.setPort p x).streams = s.streams := rfl
@[simp] theorem State.setPort_funcs (s : State) (p : Nat) (x : Port) : (s.setPort p x).funcs = s.funcs := rfl
@[simp] theorem State.setPort_numVfs (s : State) (p : Nat) (x : Port) : (s.setPort p x).numVfs = s.numVfs := rfl
@[simp] theorem State.setPort_ctrls (s : State) (p : Nat) (x : Port) : (s.setPort p x).ctrls = s.ctrls := rfl
@[simp] theorem State.setPort_cmds (s : State) (p : Nat) (x : Port) : (s.setPort p x).cmds = s.cmds := rfl
@[simp] theorem State.setPort_qen (s : State) (p : Nat) (x : Port) : (s.setPort p x).qen = s.qen := rfl
@[simp] theorem State.setPort_mi (s : State) (p : Nat) (x : Port) : (s.setPort p x).mi = s.mi := rfl
@[simp] theorem State.setPort_media (s : State) (p : Nat) (x : Port) : (s.setPort p x).media = s.media := rfl
@[simp] theorem State.setPort_nss (s : State) (p : Nat) (x : Port) : (s.setPort p x).nss = s.nss := rfl
@[simp] theorem State.setPort_blocks (s : State) (p : Nat) (x : Port) : (s.setPort p x).blocks = s.blocks := rfl
@[simp] theorem State.setPort_zones (s : State) (p : Nat) (x : Port) : (s.setPort p x).zones = s.zones := rfl
@[simp] theorem State.setPort_shelf (s : State) (p : Nat) (x : Port) : (s.setPort p x).shelf = s.shelf := rfl
@[simp] theorem State.setPort_inp (s : State) (p : Nat) (x : Port) : (s.setPort p x).inp = s.inp := rfl
@[simp] theorem State.setPort_out (s : State) (p : Nat) (x : Port) : (s.setPort p x).out = s.out := rfl
@[simp] theorem State.setPort_free (s : State) (p : Nat) (x : Port) : (s.setPort p x).free = s.free := rfl
@[simp] theorem State.setPort_pending (s : State) (p : Nat) (x : Port) : (s.setPort p x).pending = s.pending := rfl

/-! ### setCtrl -/

@[simp] theorem State.setCtrl_regs (s : State) (c : Nat) (x : Ctrl) : (s.setCtrl c x).regs = s.regs := rfl
@[simp] theorem State.setCtrl_shadows (s : State) (c : Nat) (x : Ctrl) : (s.setCtrl c x).shadows = s.shadows := rfl
@[simp] theorem State.setCtrl_latches (s : State) (c : Nat) (x : Ctrl) : (s.setCtrl c x).latches = s.latches := rfl
@[simp] theorem State.setCtrl_blks (s : State) (c : Nat) (x : Ctrl) : (s.setCtrl c x).blks = s.blks := rfl
@[simp] theorem State.setCtrl_bank (s : State) (c : Nat) (x : Ctrl) : (s.setCtrl c x).bank = s.bank := rfl
@[simp] theorem State.setCtrl_telem (s : State) (c : Nat) (x : Ctrl) : (s.setCtrl c x).telem = s.telem := rfl
@[simp] theorem State.setCtrl_tb (s : State) (c : Nat) (x : Ctrl) : (s.setCtrl c x).tb = s.tb := rfl
@[simp] theorem State.setCtrl_fab (s : State) (c : Nat) (x : Ctrl) : (s.setCtrl c x).fab = s.fab := rfl
@[simp] theorem State.setCtrl_mem (s : State) (c : Nat) (x : Ctrl) : (s.setCtrl c x).mem = s.mem := rfl
@[simp] theorem State.setCtrl_upsets (s : State) (c : Nat) (x : Ctrl) : (s.setCtrl c x).upsets = s.upsets := rfl
@[simp] theorem State.setCtrl_dramErr (s : State) (c : Nat) (x : Ctrl) : (s.setCtrl c x).dramErr = s.dramErr := rfl
@[simp] theorem State.setCtrl_dmcs (s : State) (c : Nat) (x : Ctrl) : (s.setCtrl c x).dmcs = s.dmcs := rfl
@[simp] theorem State.setCtrl_window (s : State) (c : Nat) (x : Ctrl) : (s.setCtrl c x).window = s.window := rfl
@[simp] theorem State.setCtrl_winLost (s : State) (c : Nat) (x : Ctrl) : (s.setCtrl c x).winLost = s.winLost := rfl
@[simp] theorem State.setCtrl_rts (s : State) (c : Nat) (x : Ctrl) : (s.setCtrl c x).rts = s.rts := rfl
@[simp] theorem State.setCtrl_tables (s : State) (c : Nat) (x : Ctrl) : (s.setCtrl c x).tables = s.tables := rfl
@[simp] theorem State.setCtrl_tloads (s : State) (c : Nat) (x : Ctrl) : (s.setCtrl c x).tloads = s.tloads := rfl
@[simp] theorem State.setCtrl_kpr (s : State) (c : Nat) (x : Ctrl) : (s.setCtrl c x).kpr = s.kpr := rfl
@[simp] theorem State.setCtrl_boot (s : State) (c : Nat) (x : Ctrl) : (s.setCtrl c x).boot = s.boot := rfl
@[simp] theorem State.setCtrl_power (s : State) (c : Nat) (x : Ctrl) : (s.setCtrl c x).power = s.power := rfl
@[simp] theorem State.setCtrl_tape (s : State) (c : Nat) (x : Ctrl) : (s.setCtrl c x).tape = s.tape := rfl
@[simp] theorem State.setCtrl_flash (s : State) (c : Nat) (x : Ctrl) : (s.setCtrl c x).flash = s.flash := rfl
@[simp] theorem State.setCtrl_tpi (s : State) (c : Nat) (x : Ctrl) : (s.setCtrl c x).tpi = s.tpi := rfl
@[simp] theorem State.setCtrl_svd (s : State) (c : Nat) (x : Ctrl) : (s.setCtrl c x).svd = s.svd := rfl
@[simp] theorem State.setCtrl_lpe (s : State) (c : Nat) (x : Ctrl) : (s.setCtrl c x).lpe = s.lpe := rfl
@[simp] theorem State.setCtrl_pulses (s : State) (c : Nat) (x : Ctrl) : (s.setCtrl c x).pulses = s.pulses := rfl
@[simp] theorem State.setCtrl_cores (s : State) (c : Nat) (x : Ctrl) : (s.setCtrl c x).cores = s.cores := rfl
@[simp] theorem State.setCtrl_benches (s : State) (c : Nat) (x : Ctrl) : (s.setCtrl c x).benches = s.benches := rfl
@[simp] theorem State.setCtrl_rings (s : State) (c : Nat) (x : Ctrl) : (s.setCtrl c x).rings = s.rings := rfl
@[simp] theorem State.setCtrl_jobs (s : State) (c : Nat) (x : Ctrl) : (s.setCtrl c x).jobs = s.jobs := rfl
@[simp] theorem State.setCtrl_intakes (s : State) (c : Nat) (x : Ctrl) : (s.setCtrl c x).intakes = s.intakes := rfl
@[simp] theorem State.setCtrl_ase (s : State) (c : Nat) (x : Ctrl) : (s.setCtrl c x).ase = s.ase := rfl
@[simp] theorem State.setCtrl_loads (s : State) (c : Nat) (x : Ctrl) : (s.setCtrl c x).loads = s.loads := rfl
@[simp] theorem State.setCtrl_streams (s : State) (c : Nat) (x : Ctrl) : (s.setCtrl c x).streams = s.streams := rfl
@[simp] theorem State.setCtrl_funcs (s : State) (c : Nat) (x : Ctrl) : (s.setCtrl c x).funcs = s.funcs := rfl
@[simp] theorem State.setCtrl_numVfs (s : State) (c : Nat) (x : Ctrl) : (s.setCtrl c x).numVfs = s.numVfs := rfl
@[simp] theorem State.setCtrl_ports (s : State) (c : Nat) (x : Ctrl) : (s.setCtrl c x).ports = s.ports := rfl
@[simp] theorem State.setCtrl_cmds (s : State) (c : Nat) (x : Ctrl) : (s.setCtrl c x).cmds = s.cmds := rfl
@[simp] theorem State.setCtrl_qen (s : State) (c : Nat) (x : Ctrl) : (s.setCtrl c x).qen = s.qen := rfl
@[simp] theorem State.setCtrl_mi (s : State) (c : Nat) (x : Ctrl) : (s.setCtrl c x).mi = s.mi := rfl
@[simp] theorem State.setCtrl_media (s : State) (c : Nat) (x : Ctrl) : (s.setCtrl c x).media = s.media := rfl
@[simp] theorem State.setCtrl_nss (s : State) (c : Nat) (x : Ctrl) : (s.setCtrl c x).nss = s.nss := rfl
@[simp] theorem State.setCtrl_blocks (s : State) (c : Nat) (x : Ctrl) : (s.setCtrl c x).blocks = s.blocks := rfl
@[simp] theorem State.setCtrl_zones (s : State) (c : Nat) (x : Ctrl) : (s.setCtrl c x).zones = s.zones := rfl
@[simp] theorem State.setCtrl_shelf (s : State) (c : Nat) (x : Ctrl) : (s.setCtrl c x).shelf = s.shelf := rfl
@[simp] theorem State.setCtrl_inp (s : State) (c : Nat) (x : Ctrl) : (s.setCtrl c x).inp = s.inp := rfl
@[simp] theorem State.setCtrl_out (s : State) (c : Nat) (x : Ctrl) : (s.setCtrl c x).out = s.out := rfl
@[simp] theorem State.setCtrl_free (s : State) (c : Nat) (x : Ctrl) : (s.setCtrl c x).free = s.free := rfl
@[simp] theorem State.setCtrl_pending (s : State) (c : Nat) (x : Ctrl) : (s.setCtrl c x).pending = s.pending := rfl

/-! ### leaveQueue -/

@[simp] theorem State.leaveQueue_regs (s : State) (t : State) : (s.leaveQueue t).regs = t.regs := rfl
@[simp] theorem State.leaveQueue_shadows (s : State) (t : State) : (s.leaveQueue t).shadows = t.shadows := rfl
@[simp] theorem State.leaveQueue_latches (s : State) (t : State) : (s.leaveQueue t).latches = t.latches := rfl
@[simp] theorem State.leaveQueue_blks (s : State) (t : State) : (s.leaveQueue t).blks = t.blks := rfl
@[simp] theorem State.leaveQueue_bank (s : State) (t : State) : (s.leaveQueue t).bank = t.bank := rfl
@[simp] theorem State.leaveQueue_telem (s : State) (t : State) : (s.leaveQueue t).telem = t.telem := rfl
@[simp] theorem State.leaveQueue_tb (s : State) (t : State) : (s.leaveQueue t).tb = t.tb := rfl
@[simp] theorem State.leaveQueue_fab (s : State) (t : State) : (s.leaveQueue t).fab = t.fab := rfl
@[simp] theorem State.leaveQueue_mem (s : State) (t : State) : (s.leaveQueue t).mem = t.mem := rfl
@[simp] theorem State.leaveQueue_upsets (s : State) (t : State) : (s.leaveQueue t).upsets = t.upsets := rfl
@[simp] theorem State.leaveQueue_dramErr (s : State) (t : State) : (s.leaveQueue t).dramErr = t.dramErr := rfl
@[simp] theorem State.leaveQueue_dmcs (s : State) (t : State) : (s.leaveQueue t).dmcs = t.dmcs := rfl
@[simp] theorem State.leaveQueue_window (s : State) (t : State) : (s.leaveQueue t).window = t.window := rfl
@[simp] theorem State.leaveQueue_winLost (s : State) (t : State) : (s.leaveQueue t).winLost = t.winLost := rfl
@[simp] theorem State.leaveQueue_rts (s : State) (t : State) : (s.leaveQueue t).rts = t.rts := rfl
@[simp] theorem State.leaveQueue_tables (s : State) (t : State) : (s.leaveQueue t).tables = t.tables := rfl
@[simp] theorem State.leaveQueue_tloads (s : State) (t : State) : (s.leaveQueue t).tloads = t.tloads := rfl
@[simp] theorem State.leaveQueue_kpr (s : State) (t : State) : (s.leaveQueue t).kpr = t.kpr := rfl
@[simp] theorem State.leaveQueue_boot (s : State) (t : State) : (s.leaveQueue t).boot = t.boot := rfl
@[simp] theorem State.leaveQueue_power (s : State) (t : State) : (s.leaveQueue t).power = t.power := rfl
@[simp] theorem State.leaveQueue_tape (s : State) (t : State) : (s.leaveQueue t).tape = t.tape := rfl
@[simp] theorem State.leaveQueue_flash (s : State) (t : State) : (s.leaveQueue t).flash = t.flash := rfl
@[simp] theorem State.leaveQueue_tpi (s : State) (t : State) : (s.leaveQueue t).tpi = t.tpi := rfl
@[simp] theorem State.leaveQueue_svd (s : State) (t : State) : (s.leaveQueue t).svd = t.svd := rfl
@[simp] theorem State.leaveQueue_lpe (s : State) (t : State) : (s.leaveQueue t).lpe = t.lpe := rfl
@[simp] theorem State.leaveQueue_pulses (s : State) (t : State) : (s.leaveQueue t).pulses = t.pulses := rfl
@[simp] theorem State.leaveQueue_cores (s : State) (t : State) : (s.leaveQueue t).cores = t.cores := rfl
@[simp] theorem State.leaveQueue_benches (s : State) (t : State) : (s.leaveQueue t).benches = t.benches := rfl
@[simp] theorem State.leaveQueue_rings (s : State) (t : State) : (s.leaveQueue t).rings = t.rings := rfl
@[simp] theorem State.leaveQueue_jobs (s : State) (t : State) : (s.leaveQueue t).jobs = t.jobs := rfl
@[simp] theorem State.leaveQueue_intakes (s : State) (t : State) : (s.leaveQueue t).intakes = t.intakes := rfl
@[simp] theorem State.leaveQueue_ase (s : State) (t : State) : (s.leaveQueue t).ase = t.ase := rfl
@[simp] theorem State.leaveQueue_loads (s : State) (t : State) : (s.leaveQueue t).loads = t.loads := rfl
@[simp] theorem State.leaveQueue_streams (s : State) (t : State) : (s.leaveQueue t).streams = t.streams := rfl
@[simp] theorem State.leaveQueue_funcs (s : State) (t : State) : (s.leaveQueue t).funcs = t.funcs := rfl
@[simp] theorem State.leaveQueue_numVfs (s : State) (t : State) : (s.leaveQueue t).numVfs = t.numVfs := rfl
@[simp] theorem State.leaveQueue_ports (s : State) (t : State) : (s.leaveQueue t).ports = t.ports := rfl
@[simp] theorem State.leaveQueue_ctrls (s : State) (t : State) : (s.leaveQueue t).ctrls = t.ctrls := rfl
@[simp] theorem State.leaveQueue_cmds (s : State) (t : State) : (s.leaveQueue t).cmds = t.cmds := rfl
@[simp] theorem State.leaveQueue_qen (s : State) (t : State) : (s.leaveQueue t).qen = t.qen := rfl
@[simp] theorem State.leaveQueue_mi (s : State) (t : State) : (s.leaveQueue t).mi = t.mi := rfl
@[simp] theorem State.leaveQueue_media (s : State) (t : State) : (s.leaveQueue t).media = t.media := rfl
@[simp] theorem State.leaveQueue_nss (s : State) (t : State) : (s.leaveQueue t).nss = t.nss := rfl
@[simp] theorem State.leaveQueue_blocks (s : State) (t : State) : (s.leaveQueue t).blocks = t.blocks := rfl
@[simp] theorem State.leaveQueue_zones (s : State) (t : State) : (s.leaveQueue t).zones = t.zones := rfl
@[simp] theorem State.leaveQueue_shelf (s : State) (t : State) : (s.leaveQueue t).shelf = t.shelf := rfl
@[simp] theorem State.leaveQueue_inp (s : State) (t : State) : (s.leaveQueue t).inp = t.inp := rfl
@[simp] theorem State.leaveQueue_out (s : State) (t : State) : (s.leaveQueue t).out = t.out := rfl
@[simp] theorem State.leaveQueue_free (s : State) (t : State) : (s.leaveQueue t).free = t.free := rfl
@[simp] theorem State.leaveQueue_pending (s : State) (t : State) : (s.leaveQueue t).pending = s.pending := rfl

/-! ### A read after an update -/

@[simp] theorem State.emit_out (s : State) (o : Out) : (s.emit o).out = s.out ++ [o] := rfl
@[simp] theorem State.fresh_out (s : State) : s.fresh.out = [] := rfl
@[simp] theorem State.bump_free (s : State) : s.bump.free = s.free + 1 := rfl

/-- Registers are apart when their keys are. -/
theorem State.rg_rset (s : State) (p o q r : Nat) (v : RegWord) :
    (s.rset p o v).rg q r = if regKey q r = regKey p o then v else s.rg q r := mapGet_mapSet _ _ _ _ _
@[simp] theorem State.rg_rset_self (s : State) (p o : Nat) (v : RegWord) : (s.rset p o v).rg p o = v := by simp [State.rg_rset]
theorem State.rg_rset_ne (s : State) {p o q r : Nat} (v : RegWord) (h : regKey q r ≠ regKey p o) :
    (s.rset p o v).rg q r = s.rg q r := by simp [State.rg_rset, h]
theorem State.rg_fset_ne (s : State) {p o q r : Nat} (lo len v : Nat) (h : regKey q r ≠ regKey p o) :
    (s.fset p o lo len v).rg q r = s.rg q r := State.rg_rset_ne s _ h
@[simp] theorem State.rg_fset_self (s : State) (p o lo len v : Nat) :
    (s.fset p o lo len v).rg p o = putBits (s.rg p o) lo len v := State.rg_rset_self s _ _ _
@[simp] theorem State.blk_setBlk_self (s : State) (pg : Nat) (b : BlkState) : (s.setBlk pg b).blk pg = b := mapGet_mapSet_self _ _ _ _
theorem State.blk_setBlk_ne (s : State) {pg q : Nat} (b : BlkState) (h : q ≠ pg) : (s.setBlk pg b).blk q = s.blk q :=
  mapGet_mapSet_ne _ _ _ h
@[simp] theorem State.core_setCore_self (s : State) (k : Nat) (c : Core) : (s.setCore k c).core k = c := mapGet_mapSet_self _ _ _ _
theorem State.core_setCore_ne (s : State) {k j : Nat} (c : Core) (h : j ≠ k) : (s.setCore k c).core j = s.core j :=
  mapGet_mapSet_ne _ _ _ h
@[simp] theorem State.func_setFunc_self (s : State) (k : Nat) (f : Func) : (s.setFunc k f).func k = f := mapGet_mapSet_self _ _ _ _
theorem State.func_setFunc_ne (s : State) {k j : Nat} (f : Func) (h : j ≠ k) : (s.setFunc k f).func j = s.func j :=
  mapGet_mapSet_ne _ _ _ h
@[simp] theorem State.benchOf_setBench_self (s : State) (x : Nat) (b : Bench) : (s.setBench x b).benchOf x = b := mapGet_mapSet_self _ _ _ _
@[simp] theorem State.ctrl_setCtrl_self (s : State) (c : Nat) (x : Ctrl) : (s.setCtrl c x).ctrl c = x := mapGet_mapSet_self _ _ _ _
@[simp] theorem State.port_setPort_self (s : State) (p : Nat) (x : Port) : (s.setPort p x).port p = x := mapGet_mapSet_self _ _ _ _
@[simp] theorem State.dmc_setDmc_self (s : State) (n : Nat) (d : Dmc) : (s.setDmc n d).dmc n = d := mapGet_mapSet_self _ _ _ _

end Sys2Proof.Machine
end

