-- ==== Sys2Proof/Laws/Wrap.lean ====
section
/-! SUPPORT. What every command has in common: it answers a next state, and leaves the queue alone. -/

namespace Sys2Proof.Machine

theorem next_eq (f : State → State) (s : State) :
    next f s = .next (s.leaveQueue (if s.live then f s.fresh else s.fresh)) := rfl

/-- A live device runs the command's effect. -/
theorem next_live (f : State → State) (s : State) (h : s.live = true) : next f s = .next (s.leaveQueue (f s.fresh)) := by
  simp [next, h]

theorem leaveQueue_fresh (s : State) : s.leaveQueue s.fresh = s.fresh := rfl

@[simp] theorem fresh_live (s : State) : s.fresh.live = s.live := rfl
@[simp] theorem fresh_rg (s : State) (p o : Nat) : s.fresh.rg p o = s.rg p o := rfl
@[simp] theorem leaveQueue_rg (s t : State) (p o : Nat) : (s.leaveQueue t).rg p o = t.rg p o := rfl
@[simp] theorem leaveQueue_core (s t : State) (k : Nat) : (s.leaveQueue t).core k = t.core k := rfl

end Sys2Proof.Machine
end

