-- ==== Sys2Proof/Laws/Cores.lean ====
section
/-! SUPPORT. What the fetch of an instruction can do to a core, and the outcome of a command that is one instruction of a core that
takes it. -/

namespace Sys2Proof.Machine

/-! ### Registers of cores -/

@[simp] theorem core_setCore_self (s : State) (k : Nat) (c : Core) : (s.setCore k c).core k = c := by
  simp [State.core, State.setCore]

theorem core_setCore_ne (s : State) {k j : Nat} (c : Core) (h : j ≠ k) : (s.setCore k c).core j = s.core j :=
  mapGet_mapSet_ne _ _ _ h

/-- A core but for its event bits and its caches: what events and reads of memory leave alone. -/
def Core.plain (c : Core) : Core := { c with evt := [], dcache := [], icache := [] }

/-- Every core is plainly as before. -/
structure CoresStand (s t : State) : Prop where
  plain : ∀ k, (t.core k).plain = (s.core k).plain

theorem CoresStand.refl (s : State) : CoresStand s s := ⟨fun _ => rfl⟩

theorem CoresStand.trans {s t u : State} (h : CoresStand s t) (g : CoresStand t u) : CoresStand s u :=
  ⟨fun k => (g.plain k).trans (h.plain k)⟩

/-- Nothing that leaves the list of cores alone changes a core. -/
theorem CoresStand.of {s t : State} (h : t.cores = s.cores) : CoresStand s t := ⟨fun k => by simp [State.core, h]⟩

theorem CoresStand.then {s t u : State} (h : CoresStand s t) (e : u.cores = t.cores) : CoresStand s u := h.trans (.of e)

theorem CoresStand.ite {s t u : State} (c : Prop) [Decidable c] (h : CoresStand s t) (g : CoresStand s u) :
    CoresStand s (if c then t else u) := by
  split <;> assumption

theorem CoresStand.setCore (s : State) (k : Nat) (c : Core) (h : c.plain = (s.core k).plain) : CoresStand s (s.setCore k c) := ⟨fun j => by
  by_cases hj : j = k
  · subst hj; simpa using h
  · rw [core_setCore_ne s c hj]⟩

theorem CoresStand.setEvt {s t : State} (h : CoresStand s t) (k bit : Nat) : CoresStand s (t.setEvt k bit) := h.trans (.setCore _ _ _ rfl)

theorem CoresStand.setEvts {s t : State} (h : CoresStand s t) (b m bit n : Nat) : CoresStand s (t.setEvts b m bit n) := by
  unfold State.setEvts
  generalize List.range n = l
  induction l generalizing t with
  | nil => exact h
  | cons i r ih =>
    rw [List.foldl_cons]
    exact ih (.ite _ (h.setEvt _ _) h)

theorem msix_cores (s : State) (k v : Nat) : (s.msix k v).cores = s.cores := by
  unfold State.msix
  split
  · dsimp only
    split
    · rfl
    · split <;> rfl
  · rfl

theorem pinDelivery_cores (s : State) (n : Nat) : (s.pinDelivery n).cores = s.cores := by
  unfold State.pinDelivery
  split <;> rfl

theorem CoresStand.deliver {s t : State} (h : CoresStand s t) (id : Nat) : CoresStand s (t.deliver id) := by
  have pin {u : State} (h : CoresStand s u) (c : Prop) [Decidable c] (n : Nat) : CoresStand s (if c then u.pinDelivery n else u) :=
    .ite _ (h.then (pinDelivery_cores _ _)) h
  have msix {u : State} (h : CoresStand s u) (c : Prop) [Decidable c] (k v : Nat) : CoresStand s (if c then u.msix k v else u) :=
    .ite _ (h.then (msix_cores _ _ _)) h
  have kpr {u : State} (h : CoresStand s u) (c : Prop) [Decidable c] (b : Nat) (o : Out) :
      CoresStand s (if c then (u.setEvt 40 b).emit o else u) := .ite _ ((h.setEvt 40 b).then rfl) h
  have evts {u : State} (h : CoresStand s u) (c : Prop) [Decidable c] (b m i n : Nat) :
      CoresStand s (if c then u.setEvts b m i n else u) := .ite _ (h.setEvts _ _ _ _) h
  unfold State.deliver
  dsimp only
  split
  · exact pin (msix (kpr (evts (evts h ..) ..) ..) ..) ..
  · split
    · exact pin (msix (kpr (evts (evts h ..) ..) ..) ..) ..
    · exact h

theorem CoresStand.raise {s t : State} (h : CoresStand s t) (pg i : Nat) : CoresStand s (t.raise pg i) := by
  unfold State.raise
  split
  · exact h
  · dsimp only
    split
    · exact h.then rfl
    · refine CoresStand.deliver (h.then ?_) _
      rfl

/-! ### Reads of memory -/

theorem errCnt_cores (s : State) (pg i : Nat) : (s.errCnt pg i).cores = s.cores := rfl

theorem CoresStand.fatal {s t : State} (h : CoresStand s t) (cause : Nat) : CoresStand s (t.fatal cause) := by
  unfold State.fatal
  dsimp only
  have g (c : Bool) : CoresStand s ((if c = true then
      ((t.errCnt pEvf 2).fset pEvf Reg.EVF_FATAL 0 1 1).fset pEvf Reg.EVF_FATAL 4 4 cause else t.errCnt pEvf 2).raise pEvf 6) := by
    refine .raise (.ite _ (h.then ?_) (h.then ?_)) _ _
    · simp [errCnt_cores]
    · simp [errCnt_cores]
  split
  · refine CoresStand.then (g true) ?_
    rfl
  · exact g false

theorem sramWord_stand (s : State) (w : Nat) : CoresStand s (s.sramWord w).1 := by
  have h : ∀ v : RegWord, ∀ o : Nat,
      CoresStand s ((((s.errCnt pEvf 1).fset pEvf Reg.EVF_SRAM_LOG0 3 29 o).rset pEvf Reg.EVF_SRAM_LOG1 v).raise pEvf 5) :=
    fun v o => by
      refine .raise (.of ?_) _ _
      simp [errCnt_cores]
  unfold State.sramWord
  split
  · exact .refl _
  · exact CoresStand.raise (.of (errCnt_cores s pEvf 0)) pEvf 4
  · dsimp only
    split
    · exact (h _ _).fatal _
    · exact h _ _

theorem sramCheck_stand (s : State) (l : List Nat) : CoresStand s (s.sramCheck l).1 := by
  induction l generalizing s with
  | nil => exact .refl _
  | cons w r ih =>
    unfold State.sramCheck
    have h := sramWord_stand s w
    split
    · rename_i e; rw [e] at h; exact h.trans (ih _)
    · rename_i e; rw [e] at h; exact h

theorem sramRead_stand (s : State) (a n : Nat) : CoresStand s (s.sramRead a n).1 := by
  unfold State.sramRead
  have h := sramCheck_stand s (wordsOf a n)
  split <;> (rename_i e; rw [e] at h; exact h)

theorem CoresStand.rankFails {s t : State} (h : CoresStand s t) (n r : Nat) : CoresStand s (t.rankFails n r) := by
  unfold State.rankFails
  dsimp only
  split
  · refine .raise (h.then ?_) _ _
    rfl
  · split
    · exact h
    · split <;> (refine .raise (.raise (h.then ?_) _ _) _ _; rfl)

theorem elog_cores (s : State) (n rank r dev kind : Nat) : (s.elog n rank r dev kind).cores = s.cores := by
  unfold State.elog
  dsimp only
  rw [State.rset_cores, State.rset_cores]

theorem CoresStand.fset {s t : State} (h : CoresStand s t) (p o lo len v : Nat) : CoresStand s (t.fset p o lo len v) := h.then rfl

theorem CoresStand.logged {s t : State} (h : CoresStand s t) (pg i n rank r dev kind : Nat) (d : Dmc) :
    CoresStand s (((t.errCnt pg i).elog n rank r dev kind).setDmc n d) := by
  refine h.then ?_
  rw [State.setDmc_cores, elog_cores, errCnt_cores]

theorem CoresStand.correction {s t : State} (h : CoresStand s t) (n rank r dev : Nat) : CoresStand s (t.correction n rank r dev) := by
  unfold State.correction
  exact .ite _ (.raise (.fset (.fset (h.logged ..) ..) ..) _ _) (h.logged ..)

theorem burstRead_stand (s : State) (a : Nat) (errs : SymErr) : CoresStand s (s.burstRead a errs).1 := by
  unfold State.burstRead
  dsimp only
  split
  · exact .refl _
  · exact .correction (.refl _) _ _ _ _
  · exact .of (elog_cores ..)
  · refine .rankFails (.of ?_) _ _
    simp [elog_cores, errCnt_cores]

theorem dramRead_stand (s : State) (a n : Nat) (errs : SymErr) : CoresStand s (s.dramRead a n errs).1 := by
  unfold State.dramRead
  generalize n / 64 + 2 = fuel
  induction fuel generalizing s a n errs with
  | zero => exact .refl _
  | succ f ih =>
    unfold State.dramReadN
    split
    · exact .refl _
    · dsimp only
      have h := burstRead_stand s a errs
      split
      · rename_i e; rw [e] at h; exact h
      · rename_i t x e
        rw [e] at h
        have g := ih t (a + min n (64 - a % 64)) (n - min n (64 - a % 64)) []
        split <;> (rename_i e'; rw [e'] at g; exact h.trans g)

theorem busRead_stand (s : State) (a n : Nat) : CoresStand s (s.busRead a n).1 := by
  unfold State.busRead
  split
  · exact dramRead_stand _ _ _ _
  · split
    · exact sramRead_stand _ _ _
    · exact .refl _

/-- A read outside the register space leaves every core plainly as it was. -/
theorem rawRead_stand (s : State) (k space addr n : Nat) (h : space = 0 → inRegs addr = false) :
    CoresStand s (s.rawRead k space addr n).1 := by
  unfold State.rawRead
  split
  · exact .refl _
  · rename_i a e
    split
    · rename_i h0
      subst h0
      have ha : a = addr := by
        simp only [spaceAddr] at e
        split at e
        · exact (Option.some.inj e).symm
        · cases e
      rw [ha, h rfl]
      exact busRead_stand _ _ _
    · exact sramRead_stand _ _ _

/-! ### The fetch -/

theorem iline_stand (s : State) (k a word : Nat) (h : (lineSpace k a).1 = 0 → inRegs (lineSpace k a).2 = false) :
    CoresStand s (s.iline k a word).1 := by
  unfold State.iline
  dsimp only
  split
  · split
    · exact .refl _
    · have g := rawRead_stand s k (lineSpace k a).1 (lineSpace k a).2 64 h
      split <;> (rename_i e; rw [e] at g; exact g.trans (.setCore _ _ _ rfl))
  · have g (u : State) (hu : CoresStand s u) := hu.trans (rawRead_stand u k (lineSpace k a).1 (lineSpace k a).2 64 h)
    have f := g _ (.ite (cacheLines ≤ (s.core k).icache.length) (.of (by rfl : s.bump.cores = s.cores)) (.refl s))
    split
    · rename_i e
      rw [e] at f
      exact f.trans (.setCore _ _ _ rfl)
    · rename_i e
      rw [e] at f
      exact f

theorem inRegs_false (a : Nat) : inRegs a = false ↔ a < regBase ∨ regBase + regSize ≤ a := by
  simp [inRegs]
  omega

/-- A line that the caches may hold lies outside the register space. -/
theorem lineSpace_cached (k : Nat) (w : Word) (space addr a : Nat) (hc : cacheable k w space addr = true)
    (ha : spaceAddr k space (addr / 64 * 64) 64 = some a) : (lineSpace k a).1 = 0 → inRegs (lineSpace k a).2 = false := by
  simp only [cacheable, Bool.and_eq_true, Bool.or_eq_true, beq_iff_eq, Bool.not_eq_true'] at hc
  obtain ⟨_, rfl | ⟨rfl, hr⟩⟩ := hc
  · simp only [spaceAddr] at ha
    split at ha
    · cases ha
      have g : ¬ clusterBase (k / 8) + addr / 64 * 64 < 2 ^ 48 := by unfold clusterBase; omega
      intro h
      rw [lineSpace, if_neg g] at h
      cases h
    · cases ha
  · simp only [spaceAddr] at ha
    split at ha
    · rename_i hs
      cases ha
      have g : addr / 64 * 64 < 2 ^ 48 := by omega
      intro _
      rw [lineSpace, if_pos g]
      rw [inRegs_false] at hr ⊢
      have hb : regBase = 64 * 0x3C00000000 := rfl
      have hz : regSize = 64 * 0x40000 := rfl
      dsimp only
      omega
    · cases ha

/-- The fetch of an instruction leaves every core plainly as it was. -/
theorem fetchAt_stand (s : State) (k : Nat) : CoresStand s (s.fetchAt k).1 := by
  unfold State.fetchAt
  dsimp only
  split
  · exact .refl _
  · rename_i space addr _
    dsimp only
    split
    · rename_i hc
      split
      · rename_i a ha
        exact iline_stand s k a _ (lineSpace_cached k _ space addr a hc ha)
      · exact .refl _
    · split
      · exact .refl _
      · rename_i hn
        have g := rawRead_stand s k space addr 4 fun h => by
          simp only [not_and, Bool.not_eq_true] at hn
          exact hn h
        split <;> (rename_i e; rw [e] at g; exact g)

/-! ### One instruction -/

/-- The core once its instruction is fetched is the core before the fetch, but for its event bits and its caches. -/
theorem atFetch_plain (s : State) (k : Nat) : ((s.atFetch k).core k).plain = (s.core k).plain := (fetchAt_stand s.fresh k).plain k

theorem atFetch_pc (s : State) (k : Nat) : ((s.atFetch k).core k).pc = (s.core k).pc := (congrArg Core.pc (atFetch_plain s k) :)

theorem atFetch_ps (s : State) (k : Nat) : ((s.atFetch k).core k).ps = (s.core k).ps := (congrArg Core.ps (atFetch_plain s k) :)

/-- The command of a core that takes its instruction: the instruction is illegal, or its body is its effect. -/
theorem coreStep_ready {s : State} {k : Nat} (h : s.ready k) (ill : Core → Nat) (word : Nat) (body : State → State × Option TrapInfo) :
    next (fun s => s.coreStep k ill word body) s =
      if ill (s.core k) ≠ 0 then s.coreTraps k ⟨0, word, ill (s.core k)⟩ (s.core k).pc
      else match body (s.atFetch k) with
        | (t, none) => .next (s.leaveQueue t)
        | (t, some x) => .next (s.leaveQueue (if !(t.core k).storeErr.isEmpty then (t.asyncTrap k).getD t
            else t.trapTake k (if x.vec = 0 then { x with addr := word } else x)
              (if x.vec = 6 then (s.core k).pc + 4 else (s.core k).pc) false false)) := by
  obtain ⟨hl, hm, hx, ha, hf⟩ := h
  have hx' : s.fresh.executes k = true := hx
  have hw : s.fresh.fetchAt k = (s.atFetch k, none) := Prod.ext rfl hf
  have hc : s.fresh.core k = s.core k := rfl
  rw [next_live _ _ hl]
  unfold State.coreStep
  simp only [hx', ha, hw, hc]
  rw [if_neg (by simp [hm])]
  unfold State.coreTraps
  by_cases h0 : ill (s.core k) ≠ 0
  · rw [if_pos h0, if_pos h0]
  · rw [if_neg h0, if_neg h0]
    split <;> rename_i e <;> simp only [e]

/-- A body that changes only the core's own registers. -/
theorem coreBody_ready {s : State} {k : Nat} (h : s.ready k) (ill : Core → Nat) (word : Nat) (f : Core → Core)
    (h0 : ill (s.core k) = 0) :
    next (fun s => s.coreStep k ill word (coreBody k f)) s = s.coreDone k (f ((s.atFetch k).core k)).advance := by
  rw [coreStep_ready h]
  simp [h0, coreBody, State.coreDone]

end Sys2Proof.Machine
end

