-- ==== Sys2Proof/Laws/Events.lean ====
section
/-! SUPPORT. What the occurrence of an event does: it sets event bits of cores, pending messages and pulses, and leaves everything
else alone. -/

namespace Sys2Proof.Machine

/-- What a delivery leaves alone: everything but registers, cores, functions, pulses and outputs. -/
def State.apart (s : State) : State := { s with regs := [], cores := [], funcs := [], pulses := [], out := [] }

theorem setEvts_apart (s : State) (b m bit n : Nat) : (s.setEvts b m bit n).apart = s.apart := by
  unfold State.setEvts
  generalize List.range n = l
  induction l generalizing s with
  | nil => rfl
  | cons i r ih =>
    simp only [List.foldl_cons]
    rw [ih]
    split <;> rfl

theorem msix_apart (s : State) (k v : Nat) : (s.msix k v).apart = s.apart := by
  unfold State.msix
  split
  · dsimp only
    split
    · rfl
    · split <;> rfl
  · rfl

theorem pinDelivery_apart (s : State) (n : Nat) : (s.pinDelivery n).apart = s.apart := by
  unfold State.pinDelivery
  split <;> rfl

theorem ite_apart (c : Prop) [Decidable c] (s t : State) (h : t.apart = s.apart) : (if c then t else s).apart = s.apart := by
  split <;> simp [h]

theorem deliverRoute_apart (s : State) (r : RegWord) : (s.deliverRoute r).apart = s.apart := by
  unfold State.deliverRoute
  dsimp only
  rw [ite_apart _ _ _ (pinDelivery_apart _ _), ite_apart _ _ _ (msix_apart _ _ _), ite_apart _ _ _ (by rfl),
    ite_apart _ _ _ (setEvts_apart _ _ _ _ _), ite_apart _ _ _ (setEvts_apart _ _ _ _ _)]

theorem deliverHeader_apart (s : State) (b : Blk) : (s.deliverHeader b).apart = s.apart := by
  unfold State.deliverHeader
  dsimp only
  rw [ite_apart _ _ _ (pinDelivery_apart _ _), ite_apart _ _ _ (msix_apart _ _ _), ite_apart _ _ _ (by rfl),
    ite_apart _ _ _ (setEvts_apart _ _ _ _ _), ite_apart _ _ _ (setEvts_apart _ _ _ _ _)]

theorem deliver_apart (s : State) (id : Nat) : (s.deliver id).apart = s.apart := by
  unfold State.deliver
  dsimp only
  split
  · exact deliverRoute_apart _ _
  · split
    · exact deliverHeader_apart _ _
    · rfl

/-- The occurrence of a source leaves everything apart from registers, cores, functions, pulses and outputs alone. -/
theorem raise_apart (s : State) (pg i : Nat) : (s.raise pg i).apart = s.apart := by
  unfold State.raise
  split
  · rfl
  · dsimp only
    split
    · rfl
    · exact (deliver_apart _ _).trans rfl

@[simp] theorem State.raise_shadows (s : State) (pg i : Nat) : (s.raise pg i).shadows = s.shadows :=
  (congrArg State.shadows (raise_apart s pg i) : (s.raise pg i).apart.shadows = s.apart.shadows)
@[simp] theorem State.raise_latches (s : State) (pg i : Nat) : (s.raise pg i).latches = s.latches :=
  (congrArg State.latches (raise_apart s pg i) : (s.raise pg i).apart.latches = s.apart.latches)
@[simp] theorem State.raise_blks (s : State) (pg i : Nat) : (s.raise pg i).blks = s.blks :=
  (congrArg State.blks (raise_apart s pg i) : (s.raise pg i).apart.blks = s.apart.blks)
@[simp] theorem State.raise_bank (s : State) (pg i : Nat) : (s.raise pg i).bank = s.bank :=
  (congrArg State.bank (raise_apart s pg i) : (s.raise pg i).apart.bank = s.apart.bank)
@[simp] theorem State.raise_telem (s : State) (pg i : Nat) : (s.raise pg i).telem = s.telem :=
  (congrArg State.telem (raise_apart s pg i) : (s.raise pg i).apart.telem = s.apart.telem)
@[simp] theorem State.raise_tb (s : State) (pg i : Nat) : (s.raise pg i).tb = s.tb :=
  (congrArg State.tb (raise_apart s pg i) : (s.raise pg i).apart.tb = s.apart.tb)
@[simp] theorem State.raise_fab (s : State) (pg i : Nat) : (s.raise pg i).fab = s.fab :=
  (congrArg State.fab (raise_apart s pg i) : (s.raise pg i).apart.fab = s.apart.fab)
@[simp] theorem State.raise_mem (s : State) (pg i : Nat) : (s.raise pg i).mem = s.mem :=
  (congrArg State.mem (raise_apart s pg i) : (s.raise pg i).apart.mem = s.apart.mem)
@[simp] theorem State.raise_upsets (s : State) (pg i : Nat) : (s.raise pg i).upsets = s.upsets :=
  (congrArg State.upsets (raise_apart s pg i) : (s.raise pg i).apart.upsets = s.apart.upsets)
@[simp] theorem State.raise_dramErr (s : State) (pg i : Nat) : (s.raise pg i).dramErr = s.dramErr :=
  (congrArg State.dramErr (raise_apart s pg i) : (s.raise pg i).apart.dramErr = s.apart.dramErr)
@[simp] theorem State.raise_dmcs (s : State) (pg i : Nat) : (s.raise pg i).dmcs = s.dmcs :=
  (congrArg State.dmcs (raise_apart s pg i) : (s.raise pg i).apart.dmcs = s.apart.dmcs)
@[simp] theorem State.raise_window (s : State) (pg i : Nat) : (s.raise pg i).window = s.window :=
  (congrArg State.window (raise_apart s pg i) : (s.raise pg i).apart.window = s.apart.window)
@[simp] theorem State.raise_winLost (s : State) (pg i : Nat) : (s.raise pg i).winLost = s.winLost :=
  (congrArg State.winLost (raise_apart s pg i) : (s.raise pg i).apart.winLost = s.apart.winLost)
@[simp] theorem State.raise_rts (s : State) (pg i : Nat) : (s.raise pg i).rts = s.rts :=
  (congrArg State.rts (raise_apart s pg i) : (s.raise pg i).apart.rts = s.apart.rts)
@[simp] theorem State.raise_tables (s : State) (pg i : Nat) : (s.raise pg i).tables = s.tables :=
  (congrArg State.tables (raise_apart s pg i) : (s.raise pg i).apart.tables = s.apart.tables)
@[simp] theorem State.raise_tloads (s : State) (pg i : Nat) : (s.raise pg i).tloads = s.tloads :=
  (congrArg State.tloads (raise_apart s pg i) : (s.raise pg i).apart.tloads = s.apart.tloads)
@[simp] theorem State.raise_kpr (s : State) (pg i : Nat) : (s.raise pg i).kpr = s.kpr :=
  (congrArg State.kpr (raise_apart s pg i) : (s.raise pg i).apart.kpr = s.apart.kpr)
@[simp] theorem State.raise_boot (s : State) (pg i : Nat) : (s.raise pg i).boot = s.boot :=
  (congrArg State.boot (raise_apart s pg i) : (s.raise pg i).apart.boot = s.apart.boot)
@[simp] theorem State.raise_power (s : State) (pg i : Nat) : (s.raise pg i).power = s.power :=
  (congrArg State.power (raise_apart s pg i) : (s.raise pg i).apart.power = s.apart.power)
@[simp] theorem State.raise_tape (s : State) (pg i : Nat) : (s.raise pg i).tape = s.tape :=
  (congrArg State.tape (raise_apart s pg i) : (s.raise pg i).apart.tape = s.apart.tape)
@[simp] theorem State.raise_flash (s : State) (pg i : Nat) : (s.raise pg i).flash = s.flash :=
  (congrArg State.flash (raise_apart s pg i) : (s.raise pg i).apart.flash = s.apart.flash)
@[simp] theorem State.raise_tpi (s : State) (pg i : Nat) : (s.raise pg i).tpi = s.tpi :=
  (congrArg State.tpi (raise_apart s pg i) : (s.raise pg i).apart.tpi = s.apart.tpi)
@[simp] theorem State.raise_svd (s : State) (pg i : Nat) : (s.raise pg i).svd = s.svd :=
  (congrArg State.svd (raise_apart s pg i) : (s.raise pg i).apart.svd = s.apart.svd)
@[simp] theorem State.raise_lpe (s : State) (pg i : Nat) : (s.raise pg i).lpe = s.lpe :=
  (congrArg State.lpe (raise_apart s pg i) : (s.raise pg i).apart.lpe = s.apart.lpe)
@[simp] theorem State.raise_benches (s : State) (pg i : Nat) : (s.raise pg i).benches = s.benches :=
  (congrArg State.benches (raise_apart s pg i) : (s.raise pg i).apart.benches = s.apart.benches)
@[simp] theorem State.raise_rings (s : State) (pg i : Nat) : (s.raise pg i).rings = s.rings :=
  (congrArg State.rings (raise_apart s pg i) : (s.raise pg i).apart.rings = s.apart.rings)
@[simp] theorem State.raise_jobs (s : State) (pg i : Nat) : (s.raise pg i).jobs = s.jobs :=
  (congrArg State.jobs (raise_apart s pg i) : (s.raise pg i).apart.jobs = s.apart.jobs)
@[simp] theorem State.raise_intakes (s : State) (pg i : Nat) : (s.raise pg i).intakes = s.intakes :=
  (congrArg State.intakes (raise_apart s pg i) : (s.raise pg i).apart.intakes = s.apart.intakes)
@[simp] theorem State.raise_ase (s : State) (pg i : Nat) : (s.raise pg i).ase = s.ase :=
  (congrArg State.ase (raise_apart s pg i) : (s.raise pg i).apart.ase = s.apart.ase)
@[simp] theorem State.raise_loads (s : State) (pg i : Nat) : (s.raise pg i).loads = s.loads :=
  (congrArg State.loads (raise_apart s pg i) : (s.raise pg i).apart.loads = s.apart.loads)
@[simp] theorem State.raise_streams (s : State) (pg i : Nat) : (s.raise pg i).streams = s.streams :=
  (congrArg State.streams (raise_apart s pg i) : (s.raise pg i).apart.streams = s.apart.streams)
@[simp] theorem State.raise_numVfs (s : State) (pg i : Nat) : (s.raise pg i).numVfs = s.numVfs :=
  (congrArg State.numVfs (raise_apart s pg i) : (s.raise pg i).apart.numVfs = s.apart.numVfs)
@[simp] theorem State.raise_ports (s : State) (pg i : Nat) : (s.raise pg i).ports = s.ports :=
  (congrArg State.ports (raise_apart s pg i) : (s.raise pg i).apart.ports = s.apart.ports)
@[simp] theorem State.raise_ctrls (s : State) (pg i : Nat) : (s.raise pg i).ctrls = s.ctrls :=
  (congrArg State.ctrls (raise_apart s pg i) : (s.raise pg i).apart.ctrls = s.apart.ctrls)
@[simp] theorem State.raise_cmds (s : State) (pg i : Nat) : (s.raise pg i).cmds = s.cmds :=
  (congrArg State.cmds (raise_apart s pg i) : (s.raise pg i).apart.cmds = s.apart.cmds)
@[simp] theorem State.raise_qen (s : State) (pg i : Nat) : (s.raise pg i).qen = s.qen :=
  (congrArg State.qen (raise_apart s pg i) : (s.raise pg i).apart.qen = s.apart.qen)
@[simp] theorem State.raise_mi (s : State) (pg i : Nat) : (s.raise pg i).mi = s.mi :=
  (congrArg State.mi (raise_apart s pg i) : (s.raise pg i).apart.mi = s.apart.mi)
@[simp] theorem State.raise_media (s : State) (pg i : Nat) : (s.raise pg i).media = s.media :=
  (congrArg State.media (raise_apart s pg i) : (s.raise pg i).apart.media = s.apart.media)
@[simp] theorem State.raise_nss (s : State) (pg i : Nat) : (s.raise pg i).nss = s.nss :=
  (congrArg State.nss (raise_apart s pg i) : (s.raise pg i).apart.nss = s.apart.nss)
@[simp] theorem State.raise_blocks (s : State) (pg i : Nat) : (s.raise pg i).blocks = s.blocks :=
  (congrArg State.blocks (raise_apart s pg i) : (s.raise pg i).apart.blocks = s.apart.blocks)
@[simp] theorem State.raise_zones (s : State) (pg i : Nat) : (s.raise pg i).zones = s.zones :=
  (congrArg State.zones (raise_apart s pg i) : (s.raise pg i).apart.zones = s.apart.zones)
@[simp] theorem State.raise_shelf (s : State) (pg i : Nat) : (s.raise pg i).shelf = s.shelf :=
  (congrArg State.shelf (raise_apart s pg i) : (s.raise pg i).apart.shelf = s.apart.shelf)
@[simp] theorem State.raise_inp (s : State) (pg i : Nat) : (s.raise pg i).inp = s.inp :=
  (congrArg State.inp (raise_apart s pg i) : (s.raise pg i).apart.inp = s.apart.inp)
@[simp] theorem State.raise_free (s : State) (pg i : Nat) : (s.raise pg i).free = s.free :=
  (congrArg State.free (raise_apart s pg i) : (s.raise pg i).apart.free = s.apart.free)
@[simp] theorem State.raise_pending (s : State) (pg i : Nat) : (s.raise pg i).pending = s.pending :=
  (congrArg State.pending (raise_apart s pg i) : (s.raise pg i).apart.pending = s.apart.pending)

/-! ### Registers -/

theorem setEvt_regs (s : State) (k b : Nat) : (s.setEvt k b).regs = s.regs := rfl

theorem setEvts_regs (s : State) (b m bit n : Nat) : (s.setEvts b m bit n).regs = s.regs := by
  unfold State.setEvts
  generalize List.range n = l
  induction l generalizing s with
  | nil => rfl
  | cons i r ih =>
    simp only [List.foldl_cons]
    rw [ih]
    split <;> rfl

/-- A message that is discarded is counted in EVF ERR_CNT[3]; no other register changes. -/
theorem msix_rg (s : State) (k v p o : Nat) (h : regKey p o ≠ regKey pEvf (Reg.ERR_CNT 3)) : (s.msix k v).rg p o = s.rg p o := by
  unfold State.msix
  split
  · dsimp only
    split
    · rfl
    · split <;> rfl
  · exact State.rg_fset_ne s _ _ _ h

theorem pinDelivery_rg (s : State) (n p o : Nat) : (s.pinDelivery n).rg p o = s.rg p o := by
  unfold State.pinDelivery
  split <;> rfl

theorem setEvts_rg (s : State) (b m bit n p o : Nat) : (s.setEvts b m bit n).rg p o = s.rg p o := by
  simp [State.rg, setEvts_regs]

theorem ite_rg (c : Prop) [Decidable c] (s t : State) (p o : Nat) (h : t.rg p o = s.rg p o) : (if c then t else s).rg p o = s.rg p o := by
  split <;> simp [h]

theorem deliver_rg (s : State) (id p o : Nat) (h : regKey p o ≠ regKey pEvf (Reg.ERR_CNT 3)) : (s.deliver id).rg p o = s.rg p o := by
  unfold State.deliver
  dsimp only
  split
  · unfold State.deliverRoute
    dsimp only
    rw [ite_rg _ _ _ _ _ (pinDelivery_rg _ _ _ _), ite_rg _ _ _ _ _ (msix_rg _ _ _ _ _ h), ite_rg _ _ _ _ _ (by rfl),
      ite_rg _ _ _ _ _ (setEvts_rg _ _ _ _ _ _ _), ite_rg _ _ _ _ _ (setEvts_rg _ _ _ _ _ _ _)]
  · split
    · unfold State.deliverHeader
      dsimp only
      rw [ite_rg _ _ _ _ _ (pinDelivery_rg _ _ _ _), ite_rg _ _ _ _ _ (msix_rg _ _ _ _ _ h), ite_rg _ _ _ _ _ (by rfl),
        ite_rg _ _ _ _ _ (setEvts_rg _ _ _ _ _ _ _), ite_rg _ _ _ _ _ (setEvts_rg _ _ _ _ _ _ _)]
    · rfl

/-- The occurrence of a source of the block at `pg` changes no register but its EVT_PEND and EVF ERR_CNT[3]. -/
theorem raise_rg (s : State) (pg i p o : Nat) (h : regKey p o ≠ regKey pEvf (Reg.ERR_CNT 3))
    (hb : ∀ b, blkAt pg = some b → regKey p o ≠ regKey b.base Reg.EVT_PEND) : (s.raise pg i).rg p o = s.rg p o := by
  unfold State.raise
  split
  · rfl
  · rename_i b hbl
    dsimp only
    split
    · exact State.rg_fset_ne s _ _ _ (hb b hbl)
    · exact (deliver_rg _ _ _ _ h).trans (State.rg_fset_ne s _ _ _ (hb b hbl))

/-- EVT_PEND of the block shows the source. -/
theorem raise_pend (s : State) (pg i : Nat) (b : Blk) (hb : blkAt pg = some b)
    (h : regKey b.base Reg.EVT_PEND ≠ regKey pEvf (Reg.ERR_CNT 3)) :
    (s.raise pg i).rg b.base Reg.EVT_PEND = putBits (s.rg b.base Reg.EVT_PEND) i 1 1 := by
  unfold State.raise
  rw [hb]
  dsimp only
  split
  · simp
  · rw [deliver_rg _ _ _ _ h]; simp

/-! ### Cores -/

/-- A core apart from its event groups. -/
def Core.apart (c : Core) : Core := { c with evt := [] }

theorem setEvt_core (s : State) (k b j : Nat) : ((s.setEvt k b).core j).apart = (s.core j).apart := by
  unfold State.setEvt
  by_cases h : j = k
  · subst h; simp [Core.apart]
  · simp [State.core_setCore_ne _ _ h]

theorem keeperEvt_core (s : State) (b : Nat) (o : Out) (j : Nat) :
    (((s.setEvt 40 b).emit o).core j).apart = (s.core j).apart := (setEvt_core s 40 b j : _)

theorem setEvts_core (s : State) (b m bit n j : Nat) : ((s.setEvts b m bit n).core j).apart = (s.core j).apart := by
  unfold State.setEvts
  generalize List.range n = l
  induction l generalizing s with
  | nil => rfl
  | cons i r ih =>
    simp only [List.foldl_cons]
    rw [ih]
    split
    · exact setEvt_core _ _ _ _
    · rfl

theorem msix_core (s : State) (k v j : Nat) : (s.msix k v).core j = s.core j := by
  unfold State.msix
  split
  · dsimp only
    split
    · rfl
    · split <;> rfl
  · rfl

theorem pinDelivery_core (s : State) (n j : Nat) : (s.pinDelivery n).core j = s.core j := by
  unfold State.pinDelivery
  split <;> rfl

theorem ite_core (c : Prop) [Decidable c] (s t : State) (j : Nat) (h : (t.core j).apart = (s.core j).apart) :
    ((if c then t else s).core j).apart = (s.core j).apart := by
  split <;> simp [h]

theorem deliver_core (s : State) (id j : Nat) : ((s.deliver id).core j).apart = (s.core j).apart := by
  unfold State.deliver
  dsimp only
  split
  · unfold State.deliverRoute
    dsimp only
    rw [ite_core _ _ _ _ (congrArg Core.apart (pinDelivery_core _ _ _)), ite_core _ _ _ _ (congrArg Core.apart (msix_core _ _ _ _)),
      ite_core _ _ _ _ (keeperEvt_core _ _ _ _), ite_core _ _ _ _ (setEvts_core _ _ _ _ _ _), ite_core _ _ _ _ (setEvts_core _ _ _ _ _ _)]
  · split
    · unfold State.deliverHeader
      dsimp only
      rw [ite_core _ _ _ _ (congrArg Core.apart (pinDelivery_core _ _ _)), ite_core _ _ _ _ (congrArg Core.apart (msix_core _ _ _ _)),
        ite_core _ _ _ _ (keeperEvt_core _ _ _ _), ite_core _ _ _ _ (setEvts_core _ _ _ _ _ _), ite_core _ _ _ _ (setEvts_core _ _ _ _ _ _)]
    · rfl

/-- The occurrence of a source changes nothing of a core but its event groups. -/
theorem raise_core (s : State) (pg i j : Nat) : ((s.raise pg i).core j).apart = (s.core j).apart := by
  unfold State.raise
  split
  · rfl
  · dsimp only
    split
    · rfl
    · exact (deliver_core _ _ _).trans rfl

end Sys2Proof.Machine
end

