-- ==== Sys2Proof/Laws/Memory.lean ====
section
/-! SUPPORT. Laws of memory: a byte read after a write, and that every memory operation keeps the canonical form. -/

namespace Sys2Proof.Machine

@[simp] theorem memGet_memSet_self (m : List Host.Cell) (a : Nat) (v : Byte) : memGet (memSet m a v) a = v :=
  mapGet_mapSet_self _ m a v

theorem memGet_memSet_ne (m : List Host.Cell) {a b : Nat} (v : Byte) (h : b ≠ a) : memGet (memSet m a v) b = memGet m b :=
  mapGet_mapSet_ne _ m v h

theorem memWf_memSet (m : List Host.Cell) (a : Nat) (v : Byte) (h : memWf m = true) : memWf (memSet m a v) = true :=
  mapWf_mapSet _ m a v h

theorem memWf_memWrite (m : List Host.Cell) (a : Nat) (b : List Byte) (h : memWf m = true) : memWf (memWrite m a b) = true := by
  induction b generalizing m a with
  | nil => exact h
  | cons x r ih => exact ih _ _ (memWf_memSet m a x h)

/-- Bytes outside the written range read as before. -/
theorem memGet_memWrite_out (m : List Host.Cell) (a : Nat) (b : List Byte) (i : Nat) (h : i < a ∨ a + b.length ≤ i) :
    memGet (memWrite m a b) i = memGet m i := by
  induction b generalizing m a with
  | nil => rfl
  | cons x r ih =>
    simp only [List.length_cons] at h
    rw [memWrite, ih _ _ (by omega), memGet_memSet_ne m x (by omega)]

/-- Bytes inside the written range read what was written. -/
theorem memGet_memWrite_in (m : List Host.Cell) (a : Nat) (b : List Byte) (i : Nat) (h : i < b.length) :
    memGet (memWrite m a b) (a + i) = b.getD i 0 := by
  induction b generalizing m a i with
  | nil => simp at h
  | cons x r ih =>
    cases i with
    | zero => rw [memWrite, Nat.add_zero, memGet_memWrite_out _ _ _ _ (by omega)]; simp
    | succ j =>
      simp only [List.length_cons] at h
      have := ih (memSet m a x) (a + 1) j (by omega)
      rw [memWrite, show a + (j + 1) = a + 1 + j by omega, this]; simp

theorem memRead_memWrite_self (m : List Host.Cell) (a : Nat) (b : List Byte) : memRead (memWrite m a b) a b.length = b := by
  have key : ∀ (n : Nat) (c : Nat) (l : List Byte) (M : List Host.Cell), l.length = n →
      (∀ i < n, memGet M (c + i) = l.getD i 0) → memRead M c n = l := by
    intro n
    induction n with
    | zero => intro c l M hl _; simp [List.length_eq_zero_iff.1 hl, memRead]
    | succ n ih =>
      intro c l M hl hM
      cases l with
      | nil => simp at hl
      | cons x r =>
        simp only [List.length_cons, Nat.add_right_cancel_iff] at hl
        rw [memRead, ih (c + 1) r M hl fun i hi => ?_]
        · have := hM 0 (by omega); simp at this; rw [this]
        · have := hM (i + 1) (by omega)
          rw [show c + 1 + i = c + (i + 1) by omega, this]; simp
  exact key b.length a b _ rfl fun i hi => memGet_memWrite_in m a b i hi

end Sys2Proof.Machine
end

