-- ==== Sys2Proof/WellFormed.lean ====
section
/-! DEFINITION. Which commands are well formed: every operand that stands for a number of the manual lies in that number's range.
A meaning is total and says what happens for the others too; the statements that name a range assume it from here. -/

namespace Sys2Proof

/-- An address of the 48-bit device address space (R31). -/
def deviceAddr (a : Nat) : Bool := a < 2 ^ 48

/-- A page of the register space (R36). -/
def pageIndex (p : Nat) : Bool := p < 4096

/-- A work tag (R22). -/
def workTag (t : Nat) : Bool := t < 65536

/-- A queue identifier, or a number of virtual functions (R416, R466). -/
def queueId (q : Nat) : Bool := q < 65536

/-- A link rate, Gen1 to Gen5 (R397). -/
def linkRate (g : Nat) : Bool := 1 ≤ g && g ≤ 5

/-- A link width (R397). -/
def linkWidth (w : Nat) : Bool := w ≤ 8

/-- ADC samples: an input from 0 to 69 and a code of 8 bits (R65). -/
def adcSamples (l : List AdcSample) : Bool := l.all fun x => x.inp < 70 && -128 ≤ x.adc && x.adc ≤ 127

/-- Is a command well formed? -/
def Instr.wellFormed (i : Instr) : Bool :=
  match i with
  | .registerWrite _ addr _ _ => deviceAddr addr
  | .softReset _ page => pageIndex page
  | .softResetDone page => pageIndex page
  | .commit _ page => pageIndex page
  | .commitApply page => pageIndex page
  | .stagingAbort _ page => pageIndex page
  | .lock _ page _ => pageIndex page
  | .energyLoRead _ page _ => pageIndex page
  | .frameBoundary _ smp => adcSamples smp
  | .dropoutEntry _ smp => adcSamples smp
  | .dropoutExit _ smp => adcSamples smp
  | .lockDeclared _ smp => adcSamples smp
  | .lockLoss _ smp => adcSamples smp
  | .alignmentMove _ _ smp => adcSamples smp
  | .bandPassOpen _ _ => true
  | .bandPassEnd smp => adcSamples smp
  | .redetectionRequest _ _ _ => true
  | .redetectionStart => true
  | .redetectionEnd _ => true
  | .fmtLoadStart _ => true
  | .fmtEvict _ => true
  | .dcfLoadStart _ => true
  | .dcfEvict _ => true
  | .tpiLoadStart _ => true
  | .ftmLoadStart _ => true
  | .ftmEvict _ => true
  | .tableLoadEnd page => pageIndex page
  | .frameAlignment _ smp => adcSamples smp
  | .dataSetSeparator => true
  | .frameSlotIssue _ => true
  | .frameVerify _ _ _ _ _ => true
  | .fmtRwrecRead _ _ => true
  | .codewordRequest _ => true
  | .tileDispatch => true
  | .decodeEnd _ => true
  | .deadlineExpiry => true
  | .servoFrameEnd _ => true
  | .companionWindowEnd _ _ _ _ => true
  | .slotTrigger _ => true
  | .slotEvaluation => true
  | .outputIssue _ => true
  | .slotDeadlineExpiry _ => true
  | .sampleTimeout _ => true
  | .lpeTimerTick _ => true
  | .slotEnable _ _ => true
  | .slotDisable _ _ => true
  | .swap _ _ => true
  | .handover _ _ => true
  | .traceArm _ _ => true
  | .traceForce _ _ => true
  | .traceStop _ _ => true
  | .tracePostEnd _ => true
  | .pwmCarrierPeriod => true
  | .actSend _ _ _ => true
  | .actFrameStart _ => true
  | .actFrameEnd _ _ => true
  | .senseAdcResult _ _ => true
  | .adcDataRead _ _ => true
  | .loadMachine _ => true
  | .threadMachine _ => true
  | .calibrateMachine _ => true
  | .seekMachine _ => true
  | .streamMachine _ => true
  | .backhitchMachine _ => true
  | .unloadMachine _ => true
  | .tpiAbort _ => true
  | .sequencerTick _ _ => true
  | .stateTimeout => true
  | .loadSensorChange _ _ => true
  | .cmTransfer _ => true
  | .cmTransferEnd _ => true
  | .tapeRingConsume => true
  | .writeUnderrun => true
  | .underrunRewriteStart => true
  | .destageStart => true
  | .discovery _ => true
  | .discoveryEnd _ _ => true
  | .flcTrainStart _ _ => true
  | .flcTrainEnd _ _ => true
  | .flcRetrainTimer _ _ => true
  | .flcRawGo _ _ => true
  | .flcRawEnd _ _ _ => true
  | .flashSliceRead _ _ => true
  | .transitSlotGrant => true
  | .transitDmaEnd _ => true
  | .unitProgram _ _ _ _ _ => true
  | .programEnd _ _ => true
  | .erase _ _ => true
  | .eraseEnd _ _ _ => true
  | .flcTimeout _ => true
  | .mapOut _ _ => true
  | .stripeClose _ => true
  | .freeRowPush _ _ _ => true
  | .patrolRead _ loc _ => decide (loc.die < 512)
  | .ftmUnrecRead _ => true
  | .dramRequest _ addr _ _ _ _ => deviceAddr addr
  | .realTimePortTransfer _ => true
  | .refreshTick _ _ => true
  | .refreshIssue _ _ => true
  | .mr4Poll _ _ _ _ => true
  | .activationWindowEnd _ _ => true
  | .thresholdHalvingEnd _ => true
  | .commandError _ _ => true
  | .migrationCopy _ => true
  | .dmcTrainStart _ => true
  | .dmcTrainEnd _ _ _ => true
  | .dmcRetrainTimer _ _ _ => true
  | .dramInitialisation _ _ => true
  | .add _ _ _ => true
  | .adc _ _ => true
  | .sub _ _ => true
  | .sbc _ _ => true
  | .and _ _ => true
  | .or _ _ => true
  | .xor _ _ => true
  | .andn _ _ => true
  | .shl _ _ => true
  | .shr _ _ => true
  | .sar _ _ => true
  | .ror _ _ => true
  | .mul _ _ => true
  | .mulhs _ _ => true
  | .mulhu _ _ => true
  | .divs _ _ => true
  | .divu _ _ => true
  | .rems _ _ => true
  | .remu _ _ => true
  | .mins _ _ => true
  | .maxs _ _ => true
  | .minu _ _ => true
  | .maxu _ _ => true
  | .clz _ _ => true
  | .ctz _ _ => true
  | .popc _ _ => true
  | .bswap _ _ => true
  | .sext8 _ _ => true
  | .sext16 _ _ => true
  | .sext32 _ _ => true
  | .zext8 _ _ => true
  | .zext16 _ _ => true
  | .zext32 _ _ => true
  | .fence _ _ => true
  | .fencei _ _ => true
  | .vget _ _ => true
  | .vput _ _ => true
  | .vrsum _ _ => true
  | .vmsk _ _ => true
  | .vadd _ _ => true
  | .vsub _ _ => true
  | .vmul _ _ => true
  | .vmulhu _ _ => true
  | .vmla _ _ => true
  | .vand _ _ => true
  | .vor _ _ => true
  | .vxor _ _ => true
  | .vandn _ _ => true
  | .vminu _ _ => true
  | .vmaxu _ _ => true
  | .vcmpeq _ _ => true
  | .vcmpgtu _ _ => true
  | .vcmpgts _ _ => true
  | .vshl _ _ => true
  | .vshr _ _ => true
  | .vsar _ _ => true
  | .vpopc _ _ => true
  | .vsplat _ _ => true
  | .vperm _ _ => true
  | .j _ _ => true
  | .call _ _ => true
  | .bcc _ _ => true
  | .callr _ _ => true
  | .mfs _ _ => true
  | .mts _ _ => true
  | .movi _ _ => true
  | .addi _ _ => true
  | .addis _ _ => true
  | .cmpi _ _ => true
  | .andi _ _ => true
  | .ori _ _ => true
  | .xori _ _ => true
  | .tsti _ _ => true
  | .shli _ _ => true
  | .shri _ _ => true
  | .sari _ _ => true
  | .rori _ _ => true
  | .orh1 _ _ => true
  | .orh2 _ _ => true
  | .orh3 _ _ => true
  | .ld8u _ _ => true
  | .ld16u _ _ => true
  | .ld32u _ _ => true
  | .ld64 _ _ _ => true
  | .ld8s _ _ => true
  | .ld16s _ _ => true
  | .ld32s _ _ => true
  | .st8 _ _ => true
  | .st16 _ _ => true
  | .st32 _ _ => true
  | .st64 _ _ => true
  | .xchg64 _ _ => true
  | .xadd64 _ _ => true
  | .clwb _ _ => true
  | .vld _ _ => true
  | .vst _ _ => true
  | .ld8uS _ _ => true
  | .ld16uS _ _ => true
  | .ld32uS _ _ => true
  | .ld64S _ _ => true
  | .ld8sS _ _ => true
  | .ld16sS _ _ => true
  | .ld32sS _ _ => true
  | .st8S _ _ => true
  | .st16S _ _ => true
  | .st32S _ _ => true
  | .st64S _ _ => true
  | .ldbc _ _ => true
  | .stbc _ _ => true
  | .setb _ _ => true
  | .clrb _ _ => true
  | .invb _ _ => true
  | .andbc _ _ => true
  | .orbc _ _ => true
  | .xorbc _ _ => true
  | .tas _ _ => true
  | .btst _ _ => true
  | .ret _ _ => true
  | .tret _ _ => true
  | .jr _ _ => true
  | .brk _ _ => true
  | .svc _ _ => true
  | .wfe _ _ => true
  | .sev _ _ => true
  | .wtu _ _ => true
  | .wtue _ _ => true
  | .waitEnd _ => true
  | .timerTrap _ => true
  | .watchdogExpiry _ => true
  | .storeBusError _ _ => true
  | .coreRun _ => true
  | .coreReset _ => true
  | .cclLoad _ => true
  | .cclLoadEnd _ => true
  | .benchGo _ _ => true
  | .benchOut _ => true
  | .sliceExpiry _ => true
  | .tRemExpiry _ => true
  | .ringArm _ _ _ => true
  | .descriptorFetch _ tag _ => workTag tag
  | .engineJobComplete tag _ _ => workTag tag
  | .streamFill _ _ _ => true
  | .compress tag _ => workTag tag
  | .decompress tag _ => workTag tag
  | .check tag _ => workTag tag
  | .xtsEnc tag _ => workTag tag
  | .xtsDec tag _ => workTag tag
  | .gcmEnc tag _ => workTag tag
  | .gcmDec tag _ => workTag tag
  | .shutterSlotAllocate tag => workTag tag
  | .gmacGen tag _ => workTag tag
  | .gmacVer tag _ => workTag tag
  | .ctr tag _ => workTag tag
  | .keyGen tag => workTag tag
  | .keyLoad tag => workTag tag
  | .keyWrap tag => workTag tag
  | .keyErase tag => workTag tag
  | .drbgReseed => true
  | .digest tag _ => workTag tag
  | .hseVerify tag _ => workTag tag
  | .crcBlocks tag _ => workTag tag
  | .aseSearch tag _ _ => workTag tag
  | .aseSearchCtx tag _ _ => workTag tag
  | .aseStep tag => workTag tag
  | .aseCtxFree tag => workTag tag
  | .aseLoad tag _ => workTag tag
  | .aseInsert tag _ => workTag tag
  | .aseWrite tag _ => workTag tag
  | .aseDelete tag => workTag tag
  | .aseRead tag => workTag tag
  | .aseClear tag => workTag tag
  | .contextFree _ => true
  | .linkTraining _ best lanes _ => linkRate best && linkWidth lanes
  | .linkDown _ => true
  | .retrain _ best lanes => linkRate best && linkWidth lanes
  | .perstAssert _ => true
  | .perstRelease _ => true
  | .l1Entry _ _ _ => true
  | .l1Exit _ => true
  | .d3hotEntry _ => true
  | .d0Return _ => true
  | .doeObject _ _ => true
  | .doeAbort _ => true
  | .getVersion _ _ => true
  | .getCertificate _ _ => true
  | .challenge _ _ => true
  | .keyExchange _ _ => true
  | .getMeasurements _ _ => true
  | .setCertificate _ _ => true
  | .readNvmeMiDataStructure _ _ _ _ => true
  | .subsystemHealthStatusPoll _ _ => true
  | .controllerHealthStatusPoll _ _ _ _ => true
  | .configurationGet _ _ => true
  | .configurationSet _ _ _ => true
  | .vpdRead _ _ _ => true
  | .vpdWrite _ _ _ => true
  | .nvmeMiReset _ _ => true
  | .setEndpointId _ _ => true
  | .sqDoorbell _ q _ => queueId q
  | .cqDoorbell _ q _ => queueId q
  | .commandFetch tag _ _ => workTag tag
  | .completionPost _ q => queueId q
  | .deleteIoSq tag => workTag tag
  | .createIoSq tag => workTag tag
  | .deleteIoCq tag => workTag tag
  | .createIoCq tag => workTag tag
  | .getLogPage tag _ => workTag tag
  | .identify tag _ => workTag tag
  | .abort tag _ => workTag tag
  | .setArbitration tag _ => workTag tag
  | .setPowerManagement tag _ => workTag tag
  | .setTemperatureThreshold tag _ => workTag tag
  | .setNumberOfQueues tag _ => workTag tag
  | .setInterruptCoalescing tag _ => workTag tag
  | .setInterruptVectorConfiguration tag _ => workTag tag
  | .setAsyncEventConfiguration tag _ => workTag tag
  | .setTimestamp tag _ _ => workTag tag
  | .setBarlisVersion tag _ => workTag tag
  | .getFeatures tag _ => workTag tag
  | .asynchronousEventRequest tag => workTag tag
  | .namespaceManagement tag _ => workTag tag
  | .namespaceAttachment tag _ => workTag tag
  | .firmwareImageDownload tag _ => workTag tag
  | .firmwareCommitReplace tag => workTag tag
  | .firmwareCommitNextBoot tag _ => workTag tag
  | .firmwareActivate tag _ => workTag tag
  | .activationStallExpiry => true
  | .primaryFlexibleAllocation tag => workTag tag
  | .secondaryOffline tag => workTag tag
  | .secondaryAssign tag => workTag tag
  | .secondaryOnline tag => workTag tag
  | .formatNvm tag => workTag tag
  | .sanitizeBlockErase tag => workTag tag
  | .sanitizeCryptoErase tag => workTag tag
  | .flush tag => workTag tag
  | .write tag _ _ => workTag tag
  | .read tag => workTag tag
  | .writeZeroes tag => workTag tag
  | .deallocate tag _ => workTag tag
  | .verify tag => workTag tag
  | .zoneClose tag => workTag tag
  | .zoneFinish tag => workTag tag
  | .zoneOpen tag => workTag tag
  | .zoneReset tag => workTag tag
  | .reportZones tag => workTag tag
  | .extendedReportZones tag => workTag tag
  | .zoneAppend tag _ _ => workTag tag
  | .nssr _ _ => true
  | .flr _ => true
  | .programLoad tag _ _ _ _ => workTag tag
  | .benchStatus tag => workTag tag
  | .programUnload tag => workTag tag
  | .energyReport tag => workTag tag
  | .benchAttachStream tag _ _ => workTag tag
  | .benchRun tag _ _ _ _ => workTag tag
  | .fixityCompute tag _ => workTag tag
  | .fixityVerify tag _ _ => workTag tag
  | .transform tag _ => workTag tag
  | .search tag _ _ => workTag tag
  | .indexLoad tag _ _ => workTag tag
  | .stageZone tag _ _ => workTag tag
  | .destageZone tag => workTag tag
  | .sealZone tag => workTag tag
  | .applyControls _ _ => true
  | .freeze _ _ _ => true
  | .freezeDrained _ => true
  | .freezeTimeout _ => true
  | .thaw _ _ => true
  | .save _ _ => true
  | .saveEnd _ _ => true
  | .restore _ _ => true
  | .restoreEnd _ _ _ _ => true
  | .release _ _ => true
  | .transomDoorbell _ _ _ _ => true
  | .transomReady _ _ _ _ => true
  | .capEvaluation => true
  | .provision _ _ _ => true
  | .integrate _ _ => true
  | .takeOwnership _ _ => true
  | .transfer _ _ => true
  | .lifecycleRelease _ _ => true
  | .retire _ _ => true
  | .rebind _ _ _ _ => true
  | .securityEpochRaise _ _ => true
  | .firmwareApproval _ _ => true
  | .tableApproval _ _ => true
  | .integratorKeyRotation _ _ => true
  | .debugUnlock _ _ => true
  | .ownerPolicy _ _ => true
  | .ownerMigrationKey _ _ _ => true
  | .keyImport _ _ _ => true
  | .sealRelease _ _ => true
  | .journalEntryDurable _ => true
  | .alarm _ => true
  | .alarmClear _ => true
  | .profileChange => true
  | .latchedEntry _ _ => true
  | .shutteredEntry => true
  | .entryTimeout => true
  | .wake _ _ _ => true
  | .aonTimerExpiry _ => true
  | .idleExpiry => true
  | .governorStep => true
  | .meteringInterval _ _ _ _ _ => true
  | .plannerRun _ _ => true
  | .avsbusTimeout => true
  | .agmMeasurement _ _ => true
  | .sensorSample _ => true
  | .powerOnReset _ _ _ => true
  | .porstLow => true
  | .warm _ => true
  | .bootStage _ _ _ _ _ => true
  | .mapRestoreEnd _ => true
  | .holdupDrain => true
  | .softwareSource _ _ => true
  | .pulseEnd _ => true
  | .linkRecovery _ _ best lanes => linkRate best && linkWidth lanes
  | .pageReadEnd _ _ => true
  | .controllerReset _ _ _ _ _ => true
  | .numvfsWrite _ n => queueId n
  | .msixUnmask _ _ _ _ => true
  | .interruptCoalescingTimeout _ q => queueId q
  | .avsbusDone => true
  | .agmWearPoll => true
  | .bootTimeout => true
  | .wrWaitExpiry => true

end Sys2Proof
end

