-- ==== Sys2Proof/Tests/Slice0.lean ====
section
/-! SUPPORT. Tests: ill-formed commands that the check refuses, and for every clause of every statement one theorem `wit_<statement>_<n>` with
a concrete state and operands that meet the hypotheses of that clause. The states are built by the helpers that stand before
them. -/

open Sys2Proof Sys2Proof.Machine

namespace Sys2Proof.Tests

set_option Elab.async false

/-! ### Ill-formed commands -/

theorem test_wellformed_address : Instr.wellFormed (.registerWrite (.dev .agent) (2 ^ 48) 4 0) = false := by decide
theorem test_wellformed_page : Instr.wellFormed (.softResetDone 4096) = false := by decide
theorem test_wellformed_tag : Instr.wellFormed (.read 65536) = false := by decide
theorem test_wellformed_queue : Instr.wellFormed (.cqDoorbell 0 65536 0) = false := by decide
theorem test_wellformed_rate : Instr.wellFormed (.retrain 0 6 4) = false := by decide
theorem test_wellformed_width : Instr.wellFormed (.retrain 0 5 9) = false := by decide
theorem test_wellformed_samples : Instr.wellFormed (.lockLoss 3 [⟨70, 0⟩]) = false := by decide
theorem test_wellformed_die : Instr.wellFormed (.patrolRead 0 ⟨512, 0, 0, 0⟩ []) = false := by decide
theorem test_wellformed_good : Instr.wellFormed (.lockLoss 3 [⟨69, -128⟩]) = true := by decide
theorem test_reset_queue_empty : State.reset.pending = [] := by rfl
/-- The table of this hardware gives no row any bits. -/
theorem test_no_word_is_a_command : decodeTableWord 0 0 = none := by rfl

/-- The device after reset with the blocks at `pages` enabled. -/
def on (pages : List Nat) : State := pages.foldl (fun s p => s.fset p Reg.BLK_CTRL 0 1 1) State.reset

/-- The block of a page. -/
def blkOf (pg : Nat) : Blk := (blkAt pg).getD ⟨.tfe, 0, 0, 0, 0⟩

/-- The device after reset with core `c` running, its registers changed by `f`. -/
def running (c : CoreId) (f : Core → Core := id) : State :=
  State.reset.setCore (coreNum c) (f { State.reset.core (coreNum c) with mode := .running })

/-- A compute core, and a real-time core. -/
abbrev c0 : CoreId := .compute 0
abbrev r0 : CoreId := .rt 0

/-- Core `c` runs in Bench mode, with its code in window 4. -/
def benching (c : CoreId) (f : Core → Core := id) : State :=
  running c fun x => f { x with ps := 0x40_0010, wattr := [(4, 0x1F)], wlim := [(4, 0xFFFF)] }

/-- Decides that a core takes its instruction. -/
theorem ready {s : State} {k : Nat} (h : (s.live && decide ((s.core k).mode = .running) && s.executes k && (s.fresh.asyncTrap k).isNone
    && (s.fresh.fetchAt k).2.isNone) = true) : s.ready k := by
  simpa [State.ready, Bool.and_eq_true, and_assoc] using h

/-- Decides that a completion can be posted. -/
theorem posts {s : State} {tag : Nat} {k : Cmd} (h : (decide (tag < miTag) && decide (k.epoch = (s.func k.ctrl).epoch)
    && (mapFind (s.ctrl k.ctrl).cqs k.cq).any fun g => decide (g.room ≠ 0) && decide (g.held = [])) = true) : s.postable tag k := by
  rw [Bool.and_eq_true, Bool.and_eq_true, Option.any_eq_true] at h
  obtain ⟨⟨a, b⟩, g, hg, c⟩ := h
  rw [Bool.and_eq_true] at c
  exact ⟨of_decide_eq_true a, of_decide_eq_true b, g, hg, of_decide_eq_true c.1, of_decide_eq_true c.2⟩

/-- Nothing waits that moves the fuses. -/
theorem settled {s : State} (h : s.fuseWaits = []) : s.fusesSettle := by simp [State.fusesSettle, h]

/-- A field of a register of a state, set. -/
abbrev put (s : State) (page off lo len v : Nat) : State := s.fset page off lo len v

/-- A section of `n` bytes with the bytes listed. -/
def sec (n : Nat) (l : List (Nat × Byte)) : List Byte := (List.range n).map fun i => ((l.find? (·.1 == i)).map (·.2)).getD 0

/-- The device after reset with a table of the given sections in a slot. -/
def tabled (page slot id : Nat) (secs : List (Nat × List Byte)) (s : State := State.reset) : State :=
  { s with tables := mapPut s.tables (page * 32 + slot) ⟨id, 1, true, 1, 0, 0, [], secs⟩ }

/-- State `s` in a band pass. -/
def passing (w : Bool) (s : State := State.reset) : State := { s with tape := { s.tape with pass := some ⟨0, 0, 0, 0, w⟩ } }

/-- A band pass in which input 1 of the drive is in use; `f` changes its record. -/
def input (f : Chan → Chan := id) : State := let s := put (passing false) (pCh 1) Reg.CH_CFG 0 1 1; s.setChan 1 (f (s.chan 1))

/-- A tape format of one track and one frame a data set. -/
def formatted : State := put (put (tabled pFmt 0 5 [(1, sec 16 [(0, 1)]), (3, sec 16 [(0xC, 1)])]) pFmt Reg.FMT_WFMT 7 1 1) pFmt Reg.FMT_RFMT 3 1 1

/-- A write pass under it, with data set 3 begun. -/
def writing (s : State := formatted) : State := let s := put (passing true s) pTpi Reg.TPI_STAT 16 1 1
  s.setFmt { s.fmt with cur := some ⟨3, 0, 0, 0⟩ }

/-- The same with the data set in the ring and nothing of it brought by port 0. -/
def starved : State := let s := writing (put (tabled pFmt 0 5 [(1, sec 16 [(0, 1)]), (3, sec 16 [(0xC, 1), (6, 1), (8, 8)]),
    (6, sec 16 [(6, 1), (9, 1)])]) pFmt Reg.FMT_WFMT 7 1 1)
  s.setTpi { s.tpi with ring := [⟨some 3, 0, 8, [], none, []⟩] }

/-- A read pass in which 1,000 bits of track 0 are detected. -/
def reading : State := (passing false formatted).setCpl 0 { (passing false formatted).cpl 0 with done := 1000 }

/-- The device while power-on reset is held, and in Latched. -/
def held : State := { State.reset with boot := { State.reset.boot with held := true } }
def latched : State := { State.reset with power := { State.reset.power with asleep := true } }

/-- The device after reset with the link of port 0 up, and one vector of PF0 unmasked. -/
def linked : State := State.reset.fset (pHib 0) Reg.HIB_LSTAT 8 1 1
def unmasked : State := linked.setFunc 0 { linked.func 0 with unmasked := [(1, 0)] }

/-- The result of an evaluation that is ready at TB `ready`. -/
def result (ready deadline : Nat) : EvalResult :=
  ⟨0, deadline, ready, false, 0, 0, 0, 0, 0, 0, 0, 0, 0, 0, 0, false, 0, 0, [], 2, false, false, false, false⟩

/-- LPE enabled, with slot 15 enabled and changed by `f`. -/
def slotted (f : Slot → Slot := id) : State := let s := put (on [pLpe]) (pSlot 15) Reg.SLOT_CTRL 0 1 1
  (put s (pSlot 15) Reg.SLOT_CTRL 8 3 2).setSl 15 (f (s.sl 15))

/-- LPE enabled, with lane 1 enabled and changed by `f`. -/
def laned (f : Lane → Lane) : State := let s := put (on [pLpe]) (pLpe + 31) Reg.ACT_LINK 0 2 3
  s.setLane 1 (f (s.lane 1))

/-- A codeword request, and a tile at work on it. -/
def asked₀ : CwReq := ⟨0, 0, 0, 0, 0, 7, 0, .bus, [], true⟩
def word₀ : Codeword := ⟨asked₀, 0, 0, 0, 100⟩
def decoding (f : Dcf → Dcf) : State := let s := put (tabled pDcf 0 0 [] (on [pDcf])) pDcf Reg.DCF_SLOT_EN 0 1 1
  s.setDcf (f s.tape.dcf)

/-- The transport interface enabled, with a motion table whose machines start in states 0 to 6, changed by `f`. -/
def moving (busy : Bool) (l : List (Nat × Byte) := []) : State :=
  let s := put (tabled pTpi 0 0 [(0x0201, sec 0x400 ([(5, 1), (6, 2), (7, 3), (8, 4), (9, 5), (10, 6)] ++ l))] (on [pTpi])) pTpi Reg.TPI_CTRL 0 1 1
  put s pTpi Reg.TPI_STAT 11 1 busy.toNat

/-- A job of engine `e` for the device's own function: 16 bytes of shared SRAM to the 64 bytes at 0x1000 further on. -/
def job (e op : Nat) : Job where
  ring := .core (.compute 0) 0
  engine := e
  opcode := op
  notify := false
  chainDst := false
  eflags := 0
  func := 0xFFFF
  fepoch := 0
  tag := 300
  cfgEpoch := 0
  src := [⟨sramGeneral, 16⟩]
  srcLen := 16
  dstAddr := sramGeneral + 0x1000
  dst := [⟨sramGeneral + 0x1000, 64⟩]
  aux := none
  param0 := 0
  param1 := 0
  since := 0
  cclEpoch := 0
  inst := none
  slot := none
  released := 0
  result := none

/-- State `s` with job `j` under work tag 300 at the intake of its engine. -/
def jobbed (j : Job) (s : State := on [pCxe 0, pAee 0, pHse, pAse, pKpr]) : State :=
  { s with jobs := [(300, j)], intakes := [(j.engine, ⟨[300], [], 0⟩)] }

/-- What the intake hands over of job 300, whose OPCODE is `op`. -/
def took (s : State) (e op : Nat) : State × Nat × Job := (s.fresh.takeJob e 300 (· == op)).getD (State.reset, 0, job 0 0)

/-- What a read has brought, and what it leaves. -/
def bytesOf (x : State × Except Nat (List Byte)) : List Byte := match x.2 with
  | .ok b => b
  | .error _ => []

/-- Key slot 0 with a key of type `typ` and the given usage bits, of the device's own function. -/
def keyed (typ usage : Nat) (inv : Nat := 0) (owner : Nat := 0xFFFF) : KeySlot := ⟨typ, usage, owner, List.replicate 32 1, inv, 0⟩
def withKey (k : KeySlot) (s : State) : State := { s with kpr := { s.kpr with keys := [(0, k)], seeded := true } }

/-- The intake hands the job over. -/
theorem handed {s : State} {e op : Nat} (h : (s.fresh.takeJob e 300 (· == op)).isSome = true) : s.hands e 300 op (took s e op).2.2 := by
  obtain ⟨x, hx⟩ := Option.isSome_iff_exists.1 h
  exact ⟨x.1, x.2.1, by simp [took, hx]⟩

/-- Decides that a range lies in shared SRAM. -/
theorem shared {s : State} {l : List Range} {r : Range} (h : (decide (s.dramSize ≤ sramBase) && decide (s.upsets = []) && decide (l = [r])
    && inSram r.addr r.len) = true) : s.inShared l r := by
  simpa [State.inShared, Bool.and_eq_true, and_assoc] using h

theorem took_eq {s : State} {e op : Nat} (h : (s.fresh.takeJob e 300 (· == op)).isSome = true) :
    s.fresh.takeJob e 300 (· == op) = some ((took s e op).1, (took s e op).2.1, (took s e op).2.2) := by
  obtain ⟨x, hx⟩ := Option.isSome_iff_exists.1 h
  simp [took, hx]

theorem read_eq {x : State × Except Nat (List Byte)} (h : x.2.isOk = true) : x = (x.1, .ok (bytesOf x)) := by
  obtain ⟨s, r⟩ := x
  cases r with
  | ok b => rfl
  | error e => simp [Except.isOk, Except.toBool] at h

theorem wrote_eq {x : State × Nat} (h : x.2 = 0) : x = (x.1, 0) := by rw [← h]

theorem getD_eq {α β : Type} {o : Option (α × β)} {d : α × β} (h : o.isSome = true) : o = some ((o.getD d).1, (o.getD d).2) := by
  obtain ⟨x, hx⟩ := Option.isSome_iff_exists.1 h
  simp [hx]

/-- Queues of eight entries. -/
def cq8 (tail : Nat := 0) : Cq := ⟨8, 0, tail, true, 0, true, 0, [], 0⟩
def sq8 (tail : Nat := 0) (cq : Nat := 0) : Sq := ⟨8, 0, tail, cq, .urgent, 0⟩

/-- The device booted with the link of port 0 up, and controller 0 ready with queues 0 and 1. -/
def hosted (f : Ctrl → Ctrl := id) : State :=
  let s := put (put (on [pQen, pHib 0, pCxe 0, pAee 0, pHse, pAse]) pPcr Reg.PCR_BOOT 0 4 6) (pHib 0) Reg.HIB_LSTAT 8 1 1
  let c := { s.ctrl 0 with
    en := true
    sqs := [(0, sq8), (1, sq8 0 1)]
    cqs := [(0, cq8), (1, cq8)]
    grantSq := 64
    grantCq := 64 }
  { s.setCtrl 0 (f c) with boot := { s.boot with mapReady := true } }

/-- A submission, and the command that it is. -/
def sqe (opc : Nat) (nsid : Nat := 0) (d10 d11 d12 d13 : BitVec 32 := 0) : Sqe := ⟨opc, 7, nsid, 0, 0, 0, 0, 0, d10, d11, d12, d13, 0, 0⟩
def cmd (q : Nat) (e : Sqe) : Cmd := ⟨0, q, q, e, 5, 0, false, false, 0⟩
def given (k : Cmd) (s : State := hosted) : State := { s with cmds := [(300, k)] }

theorem adminOk {s : State} {tag op : Nat} {k : Cmd} (h : (decide (s.cmdOf tag op true = some k) && decide ((s.func k.ctrl).mig = .running)
    && decide (k.cq = 0)) = true) : s.adminReady tag op k := by
  simpa [State.adminReady, Bool.and_eq_true, and_assoc] using h

theorem ioOk {s : State} {tag op : Nat} {k : Cmd} {n : Ns} (h : (decide (s.cmdOf tag op false = some k) && !(s.func k.ctrl).overCap
    && !s.mustWait tag k && !s.firstPend k && decide (s.attachedNs k.ctrl k.e.nsid = some n)
    && (if k.e.nsid = 1024 then s.tpi.cart.isSome else s.flashReady)) = true) : s.ioReady tag op k n := by
  simp only [Bool.and_eq_true, Bool.not_eq_true', decide_eq_true_eq, and_assoc] at h
  exact h

theorem leNat_leBytes (n x : Nat) : leNat (leBytes n x) = x % 256 ^ n := by
  induction n generalizing x with
  | zero => simp [leNat, leBytes, Nat.mod_one]
  | succ n ih =>
    have h : 256 ^ (n + 1) = 256 * 256 ^ n := Nat.pow_succ'
    rw [leBytes, leNat, ih, BitVec.toNat_ofNat, h, Nat.mod_mul]

theorem leNat_lt (b : List Byte) : leNat b < 256 ^ b.length := by
  induction b with
  | nil => simp [leNat]
  | cons x r ih =>
    have := x.isLt
    rw [leNat, List.length_cons, Nat.pow_succ]
    omega

theorem sha384_len (b : List Byte) : (sha384 b).length ≤ 48 := by
  show List.length (List.take 48 _) ≤ 48
  rw [List.length_take]
  omega

theorem devId_lt (s : State) : s.devId < 256 ^ 8 := by
  unfold State.devId
  split
  · decide
  · refine Nat.lt_of_lt_of_le (leNat_lt _) (Nat.pow_le_pow_right (by decide) ?_)
    have := sha384_len Config.identKey
    rw [List.length_reverse, List.length_drop]
    omega

/-- A request block for the device `d`, with `n` signatures of zeros. -/
def reqBlk (d op seq n : Nat) (arg : List Byte) : List Byte :=
  leBytes 4 0x51524147 ++ leBytes 4 (op + n * 2 ^ 16) ++ leBytes 8 d ++ leBytes 4 seq ++ leBytes 4 0 ++ padTo 0x68 arg
    ++ List.replicate (104 * n) 0

theorem reqOk {s : State} {src op : Nat} {blk : List Byte} {lcs : List Nat} (h : (s.reqHeard src && decide (fieldAt blk 4 2 = op)
    && (let n := reqNsig blk
      fieldAt blk 0 4 == 0x51524147 && (n == 1 || n == 2) && blk.length == 0x80 + 104 * n && natBits (fieldAt blk 4 4) 20 12 == 0
        && fieldAt blk 0x14 4 == 0 && (List.range n).all fun i => fieldAt blk (0x84 + 104 * i) 4 == 0)
    && decide (fieldAt blk 0x10 4 = s.kpr.nextSeq) && !s.alarmOn && decide (s.kpr.fuses.lcs ∈ lcs)
    && !s.kpr.jfault) = true) (hd : (blk.drop 8).take 8 = leBytes 8 s.devId := by rfl) : s.reqReady src blk op lcs := by
  have e : fieldAt blk 8 8 = s.devId := by rw [fieldAt, hd, leNat_leBytes, Nat.mod_eq_of_lt (devId_lt s)]
  simp only [Bool.and_eq_true, Bool.not_eq_true', decide_eq_true_eq] at h
  obtain ⟨⟨⟨⟨⟨⟨h1, h2⟩, h3⟩, h4⟩, h5⟩, h6⟩, h7⟩ := h
  exact ⟨h1, h2, by simp only [State.reqForm, Bool.and_eq_true, beq_iff_eq] at h3 ⊢; tauto, h4, h5, h6, h7⟩

theorem askOk {s : State} {src code ver typ : Nat} {msg m : List Byte} (h : (s.kprRuns && decide (s.kpr.fuses.lcs ≠ 0)
    && decide (s.spdmMsg src msg = some (typ, m)) && decide (fieldAt m 1 1 = code) && decide (fieldAt m 0 1 = ver)) = true) :
    s.asked src msg code ver typ m := by
  simpa [State.asked, Bool.and_eq_true, and_assoc] using h

/-- A flash namespace of 64 blocks of 512 bytes, attached to controller 0. -/
def ns64 (lbaf : Nat := 0) : Ns := ⟨lbaf, 64, 0, [0], 0, false, 0, 2, [], none⟩
def spaced (k : Cmd) (n : Ns := ns64) : State := { given k with nss := [(1, n)] }

/-- The tape-backed namespace of zones of 16 blocks, 8 of them writable, on a cartridge that holds ten zones; `zs` are not empty. -/
def zoned (k : Cmd) (zs : List (Nat × Zone) := []) : State :=
  let s := given k
  let t := put (tabled pFmt 0 5 [(11, sec 32 [(0, 16), (4, 8), (8, 10), (0x10, 1)])] s) pFmt Reg.FMT_WFMT 7 1 1
  { t with
    nss := [(1024, ⟨1, 0, 0, [0], 0, false, 0, 0, [], none⟩)]
    zones := zs
    tpi := { t.tpi with cart := some 3, loaded := some (sec 32 [(0x10, 100)]) } }
def ns1024 : Ns := ⟨1, 0, 0, [0], 0, false, 0, 0, [], none⟩

theorem wit_StepRunsTheFrontCommand_0 : ∃ (s : State), s.pending = [] :=
  ⟨State.reset, by decide +kernel⟩

theorem wit_EveryWaitingCommandIsServed_0 : ∃ (n : Nat) (s : State), n ≤ s.pending.length :=
  ⟨2, { State.reset with pending := [.porstLow, .alarm 0] }, by decide +kernel⟩

theorem wit_HeldDeviceStandsStill_0 : ∃ (c : Instr) (s : State), s.boot.held = true ∧ overReset c = false :=
  ⟨.alarm 0, held, by decide +kernel⟩

theorem wit_HeldDeviceStandsStill_1 : ∃ (c : Instr) (s : State), s.power.asleep = true ∧ alwaysOn c = false :=
  ⟨.coreReset c0, latched, by decide +kernel⟩

theorem wit_MemoryKeepsItsForm_0 : ∃ (s : State) (t : State), memWf s.mem = true ∧ step s = .next t :=
  ⟨State.reset, _, by decide +kernel, rfl⟩

theorem wit_LifecycleMovesOnlyForward_0 : ∃ (s : State) (t : State), s.fusesSettle ∧ step s = .next t :=
  ⟨State.reset, _, settled (by decide +kernel), rfl⟩

theorem wit_LifecycleMovesOnlyForward_1 : ∃ (s : State) (t : State), s.fusesSettle ∧ step s = .next t ∧ s.kpr.fuses.lcs = 4 :=
  ⟨{ State.reset with kpr := { State.reset.kpr with fuses := { State.reset.kpr.fuses with lcs := 4 } } }, _, settled (by decide +kernel),
    rfl, by decide +kernel⟩

theorem wit_CoreResetState_0 : ∃ (k : Nat), k < 41 :=
  ⟨40, by decide +kernel⟩

theorem wit_CoreResetState_1 : ∃ (c : CoreId) (q : Nat × Nat), coreEntry (coreNum c) = some q :=
  ⟨r0, ((coreEntry 32).getD (0, 0)), by decide +kernel⟩

theorem wit_CoreResetState_2 : ∃ (s : State) (c : CoreId) (pg : Nat) (e : Nat), coreEntry (coreNum c) = some (pg, e) ∧
    (s.core (coreNum c)).mode = .inReset :=
  ⟨State.reset, r0, ((coreEntry 32).getD (0, 0)).1, ((coreEntry 32).getD (0, 0)).2, by decide +kernel⟩

theorem wit_ReservedEncodingsAreRejected_0 : ∃ (s : State) (r : Requester) (page : Nat) (off : Nat) (b : Blk) (v : BitVec 32), blkAt page
    = some b ∧ page < 4096 ∧ off < 4096 ∧ off % 4 = 0 ∧ (fldsOf b (if off < 0x80 then 0 else page - b.base) off).isEmpty = false ∧
    s.badEnc r b (if off < 0x80 then 0 else page - b.base) off v = true :=
  ⟨on [pSvd], .agent, pSvd, Reg.STG_CTRL, blkOf pSvd, 3, by decide +kernel⟩

theorem wit_ReservedEncodingsAreRejected_1 : ∃ (page : Nat) (off : Nat) (b : Blk) (v : BitVec 32), blkAt page = some b ∧ page < 4096 ∧
    off < 4096 ∧ off % 4 = 0 ∧ off = Reg.STG_CTRL ∧ v.getLsbD 0 = true ∧ v.getLsbD 1 = true :=
  ⟨pSvd, Reg.STG_CTRL, blkOf pSvd, 3, by decide +kernel⟩

theorem wit_MessagesMergeWhileMasked_0 : ∃ (s : State) (k : Nat) (v : Nat), s.usable k = true ∧ v < (s.func k).vi ∧
    mapFind (s.func k).unmasked v = none :=
  ⟨unmasked, 0, 0, by decide +kernel⟩

theorem wit_MessagesMergeWhileMasked_1 : ∃ (s : State) (k : Nat) (v : Nat), s.usable k = true ∧ v < (s.func k).vi ∧
    (mapFind (s.func k).unmasked v).isSome = true :=
  ⟨unmasked, 0, 1, by decide +kernel⟩

theorem wit_MessagesMergeWhileMasked_2 : ∃ (s : State) (k : Nat) (v : Nat), (s.usable k = false ∨ (s.func k).vi ≤ v) :=
  ⟨unmasked, 0, (unmasked.func 0).vi, by decide +kernel⟩

theorem wit_MessagesMergeWhileMasked_3 : ∃ (s : State) (k : Nat), ((s.slotEnabled k = false ∨ (s.isPf k = false ∧
    (s.func k).online = false) ∨ (s.func k).d3 = true ∨ s.linkUp (s.portOf k) = false)) :=
  ⟨State.reset, 0, by decide +kernel⟩

theorem wit_DivisionCorners_0 : ∃ (s : State) (c : CoreId), s.ready (coreNum c) :=
  ⟨running c0, c0, ready (by decide +kernel)⟩

theorem wit_BranchConditions_0 : ∃ (s : State) (c : CoreId) (f : FmtB) (taken : _), s.ready (coreNum c) ∧ f.ra = 0 ∧
    (f.rd, taken) ∈ [((0x0 : BitVec 5), true), (0x1, (((s.atFetch (coreNum c)).core (coreNum c)).ps.getLsbD 0)), (0x2, !(((s.atFetch
    (coreNum c)).core (coreNum c)).ps.getLsbD 0)), (0x3, !(((s.atFetch (coreNum c)).core (coreNum c)).ps.getLsbD 2)), (0x4, (((s.atFetch
    (coreNum c)).core (coreNum c)).ps.getLsbD 2)), (0x5, (((s.atFetch (coreNum c)).core (coreNum c)).ps.getLsbD 2) && !(((s.atFetch
    (coreNum c)).core (coreNum c)).ps.getLsbD 0)), (0x6, !(((s.atFetch (coreNum c)).core (coreNum c)).ps.getLsbD 2) || (((s.atFetch
    (coreNum c)).core (coreNum c)).ps.getLsbD 0)), (0x7, (((s.atFetch (coreNum c)).core (coreNum c)).ps.getLsbD 1) != (((s.atFetch
    (coreNum c)).core (coreNum c)).ps.getLsbD 3)), (0x8, (((s.atFetch (coreNum c)).core (coreNum c)).ps.getLsbD 1) == (((s.atFetch
    (coreNum c)).core (coreNum c)).ps.getLsbD 3)), (0x9, !(((s.atFetch (coreNum c)).core (coreNum c)).ps.getLsbD 0) && (((s.atFetch
    (coreNum c)).core (coreNum c)).ps.getLsbD 1) == (((s.atFetch (coreNum c)).core (coreNum c)).ps.getLsbD 3)), (0xA, (((s.atFetch
    (coreNum c)).core (coreNum c)).ps.getLsbD 0) || (((s.atFetch (coreNum c)).core (coreNum c)).ps.getLsbD 1) != (((s.atFetch (coreNum
    c)).core (coreNum c)).ps.getLsbD 3)), (0xB, (((s.atFetch (coreNum c)).core (coreNum c)).ps.getLsbD 1)), (0xC, !(((s.atFetch (coreNum
    c)).core (coreNum c)).ps.getLsbD 1)), (0xD, (((s.atFetch (coreNum c)).core (coreNum c)).ps.getLsbD 3)), (0xE, !(((s.atFetch (coreNum
    c)).core (coreNum c)).ps.getLsbD 3))] :=
  ⟨running c0, c0, ⟨0xE, 0, 0x8000⟩, true, ready (by decide +kernel), by decide +kernel, by decide +kernel⟩

theorem wit_BranchConditions_1 : ∃ (s : State) (c : CoreId) (f : FmtB), s.ready (coreNum c) ∧ f.ra = 0 ∧ f.rd = 0xF :=
  ⟨running c0, c0, ⟨0xF, 0, 4⟩, ready (by decide +kernel), by decide +kernel, by decide +kernel⟩

theorem wit_BranchConditions_2 : ∃ (s : State) (c : CoreId) (f : FmtB), s.ready (coreNum c) ∧ ((f.ra ≠ 0 ∨ f.rd.getLsbD 4 = true)) :=
  ⟨running c0, c0, ⟨0x10, 0, 4⟩, ready (by decide +kernel), by decide +kernel⟩

theorem wit_IntegerInstructions_0 : ∃ (s : State) (c : CoreId), s.ready (coreNum c) :=
  ⟨running c0, c0, ready (by decide +kernel)⟩

theorem wit_IntegerInstructions_1 : ∃ (s : State) (c : CoreId) (f : FmtA), s.ready (coreNum c) ∧ f.rb = 0 :=
  ⟨running c0, c0, ⟨1, 2, 0, true⟩, ready (by decide +kernel), by decide +kernel⟩

theorem wit_IntegerInstructions_2 : ∃ (s : State) (c : CoreId) (f : FmtA), s.ready (coreNum c) ∧ f.rd = 0 ∧ f.ra = 0 ∧ f.rb = 0 ∧
    f.s = false :=
  ⟨running c0, c0, ⟨0, 0, 0, false⟩, ready (by decide +kernel), by decide +kernel, by decide +kernel, by decide +kernel,
    by decide +kernel⟩

theorem wit_IntegerInstructions_3 : ∃ (s : State) (c : CoreId), s.ready (coreNum c) :=
  ⟨running c0, c0, ready (by decide +kernel)⟩

theorem wit_IntegerInstructions_4 : ∃ (s : State) (c : CoreId) (f : FmtB), s.ready (coreNum c) ∧ f.ra = 0 :=
  ⟨running c0, c0, ⟨1, 0, 0x8000⟩, ready (by decide +kernel), by decide +kernel⟩

theorem wit_IntegerInstructions_5 : ∃ (s : State) (c : CoreId) (f : FmtB), s.ready (coreNum c) ∧ (f.imm.toNat) < 64 :=
  ⟨running c0, c0, ⟨1, 2, 63⟩, ready (by decide +kernel), by decide +kernel⟩

theorem wit_IntegerInstructions_6 : ∃ (s : State) (c : CoreId) (f : FmtB), s.ready (coreNum c) ∧ f.rd = 0 :=
  ⟨running c0, c0, ⟨0, 2, 0xFFFF⟩, ready (by decide +kernel), by decide +kernel⟩

theorem wit_VectorInstructions_0 : ∃ (s : State) (c : CoreId), s.ready (coreNum c) ∧ coreNum c < 32 :=
  ⟨running c0, c0, ready (by decide +kernel), by decide +kernel⟩

theorem wit_VectorInstructions_1 : ∃ (s : State) (c : CoreId) (f : FmtW), s.ready (coreNum c) ∧ coreNum c < 32 ∧ f.z = 0 ∧
    f.ra.toNat < 16 :=
  ⟨running c0, c0, ⟨31, 15, 1, 3, 0⟩, ready (by decide +kernel), by decide +kernel, by decide +kernel, by decide +kernel⟩

theorem wit_VectorInstructions_2 : ∃ (s : State) (c : CoreId) (f : FmtW), s.ready (coreNum c) ∧ coreNum c < 32 ∧ f.z = 0 ∧
    f.ra.toNat < 16 ∧ f.rb = 0 :=
  ⟨running c0, c0, ⟨31, 15, 0, 0, 0⟩, ready (by decide +kernel), by decide +kernel, by decide +kernel, by decide +kernel,
    by decide +kernel⟩

theorem wit_VectorInstructions_3 : ∃ (s : State) (c : CoreId) (f : FmtW), s.ready (coreNum c) ∧ coreNum c < 32 ∧ f.z = 0 ∧
    f.rd.toNat < 16 :=
  ⟨running c0, c0, ⟨15, 31, 1, 1, 0⟩, ready (by decide +kernel), by decide +kernel, by decide +kernel, by decide +kernel⟩

theorem wit_LoadsAndStores_0 : ∃ (s : State) (c : CoreId), s.ready (coreNum c) :=
  ⟨running c0, c0, ready (by decide +kernel)⟩

theorem wit_WindowsAndLocalStore_0 : ∃ (s : State) (k : Nat) (n : Nat) (size : Nat), size ∈ [1, 2, 4, 8, 32] ∧
    ((s.core k).wa n).getLsbD 7 = false :=
  ⟨running c0, 0, 0, 8, by decide +kernel⟩

theorem wit_WindowsAndLocalStore_1 : ∃ (s : State) (k : Nat) (n : Nat) (a : Access) (off : Nat) (size : Nat) (t : _), size ∈ [1, 2, 4, 8,
    32] ∧ s.winCheck k n a off size = .error t :=
  ⟨running c0, 0, 0, .read, 0x3FFFF, 4, ⟨3, 0x3FFFF, 0⟩, by decide +kernel⟩

theorem wit_WindowsAndLocalStore_2 : ∃ (s : State) (k : Nat) (n : Nat) (size : Nat), size ∈ [1, 2, 4, 8, 32] ∧
    (s.core k).benchMode = true ∧ n < 4 :=
  ⟨benching c0, 0, 3, 8, by decide +kernel⟩

theorem wit_WindowsAndLocalStore_3 : ∃ (s : State) (k : Nat) (n : Nat) (size : Nat), size ∈ [1, 2, 4, 8, 32] ∧
    (¬ ((s.core k).benchMode = true ∧ n < 4)) ∧ ((s.core k).wa n).getLsbD 0 = false :=
  ⟨running c0, 0, 1, 8, by decide +kernel⟩

theorem wit_WindowsAndLocalStore_4 : ∃ (s : State) (k : Nat) (n : Nat) (a : Access) (size : Nat), size ∈ [1, 2, 4, 8, 32] ∧
    (¬ ((s.core k).benchMode = true ∧ n < 4)) ∧ ((s.core k).wa n).getLsbD 0 = true ∧ a.granted ((s.core k).wa n) = false :=
  ⟨running c0 fun x => { x with wattr := [(0, 0x1B)] }, 0, 0, .write, 8, by decide +kernel⟩

theorem wit_WindowsAndLocalStore_5 : ∃ (s : State) (k : Nat) (n : Nat) (a : Access) (off : Nat) (size : Nat), size ∈ [1, 2, 4, 8, 32] ∧
    (s.core k).benchMode = false ∧ ((s.core k).wa n).getLsbD 0 = true ∧ a.granted ((s.core k).wa n) = true ∧ off % size ≠ 0 :=
  ⟨running c0, 0, 0, .read, 1, 32, by decide +kernel⟩

theorem wit_WindowsAndLocalStore_6 : ∃ (s : State) (k : Nat) (n : Nat) (off : Nat) (addr : Nat) (size : _), s.upsets = [] ∧
    s.winCheck k n .read off size = .ok (1, addr) ∧ addr + size ≤ localSizeOf k :=
  ⟨running c0, 0, 0, 0x3FFFC, 0x3FFFC, 4, by decide +kernel⟩

theorem wit_WindowsAndLocalStore_7 : ∃ (s : State) (k : Nat) (n : Nat) (off : Nat) (addr : Nat) (b : List Byte), s.upsets = [] ∧
    s.winCheck k n .write off b.length = .ok (1, addr) ∧ addr + b.length ≤ localSizeOf k :=
  ⟨running c0, 0, 0, 0x3FFFC, 0x3FFFC, [1, 2, 3, 4], by decide +kernel⟩

theorem wit_WindowsAndLocalStore_8 : ∃ (s : State) (k : Nat) (n : Nat) (off : Nat) (addr : Nat) (b : List Byte) (i : Nat), i < b.length ∧
    s.upsets = [] ∧ s.winCheck k n .write off b.length = .ok (1, addr) ∧ addr + b.length ≤ localSizeOf k :=
  ⟨running c0, 0, 0, 0x3FFFC, 0x3FFFC, [1, 2, 3, 4], 3, by decide +kernel⟩

theorem wit_WindowsAndLocalStore_9 : ∃ (s : State) (k : Nat) (n : Nat) (off : Nat) (addr : Nat) (b : List Byte) (a : _), s.upsets = [] ∧
    s.winCheck k n .write off b.length = .ok (1, addr) ∧ addr + b.length ≤ localSizeOf k ∧
    (a < localBase k + addr ∨ localBase k + addr + b.length ≤ a) :=
  ⟨running c0, 0, 0, 0x3FFFC, 0x3FFFC, [1, 2, 3, 4], localBase 0 + 0x40000, by decide +kernel⟩

theorem wit_WindowsAndLocalStore_10 : ∃ (s : State) (k : Nat) (addr : Nat), s.upsets = [] ∧
    s.winCheck k (s.core k).cw .fetch (s.core k).pc.toNat 4 = .ok (1, addr) ∧ addr + 4 ≤ localSizeOf k :=
  ⟨running c0, 0, 0, by decide +kernel⟩

theorem wit_SpecialRegisterMoves_0 : ∃ (s : State) (c : CoreId) (f : FmtB), s.ready (coreNum c) ∧ f.ra = 0 ∧ (f.imm.toNat) = 0x00 :=
  ⟨running c0, c0, ⟨31, 0, 0x0⟩, ready (by decide +kernel), by decide +kernel, by decide +kernel⟩

theorem wit_SpecialRegisterMoves_1 : ∃ (s : State) (c : CoreId) (f : FmtB), s.ready (coreNum c) ∧ f.ra = 0 ∧ (f.imm.toNat) = 0x01 :=
  ⟨running c0, c0, ⟨31, 0, 0x1⟩, ready (by decide +kernel), by decide +kernel, by decide +kernel⟩

theorem wit_SpecialRegisterMoves_2 : ∃ (s : State) (c : CoreId) (f : FmtB), s.ready (coreNum c) ∧ f.ra = 0 ∧ (f.imm.toNat) = 0x02 :=
  ⟨running c0, c0, ⟨31, 0, 0x2⟩, ready (by decide +kernel), by decide +kernel, by decide +kernel⟩

theorem wit_SpecialRegisterMoves_3 : ∃ (s : State) (c : CoreId) (f : FmtB), s.ready (coreNum c) ∧ f.ra = 0 ∧ (f.imm.toNat) = 0x03 :=
  ⟨running c0, c0, ⟨31, 0, 0x3⟩, ready (by decide +kernel), by decide +kernel, by decide +kernel⟩

theorem wit_SpecialRegisterMoves_4 : ∃ (s : State) (c : CoreId) (f : FmtB), s.ready (coreNum c) ∧ f.ra = 0 ∧
    ((s.atFetch (coreNum c)).core (coreNum c)).benchMode = false ∧ (f.imm.toNat) = 0x10 :=
  ⟨running c0, c0, ⟨1, 0, 0x10⟩, ready (by decide +kernel), by decide +kernel, by decide +kernel, by decide +kernel⟩

theorem wit_SpecialRegisterMoves_5 : ∃ (s : State) (c : CoreId) (f : FmtB), s.ready (coreNum c) ∧ f.ra = 0 ∧
    ((s.atFetch (coreNum c)).core (coreNum c)).benchMode = false ∧ (f.imm.toNat) = 0x11 :=
  ⟨running c0, c0, ⟨1, 0, 0x11⟩, ready (by decide +kernel), by decide +kernel, by decide +kernel, by decide +kernel⟩

theorem wit_SpecialRegisterMoves_6 : ∃ (s : State) (c : CoreId) (f : FmtB), s.ready (coreNum c) ∧ f.ra = 0 ∧
    ((s.atFetch (coreNum c)).core (coreNum c)).benchMode = false ∧ (f.imm.toNat) = 0x12 :=
  ⟨running c0, c0, ⟨1, 0, 0x12⟩, ready (by decide +kernel), by decide +kernel, by decide +kernel, by decide +kernel⟩

theorem wit_SpecialRegisterMoves_7 : ∃ (s : State) (c : CoreId) (f : FmtB), s.ready (coreNum c) ∧ f.ra = 0 ∧
    ((s.atFetch (coreNum c)).core (coreNum c)).benchMode = false ∧ (f.imm.toNat) = 0x13 :=
  ⟨running c0, c0, ⟨1, 0, 0x13⟩, ready (by decide +kernel), by decide +kernel, by decide +kernel, by decide +kernel⟩

theorem wit_SpecialRegisterMoves_8 : ∃ (s : State) (c : CoreId) (f : FmtB), s.ready (coreNum c) ∧ f.ra = 0 ∧
    ((s.atFetch (coreNum c)).core (coreNum c)).benchMode = false ∧ (f.imm.toNat) = 0x14 :=
  ⟨running c0, c0, ⟨1, 0, 0x14⟩, ready (by decide +kernel), by decide +kernel, by decide +kernel, by decide +kernel⟩

theorem wit_SpecialRegisterMoves_9 : ∃ (s : State) (c : CoreId) (f : FmtB), s.ready (coreNum c) ∧ f.ra = 0 ∧
    ((s.atFetch (coreNum c)).core (coreNum c)).benchMode = false ∧ (f.imm.toNat) = 0x15 :=
  ⟨running c0, c0, ⟨1, 0, 0x15⟩, ready (by decide +kernel), by decide +kernel, by decide +kernel, by decide +kernel⟩

theorem wit_SpecialRegisterMoves_10 : ∃ (s : State) (c : CoreId) (f : FmtB), s.ready (coreNum c) ∧ f.ra = 0 ∧
    ((s.atFetch (coreNum c)).core (coreNum c)).benchMode = false ∧ (f.imm.toNat) = 0x16 :=
  ⟨running c0, c0, ⟨1, 0, 0x16⟩, ready (by decide +kernel), by decide +kernel, by decide +kernel, by decide +kernel⟩

theorem wit_SpecialRegisterMoves_11 : ∃ (s : State) (c : CoreId) (f : FmtB), s.ready (coreNum c) ∧ f.ra = 0 ∧
    ((s.atFetch (coreNum c)).core (coreNum c)).benchMode = false ∧ (f.imm.toNat) = 0x17 :=
  ⟨running c0, c0, ⟨1, 0, 0x17⟩, ready (by decide +kernel), by decide +kernel, by decide +kernel, by decide +kernel⟩

theorem wit_SpecialRegisterMoves_12 : ∃ (s : State) (c : CoreId) (f : FmtB), s.ready (coreNum c) ∧ f.ra = 0 ∧
    ((s.atFetch (coreNum c)).core (coreNum c)).benchMode = false ∧ (f.imm.toNat) = 0x18 ∧
    ((s.atFetch (coreNum c)).core (coreNum c)).tctl.getLsbD 1 = false :=
  ⟨running c0, c0, ⟨1, 0, 0x18⟩, ready (by decide +kernel), by decide +kernel, by decide +kernel, by decide +kernel, by decide +kernel⟩

theorem wit_SpecialRegisterMoves_13 : ∃ (s : State) (c : CoreId) (f : FmtB), s.ready (coreNum c) ∧ f.ra = 0 ∧ (f.imm.toNat) = 0x19 :=
  ⟨running c0, c0, ⟨1, 0, 0x19⟩, ready (by decide +kernel), by decide +kernel, by decide +kernel⟩

theorem wit_SpecialRegisterMoves_14 : ∃ (s : State) (c : CoreId) (f : FmtB) (w : Nat), w < 16 ∧ s.ready (coreNum c) ∧ f.ra = 0 ∧
    ((((s.atFetch (coreNum c)).core (coreNum c)).benchMode = true → 4 ≤ w)) ∧ (f.imm.toNat) = 0x100 + 4 * w :=
  ⟨running c0, c0, ⟨1, 0, 0x13c⟩, 15, by decide +kernel, ready (by decide +kernel), by decide +kernel, by decide +kernel,
    by decide +kernel⟩

theorem wit_SpecialRegisterMoves_15 : ∃ (s : State) (c : CoreId) (f : FmtB) (w : Nat), w < 16 ∧ s.ready (coreNum c) ∧ f.ra = 0 ∧
    ((((s.atFetch (coreNum c)).core (coreNum c)).benchMode = true → 4 ≤ w)) ∧ (f.imm.toNat) = 0x101 + 4 * w :=
  ⟨running c0, c0, ⟨1, 0, 0x13d⟩, 15, by decide +kernel, ready (by decide +kernel), by decide +kernel, by decide +kernel,
    by decide +kernel⟩

theorem wit_SpecialRegisterMoves_16 : ∃ (s : State) (c : CoreId) (f : FmtB) (w : Nat), w < 16 ∧ s.ready (coreNum c) ∧ f.ra = 0 ∧
    ((((s.atFetch (coreNum c)).core (coreNum c)).benchMode = true → 4 ≤ w)) ∧ (f.imm.toNat) = 0x102 + 4 * w :=
  ⟨running c0, c0, ⟨1, 0, 0x13e⟩, 15, by decide +kernel, ready (by decide +kernel), by decide +kernel, by decide +kernel,
    by decide +kernel⟩

theorem wit_SpecialRegisterMoves_17 : ∃ (s : State) (c : CoreId) (f : FmtB), s.ready (coreNum c) ∧ f.ra = 0 ∧
    ((s.atFetch (coreNum c)).core (coreNum c)).benchMode = true ∧ (((0x10 ≤ (f.imm.toNat) ∧
    (f.imm.toNat) ≤ 0x18) ∨ (0x100 ≤ (f.imm.toNat) ∧ (f.imm.toNat) < 0x110 ∧ (f.imm.toNat) % 4 ≠ 3))) :=
  ⟨benching c0, c0, ⟨1, 0, 0x10e⟩, ready (by decide +kernel), by decide +kernel, by decide +kernel, by decide +kernel⟩

theorem wit_SpecialRegisterMoves_18 : ∃ (s : State) (c : CoreId) (f : FmtB), s.ready (coreNum c) ∧ f.ra = 0 ∧ ((4 ≤ (f.imm.toNat) ∧
    (f.imm.toNat) < 0x10) ∨ (0x1A ≤ (f.imm.toNat) ∧ (f.imm.toNat) < 0x100) ∨ (0x100 ≤ (f.imm.toNat) ∧ (f.imm.toNat) < 0x140 ∧
    (f.imm.toNat) % 4 = 3) ∨ 0x140 ≤ (f.imm.toNat)) :=
  ⟨running c0, c0, ⟨1, 0, 0xf⟩, ready (by decide +kernel), by decide +kernel, by decide +kernel⟩

theorem wit_SpecialRegisterMoves_19 : ∃ (s : State) (c : CoreId) (f : FmtB), s.ready (coreNum c) ∧ f.rd = 0 ∧ (f.imm.toNat) = 0x01 :=
  ⟨running c0, c0, ⟨0, 2, 0x1⟩, ready (by decide +kernel), by decide +kernel, by decide +kernel⟩

theorem wit_SpecialRegisterMoves_20 : ∃ (s : State) (c : CoreId) (f : FmtB), s.ready (coreNum c) ∧ f.rd = 0 ∧ (f.imm.toNat) = 0x00 ∧
    ((s.atFetch (coreNum c)).core (coreNum c)).benchMode = true :=
  ⟨benching c0, c0, ⟨0, 2, 0x0⟩, ready (by decide +kernel), by decide +kernel, by decide +kernel, by decide +kernel⟩

theorem wit_SpecialRegisterMoves_21 : ∃ (s : State) (c : CoreId) (f : FmtB), s.ready (coreNum c) ∧ f.rd = 0 ∧ (f.imm.toNat) = 0x00 ∧
    ((s.atFetch (coreNum c)).core (coreNum c)).benchMode = false ∧ (((coreNum c) < 32 ∨ (((s.atFetch (coreNum c)).core (coreNum c)).gr
    f.ra.toNat).getLsbD 4 = false)) :=
  ⟨running c0, c0, ⟨0, 2, 0x0⟩, ready (by decide +kernel), by decide +kernel, by decide +kernel, by decide +kernel, by decide +kernel⟩

theorem wit_SpecialRegisterMoves_22 : ∃ (s : State) (c : CoreId) (f : FmtB), s.ready (coreNum c) ∧ f.rd = 0 ∧ (f.imm.toNat) = 0x00 ∧
    ((s.atFetch (coreNum c)).core (coreNum c)).benchMode = false ∧ 32 ≤ (coreNum c) ∧
    (((s.atFetch (coreNum c)).core (coreNum c)).gr f.ra.toNat).getLsbD 4 = true :=
  ⟨running r0 fun x => x.setG 2 0x10, r0, ⟨0, 2, 0x0⟩, ready (by decide +kernel), by decide +kernel, by decide +kernel,
    by decide +kernel, by decide +kernel, by decide +kernel⟩

theorem wit_SpecialRegisterMoves_23 : ∃ (s : State) (c : CoreId) (f : FmtB), s.ready (coreNum c) ∧ f.rd = 0 ∧
    ((f.imm.toNat) = 0x02 ∨ (f.imm.toNat) = 0x03) :=
  ⟨running c0, c0, ⟨0, 2, 0x3⟩, ready (by decide +kernel), by decide +kernel, by decide +kernel⟩

theorem wit_SpecialRegisterMoves_24 : ∃ (s : State) (c : CoreId) (f : FmtB), s.ready (coreNum c) ∧ f.rd = 0 ∧ (f.imm.toNat) = 0x19 :=
  ⟨running c0, c0, ⟨0, 2, 0x19⟩, ready (by decide +kernel), by decide +kernel, by decide +kernel⟩

theorem wit_SpecialRegisterMoves_25 : ∃ (s : State) (c : CoreId) (f : FmtB), s.ready (coreNum c) ∧ f.rd = 0 ∧
    ((s.atFetch (coreNum c)).core (coreNum c)).benchMode = false ∧ (f.imm.toNat) = 0x10 :=
  ⟨running c0, c0, ⟨0, 2, 0x10⟩, ready (by decide +kernel), by decide +kernel, by decide +kernel, by decide +kernel⟩

theorem wit_SpecialRegisterMoves_26 : ∃ (s : State) (c : CoreId) (f : FmtB), s.ready (coreNum c) ∧ f.rd = 0 ∧
    ((s.atFetch (coreNum c)).core (coreNum c)).benchMode = false ∧ (f.imm.toNat) = 0x11 :=
  ⟨running c0, c0, ⟨0, 2, 0x11⟩, ready (by decide +kernel), by decide +kernel, by decide +kernel, by decide +kernel⟩

theorem wit_SpecialRegisterMoves_27 : ∃ (s : State) (c : CoreId) (f : FmtB), s.ready (coreNum c) ∧ f.rd = 0 ∧
    ((s.atFetch (coreNum c)).core (coreNum c)).benchMode = false ∧ (f.imm.toNat) = 0x12 ∧
    (((coreNum c) < 32 ∨ (((s.atFetch (coreNum c)).core (coreNum c)).gr f.ra.toNat).getLsbD 4 = false)) :=
  ⟨running r0, r0, ⟨0, 2, 0x12⟩, ready (by decide +kernel), by decide +kernel, by decide +kernel, by decide +kernel, by decide +kernel⟩

theorem wit_SpecialRegisterMoves_28 : ∃ (s : State) (c : CoreId) (f : FmtB), s.ready (coreNum c) ∧ f.rd = 0 ∧
    ((s.atFetch (coreNum c)).core (coreNum c)).benchMode = false ∧ (f.imm.toNat) = 0x13 ∧
    (((s.atFetch (coreNum c)).core (coreNum c)).gr f.ra.toNat).getLsbD 16 = false :=
  ⟨running c0, c0, ⟨0, 2, 0x13⟩, ready (by decide +kernel), by decide +kernel, by decide +kernel, by decide +kernel, by decide +kernel⟩

theorem wit_SpecialRegisterMoves_29 : ∃ (s : State) (c : CoreId) (f : FmtB), s.ready (coreNum c) ∧ f.rd = 0 ∧
    ((s.atFetch (coreNum c)).core (coreNum c)).benchMode = false ∧ (f.imm.toNat) = 0x13 ∧
    (((s.atFetch (coreNum c)).core (coreNum c)).gr f.ra.toNat).getLsbD 16 = true :=
  ⟨running c0 fun x => x.setG 2 0x10000, c0, ⟨0, 2, 0x13⟩, ready (by decide +kernel), by decide +kernel, by decide +kernel,
    by decide +kernel, by decide +kernel⟩

theorem wit_SpecialRegisterMoves_30 : ∃ (s : State) (c : CoreId) (f : FmtB), s.ready (coreNum c) ∧ f.rd = 0 ∧
    ((s.atFetch (coreNum c)).core (coreNum c)).benchMode = false ∧ (f.imm.toNat) = 0x14 :=
  ⟨running c0, c0, ⟨0, 2, 0x14⟩, ready (by decide +kernel), by decide +kernel, by decide +kernel, by decide +kernel⟩

theorem wit_SpecialRegisterMoves_31 : ∃ (s : State) (c : CoreId) (f : FmtB), s.ready (coreNum c) ∧ f.rd = 0 ∧
    ((s.atFetch (coreNum c)).core (coreNum c)).benchMode = false ∧ (f.imm.toNat) = 0x15 :=
  ⟨running c0, c0, ⟨0, 2, 0x15⟩, ready (by decide +kernel), by decide +kernel, by decide +kernel, by decide +kernel⟩

theorem wit_SpecialRegisterMoves_32 : ∃ (s : State) (c : CoreId) (f : FmtB), s.ready (coreNum c) ∧ f.rd = 0 ∧
    ((s.atFetch (coreNum c)).core (coreNum c)).benchMode = false ∧ (f.imm.toNat) = 0x16 :=
  ⟨running c0, c0, ⟨0, 2, 0x16⟩, ready (by decide +kernel), by decide +kernel, by decide +kernel, by decide +kernel⟩

theorem wit_SpecialRegisterMoves_33 : ∃ (s : State) (c : CoreId) (f : FmtB), s.ready (coreNum c) ∧ f.rd = 0 ∧
    ((s.atFetch (coreNum c)).core (coreNum c)).benchMode = false ∧ (f.imm.toNat) = 0x17 ∧
    (((s.atFetch (coreNum c)).core (coreNum c)).gr f.ra.toNat).getLsbD 1 = ((s.atFetch (coreNum c)).core (coreNum c)).tctl.getLsbD 1 ∧
    (((((s.atFetch (coreNum c)).core (coreNum c)).gr f.ra.toNat).getLsbD 1 = false ∨ ((s.atFetch (coreNum c)).core (coreNum c)).wdogLoad
    ≠ 0)) :=
  ⟨running c0, c0, ⟨0, 2, 0x17⟩, ready (by decide +kernel), by decide +kernel, by decide +kernel, by decide +kernel, by decide +kernel,
    by decide +kernel⟩

theorem wit_SpecialRegisterMoves_34 : ∃ (s : State) (c : CoreId) (f : FmtB), s.ready (coreNum c) ∧ f.rd = 0 ∧
    ((s.atFetch (coreNum c)).core (coreNum c)).benchMode = false ∧ (f.imm.toNat) = 0x17 ∧
    (((s.atFetch (coreNum c)).core (coreNum c)).gr f.ra.toNat).getLsbD 1 = true ∧
    ((s.atFetch (coreNum c)).core (coreNum c)).wdogLoad = 0 :=
  ⟨running c0 fun x => x.setG 2 2, c0, ⟨0, 2, 0x17⟩, ready (by decide +kernel), by decide +kernel, by decide +kernel, by decide +kernel,
    by decide +kernel, by decide +kernel⟩

theorem wit_SpecialRegisterMoves_35 : ∃ (s : State) (c : CoreId) (f : FmtB), s.ready (coreNum c) ∧ f.rd = 0 ∧
    ((s.atFetch (coreNum c)).core (coreNum c)).benchMode = false ∧ (f.imm.toNat) = 0x18 ∧
    ((((s.atFetch (coreNum c)).core (coreNum c)).tctl.getLsbD 1 = false ∨ (((s.atFetch (coreNum c)).core (coreNum c)).gr
    f.ra.toNat).toNat % 2 ^ 32 ≠ 0)) :=
  ⟨running c0, c0, ⟨0, 2, 0x18⟩, ready (by decide +kernel), by decide +kernel, by decide +kernel, by decide +kernel, by decide +kernel⟩

theorem wit_SpecialRegisterMoves_36 : ∃ (s : State) (c : CoreId) (f : FmtB) (w : Nat), w < 16 ∧ s.ready (coreNum c) ∧ f.rd = 0 ∧
    ((s.atFetch (coreNum c)).core (coreNum c)).benchMode = false ∧ (f.imm.toNat) = 0x100 + 4 * w ∧
    (((s.atFetch (coreNum c)).core (coreNum c)).gr f.ra.toNat).toNat % 64 = 0 :=
  ⟨running c0, c0, ⟨0, 2, 0x13c⟩, 15, by decide +kernel, ready (by decide +kernel), by decide +kernel, by decide +kernel,
    by decide +kernel, by decide +kernel⟩

theorem wit_SpecialRegisterMoves_37 : ∃ (s : State) (c : CoreId) (f : FmtB) (w : Nat), w < 16 ∧ s.ready (coreNum c) ∧ f.rd = 0 ∧
    ((s.atFetch (coreNum c)).core (coreNum c)).benchMode = false ∧ (f.imm.toNat) = 0x101 + 4 * w ∧
    (((s.atFetch (coreNum c)).core (coreNum c)).wa w).getLsbD 7 = false :=
  ⟨running c0, c0, ⟨0, 2, 0x13d⟩, 15, by decide +kernel, ready (by decide +kernel), by decide +kernel, by decide +kernel,
    by decide +kernel, by decide +kernel⟩

theorem wit_SpecialRegisterMoves_38 : ∃ (s : State) (c : CoreId) (f : FmtB) (w : Nat), w < 16 ∧ s.ready (coreNum c) ∧ f.rd = 0 ∧
    ((s.atFetch (coreNum c)).core (coreNum c)).benchMode = false ∧ (f.imm.toNat) = 0x102 + 4 * w ∧
    badWattr (coreNum c) (((s.atFetch (coreNum c)).core (coreNum c)).gr f.ra.toNat) (((s.atFetch (coreNum c)).core (coreNum c)).wl w) =
    false :=
  ⟨running c0, c0, ⟨0, 2, 0x13e⟩, 15, by decide +kernel, ready (by decide +kernel), by decide +kernel, by decide +kernel,
    by decide +kernel, by decide +kernel⟩

theorem wit_SpecialRegisterMoves_39 : ∃ (s : State) (c : CoreId) (f : FmtB) (w : Nat), w < 16 ∧ s.ready (coreNum c) ∧ f.rd = 0 ∧
    ((s.atFetch (coreNum c)).core (coreNum c)).benchMode = false ∧ (f.imm.toNat) = 0x102 + 4 * w ∧
    badWattr (coreNum c) (((s.atFetch (coreNum c)).core (coreNum c)).gr f.ra.toNat) (((s.atFetch (coreNum c)).core (coreNum c)).wl w) =
    true :=
  ⟨running c0 fun x => x.setG 2 0x30, c0, ⟨0, 2, 0x13e⟩, 15, by decide +kernel, ready (by decide +kernel), by decide +kernel,
    by decide +kernel, by decide +kernel, by decide +kernel⟩

theorem wit_SpecialRegisterMoves_40 : ∃ (s : State) (c : CoreId) (f : FmtB), s.ready (coreNum c) ∧ f.rd = 0 ∧
    ((s.atFetch (coreNum c)).core (coreNum c)).benchMode = true ∧ (((0x10 ≤ (f.imm.toNat) ∧
    (f.imm.toNat) ≤ 0x18) ∨ (0x100 ≤ (f.imm.toNat) ∧ (f.imm.toNat) < 0x140 ∧ (f.imm.toNat) % 4 ≠ 3))) :=
  ⟨benching c0, c0, ⟨0, 2, 0x13e⟩, ready (by decide +kernel), by decide +kernel, by decide +kernel, by decide +kernel⟩

theorem wit_SpecialRegisterMoves_41 : ∃ (s : State) (c : CoreId) (f : FmtB), s.ready (coreNum c) ∧ f.rd = 0 ∧ ((4 ≤ (f.imm.toNat) ∧
    (f.imm.toNat) < 0x10) ∨ (0x1A ≤ (f.imm.toNat) ∧ (f.imm.toNat) < 0x100) ∨ (0x100 ≤ (f.imm.toNat) ∧ (f.imm.toNat) < 0x140 ∧
    (f.imm.toNat) % 4 = 3) ∨ 0x140 ≤ (f.imm.toNat)) :=
  ⟨running c0, c0, ⟨0, 2, 0x140⟩, ready (by decide +kernel), by decide +kernel, by decide +kernel⟩

theorem wit_TrapsAndTheirReturn_0 : ∃ (s : State) (k : Nat) (t : TrapInfo), t.vec < 10 ∧ t.detail < 256 ∧
    ((s.core k).tcause.getLsbD 16 = false ∨ t.vec = 8) :=
  ⟨running c0, 0, ⟨9, 0, 255⟩, by decide +kernel⟩

theorem wit_TrapsAndTheirReturn_1 : ∃ (s : State) (k : Nat) (t : TrapInfo), t.vec < 10 ∧ t.detail < 256 ∧
    (s.core k).tcause.getLsbD 16 = true ∧ t.vec ≠ 8 ∧ (s.core k).bench = none :=
  ⟨running c0 fun x => { x with tcause := 0x10000 }, 0, ⟨3, 0, 0⟩, by decide +kernel⟩

theorem wit_TrapsAndTheirReturn_2 : ∃ (s : State) (c : CoreId) (f : FmtY), s.ready (coreNum c) ∧ f.rd = 0 ∧ f.ra = 0 ∧ f.rb = 0 :=
  ⟨running c0, c0, ⟨0, 0, 0⟩, ready (by decide +kernel), by decide +kernel, by decide +kernel, by decide +kernel⟩

theorem wit_TrapsAndTheirReturn_3 : ∃ (s : State) (c : CoreId) (f : FmtY), s.ready (coreNum c) ∧ f.rd = 0 :=
  ⟨running c0, c0, ⟨0, 31, 31⟩, ready (by decide +kernel), by decide +kernel⟩

theorem wit_TrapsAndTheirReturn_4 : ∃ (s : State) (c : CoreId) (f : FmtY), s.ready (coreNum c) ∧ f.rd = 0 ∧ f.ra = 0 ∧ f.rb = 0 ∧
    ((s.atFetch (coreNum c)).core (coreNum c)).benchMode = false ∧ ((((s.atFetch (coreNum c)).core (coreNum c)).tps.getLsbD 4 = false ∨ ∀
    r, ((s.atFetch (coreNum c)).core (coreNum c)).bench = some r → r.late = 0)) :=
  ⟨running c0, c0, ⟨0, 0, 0⟩, ready (by decide +kernel), by decide +kernel, by decide +kernel, by decide +kernel, by decide +kernel,
    by decide +kernel⟩

theorem wit_TrapsAndTheirReturn_5 : ∃ (s : State) (c : CoreId) (f : FmtY), s.ready (coreNum c) ∧ f.rd = 0 ∧ f.ra = 0 ∧ f.rb = 0 ∧
    ((s.atFetch (coreNum c)).core (coreNum c)).benchMode = true :=
  ⟨benching c0, c0, ⟨0, 0, 0⟩, ready (by decide +kernel), by decide +kernel, by decide +kernel, by decide +kernel, by decide +kernel⟩

theorem wit_IllegalEncodings_0 : ∃ (s : State) (c : CoreId) (w : BitVec 32), s.ready (coreNum c) ∧
    ((w.toNat / 2 ^ 26 = 0 ∨ w.toNat / 2 ^ 26 = 0x3F)) :=
  ⟨running c0, c0, 0xFFFF_FFFF, ready (by decide +kernel), by decide +kernel⟩

theorem wit_IllegalEncodings_1 : ∃ (s : State) (c : CoreId) (w : BitVec 32), s.ready (coreNum c) ∧ w.toNat / 2 ^ 26 = 1 ∧
    intFunc (w.toNat % 1024) = false :=
  ⟨running c0, c0, 0x0400_03FF, ready (by decide +kernel), by decide +kernel, by decide +kernel⟩

theorem wit_IllegalEncodings_2 : ∃ (s : State) (c : CoreId) (w : BitVec 32), s.ready (coreNum c) ∧ w.toNat / 2 ^ 26 = 3 ∧
    sysFunc (w.toNat % 2048) = false :=
  ⟨running c0, c0, 0x0C00_07FF, ready (by decide +kernel), by decide +kernel, by decide +kernel⟩

theorem wit_IllegalEncodings_3 : ∃ (s : State) (c : CoreId) (w : BitVec 32), s.ready (coreNum c) ∧ w.toNat / 2 ^ 26 = 4 ∧
    vopFunc (w.toNat % 2048) = false :=
  ⟨running c0, c0, 0x1000_07FF, ready (by decide +kernel), by decide +kernel, by decide +kernel⟩

theorem wit_IllegalEncodings_4 : ∃ (s : State) (c : CoreId) (f : FmtA) (n : Nat) (j : Instr), s.ready (coreNum c) ∧ f.rb ≠ 0 ∧
    (n, j) ∈ [(0x20, Instr.clz c f), (0x21, .ctz c f), (0x22, .popc c f), (0x23, .bswap c f), (0x24, .sext8 c f), (0x25, .sext16 c f),
    (0x26, .sext32 c f), (0x28, .zext8 c f), (0x29, .zext16 c f), (0x2A, .zext32 c f)] :=
  ⟨running c0, c0, ⟨1, 2, 1, false⟩, 0x20, .clz c0 ⟨1, 2, 1, false⟩, ready (by decide +kernel), by decide +kernel, by decide +kernel⟩

theorem wit_IllegalEncodings_5 : ∃ (s : State) (c : CoreId) (f : FmtB) (op : Nat) (j : Instr), s.ready (coreNum c) ∧ f.rd ≠ 0 ∧
    (op, j) ∈ [(0x0E, Instr.cmpi c f), (0x12, .tsti c f), (0x0A, .mts c f), (0x08, .callr c f)] :=
  ⟨running c0, c0, ⟨1, 2, 1⟩, 0x0E, .cmpi c0 ⟨1, 2, 1⟩, ready (by decide +kernel), by decide +kernel, by decide +kernel⟩

theorem wit_IllegalEncodings_6 : ∃ (s : State) (c : CoreId) (f : FmtB) (op : Nat) (j : Instr), s.ready (coreNum c) ∧ f.ra ≠ 0 ∧
    (op, j) ∈ [(0x0B, Instr.movi c f), (0x09, .mfs c f), (0x07, .bcc c f)] :=
  ⟨running c0, c0, ⟨1, 2, 1⟩, 0x0B, .movi c0 ⟨1, 2, 1⟩, ready (by decide +kernel), by decide +kernel, by decide +kernel⟩

theorem wit_IllegalEncodings_7 : ∃ (s : State) (c : CoreId) (f : FmtB) (op : Nat) (j : Instr), s.ready (coreNum c) ∧ 64 ≤ f.imm.toNat ∧
    (op, j) ∈ [(0x13, Instr.shli c f), (0x14, .shri c f), (0x15, .sari c f), (0x16, .rori c f)] :=
  ⟨running c0, c0, ⟨1, 2, 64⟩, 0x13, .shli c0 ⟨1, 2, 64⟩, ready (by decide +kernel), by decide +kernel, by decide +kernel⟩

theorem wit_IllegalEncodings_8 : ∃ (s : State) (c : CoreId) (f : FmtB), s.ready (coreNum c) ∧ f.ra = 0 ∧ f.rd = 0xF :=
  ⟨running c0, c0, ⟨0xF, 0, 64⟩, ready (by decide +kernel), by decide +kernel, by decide +kernel⟩

theorem wit_IllegalEncodings_9 : ∃ (s : State) (c : CoreId) (f : FmtY) (n : Nat) (j : Instr), s.ready (coreNum c) ∧ f.rd ≠ 0 ∧
    (n, j) ∈ [(0, Instr.ret c f), (1, .tret c f), (2, .jr c f), (3, .brk c f), (4, .svc c f), (9, .sev c f)] :=
  ⟨running c0, c0, ⟨1, 0, 0⟩, 0, .ret c0 ⟨1, 0, 0⟩, ready (by decide +kernel), by decide +kernel, by decide +kernel⟩

theorem wit_IllegalEncodings_10 : ∃ (s : State) (c : CoreId) (f : FmtX) (op : Nat) (j : Instr), s.ready (coreNum c) ∧
    f.f.toNat % 512 ≠ 0 ∧ (op, j) ∈ [(0x35, Instr.ldbc c f), (0x36, .stbc c f), (0x37, .setb c f), (0x38, .clrb c f), (0x39, .invb c f),
    (0x3A, .andbc c f), (0x3B, .orbc c f), (0x3C, .xorbc c f), (0x3D, .tas c f)] :=
  ⟨running c0, c0, ⟨0, 1⟩, 0x35, .ldbc c0 ⟨0, 1⟩, ready (by decide +kernel), by decide +kernel, by decide +kernel⟩

theorem wit_IllegalEncodings_11 : ∃ (s : State) (c : CoreId) (f : FmtV) (n : Nat) (j : Instr), s.ready (coreNum c) ∧ 32 ≤ (coreNum c) ∧
    (n, j) ∈ [(0x00, Instr.vadd c f), (0x01, .vsub c f), (0x02, .vmul c f), (0x03, .vmulhu c f), (0x04, .vmla c f), (0x08, .vand c f),
    (0x09, .vor c f), (0x0A, .vxor c f), (0x0B, .vandn c f), (0x0C, .vminu c f), (0x0D, .vmaxu c f), (0x10, .vcmpeq c f), (0x11, .vcmpgtu
    c f), (0x12, .vcmpgts c f), (0x18, .vshl c f), (0x19, .vshr c f), (0x1A, .vsar c f), (0x20, .vpopc c f), (0x21, .vsplat c f), (0x22,
    .vperm c f)] :=
  ⟨running r0, r0, ⟨1, 2, 3, 0⟩, 0, .vadd r0 ⟨1, 2, 3, 0⟩, ready (by decide +kernel), by decide +kernel, by decide +kernel⟩

theorem wit_IllegalEncodings_12 : ∃ (s : State) (c : CoreId) (f : FmtM) (op : Nat) (j : Instr), s.ready (coreNum c) ∧ 32 ≤ (coreNum c) ∧
    (op, j) ∈ [(0x28, Instr.vld c f), (0x29, .vst c f)] :=
  ⟨running r0, r0, ⟨1, 2, 3, 0⟩, 0x28, .vld r0 ⟨1, 2, 3, 0⟩, ready (by decide +kernel), by decide +kernel, by decide +kernel⟩

theorem wit_BitInstructions_0 : ∃ (s : State) (c : CoreId), s.ready (coreNum c) :=
  ⟨running c0, c0, ready (by decide +kernel)⟩

theorem wit_BitInstructions_1 : ∃ (s : State) (c : CoreId) (f : FmtX), s.ready (coreNum c) ∧ f.f = 0 :=
  ⟨running c0, c0, ⟨4351, 0⟩, ready (by decide +kernel), by decide +kernel⟩

theorem wit_BitInstructions_2 : ∃ (bn : Nat), bn < 4352 :=
  ⟨4351, by decide +kernel⟩

theorem wit_BitInstructions_3 : ∃ (bn : Nat), 4352 ≤ bn :=
  ⟨4352, by decide +kernel⟩

theorem wit_BitInstructions_4 : ∃ (bn : Nat) (b : _), b ≠ bn ∧ b < 8192 :=
  ⟨4351, 8191, by decide +kernel⟩

theorem wit_BitInstructions_5 : ∃ (b : _), 4352 ≤ b ∧ b < 8192 :=
  ⟨4352, by decide +kernel⟩

theorem wit_JumpsCallsAndReturns_0 : ∃ (s : State) (c : CoreId), s.ready (coreNum c) :=
  ⟨running c0, c0, ready (by decide +kernel)⟩

theorem wit_JumpsCallsAndReturns_1 : ∃ (s : State) (c : CoreId) (f : FmtY), s.ready (coreNum c) ∧ f.rd = 0 ∧ f.rb = 0 :=
  ⟨running c0, c0, ⟨0, 1, 0⟩, ready (by decide +kernel), by decide +kernel, by decide +kernel⟩

theorem wit_JumpsCallsAndReturns_2 : ∃ (s : State) (c : CoreId), s.ready (coreNum c) :=
  ⟨running c0, c0, ready (by decide +kernel)⟩

theorem wit_EventInstructions_0 : ∃ (s : State) (c : CoreId) (f : FmtY) (g : Nat), s.ready (coreNum c) ∧ f.ra.toNat = g ∧ g < 8 ∧
    f.rb = 0 ∧ ((s.atFetch (coreNum c)).core (coreNum c)).benchMode = true ∧ g ≠ 7 :=
  ⟨benching c0, c0, ⟨1, 6, 0⟩, 6, ready (by decide +kernel), by decide +kernel, by decide +kernel, by decide +kernel, by decide +kernel,
    by decide +kernel⟩

theorem wit_EventInstructions_1 : ∃ (s : State) (c : CoreId) (f : FmtY) (g : Nat), s.ready (coreNum c) ∧ f.ra.toNat = g ∧ g < 8 ∧
    f.rb = 0 ∧ (((s.atFetch (coreNum c)).core (coreNum c)).benchMode = false ∨ g = 7) :=
  ⟨benching c0, c0, ⟨1, 7, 0⟩, 7, ready (by decide +kernel), by decide +kernel, by decide +kernel, by decide +kernel, by decide +kernel⟩

theorem wit_EventInstructions_2 : ∃ (s : State) (c : CoreId) (f : FmtY), s.ready (coreNum c) ∧ f.rb = 0 :=
  ⟨running c0, c0, ⟨1, 2, 0⟩, ready (by decide +kernel), by decide +kernel⟩

theorem wit_EventInstructions_3 : ∃ (s : State) (c : CoreId) (f : FmtY) (t : _), s.ready (coreNum c) ∧ f.rd = 0 ∧
    ((((((s.atFetch (coreNum c)).core (coreNum c)).gr f.ra.toNat).toNat % 1024) = t ∧
    t < 32 ∨ ((((s.atFetch (coreNum c)).core (coreNum c)).gr f.ra.toNat).toNat % 1024) = 256 + (t - 32) ∧ 32 ≤ t ∧
    t < 40 ∨ ((((s.atFetch (coreNum c)).core (coreNum c)).gr f.ra.toNat).toNat % 1024) = 512 ∧ t = 40 ∧ (coreNum c) = 40)) :=
  ⟨running c0 fun x => x.setG 2 263, c0, ⟨0, 2, 0⟩, 39, ready (by decide +kernel), by decide +kernel, by decide +kernel⟩

theorem wit_EventInstructions_4 : ∃ (s : State) (c : CoreId) (f : FmtY), s.ready (coreNum c) ∧ f.rd = 0 ∧
    (32 ≤ ((((s.atFetch (coreNum c)).core (coreNum c)).gr f.ra.toNat).toNat % 1024) % 256 ∧
    ((((s.atFetch (coreNum c)).core (coreNum c)).gr f.ra.toNat).toNat % 1024) < 256 ∨ 264 ≤ ((((s.atFetch (coreNum c)).core (coreNum
    c)).gr f.ra.toNat).toNat % 1024) ∧ ((((s.atFetch (coreNum c)).core (coreNum c)).gr f.ra.toNat).toNat % 1024) < 512 ∨ 513 ≤
    ((((s.atFetch (coreNum c)).core (coreNum c)).gr f.ra.toNat).toNat % 1024) ∨ ((((s.atFetch (coreNum c)).core (coreNum c)).gr
    f.ra.toNat).toNat % 1024) = 512 ∧ (coreNum c) ≠ 40) :=
  ⟨running c0 fun x => x.setG 2 32, c0, ⟨0, 2, 0⟩, ready (by decide +kernel), by decide +kernel, by decide +kernel⟩

theorem wit_WaitsAndAsynchronousTraps_0 : ∃ (s : State) (c : CoreId), s.attends (coreNum c) = true :=
  ⟨running c0, c0, by decide +kernel⟩

theorem wit_WaitsAndAsynchronousTraps_1 : ∃ (s : State) (c : CoreId), s.attends (coreNum c) = true ∧
    (s.core (coreNum c)).tcause.getLsbD 16 = false ∧ (s.core (coreNum c)).tctl.getLsbD 1 = true ∧ (s.core (coreNum c)).wdogOnce = false ∧
    (s.core (coreNum c)).wdogFrom.toNat + (s.core (coreNum c)).wdogCount.toNat * 1024 < 2 ^ 64 ∧ s.fab = true :=
  ⟨running c0 fun x => { x with tctl := 2, wdogLoad := 5, wdogCount := 5 }, c0, by decide +kernel⟩

theorem wit_WaitsAndAsynchronousTraps_2 : ∃ (s : State) (c : CoreId), s.attends (coreNum c) = true ∧
    (s.core (coreNum c)).tctl.getLsbD 1 = true ∧ (s.core (coreNum c)).wdogOnce = true ∧ (s.core (coreNum c)).bench = none ∧
    (coreNum c) < 40 ∧ (s.core (coreNum c)).wdogFrom.toNat + (s.core (coreNum c)).wdogCount.toNat * 1024 < 2 ^ 64 ∧ s.fab = true :=
  ⟨running c0 fun x => { x with tctl := 2, wdogLoad := 5, wdogCount := 5, wdogOnce := true }, c0, by decide +kernel⟩

theorem wit_WaitsAndAsynchronousTraps_3 : ∃ (s : State) (c : CoreId), s.attends (coreNum c) = true ∧
    (s.core (coreNum c)).tcause.getLsbD 16 = false ∧ s.wdogDue (s.core (coreNum c)) = false ∧ (s.core (coreNum c)).storeErr = [] :=
  ⟨running c0, c0, by decide +kernel⟩

theorem wit_WaitsAndAsynchronousTraps_4 : ∃ (s : State) (c : CoreId) (a : _) (r : _), s.attends (coreNum c) = true ∧
    (s.core (coreNum c)).tcause.getLsbD 16 = false ∧ s.wdogDue (s.core (coreNum c)) = false ∧ (s.core (coreNum c)).storeErr = a :: r :=
  ⟨running c0 fun x => { x with storeErr := [8, 16] }, c0, 8, [16], by decide +kernel⟩

theorem wit_WaitsAndAsynchronousTraps_5 : ∃ (s : State) (c : CoreId), s.attends (coreNum c) = true ∧
    (s.core (coreNum c)).tcause.getLsbD 16 = false ∧ (s.core (coreNum c)).tctl.getLsbD 0 = true ∧
    (s.core (coreNum c)).ps.getLsbD 5 = true ∧ (s.core (coreNum c)).tctl.getLsbD 1 = false ∧ (s.core (coreNum c)).storeErr = [] ∧
    (s.core (coreNum c)).benchMode = false ∧ s.fab = true :=
  ⟨running c0 fun x => { x with tctl := 1, ps := 0x20, tcmp := 100 }, c0, by decide +kernel⟩

theorem wit_WaitsAndAsynchronousTraps_6 : ∃ (s : State) (c : CoreId), s.attends (coreNum c) = true ∧
    (s.core (coreNum c)).ps.getLsbD 5 = false :=
  ⟨running c0, c0, by decide +kernel⟩

theorem wit_HeaderCommandsAct_0 : ∃ (s : State) (page : Nat) (b : Blk), blkAt page = some b ∧ page < 4096 ∧
    s.bit b.base Reg.LOCK 2 = false :=
  ⟨on [pFmt], pFmt, blkOf pFmt, by decide +kernel⟩

theorem wit_HeaderCommandsAct_1 : ∃ (s : State) (page : Nat) (b : Blk), blkAt page = some b ∧ s.bit b.base Reg.LOCK 0 = false ∧
    s.fget b.base Reg.BLK_CTRL 4 4 ≤ 2 :=
  ⟨on [pFmt], pFmt + 1, blkOf pFmt, by decide +kernel⟩

theorem wit_HeaderCommandsAct_2 : ∃ (s : State) (page : Nat) (b : Blk), blkAt page = some b ∧ (s.blk b.base).srst = true :=
  ⟨{ on [pFmt] with blks := [(pFmt, { (on [pFmt]).blk pFmt with srst := true })] }, pFmt, blkOf pFmt, by decide +kernel⟩

theorem wit_HeaderCommandsAct_3 : ∃ (s : State) (page : Nat) (b : Blk), blkAt page = some b ∧ s.bit b.base Reg.LOCK 1 = false ∧
    (s.blk b.base).active = false ∧ s.commitBusy b = false :=
  ⟨on [pFmt], pFmt, blkOf pFmt, by decide +kernel⟩

theorem wit_HeaderCommandsAct_4 : ∃ (s : State) (page : Nat) (b : Blk), blkAt page = some b ∧ s.bit b.base Reg.LOCK 1 = false ∧
    (s.blk b.base).active = false ∧ s.commitBusy b = true :=
  ⟨{ (on [pFmt]).fset pFmt Reg.FMT_STAT 0 1 1 with shadows := [(regKey pFmt Reg.FMT_WFMT, 0x81)] }, pFmt, blkOf pFmt, by decide +kernel⟩

theorem wit_HeaderCommandsAct_5 : ∃ (s : State) (page : Nat) (b : Blk), blkAt page = some b ∧ (s.blk b.base).active = true ∧
    (s.blk b.base).held = false ∧ (s.blk b.base).older.length < 3 :=
  ⟨{ on [pFmt] with blks := [(pFmt, { (on [pFmt]).blk pFmt with active := true })] }, pFmt, blkOf pFmt, by decide +kernel⟩

theorem wit_HeaderCommandsAct_6 : ∃ (s : State) (page : Nat) (b : Blk), blkAt page = some b ∧ s.bit b.base Reg.LOCK 1 = false :=
  ⟨on [pFmt], pFmt, blkOf pFmt, by decide +kernel⟩

theorem wit_HeaderCommandsAct_7 : ∃ (page : Nat) (b : Blk), blkAt page = some b :=
  ⟨pFmt, blkOf pFmt, by decide +kernel⟩

theorem wit_HeaderCommandsAct_8 : ∃ (page : Nat) (b : Blk), blkAt page = some b ∧ page < 4096 :=
  ⟨pEmt + 7, blkOf pEmt, by decide +kernel⟩

theorem wit_SignalPathCommandsAct_0 : ∃ (s : State) (trks : List (Fin 64)) (smp : List AdcSample) (n : Nat), s.tape.pass.isSome = true ∧
    n < 70 ∧ (s.fresh.takeSamples smp).chEn n = true ∧ (s.fresh.takeSamples smp).atBoundary trks n = true :=
  ⟨put (put (passing false) (pCh 1) Reg.CH_CFG 0 1 1) (pTdt + 3) (Reg.TDT_MAP 0) 0 9 0x101 |> fun s => put s pTdt Reg.TDT_CTRL 8 7 1,
    [0], [], 1, by decide +kernel⟩

theorem wit_SignalPathCommandsAct_1 : ∃ (s : State) (smp : List AdcSample) (n : Fin 70), s.tape.pass.isSome = true ∧
    (s.fresh.takeSamples smp).dropped n = false ∧ ((s.fresh.takeSamples smp).chan n).win.length = (s.fresh.takeSamples smp).tfeF pTfe
    Reg.TFE_DROP 16 8 ∧ ((s.fresh.takeSamples smp).chan n).win.sum < (s.fresh.takeSamples smp).tfeF pTfe Reg.TFE_DROP 0 8 *
    (s.fresh.takeSamples smp).tfeF pTfe Reg.TFE_DROP 16 8 :=
  ⟨(input fun c => { c with win := List.replicate ((passing false).tfeF pTfe Reg.TFE_DROP 16 8) 0 }), [], 1, by decide +kernel⟩

theorem wit_SignalPathCommandsAct_2 : ∃ (s : State) (smp : List AdcSample) (n : Fin 70), s.tape.pass.isSome = true ∧
    (s.fresh.takeSamples smp).dropped n = true ∧ ((s.fresh.takeSamples smp).chan n).win.length = (s.fresh.takeSamples smp).tfeF pTfe
    Reg.TFE_DROP 16 8 ∧ (s.fresh.takeSamples smp).tfeF pTfe Reg.TFE_DROP 8 8 * (s.fresh.takeSamples smp).tfeF pTfe Reg.TFE_DROP 16 8 <
    ((s.fresh.takeSamples smp).chan n).win.sum :=
  ⟨put (input fun c => { c with win := List.replicate ((passing false).tfeF pTfe Reg.TFE_DROP 16 8) 255 }) (pCh 1) Reg.CH_STAT 0 1 1, [],
    1, by decide +kernel⟩

theorem wit_SignalPathCommandsAct_3 : ∃ (s : State) (smp : List AdcSample) (n : Fin 70), s.tape.pass.isSome = true ∧ n.val < 66 ∧
    (s.fresh.takeSamples smp).tim n 8 1 2 = 1 ∧ ((256 ≤ ((s.fresh.takeSamples smp).chan n).lowRun ∨ 64 ≤ n.val)) ∧
    ((s.fresh.takeSamples smp).chan n).waits = false ∧ (s.fresh.takeSamples smp).rateErr = false :=
  ⟨put (put (input fun c => { c with lowRun := 256 }) pTdt Reg.TDT_NOMRATE 0 12 0x400) (pTdt + 1) (Reg.TDT_TIM 1 8) 0 3 2, [], 1,
    by decide +kernel⟩

theorem wit_SignalPathCommandsAct_4 : ∃ (s : State) (smp : List AdcSample) (n : Fin 70), s.tape.pass.isSome = true ∧ n.val < 66 ∧
    (s.fresh.takeSamples smp).tim n 8 0 1 = 1 ∧ (s.fresh.takeSamples smp).dropped n = false ∧
    ((((s.fresh.takeSamples smp).chan n).fAtLim = true ∨ 1024 ≤ ((s.fresh.takeSamples smp).chan n).highRun)) :=
  ⟨put (put (input fun c => { c with highRun := 1024 }) pTdt Reg.TDT_NOMRATE 0 12 0x400) (pTdt + 1) (Reg.TDT_TIM 1 8) 0 3 1, [], 1,
    by decide +kernel⟩

theorem wit_SignalPathCommandsAct_5 : ∃ (s : State) (smp : List AdcSample) (k : Fin 64), s.tape.pass.isSome = true ∧
    4096 ≤ ((s.fresh.takeSamples smp).cpl k).lower.1 ∧ ((s.fresh.takeSamples smp).cpl k).lower.2 = true ∧
    (s.fresh.takeSamples smp).fget (pTdt + 2) (Reg.TDT_CPL k 0x08) 16 4 ∉ [7, 8] :=
  ⟨(passing false).setCpl 63 { (passing false).cpl 63 with lower := (4096, true) }, [], 63, by decide +kernel⟩

theorem wit_SignalPathCommandsAct_6 : ∃ (s : State) (smp : List AdcSample) (k : Fin 64), s.tape.pass.isSome = true ∧
    (s.fresh.takeSamples smp).fget (pTdt + 2) (Reg.TDT_CPL k 0x08) 16 4 ∈ [7, 8] :=
  ⟨put (passing false) (pTdt + 2) (Reg.TDT_CPL 63 0x08) 16 4 8, [], 63, by decide +kernel⟩

theorem wit_SignalPathCommandsAct_7 : ∃ (s : State) (write : Bool), s.tape.pass = none ∧ s.streaming = true ∧
    ((if write then s.bit pFmt Reg.FMT_CTRL 0 = true ∧ s.fget pFmt Reg.FMT_WFMT 7 1 = 1 else s.bit pFmt Reg.FMT_CTRL 1 = true ∧
    s.readSlots ≠ [])) ∧ s.intake pTfe = true ∧ s.intake pTdt = true ∧ s.intake pFmt = true :=
  ⟨put (put (put (on [pTfe, pTdt, pFmt]) pTpi Reg.TPI_STAT 16 1 1) pFmt Reg.FMT_CTRL 0 2 3) pFmt Reg.FMT_WFMT 7 1 1, true,
    by decide +kernel⟩

theorem wit_SignalPathCommandsAct_8 : ∃ (s : State), s.tape.pass.isSome = true :=
  ⟨passing true, by decide +kernel⟩

theorem wit_SignalPathCommandsAct_9 : ∃ (s : State), s.enabled pTdt = true :=
  ⟨on [pTdt], by decide +kernel⟩

theorem wit_SignalPathCommandsAct_10 : ∃ (s : State) (r : Redetect) (q : List Redetect), s.tape.queue = r :: q ∧
    s.tape.units.length < 4 :=
  ⟨{ State.reset with tape := { State.reset.tape with queue := [⟨3, 0, 64, false⟩] } }, ⟨3, 0, 64, false⟩, [], by decide +kernel⟩

theorem wit_SignalPathCommandsAct_11 : ∃ (s : State) (u : Fin 4) (r : RedetUnit), s.tape.units[u.val]? = some r :=
  ⟨{ State.reset with tape := { State.reset.tape with units := [⟨⟨3, 0, 64, false⟩, []⟩] } }, 0, ⟨⟨3, 0, 64, false⟩, []⟩,
    by decide +kernel⟩

theorem wit_FormatEngineCommandsAct_0 : ∃ (s : State) (trk : Fin 64) (smp : List AdcSample) (k : Nat) (l : List Int) (al : Option
    Sys2Proof.Machine.Alignment), (s.fresh.takeSamples smp).tape.pass.isSome = true ∧
    (s.fresh.takeSamples smp).frameFormat trk (mapGet (fun _ => 0) (s.fresh.takeSamples smp).fmt.leadIn trk == 0) = some (k, l, al) ∧
    ((s.fresh.takeSamples smp).rtrk trk).start + (s.fresh.takeSamples smp).frameLen k ≤ ((s.fresh.takeSamples smp).cpl trk).done :=
  ⟨reading, 0, [], (((reading.fresh.takeSamples []).frameFormat 0 true).get (by decide +kernel)).1, (((reading.fresh.takeSamples
    []).frameFormat 0 true).get (by decide +kernel)).2.1, (((reading.fresh.takeSamples []).frameFormat 0 true).get
    (by decide +kernel)).2.2, by decide +kernel⟩

theorem wit_FormatEngineCommandsAct_1 : ∃ (s : State) (trk : Fin 64) (smp : List AdcSample) (k : Nat) (l : List Int) (a :
    Sys2Proof.Machine.Alignment), (s.fresh.takeSamples smp).tape.pass.isSome = true ∧
    (s.fresh.takeSamples smp).frameFormat trk (mapGet (fun _ => 0) (s.fresh.takeSamples smp).fmt.leadIn trk == 0) = some (k, l, some a) ∧
    ((s.fresh.takeSamples smp).rtrk trk).start + (s.fresh.takeSamples smp).frameLen k ≤ ((s.fresh.takeSamples smp).cpl trk).done :=
  ⟨reading, 0, [], (((reading.fresh.takeSamples []).frameFormat 0 true).get (by decide +kernel)).1, (((reading.fresh.takeSamples
    []).frameFormat 0 true).get (by decide +kernel)).2.1, ((((reading.fresh.takeSamples []).frameFormat 0 true).get
    (by decide +kernel)).2.2).get (by decide +kernel), by decide +kernel⟩

theorem wit_FormatEngineCommandsAct_2 : ∃ (s : State) (k : Nat) (p : Pass), s.tape.pass = some p ∧ p.write = false ∧ s.readFmt = some k :=
  ⟨passing false formatted, 0, ⟨0, 0, 0, 0, false⟩, by decide +kernel⟩

theorem wit_FormatEngineCommandsAct_3 : ∃ (s : State) (k : Nat) (p : Pass) (w : WriteSet) (trk : Fin 64) (f : FrameId × Nat) (r : List
    (FrameId × Nat)), s.writeFmt = some k ∧ s.tape.pass = some p ∧ p.write = true ∧ trk.val < s.trksOf k ∧ s.streaming = true ∧
    s.tpi.underrun = none ∧ s.fmt.cur = some w ∧ s.intervalDone k = false ∧ s.ff k 3 0xD 1 ≤ mapGet (fun _ => 0) s.fmt.leadIn trk ∧
    (s.wtrk trk).rewrites = f :: r ∧ ((((s.fresh.writeGate true).setWtrk trk { (s.wtrk trk) with
    slots := (s.wtrk trk).slots + 1 }).setWtrk trk { (s.wtrk trk) with slots := (s.wtrk trk).slots + 1, rewrites := r }).frameUser k trk
    f.1).2.isSome = true :=
  ⟨writing.setWtrk 0 { (writing.wtrk 0) with rewrites := [(⟨3, 0, 0, 1⟩, 0)] }, 0, ⟨0, 0, 0, 0, true⟩, ⟨3, 0, 0, 0⟩, 0, (⟨3, 0, 0, 1⟩,
    0), [], by decide +kernel⟩

theorem wit_FormatEngineCommandsAct_4 : ∃ (s : State) (k : Nat) (p : Pass) (w : WriteSet) (trk : Fin 64), s.writeFmt = some k ∧
    s.tape.pass = some p ∧ p.write = true ∧ trk.val < s.trksOf k ∧ s.streaming = true ∧ s.tpi.underrun = none ∧ s.fmt.cur = some w ∧
    s.intervalDone k = false ∧ s.ff k 3 0xD 1 ≤ mapGet (fun _ => 0) s.fmt.leadIn trk ∧ (s.wtrk trk).rewrites = [] ∧
    (s.wtrk trk).next < s.framesOf k ∧ (((((s.fresh.writeGate true).setWtrk trk { (s.wtrk trk) with
    slots := (s.wtrk trk).slots + 1 }).jobStart.noteWrote k w.dsn).setWtrk trk { (s.wtrk trk) with
    slots := (s.wtrk trk).slots + 1, next := (s.wtrk trk).next + 1 }).frameUser k trk ⟨w.dsn, w.copy, (s.wtrk trk).next, 0⟩).2.isSome =
    true :=
  ⟨writing, 0, ⟨0, 0, 0, 0, true⟩, ⟨3, 0, 0, 0⟩, 0, by decide +kernel⟩

theorem wit_FormatEngineCommandsAct_5 : ∃ (s : State) (k : Nat) (p : Pass) (w : WriteSet) (trk : Fin 64), s.writeFmt = some k ∧
    s.tape.pass = some p ∧ p.write = true ∧ trk.val < s.trksOf k ∧ s.streaming = true ∧ s.tpi.underrun = none ∧ s.fmt.cur = some w ∧
    s.intervalDone k = false ∧ s.ff k 3 0xD 1 ≤ mapGet (fun _ => 0) s.fmt.leadIn trk ∧ (s.wtrk trk).rewrites = [] ∧
    (s.wtrk trk).next < s.framesOf k ∧ (((((s.fresh.writeGate true).setWtrk trk { (s.wtrk trk) with
    slots := (s.wtrk trk).slots + 1 }).jobStart.noteWrote k w.dsn).setWtrk trk { (s.wtrk trk) with
    slots := (s.wtrk trk).slots + 1, next := (s.wtrk trk).next + 1 }).frameUser k trk ⟨w.dsn, w.copy, (s.wtrk trk).next, 0⟩).2 = none :=
  ⟨starved, 0, ⟨0, 0, 0, 0, true⟩, ⟨3, 0, 0, 0⟩, 0, by decide +kernel⟩

theorem wit_FormatEngineCommandsAct_6 : ∃ (s : State) (k : Nat) (trk : Fin 64) (f : FrameId) (r : List FrameId), s.writeFmt = some k ∧
    (s.wtrk trk).issued = f :: r :=
  ⟨formatted.setWtrk 63 { (formatted.wtrk 63) with issued := [⟨3, 0, 0, 0⟩] }, 0, 63, ⟨3, 0, 0, 0⟩, [], by decide +kernel⟩

theorem wit_TableLoadsAct_0 : ∃ (s : State), s.loadStat pFmt ≠ 1 ∧ s.intake pFmt = true :=
  ⟨on [pFmt], by decide +kernel⟩

theorem wit_TableLoadsAct_1 : ∃ (s : State), s.loadStat pDcf ≠ 1 ∧ s.intake pDcf = true :=
  ⟨on [pDcf], by decide +kernel⟩

theorem wit_TableLoadsAct_2 : ∃ (s : State), s.loadStat pTpi ≠ 1 ∧ s.intake pTpi = true :=
  ⟨on [pTpi], by decide +kernel⟩

theorem wit_TableLoadsAct_3 : ∃ (s : State), s.loadStat pFtm ≠ 1 ∧ s.intake pFtm = true :=
  ⟨on [pFtm], by decide +kernel⟩

theorem wit_TableLoadsAct_4 : ∃ (s : State), s.loadStat pFmt ≠ 1 ∧ s.enabled pFmt = true :=
  ⟨on [pFmt], by decide +kernel⟩

theorem wit_TableLoadsAct_5 : ∃ (s : State), s.loadStat pDcf ≠ 1 ∧ s.enabled pDcf = true :=
  ⟨on [pDcf], by decide +kernel⟩

theorem wit_TableLoadsAct_6 : ∃ (s : State), s.loadStat pFtm ≠ 1 ∧ s.enabled pFtm = true :=
  ⟨on [pFtm], by decide +kernel⟩

theorem wit_TableLoadsAct_7 : ∃ (s : State), s.loadStat pFmt = 1 :=
  ⟨(on [pFmt]).setLoadStat pFmt 1, by decide +kernel⟩

theorem wit_TableLoadsAct_8 : ∃ (s : State) (page : Nat) (l : TableLoad), page ∈ [pFmt, pDcf, pTpi, pFtm] ∧
    mapFind s.tloads page = some l :=
  ⟨{ on [pFtm] with tloads := [(pFtm, ⟨0, 0, none, 0⟩)] }, pFtm, ⟨0, 0, none, 0⟩, by decide +kernel⟩

/-- A cartridge whose zone 2 is full. -/
def fullZone : State := let s := put (put formatted pFmt Reg.FMT_CTRL 0 1 1) pFmt Reg.BLK_CTRL 0 1 1
  { s with
    zones := [(2, ⟨.full, 0x1000, 1, false, false, false, 0⟩)]
    tpi := { s.tpi with cart := some 1 } }

theorem wit_DecoderFabricCommandsAct_0 : ∃ (s : State) (words : List RegWord) (k : Nat), s.intake pDcf = true ∧ words ≠ [] ∧
    (cwOfWords words).cls = 0 ∧ (cwOfWords words).fmt ≠ 3 ∧ s.codeSlot (cwOfWords words).codeId = some k ∧
    (cwOfWords words).ver ≤ s.codeVer k ∧ s.dcf.qT.length < 512 :=
  ⟨decoding id, [0], 0, by decide +kernel⟩

theorem wit_DecoderFabricCommandsAct_1 : ∃ (s : State) (words : List RegWord), s.intake pDcf = true ∧ words ≠ [] ∧
    (cwOfWords words).cls = 0 ∧ (cwOfWords words).fmt ≠ 3 ∧ 512 ≤ s.dcf.qT.length :=
  ⟨decoding fun d => { d with qT := List.replicate 512 word₀ }, [0], by decide +kernel⟩

theorem wit_DecoderFabricCommandsAct_2 : ∃ (s : State) (words : List RegWord), s.intake pDcf = true ∧ words ≠ [] ∧
    (cwOfWords words).cls ≠ 3 ∧ (cwOfWords words).fmt ≠ 3 ∧ s.dcf.full (cwOfWords words).cls = false ∧
    s.codeFor (cwOfWords words) = none :=
  ⟨on [pDcf], [0], by decide +kernel⟩

theorem wit_DecoderFabricCommandsAct_3 : ∃ (s : State) (words : List RegWord), s.intake pDcf = true ∧ words ≠ [] ∧
    (cwOfWords words).cls ∈ [1, 2] ∧ (cwOfWords words).fmt ≠ 3 ∧ s.dcf.full (cwOfWords words).cls = true :=
  ⟨decoding fun d => { d with qH := List.replicate 2048 word₀ }, [0, 1], by decide +kernel⟩

theorem wit_DecoderFabricCommandsAct_4 : ∃ (s : State) (w : Codeword) (r : List Codeword) (i : Nat), s.enabled pDcf = true ∧
    s.dcf.qT = w :: r ∧ s.tb.toNat < w.deadline ∧ s.freeTile = some i :=
  ⟨decoding fun d => { d with qT := [word₀] }, word₀, [], 0, by decide +kernel⟩

theorem wit_DecoderFabricCommandsAct_5 : ∃ (s : State) (i : Fin 48) (x : Tile), s.enabled pDcf = true ∧ mapFind s.dcf.tiles i = some x :=
  ⟨decoding fun d => { d with tiles := [(47, ⟨word₀, [], 0⟩)] }, 47, ⟨word₀, [], 0⟩, by decide +kernel⟩

theorem wit_DecoderFabricCommandsAct_6 : ∃ (s : State) (w : Codeword) (r : List Codeword), s.enabled pDcf = true ∧ s.dcf.qT = w :: r :=
  ⟨decoding fun d => { d with qT := [word₀] }, word₀, [], by decide +kernel⟩

theorem wit_LoopEngineCommandsAct_0 : ∃ (s : State) (els : List (List (List Int))), s.intake pSvd = true ∧
    s.bit pSvd Reg.SVD_CTRL 0 = true ∧ ((∀ e < 4, elementOk (s.fget pSvd (Reg.SVD_TBS 2) 0 4) (els.getD e []) = false)) :=
  ⟨put (on [pSvd]) pSvd Reg.SVD_CTRL 0 2 3, [], by decide +kernel⟩

theorem wit_LoopEngineCommandsAct_1 : ∃ (s : State) (els : List (List (List Int))) (e : Nat), s.intake pSvd = true ∧
    s.bit pSvd Reg.SVD_CTRL 0 = true ∧ e < 4 ∧ elementOk (s.fget pSvd (Reg.SVD_TBS 2) 0 4) (els.getD e []) = true :=
  ⟨put (put (on [pSvd]) pSvd Reg.SVD_CTRL 0 2 3) pSvd (Reg.SVD_TBS 2) 0 4 1, [[], [], [], [[0], [10], [20], [30]]], 3, by decide +kernel⟩

theorem wit_LoopEngineCommandsAct_2 : ∃ (s : State) (ai0 : BitVec 16) (ao0 : BitVec 16), s.intake pSvd = true ∧
    s.bit pSvd Reg.SVD_CTRL 1 = true ∧ ai0.toNat + ao0.toNat < s.fget pSvd Reg.SVD_CMP 16 8 :=
  ⟨put (put (on [pSvd]) pSvd Reg.SVD_CTRL 0 2 3) pSvd Reg.SVD_CMP 16 8 2, 0, 1, by decide +kernel⟩

theorem wit_LoopEngineCommandsAct_3 : ∃ (s : State) (ai0 : BitVec 16) (ao0 : BitVec 16), s.intake pSvd = true ∧
    s.bit pSvd Reg.SVD_CTRL 1 = true ∧ s.fget pSvd Reg.SVD_CMP 16 8 ≤ ai0.toNat + ao0.toNat ∧ ai0.toNat + ao0.toNat ≠ 0 :=
  ⟨put (put (on [pSvd]) pSvd Reg.SVD_CTRL 0 2 3) pSvd Reg.SVD_CMP 16 8 2, 0, 2, by decide +kernel⟩

theorem wit_LoopEngineCommandsAct_4 : ∃ (s : State) (n : Fin 16) (src : Nat) (stamp : Nat) (rest : List (Nat × Nat)), s.enabled pLpe =
    true ∧ (s.sl n).due = (src, stamp) :: rest ∧ s.slotEn n = true ∧ s.slotState n ≠ 4 ∧ s.fget (pSlot n) Reg.SLOT_CTRL 1 2 = 0 ∧
    src = s.trigSrc n (s.slotBank n) ∧ (s.sl n).wait = none ∧ (s.sl n).result = none ∧
    s.stale n (s.bkf n (s.slotBank n) 0 6) stamp = false :=
  ⟨put (slotted fun x => { x with due := [(0, 5)] }) (pSlot 15) (Reg.BANK 0 0) 0 14 0, 15, 0, 5, [], by decide +kernel⟩

theorem wit_LoopEngineCommandsAct_5 : ∃ (s : State) (n : Nat) (w : Waiting), s.enabled pLpe = true ∧ s.nextEval = some (n, w) :=
  ⟨slotted fun x => { x with wait := some ⟨0, 100⟩ }, 15, ⟨0, 100⟩, by decide +kernel⟩

theorem wit_LoopEngineCommandsAct_6 : ∃ (s : State) (n : Fin 16) (r : EvalResult), (s.sl n).result = some r ∧ r.queued = false ∧
    (s.reach r.ready).tb.toNat ≤ r.deadline :=
  ⟨slotted fun x => { x with result := some (result 50 50) }, 15, result 50 50, by decide +kernel⟩

theorem wit_LoopEngineCommandsAct_7 : ∃ (s : State) (n : Fin 16) (r : EvalResult), (s.sl n).result = some r ∧ r.queued = false ∧
    r.deadline < (s.reach r.ready).tb.toNat :=
  ⟨slotted fun x => { x with result := some (result 51 50) }, 15, result 51 50, by decide +kernel⟩

theorem wit_LoopEngineCommandsAct_8 : ∃ (s : State) (n : Fin 16), ((s.sl n).wait.isSome || (s.sl n).result.isSome) = true :=
  ⟨slotted fun x => { x with wait := some ⟨0, 100⟩ }, 15, by decide +kernel⟩

theorem wit_LoopEngineCommandsAct_9 : ∃ (s : State) (n : Fin 16), s.fget (pSlot n) Reg.SLOT_TIME 16 12 ≠ 0 ∧ s.slotEn n = true ∧
    s.slotState n ≠ 4 ∧ s.bit (pSlot n) Reg.SLOT_CTRL 4 = false :=
  ⟨put (slotted) (pSlot 15) Reg.SLOT_TIME 16 12 1, 15, by decide +kernel⟩

theorem wit_LoopEngineCommandsAct_10 : ∃ (s : State) (n : Fin 16), s.fget (pSlot n) Reg.SLOT_TIME 16 12 ≠ 0 ∧ s.slotEn n = true ∧
    s.slotState n ≠ 4 ∧ s.bit (pSlot n) Reg.SLOT_CTRL 4 = true ∧ s.fget (pSlot n) Reg.SLOT_CTRL 1 2 = 0 ∧
    s.younger n (s.bkf n (1 - s.slotBank n) 0 6) (s.reach ((s.sl n).lastTrig + s.fget (pSlot n) Reg.SLOT_TIME 16 12 * 1000)).tb.toNat =
    true ∧ ((((s.sl n).wait.isSome || (s.sl n).result.isSome) = true → s.fget (pSlot n) Reg.SLOT_CTRL 13 2 < 2)) :=
  ⟨{ put (put (slotted) (pSlot 15) Reg.SLOT_TIME 16 12 1) (pSlot 15) Reg.SLOT_CTRL 4 1 1 with
    lpe := { (put (slotted) (pSlot 15) Reg.SLOT_TIME 16 12 1).lpe with src := [(0, (0, 1))] } }, 15, by decide +kernel⟩

theorem wit_LoopEngineCommandsAct_11 : ∃ (s : State) (n : Fin 2), s.enabled pLpe = true ∧ s.fget pLpe (Reg.LPE_TIMER n) 0 16 ≠ 0 :=
  ⟨put (on [pLpe]) pLpe (Reg.LPE_TIMER 1) 0 16 1, 1, by decide +kernel⟩

theorem wit_LoopEngineCommandsAct_12 : ∃ (s : State) (n : Fin 16), s.slotEn n = false :=
  ⟨on [pLpe], 15, by decide +kernel⟩

theorem wit_LoopEngineCommandsAct_13 : ∃ (s : State) (n : Fin 16), s.slotEn n = true :=
  ⟨slotted, 15, by decide +kernel⟩

theorem wit_LoopEngineCommandsAct_14 : ∃ (s : State) (n : Fin 16), s.fget (pSlot n) Reg.SLOT_CTRL 1 2 = 0 :=
  ⟨slotted, 15, by decide +kernel⟩

theorem wit_LoopEngineCommandsAct_15 : ∃ (s : State) (n : Fin 16), s.fget (pSlot n) Reg.SLOT_CTRL 1 2 ≠ 0 :=
  ⟨put slotted (pSlot 15) Reg.SLOT_CTRL 1 1 1, 15, by decide +kernel⟩

theorem wit_LoopEngineCommandsAct_16 : ∃ (s : State) (u : Fin 4), s.trf u 0x18 0 2 = 1 :=
  ⟨(on [pLpe]).trSet 3 0x18 0 2 1, 3, by decide +kernel⟩

theorem wit_LoopEngineCommandsAct_17 : ∃ (s : State) (u : Fin 4), ((s.trf u 0x18 0 2 = 1 ∨ s.trf u 0x18 0 2 = 2)) :=
  ⟨(on [pLpe]).trSet 3 0x18 0 2 2, 3, by decide +kernel⟩

theorem wit_LoopEngineCommandsAct_18 : ∃ (s : State) (u : Fin 4), s.trf u 0x18 0 2 = 2 ∧ (s.trace u).post = 0 :=
  ⟨(on [pLpe]).trSet 3 0x18 0 2 2, 3, by decide +kernel⟩

theorem wit_LoopEngineCommandsAct_19 : ∃ (s : State), s.enabled pLpe = true :=
  ⟨on [pLpe], by decide +kernel⟩

theorem wit_LoopEngineCommandsAct_20 : ∃ (s : State) (l : Fin 2), (s.lane l).queue.length + (s.lane l).safe.length + (s.lane l).fw.length
    < 16 :=
  ⟨laned fun x => { x with fw := List.replicate 15 0 }, 1, by decide +kernel⟩

theorem wit_LoopEngineCommandsAct_21 : ∃ (s : State) (l : Fin 2), 16 ≤ (s.lane l).queue.length + (s.lane l).safe.length + (s.lane
    l).fw.length :=
  ⟨laned fun x => { x with fw := List.replicate 16 0 }, 1, by decide +kernel⟩

theorem wit_LoopEngineCommandsAct_22 : ∃ (s : State) (l : Fin 2) (w : BitVec 32) (q : List (BitVec 32)), s.enabled pLpe = true ∧
    s.bit (pLpe + 31) Reg.ACT_LINK l = true ∧ (s.lane l).busy = none ∧ (s.lane l).safe = [] ∧ (s.lane l).queue = [] ∧
    (s.lane l).fw = w :: q :=
  ⟨laned fun x => { x with fw := [5, 6] }, 1, 5, [6], by decide +kernel⟩

theorem wit_LoopEngineCommandsAct_23 : ∃ (s : State) (l : Fin 2) (w : BitVec 32) (q : List (BitVec 32)), s.enabled pLpe = true ∧
    s.bit (pLpe + 31) Reg.ACT_LINK l = true ∧ (s.lane l).busy = none ∧ (s.lane l).safe = w :: q :=
  ⟨laned fun x => { x with safe := [5, 6] }, 1, 5, [6], by decide +kernel⟩

theorem wit_LoopEngineCommandsAct_24 : ∃ (s : State) (l : Fin 2), (s.lane l).busy.isSome = true :=
  ⟨laned fun x => { x with busy := some 5 }, 1, by decide +kernel⟩

theorem wit_LoopEngineCommandsAct_25 : ∃ (s : State) (n : Fin 8), s.enabled pLpe = true ∧ s.bit (pLpe + 31) Reg.ADC_CTRL n = true :=
  ⟨put (on [pLpe]) (pLpe + 31) Reg.ADC_CTRL 7 1 1, 7, by decide +kernel⟩

theorem wit_TransportCommandsAct_0 : ∃ (s : State) (q : Requester) (m : Nat) (c : Instr), (m, c) ∈ [(0, Instr.loadMachine q), (1,
    .threadMachine q), (2, .calibrateMachine q), (3, .seekMachine q), (4, .streamMachine q), (5, .backhitchMachine q)] ∧
    s.seqBusy = false ∧ s.machineEntry m ≠ 0xFF ∧ s.enabled pTpi = true ∧ s.bit pTpi Reg.TPI_CTRL 0 = true :=
  ⟨moving false, .agent, 5, .backhitchMachine .agent, by decide +kernel⟩

theorem wit_TransportCommandsAct_1 : ∃ (s : State), ((s.tpi.cart.isSome = true → s.allDestaged = true)) ∧ s.seqBusy = false ∧
    s.machineEntry 6 ≠ 0xFF ∧ s.enabled pTpi = true ∧ s.bit pTpi Reg.TPI_CTRL 0 = true :=
  ⟨moving false, by decide +kernel⟩

theorem wit_TransportCommandsAct_2 : ∃ (s : State) (q : Requester) (c : Instr), c ∈ [Instr.loadMachine q, .threadMachine q,
    .calibrateMachine q, .seekMachine q, .streamMachine q, .backhitchMachine q, .unloadMachine q] ∧ s.seqBusy = true :=
  ⟨moving true, .agent, .unloadMachine .agent, by decide +kernel⟩

theorem wit_TransportCommandsAct_3 : ∃ (s : State), s.enabled pTpi = true ∧ s.bit pTpi Reg.TPI_CTRL 0 = true :=
  ⟨moving true, by decide +kernel⟩

theorem wit_TransportCommandsAct_4 : ∃ (s : State), s.enabled pTpi = true ∧ s.seqBusy = false :=
  ⟨moving false, by decide +kernel⟩

theorem wit_TransportCommandsAct_5 : ∃ (s : State) (pins : BitVec 16) (tach : List (Nat × Nat)) (j : Nat), s.enabled pTpi = true ∧
    s.bit pTpi Reg.TPI_CTRL 0 = true ∧ s.seqBusy = true ∧ ((tach.foldl (fun s e => s.tachSample e.1 e.2) (s.fresh.samplePins pins)).reach
    (s.tpi.entered + 1000 * s.stateFld s.seqState 8 4)).waitNext s.seqState = some j :=
  ⟨moving true [(0x10, 0x10), (0x23, 9)], 0, [], 9, by decide +kernel⟩

theorem wit_TransportCommandsAct_6 : ∃ (s : State), s.enabled pTpi = true ∧ s.bit pTpi Reg.TPI_CTRL 0 = true ∧ s.seqBusy = true ∧
    s.stateFld s.seqState 4 4 ≠ 0 :=
  ⟨moving true [(0x14, 1)], by decide +kernel⟩

theorem wit_TransportCommandsAct_7 : ∃ (s : State) (level : Bool), s.bit pTpi Reg.TPI_STAT 18 = false ∧ (s.loadSensor level).2 = true :=
  ⟨moving false, false, by decide +kernel⟩

theorem wit_TransportCommandsAct_8 : ∃ (s : State) (level : Bool), s.bit pTpi Reg.TPI_STAT 18 = true ∧ (s.loadSensor level).2 = false :=
  ⟨put (moving false) pTpi Reg.TPI_STAT 18 1 1, true, by decide +kernel⟩

theorem wit_TransportCommandsAct_9 : ∃ (s : State), s.enabled pTpi = true ∧ s.tpi.cm = none ∧ badCm (s.rg pTpi Reg.TPI_CM_CTRL) = false :=
  ⟨put (on [pTpi]) pTpi Reg.TPI_CM_CTRL 4 13 0x1004, by decide +kernel⟩

theorem wit_TransportCommandsAct_10 : ∃ (s : State), badCm (s.rg pTpi Reg.TPI_CM_CTRL) = true :=
  ⟨on [pTpi], by decide +kernel⟩

theorem wit_TransportCommandsAct_11 : ∃ (s : State) (n : Nat), s.tpi.cm = some n :=
  ⟨{ on [pTpi] with tpi := { (on [pTpi]).tpi with cm := some 256 } }, 256, by decide +kernel⟩

theorem wit_TransportCommandsAct_12 : ∃ (s : State) (x : RingSet), oldestSet (s.tpi.ring.filter (·.zone.isNone) ++ s.tpi.divert) = some x
    ∧ (((s.tpi.ring.filter (·.zone.isNone)).contains x = true → s.inDram x = true)) :=
  ⟨{ State.reset with tpi := { State.reset.tpi with ring := [⟨some 4, 0, 0, [], none, []⟩] } }, ⟨some 4, 0, 0, [], none, []⟩,
    by decide +kernel⟩

theorem wit_TransportCommandsAct_13 : ∃ (s : State) (w : WriteSet), s.fmt.cur = some w ∧ s.tpi.underrun = none :=
  ⟨writing, ⟨3, 0, 0, 0⟩, by decide +kernel⟩

theorem wit_TransportCommandsAct_14 : ∃ (s : State), s.tpi.underrun.isSome = true :=
  ⟨{ State.reset with tpi := { State.reset.tpi with underrun := some 3 } }, by decide +kernel⟩

theorem wit_TransportCommandsAct_15 : ∃ (s : State), s.tpi.underrun.isSome = true ∧ s.wrStart = false ∧ s.streaming = true :=
  ⟨put (put ({ State.reset with tpi := { State.reset.tpi with underrun := some 3 } }) pTpi Reg.TPI_STAT 16 1 1) pTpi Reg.TPI_WR 0 4 1,
    by decide +kernel⟩

theorem wit_TransportCommandsAct_16 : ∃ (s : State) (k : Nat) (z : Nat) (x : Zone), s.writeFmt = some k ∧ s.tpi.cart.isSome = true ∧
    ((∀ e ∈ s.zones, e.2.destaging = false)) ∧ s.enabled pFmt = true ∧ s.zones.find? (fun e => e.2.state == .full && !e.2.destaged) =
    some (z, x) :=
  ⟨fullZone, 0, 2, ⟨.full, 0x1000, 1, false, false, false, 0⟩, by decide +kernel⟩

/-- FTM with its tables in shared SRAM, and die 0 present on an enabled channel; the 64-bit words listed stand in memory. -/
def flashed (l : List (Nat × Nat) := []) : State :=
  let s := (put (on [pFtm, pFlc 0]) pFtm Reg.FTM_CTRL 0 1 1).rset pFtm Reg.FTM_MAP_LO 0x0200_0000
  let s := ((s.rset pFtm Reg.FTM_MAP_HI 0x0100).rset pFtm Reg.FTM_BLK_LO 0x0210_0000).rset pFtm Reg.FTM_BLK_HI 0x0100
  let s := put (put s (pFtm + 1) (Reg.FTM_DIE 0) 0 1 1) pFtm Reg.FTM_PATROL 0 1 1
  { s with
    mem := l.foldl (fun m e => memWrite m (sramGeneral + e.1) (leBytes 8 e.2)) []
    flash := { s.flash with geom := ⟨73728, 1024, 32, 8, 3⟩ } }

/-- The same with its flash state changed by `f`. -/
def flashing (f : Flash → Flash) (l : List (Nat × Nat) := []) : State := let s := flashed l
  { s with flash := f s.flash }

/-- A slice read of unit 0 in stage `stage`, and a program of it. -/
def slice (u : SliceUse) (stage : Nat) (reading : Bool := true) (tslot : Option Nat := none) : SliceRead :=
  ⟨0, 3, ⟨0, 1, 1, 0⟩, u, stage, 0, 0, [], [], false, [], reading, some 0, tslot, 0, [], 0, 0⟩
def program : Program := ⟨0, ⟨0, 1, 1, 0⟩, [1, 2], false, false, 0, none, 0, 0⟩

/-- The tag of a unit, with its CRC. -/
def tagOf (u : Nat) : List Byte := let b := leBytes 8 u ++ [0, 0, 0, 0]
  b ++ leBytes 4 (crc32c b)

theorem wit_FlashChannelCommandsAct_0 : ∃ (s : State), (s.fget pFtm Reg.FTM_DISC 16 4 = 1 ∨ s.bit pFtm Reg.FTM_CTRL 0 = true) :=
  ⟨flashed, by decide +kernel⟩

theorem wit_FlashChannelCommandsAct_1 : ∃ (s : State), s.fget pFtm Reg.FTM_DISC 16 4 ≠ 1 ∧ s.bit pFtm Reg.FTM_CTRL 0 = false ∧
    s.intake pFtm = true :=
  ⟨on [pFtm], by decide +kernel⟩

theorem wit_FlashChannelCommandsAct_2 : ∃ (s : State), s.flash.disc = true ∧ s.enabled pFtm = true :=
  ⟨flashing fun f => { f with disc := true }, by decide +kernel⟩

theorem wit_FlashChannelCommandsAct_3 : ∃ (s : State) (n : Fin 16), s.intake (pFlc n) = true ∧ s.fget (pFlc n) Reg.FLC_TRAIN 16 4 ≠ 1 :=
  ⟨flashed, 0, by decide +kernel⟩

theorem wit_FlashChannelCommandsAct_4 : ∃ (s : State) (n : Fin 16) (tries : List FlcTry) (b : Nat) (x : FlcTry), s.enabled (pFlc n) =
    true ∧ s.fget (pFlc n) Reg.FLC_TRAIN 16 4 = 1 ∧ flcBin (s.flcTop n) tries = (b, some x) ∧ b ≠ 0 :=
  ⟨put flashed (pFlc 0) Reg.FLC_TRAIN 16 4 1, 0, [⟨false, true, 0, 255, 0, 255⟩, ⟨true, true, 0, 255, 0, 255⟩], 5, ⟨true, true, 0, 255,
    0, 255⟩, by decide +kernel⟩

theorem wit_FlashChannelCommandsAct_5 : ∃ (s : State) (n : Fin 16) (tries : List FlcTry), s.enabled (pFlc n) = true ∧
    s.fget (pFlc n) Reg.FLC_TRAIN 16 4 = 1 ∧ s.flcTop n ≠ 0 ∧ (flcBin (s.flcTop n) tries).1 = 0 :=
  ⟨put flashed (pFlc 0) Reg.FLC_TRAIN 16 4 1, 0, [⟨false, true, 0, 255, 0, 255⟩], by decide +kernel⟩

theorem wit_FlashChannelCommandsAct_6 : ∃ (s : State) (n : Fin 16) (p : Int × Nat), mapFind s.flash.trainTemp n = some p ∧
    s.enabled (pFlc n) = true ∧ s.flcQueued n = false ∧ s.fget (pFlc n) Reg.FLC_RATE 8 3 ≠ 0 ∧ s.fget (pFlc n) Reg.FLC_TRAIN 24 8 ≠ 0 :=
  ⟨put (flashing fun f => { f with trainTemp := [(0, (20, 0))] }) (pFlc 0) Reg.FLC_RATE 8 3 5, 0, (20, 0), by decide +kernel⟩

theorem wit_FlashChannelCommandsAct_7 : ∃ (s : State) (n : Fin 16), s.flcIntake n = true ∧ s.bit (pFlc n) (Reg.FLC_RAW 3) 0 = false :=
  ⟨flashed, 0, by decide +kernel⟩

theorem wit_FlashChannelCommandsAct_8 : ∃ (s : State) (n : Fin 16) (ep : RegWord), mapFind s.flash.raws n = some ep :=
  ⟨flashing fun f => { f with raws := [(15, 0)] }, 15, 0, by decide +kernel⟩

theorem wit_FlashUnitCommandsAct_0 : ∃ (s : State) (s1 : State) (op : Nat) (unit : Nat) (slice : Nat) (want : SliceWant) (u : SliceUse),
    s.intake pFtm = true ∧ s.bit pFtm Reg.FTM_CTRL 0 = true ∧ mapFind s.flash.reads op = none ∧
    s.fresh.sliceTarget want = (s1, unit, slice, u) ∧ u.fits op = true ∧ natBits (s1.mapEntry unit).2 41 1 = 0 :=
  ⟨flashed, flashed, 255, 0, 3, .unit 0 3 sramGeneral, .background sramGeneral, by decide +kernel⟩

theorem wit_FlashUnitCommandsAct_1 : ∃ (s : State) (s1 : State) (op : Nat) (unit : Nat) (slice : Nat) (want : SliceWant) (u : SliceUse),
    s.intake pFtm = true ∧ s.bit pFtm Reg.FTM_CTRL 0 = true ∧ mapFind s.flash.reads op = none ∧
    s.fresh.sliceTarget want = (s1, unit, slice, u) ∧ u.fits op = true ∧ natBits (s1.mapEntry unit).2 41 1 = 1 ∧
    natBits (s1.mapEntry unit).2 (42 + slice) 1 = 1 :=
  ⟨flashed [(0, 2 ^ 41 + (⟨0, 1, 1, 0⟩ : FlashLoc).word + 2 ^ 45)], flashed [(0, 2 ^ 41 + (⟨0, 1, 1, 0⟩ : FlashLoc).word + 2 ^ 45)], 255,
    0, 3, .unit 0 3 sramGeneral, .background sramGeneral, by decide +kernel⟩

theorem wit_FlashUnitCommandsAct_2 : ∃ (s : State) (s1 : State) (op : Nat) (unit : Nat) (slice : Nat) (want : SliceWant) (u : SliceUse)
    (l : FlashLoc), s.intake pFtm = true ∧ s.bit pFtm Reg.FTM_CTRL 0 = true ∧ mapFind s.flash.reads op = none ∧
    s.fresh.sliceTarget want = (s1, unit, slice, u) ∧ u.fits op = true ∧ natBits (s1.mapEntry unit).2 41 1 = 1 ∧
    natBits (s1.mapEntry unit).2 (42 + slice) 1 = 0 ∧ locOf (s1.mapEntry unit).2 = l ∧ s.bufferAt l = none ∧
    ((∀ e ∈ s.flash.reads, e.2.stage ≠ 4)) ∧ s.flash.inWait = [] ∧ s.freeCell.isSome = true ∧ s.dieLive l.die = true ∧
    s.flcIntake (chanOf l.die) = true :=
  ⟨flashed [(0, 2 ^ 41 + (⟨0, 1, 1, 0⟩ : FlashLoc).word)], flashed [(0, 2 ^ 41 + (⟨0, 1, 1, 0⟩ : FlashLoc).word)], 255, 0, 3, .unit 0 3
    sramGeneral, .background sramGeneral, ⟨0, 1, 1, 0⟩, by decide +kernel⟩

theorem wit_FlashUnitCommandsAct_3 : ∃ (s : State) (s1 : State) (op : Nat) (unit : Nat) (slice : Nat) (f : Nat) (want : SliceWant) (e :
    BitVec 16) (b : List Byte), s.intake pFtm = true ∧ s.bit pFtm Reg.FTM_CTRL 0 = true ∧ mapFind s.flash.reads op = none ∧
    s.fresh.sliceTarget want = (s1, unit, slice, .host f e) ∧ (SliceUse.host f e).fits op = true ∧
    natBits (s1.mapEntry unit).2 41 1 = 1 ∧ natBits (s1.mapEntry unit).2 (42 + slice) 1 = 0 ∧
    s.bufferAt (locOf (s1.mapEntry unit).2) = some b :=
  ⟨flashing (fun f => { f with progs := [(2, program)] }) [(0, 2 ^ 41 + (⟨0, 1, 1, 0⟩ : FlashLoc).word)], flashing (fun f => { f with
    progs := [(2, program)] }) [(0, 2 ^ 41 + (⟨0, 1, 1, 0⟩ : FlashLoc).word)], 256, 0, 0, 5, .host 5 1 0, 0, [1, 2], by decide +kernel⟩

theorem wit_FlashUnitCommandsAct_4 : ∃ (s : State) (op : Nat) (dst : Nat) (r : SliceRead), mapFind s.flash.reads op = some r ∧
    r.reading = true ∧ r.use_ = .background dst ∧ r.stage ≤ 2 ∧ s.flash.rebuilds = [] :=
  ⟨flashing fun f => { f with reads := [(5, slice (.background sramGeneral) 2)] }, 5, sramGeneral, slice (.background sramGeneral) 2,
    by decide +kernel⟩

theorem wit_FlashUnitCommandsAct_5 : ∃ (s : State) (op : Nat) (f : Nat) (e : BitVec 16) (r : SliceRead), mapFind s.flash.reads op = some
    r ∧ r.reading = true ∧ r.use_ = .host f e ∧ r.stage ≤ 2 ∧ r.tslot = none ∧ s.freeSlot = none ∧ s.flash.rebuilds = [] :=
  ⟨flashing fun f => { f with reads := [(261, slice (.host 5 0) 0)], slots := List.range 8192 }, 261, 5, 0, slice (.host 5 0) 0,
    by decide +kernel⟩

theorem wit_FlashUnitCommandsAct_6 : ∃ (s : State) (op : Nat) (f : Nat) (k : Nat) (e : BitVec 16) (r : SliceRead), mapFind s.flash.reads
    op = some r ∧ r.reading = true ∧ r.use_ = .host f e ∧ r.stage ≤ 2 ∧ r.tslot = none ∧ s.flash.waiting = [] ∧ s.freeSlot = some k ∧
    s.flash.rebuilds = [] :=
  ⟨flashing fun f => { f with reads := [(261, slice (.host 5 0) 0)], slots := [0] }, 261, 5, 1, 0, slice (.host 5 0) 0, by decide +kernel⟩

theorem wit_FlashUnitCommandsAct_7 : ∃ (s : State) (op : Nat) (r : SliceRead), mapFind s.flash.reads op = some r ∧ r.reading = true ∧
    r.stage = 3 ∧ r.raw.length < 2 :=
  ⟨flashing fun f => { f with reads := [(5, slice (.background sramGeneral) 3)] }, 5, slice (.background sramGeneral) 3,
    by decide +kernel⟩

theorem wit_FlashUnitCommandsAct_8 : ∃ (s : State) (op : Nat) (k : Nat) (q : List Nat) (r : SliceRead), s.flash.waiting = op :: q ∧
    s.freeSlot = some k ∧ mapFind s.flash.reads op = some r :=
  ⟨flashing fun f => { f with reads := [(261, slice (.host 5 0) 6)], waiting := [261] }, 261, 0, [], slice (.host 5 0) 6,
    by decide +kernel⟩

theorem wit_FlashUnitCommandsAct_9 : ∃ (s : State) (op : Nat) (f : Nat) (k : Nat) (e : BitVec 16) (r : SliceRead), mapFind s.flash.reads
    op = some r ∧ r.stage = 7 ∧ r.use_ = .host f e ∧ r.tslot = some k ∧ s.flash.waiting = [] ∧ s.inPort3 (s.slotAddr k) = false :=
  ⟨flashing fun f => { f with reads := [(261, slice (.host 5 0) 7 false (some 8191))], slots := [8191] }, 261, 5, 8191, 0, slice (.host 5
    0) 7 false (some 8191), by decide +kernel⟩

theorem wit_FlashUnitCommandsAct_10 : ∃ (s : State) (op : Nat) (l : FlashLoc) (data : List Byte), s.intake pFtm = true ∧
    s.bit pFtm Reg.FTM_CTRL 0 = true ∧ s.flcIntake (chanOf l.die) = true ∧ s.tagFree op = true ∧ data ≠ [] ∧ s.dieLive l.die = true ∧
    s.dieReg l.die 12 4 ≠ l.page % 16 ∧ l.page < s.flash.geom.pages ∧ l.slot < s.flash.geom.units ∧
    ((s.flash.rows.find? fun x => x.group == s.dieReg l.die 7 5 && x.block == l.block).isSome || s.flash.free.head? == some (s.dieReg
    l.die 7 5, l.block)) = true ∧ (s.flash.rows.find? fun x => x.group == s.dieReg l.die 7 5 && x.block == l.block).any (fun x =>
    x.closed.contains (l.page, l.slot)) = false ∧ (s.fresh.zeroMember l).2 = false ∧ s.stripeAt l = none ∧ s.flash.stripes = [] :=
  ⟨flashing fun f => { f with free := [(0, 1)] }, 255, ⟨0, 1, 1, 0⟩, [1, 2], by decide +kernel⟩

theorem wit_FlashUnitCommandsAct_11 : ∃ (s : State) (op : Nat) (l : FlashLoc) (r : Relocate) (q : List Relocate), s.intake pFtm = true ∧
    s.bit pFtm Reg.FTM_CTRL 0 = true ∧ s.flcIntake (chanOf l.die) = true ∧ s.tagFree op = true ∧ op < 256 ∧ s.flash.moves = r :: q ∧
    s.dieLive l.die = true ∧ s.dieReg l.die 12 4 ≠ l.page % 16 ∧ l.page < s.flash.geom.pages ∧ l.slot < s.flash.geom.units ∧
    ((s.flash.rows.find? fun x => x.group == s.dieReg l.die 7 5 && x.block == l.block).isSome || s.flash.free.head? == some (s.dieReg
    l.die 7 5, l.block)) = true ∧ (s.flash.rows.find? fun x => x.group == s.dieReg l.die 7 5 && x.block == l.block).any (fun x =>
    x.closed.contains (l.page, l.slot)) = false ∧ (s.fresh.zeroMember l).2 = false ∧ s.stripeAt l = none ∧ s.flash.stripes = [] :=
  ⟨flashing fun f => { f with free := [(0, 1)], moves := [⟨9, [1, 2], none, false, 0, none⟩] }, 255, ⟨0, 1, 1, 0⟩, ⟨9, [1, 2], none,
    false, 0, none⟩, [], by decide +kernel⟩

theorem wit_FlashUnitCommandsAct_12 : ∃ (s : State) (op : Nat) (p : Program), mapFind s.flash.progs op = some p :=
  ⟨flashing fun f => { f with progs := [(2, program)] }, 2, program, by decide +kernel⟩

theorem wit_FlashUnitCommandsAct_13 : ∃ (s : State) (d : Fin 512) (b : Nat), s.readsOf d b ≠ 0 :=
  ⟨flashing fun f => { f with reads := [(5, slice (.background sramGeneral) 2)] }, 0, 1, by decide +kernel⟩

theorem wit_FlashUnitCommandsAct_14 : ∃ (s : State) (d : Fin 512) (b : Nat), s.flcIntake (chanOf d) = true ∧ s.dieLive d = true ∧
    s.readsOf d b = 0 ∧ s.flash.erases = [] :=
  ⟨flashed, 0, 0x3FFFF, by decide +kernel⟩

theorem wit_FlashUnitCommandsAct_15 : ∃ (s : State) (d : Fin 512) (b : Nat) (e : Nat × Nat × RegWord), s.flash.erases.find? (fun e => e.1
    == d.val && e.2.1 == b) = some e :=
  ⟨flashing fun f => { f with erases := [(511, 1, 0)] }, 511, 1, (511, 1, 0), by decide +kernel⟩

theorem wit_FlashUnitCommandsAct_16 : ∃ (s : State) (d : Fin 512), s.dieBusy d = true ∧ s.dieLive d = true :=
  ⟨flashing fun f => { f with progs := [(2, program)] }, 0, by decide +kernel⟩

theorem wit_FlashUnitCommandsAct_17 : ∃ (s : State) (d : Fin 512), s.dieLive d = true :=
  ⟨flashed, 0, by decide +kernel⟩

theorem wit_FlashUnitCommandsAct_18 : ∃ (s : State), s.enabled pFtm = true :=
  ⟨flashed, by decide +kernel⟩

theorem wit_FlashUnitCommandsAct_19 : ∃ (s : State), s.flash.free.length < 1024 :=
  ⟨flashing fun f => { f with free := List.replicate 1023 (0, 0) }, by decide +kernel⟩

theorem wit_FlashUnitCommandsAct_20 : ∃ (s : State), 1024 ≤ s.flash.free.length :=
  ⟨flashing fun f => { f with free := List.replicate 1024 (0, 0) }, by decide +kernel⟩

theorem wit_FlashUnitCommandsAct_21 : ∃ (s : State) (op : Nat) (l : FlashLoc) (tag : List Byte), (s.fresh.patrolMay l).2 = true ∧
    op < 256 ∧ (s.fresh.patrolMay l).1.tagFree op = true ∧ s.bufferAt l = none ∧ fieldAt tag 12 4 ≠ crc32c (tag.take 12) :=
  ⟨flashed, 255, ⟨0, 1, 1, 0⟩, [1], by decide +kernel⟩

theorem wit_FlashUnitCommandsAct_22 : ∃ (s : State) (op : Nat) (l : FlashLoc) (tag : List Byte), (s.fresh.patrolMay l).2 = true ∧
    op < 256 ∧ (s.fresh.patrolMay l).1.tagFree op = true ∧ s.bufferAt l = none ∧ fieldAt tag 12 4 = crc32c (tag.take 12) ∧
    fieldAt tag 0 8 = 2 ^ 64 - 1 ∧ s.flash.inWait = [] ∧ s.freeCell.isSome = true :=
  ⟨flashed, 255, ⟨0, 1, 1, 0⟩, tagOf (2 ^ 64 - 1), by decide +kernel⟩

theorem wit_FlashUnitCommandsAct_23 : ∃ (s : State) (op : Nat) (unit : Nat) (l : FlashLoc) (tag : List Byte), (s.fresh.patrolMay l).2 =
    true ∧ op < 256 ∧ (s.fresh.patrolMay l).1.tagFree op = true ∧ s.bufferAt l = none ∧ fieldAt tag 12 4 = crc32c (tag.take 12) ∧
    fieldAt tag 0 8 = unit ∧ unit ≠ 2 ^ 64 - 1 ∧ natBits ((((s.fresh.patrolMay l).1.patrolMove l).mapEntry unit).2) 41 1 = 1 ∧
    locOf ((((s.fresh.patrolMay l).1.patrolMove l).mapEntry unit).2) = l ∧ natBits ((((s.fresh.patrolMay l).1.patrolMove l).mapEntry
    unit).2) 42 1 = 0 ∧ s.flash.inWait = [] ∧ s.freeCell.isSome = true :=
  ⟨flashed [(0, 2 ^ 41 + (⟨0, 1, 1, 0⟩ : FlashLoc).word)], 255, 0, ⟨0, 1, 1, 0⟩, tagOf 0, by decide +kernel⟩

/-- The device with a DRAM window of one channel, all initialised, whose record `f` changes. -/
def windowed (f : Dmc → Dmc := id) : State :=
  let s := put (put (put State.reset (pDmc 0) Reg.DMC_GEOM 0 9 1) (pDmc 0) Reg.DMC_INIT 31 1 1) (pDmc 0 + 1) (Reg.DMC_PORT 1 0x04) 0 25 0x10000
  let s := { s with window := ⟨[0], 0x10000000⟩ }
  s.setDmc 0 (f { s.dmc 0 with trained := true })

/-- The same with port `p` enabled, in panic or not, its record changed by `f`. -/
def ported (p : Nat) (panic : Bool) (f : RtPort → RtPort := id) : State :=
  let s := put (put (put windowed (pDmc 0 + 1) (Reg.DMC_PORT p 0) 0 2 (1 + 2 * panic.toNat)) (pDmc 0 + 1) (Reg.DMC_PORT p 0x04) 16 9 1)
    (pDmc 0 + 1) (Reg.DMC_PORT p 0x08) 0 32 0x00010002
  s.setRt p (f (s.rt p))

/-- Channel 0 with the states of its two ranks. -/
def ranked (r0 r1 : Nat) (f : Dmc → Dmc := id) : State :=
  let s := ((windowed f).setRankSt 0 0 r0).setRankSt 0 1 r1
  put (put s (pDmc 0) Reg.DMC_RANK 2 1 0) (pDmc 0) Reg.DMC_RANK 6 1 0

/-- Port 1 in panic with 64 bytes to drain, and what it reads of its buffer; port 0 in panic with 64 bytes to fetch. -/
def port1 : State := ported 1 true fun r => { r with segs := [(64, 64)], fill := 64, pos := 64 }
def port1Read : State × Option (List Byte) := port1.fresh.rtRead 1 ((port1.rt 1).pos + port1.rtSize 1 - (port1.rt 1).fill % (port1.rtSize 1 + 1)) 64
def port0 : State := ported 0 true fun r => { r with segs := [(64, 64)] }

theorem wit_DramCommandsAct_0 : ∃ (s : State) (w : Bool) (a : Nat) (n : Nat) (b : List Byte), s.dramSize < a + (if w then b.length else
    n) :=
  ⟨windowed, true, 0xFFFFFFF, 0, [1, 2], by decide +kernel⟩

theorem wit_DramCommandsAct_1 : ∃ (s : State) (a : Nat) (b : List Byte), a % 64 = 0 ∧ b.length = 64 ∧ a + 64 ≤ s.dramSize ∧
    s.initPassed a = true ∧ s.initPassed (a + 63) = true ∧ s.rankFree a = true ∧ (List.range 4).any s.rtFirst = false :=
  ⟨windowed, 0xFFFFFC0, List.replicate 64 7, by decide +kernel⟩

theorem wit_DramCommandsAct_2 : ∃ (s : State) (a : Nat), a % 64 = 0 ∧ a + 64 ≤ s.dramSize ∧ s.initPassed a = true ∧
    s.initPassed (a + 63) = true ∧ s.rankFree a = true ∧ (List.range 4).any s.rtFirst = false ∧ mapFind s.dramErr (a / 64) = none :=
  ⟨windowed, 0xFFFFFC0, by decide +kernel⟩

theorem wit_DramCommandsAct_3 : ∃ (s : State) (a : Nat) (n : Nat) (b : List Byte), b.length = n ∧ n ≠ 0 ∧ a % 64 + n < 64 ∧
    a + n ≤ s.dramSize ∧ s.initPassed a = true ∧ s.initPassed (a + n - 1) = true ∧ s.rankFree a = true ∧
    (List.range 4).any s.rtFirst = false ∧ mapFind s.dramErr (a / 64) = some poisonErr :=
  ⟨{ windowed with dramErr := [(1, poisonErr)] }, 64, 63, List.replicate 63 0, by decide +kernel⟩

theorem wit_DramCommandsAct_4 : ∃ (s : State) (w : Bool) (a : Nat) (n : Nat) (b : List Byte), a + (if w then b.length else n) ≤
    s.dramSize ∧ (List.range 4).any s.rtFirst = true :=
  ⟨ported 0 true fun r => { r with segs := [(64, 64)] }, true, 0xFFFFFFF, 0, [1], by decide +kernel⟩

theorem wit_DramCommandsAct_5 : ∃ (s : State) (p : Nat) (b : List Byte), s.rtSize p < s.rtFillOf p + b.length :=
  ⟨ported 3 false, 3, List.replicate 0x10001 0, by decide +kernel⟩

theorem wit_DramCommandsAct_6 : ∃ (s : State) (p : Nat) (b : List Byte), p < 4 ∧ p ≠ 0 ∧ s.rtFillOf p + b.length ≤ s.rtSize p :=
  ⟨ported 3 false, 3, [1], by decide +kernel⟩

theorem wit_DramCommandsAct_7 : ∃ (s : State) (p : Nat) (b : List Byte), p < 4 ∧ p ≠ 0 ∧ s.rtFillOf p + b.length ≤ s.rtSize p ∧
    s.rtPanic p = false ∧ s.fget (pDmc 0 + 1) (Reg.DMC_PORT p 0x08) 0 16 * 4096 ≤ s.rtFillOf p + b.length :=
  ⟨ported 3 false fun r => { r with fill := 0x1FFF }, 3, [1], by decide +kernel⟩

theorem wit_DramCommandsAct_8 : ∃ (s : State) (s1 : State) (s2 : State) (p : Fin 4) (a : Nat) (k : Nat) (segs : List (Nat × Nat)) (b :
    List Byte), p.val ≠ 0 ∧ s.bit (pDmc 0 + 1) (Reg.DMC_PORT p 0) 0 = true ∧ s.rtBehind p = false ∧ (s.rt p).segs = (a, k) :: segs ∧
    (s.rtPanic p || decide (256 ≤ s.rtNeed p)) = true ∧ k ≤ (s.rt p).fill ∧ s.rtMay p a k = true ∧
    s.fresh.rtRead p ((s.rt p).pos + s.rtSize p - (s.rt p).fill % (s.rtSize p + 1)) k = (s1, some b) ∧ s1.dramWrite a b [] = (s2, true) ∧
    ((p.val = 1 → s.fmt.out = [])) ∧ ((p.val = 3 → s.dcf.outq = [])) :=
  ⟨port1, port1Read.1, (port1Read.1.dramWrite 64 (port1Read.2.getD []) []).1, 1, 64, 64, [], port1Read.2.getD [], by decide +kernel⟩

theorem wit_DramCommandsAct_9 : ∃ (s : State) (s1 : State) (a : Nat) (k : Nat) (segs : List (Nat × Nat)) (b : List Byte), s.bit (pDmc 0 +
    1) (Reg.DMC_PORT 0 0) 0 = true ∧ s.rtBehind 0 = false ∧ (s.rt 0).segs = (a, k) :: segs ∧
    (s.rtPanic 0 || decide (256 ≤ s.rtNeed 0)) = true ∧ k ≤ s.rtNeed 0 ∧ s.rtMay 0 a k = true ∧ s.fresh.dramRead a k [] = (s1, some b) :=
  ⟨port0, (port0.fresh.dramRead 64 64 []).1, 64, 64, [], (port0.fresh.dramRead 64 64 []).2.getD [], by decide +kernel⟩

theorem wit_DramCommandsAct_10 : ∃ (s : State) (p : Fin 4), (s.rtBehind p = true ∨ (s.rtPanic p = false ∧ s.rtNeed p < 256)) :=
  ⟨ported 1 false, 1, by decide +kernel⟩

theorem wit_DramCommandsAct_11 : ∃ (s : State) (n : Fin 4) (r : Fin 2), s.rankSt n r ≠ 0 ∧ s.owed n r < 15 :=
  ⟨(ranked 1 0).setOwed 0 0 14, 0, 0, by decide +kernel⟩

theorem wit_DramCommandsAct_12 : ∃ (s : State) (n : Fin 4) (r : Fin 2), s.owed n r ≠ 0 :=
  ⟨(ranked 1 0).setOwed 0 1 1, 0, 1, by decide +kernel⟩

theorem wit_DramCommandsAct_13 : ∃ (s : State) (n : Fin 4) (r : Fin 2), s.bit (pDmc n) Reg.DMC_REF (12 + r) = false :=
  ⟨windowed, 3, 1, by decide +kernel⟩

theorem wit_DramCommandsAct_14 : ∃ (s : State) (n : Fin 4) (r : Fin 2), 8192 ≤ mapGet (fun _ => 0) (s.dmc n).refs r :=
  ⟨windowed fun d => { d with refs := [(1, 8192)] }, 0, 1, by decide +kernel⟩

theorem wit_DramCommandsAct_15 : ∃ (s : State) (n : Fin 4), (s.dmc n).alerts < 2 :=
  ⟨windowed fun d => { d with alerts := 1 }, 0, by decide +kernel⟩

theorem wit_DramCommandsAct_16 : ∃ (s : State) (n : Fin 4) (r : Fin 2), 2 ≤ (s.dmc n).alerts ∧ s.rankSt n r = 1 ∧ s.rankDeg n r = false ∧
    (s.dmc n).mig = none ∧ s.rankSt n 1 ≠ 2 :=
  ⟨ranked 1 1 fun d => { d with alerts := 2 }, 0, 0, by decide +kernel⟩

theorem wit_DramCommandsAct_17 : ∃ (s : State) (n : Fin 4), 2 ≤ (s.dmc n).alerts ∧ s.rankSt n 0 = 1 ∧ s.rankDeg n 0 = false ∧
    (s.dmc n).mig = none ∧ s.rankSt n 1 = 2 :=
  ⟨ranked 1 2 fun d => { d with alerts := 2 }, 0, by decide +kernel⟩

theorem wit_DramCommandsAct_18 : ∃ (s : State) (n : Fin 4) (src : Nat) (dst : Nat), (s.dmc n).mig = some (src, dst) ∧ dst < 2 :=
  ⟨windowed fun d => { d with mig := some (0, 1) }, 0, 0, 1, by decide +kernel⟩

theorem wit_DramCommandsAct_19 : ∃ (s : State) (n : Fin 4), (s.blk (pDmc n)).active = true :=
  ⟨{ windowed with blks := [(pDmc 0, { windowed.blk (pDmc 0) with active := true })] }, 0, by decide +kernel⟩

theorem wit_DramCommandsAct_20 : ∃ (s : State) (n : Fin 4), (s.blk (pDmc n)).active = false ∧ s.enabled (pDmc n) = true :=
  ⟨on [pDmc 3], 3, by decide +kernel⟩

theorem wit_DramCommandsAct_21 : ∃ (s : State) (n : Fin 4), s.fget (pDmc n) Reg.DMC_TRAIN 8 4 = 1 :=
  ⟨put windowed (pDmc 0) Reg.DMC_TRAIN 8 4 1, 0, by decide +kernel⟩

theorem wit_DramCommandsAct_22 : ∃ (s : State) (n : Fin 4), (s.dmc n).trained = true ∧ s.anyPanic = false ∧ (s.dmc n).catchUp = [] ∧
    s.fget (pDmc n) Reg.DMC_TRAIN 16 8 ≠ 0 :=
  ⟨put windowed (pDmc 0) Reg.DMC_TRAIN 16 8 1, 0, by decide +kernel⟩

theorem wit_DramCommandsAct_23 : ∃ (s : State) (n : Fin 4) (units : Nat), (s.dmc n).trained = true ∧
    s.bit (pDmc n) Reg.DMC_INIT 31 = false ∧ s.fget (pDmc n) Reg.DMC_INIT 0 24 + units < 2 ^ 24 :=
  ⟨put (windowed) (pDmc 0) Reg.DMC_INIT 31 1 0, 0, 2 ^ 24 - 1, by decide +kernel⟩

def cxeBad : State := jobbed (job 0x13 3)
def cxeRaw : State := jobbed { job 0x13 1 with src := [], srcLen := 0, dst := [], eflags := 1, param0 := 0x40100 }
def cxeRawv : State × Except Nat (List Byte) := ({ (took cxeRaw 0x13 1).1 with inp := [] }).readRanges ((took cxeRaw 0x13 1).2.2).func ((took cxeRaw 0x13 1).2.2).src
def cxeRawW : State × Nat := cxeRawv.1.writePart 0xFFFF [] []
def cxeEnc : State := jobbed { job 0x13 1 with src := [], srcLen := 0, param0 := 0x40100 }
def cxeEncv : State × Except Nat (List Byte) := ({ (took cxeEnc 0x13 1).1 with inp := [] }).readRanges ((took cxeEnc 0x13 1).2.2).func ((took cxeEnc 0x13 1).2.2).src
def cxeDec : State := jobbed { job 0x13 2 with src := [⟨sramGeneral, 12⟩], srcLen := 12 }
    { (on [pCxe 0, pAee 0, pHse, pAse, pKpr]) with mem := memWrite [] (sramGeneral) ([0x28, 0xB5, 0x2F, 0xFD, 0x20, 3, 0x19, 0, 0, 1, 2, 3]) }
def cxeDecv : State × Except Nat (List Byte) := ({ (took cxeDec 0x13 2).1 with inp := [] }).readRanges ((took cxeDec 0x13 2).2.2).func ((took cxeDec 0x13 2).2.2).src
def cxeDecD : CxeIn := cxeDecodeN (natBits (took cxeDec 0x13 2).2.2.param0 0 3) (bytesOf cxeDecv).toArray true ((bytesOf cxeDecv).length + 1) 0 (rangesLen (took cxeDec 0x13 2).2.2.dst) ⟨0, 0, [], false, false⟩
def cxeErr : State := jobbed { job 0x13 2 with dst := [] }
def cxeErrv : State × Except Nat (List Byte) := ({ (took cxeErr 0x13 2).1 with inp := [] }).readRanges ((took cxeErr 0x13 2).2.2).func ((took cxeErr 0x13 2).2.2).src
def cxeErrD : CxeIn := cxeDecodeN (natBits (took cxeErr 0x13 2).2.2.param0 0 3) (bytesOf cxeErrv).toArray true ((bytesOf cxeErrv).length + 1) 0 (rangesLen (took cxeErr 0x13 2).2.2.dst) ⟨0, 0, [], false, false⟩
def cxeChk : State := jobbed { job 0x13 3 with dst := [], dstAddr := 0 }
def cxeChkv : State × Except Nat (List Byte) := ({ (took cxeChk 0x13 3).1 with inp := [] }).readRanges ((took cxeChk 0x13 3).2.2).func ((took cxeChk 0x13 3).2.2).src
def cxeChkD : CxeIn := cxeDecodeN (natBits (took cxeChk 0x13 3).2.2.param0 0 3) (bytesOf cxeChkv).toArray false ((bytesOf cxeChkv).length + 1) 0 (rangesLen (took cxeChk 0x13 3).2.2.dst) ⟨0, 0, [], false, false⟩
def hseBad : State := jobbed (job 0x15 3)
def hseDig : State := jobbed { job 0x15 1 with param1 := 8 }
def hseDigv : State × Except Nat (List Byte) := ({ (took hseDig 0x15 1).1 with inp := [] }).readRanges ((took hseDig 0x15 1).2.2).func ((took hseDig 0x15 1).2.2).src
def hseVer : State := jobbed { job 0x15 2 with param1 := 8, dst := [⟨sramGeneral + 0x1000, 4⟩] }
def hseVerv : State × Except Nat (List Byte) := ({ (took hseVer 0x15 2).1 with inp := [] }).readRanges ((took hseVer 0x15 2).2.2).func ((took hseVer 0x15 2).2.2).src
def hseVerX : State × Except Nat (List Byte) := hseVerv.1.readRanges 0xFFFF [⟨sramGeneral + 0x1000, 4⟩]
def hseNoRec : State := jobbed { job 0x15 1 with param1 := 8, eflags := 3, dst := [], dstAddr := 0, aux := some ⟨sramGeneral + 0x2000, 256⟩ }
def hseNoRecv : State × Except Nat (List Byte) := ({ (took hseNoRec 0x15 1).1 with inp := [] }).readRanges ((took hseNoRec 0x15 1).2.2).func ((took hseNoRec 0x15 1).2.2).src
def hseNoRecX : State × Except Nat (List Byte) := hseNoRecv.1.readRanges 0xFFFF [⟨sramGeneral + 0x2000, 256⟩]
def hseRec : State := jobbed { job 0x15 2 with param1 := 8, eflags := 3, dst := [], dstAddr := 0, aux := some ⟨sramGeneral + 0x2000, 256⟩ }
    { (on [pCxe 0, pAee 0, pHse, pAse, pKpr]) with mem := memWrite [] (sramGeneral + 0x2000) (leBytes 4 264 ++ leBytes 4 (crc32c (leBytes 8 5 ++ List.replicate 240 0)) ++ [5]) }
def hseRecv : State × Except Nat (List Byte) := ({ (took hseRec 0x15 2).1 with inp := [] }).readRanges ((took hseRec 0x15 2).2.2).func ((took hseRec 0x15 2).2.2).src
def hseRecX : State × Except Nat (List Byte) := hseRecv.1.readRanges (took hseRec 0x15 2).2.2.func (took hseRec 0x15 2).2.2.aux.toList
def hseRecW : State × Nat := hseRecX.1.writeRanges (took hseRec 0x15 2).2.2.func (took hseRec 0x15 2).2.2.aux.toList (recordBytes ((took hseRec 0x15 2).2.2.param1 % 16) (algAbsorb ((took hseRec 0x15 2).2.2.param1 % 16) ((recordOf ((took hseRec 0x15 2).2.2.param1 % 16) (bytesOf hseRecX)).getD ([], 0)).1 (bytesOf hseRecv)) (((recordOf ((took hseRec 0x15 2).2.2.param1 % 16) (bytesOf hseRecX)).getD ([], 0)).2 + (bytesOf hseRecv).length))
def hseCrc : State := jobbed { job 0x15 3 with param1 := 8 }
def hseCrcv : State × Except Nat (List Byte) := ({ (took hseCrc 0x15 3).1 with inp := [] }).readRanges ((took hseCrc 0x15 3).2.2).func ((took hseCrc 0x15 3).2.2).src

theorem wit_CompressionAndHashJobsEnd_0 : ∃ (s : State) (u : State) (tag : Nat) (pg : Nat) (e : Nat) (op : Nat) (host : List Byte) (j :
    Job) (i : Instr), ((op = 1 ∧ i = .compress tag host ∨ op = 2 ∧ i = .decompress tag host ∨ op = 3 ∧ i = .check tag host)) ∧
    s.fresh.takeJob 0x13 tag (· == op) = some (u, pg, j) ∧ cxeRefusal j = some e :=
  ⟨cxeBad, (took cxeBad 0x13 3).1, 300, (took cxeBad 0x13 3).2.1, 0x1001, 3, [], (took cxeBad 0x13 3).2.2, .check 300 [],
    by decide +kernel⟩

theorem wit_CompressionAndHashJobsEnd_1 : ∃ (s : State) (u : State) (v : State) (w : State) (tag : Nat) (pg : Nat) (host : List Byte) (b
    : List Byte) (j : Job), s.fresh.takeJob 0x13 tag (· == 1) = some (u, pg, j) ∧ cxeRefusal j = none ∧ natBits j.eflags 0 1 = 1 ∧
    State.readRanges { u with inp := host } j.func j.src = (v, .ok b) ∧ b.length ≤ ((((chunks (1024 * natBits j.param0 16 13) b).filter
    (!·.isEmpty)).map fun c => (cxeBlock (natBits j.param0 0 3) (natBits j.param0 8 4) (v.setting pg ((j.inst.map Prod.snd).getD 0) pg
    (Reg.CXE_LVL (natBits j.param0 8 4))) c).length)).sum ∧ v.writePart j.func j.dst [] = (w, 0) :=
  ⟨cxeRaw, (took cxeRaw 0x13 1).1, cxeRawv.1, cxeRawW.1, 300, (took cxeRaw 0x13 1).2.1, [], bytesOf cxeRawv, (took cxeRaw 0x13 1).2.2,
    by decide +kernel⟩

theorem wit_CompressionAndHashJobsEnd_2 : ∃ (s : State) (u : State) (v : State) (w : State) (tag : Nat) (pg : Nat) (host : List Byte) (b
    : List Byte) (j : Job) (bs : List (List Byte × List Byte)), s.fresh.takeJob 0x13 tag (· == 1) = some (u, pg, j) ∧
    cxeRefusal j = none ∧ natBits j.eflags 0 2 = 0 ∧ State.readRanges { u with inp := host } j.func j.src = (v, .ok b) ∧
    bs = ((chunks (1024 * natBits j.param0 16 13) b).filter (!·.isEmpty)).map (fun c => (c, cxeBlock (natBits j.param0 0 3) (natBits
    j.param0 8 4) (v.setting pg ((j.inst.map Prod.snd).getD 0) pg (Reg.CXE_LVL (natBits j.param0 8 4))) c)) ∧
    (bs.flatMap Prod.snd).length ≤ rangesLen j.dst ∧ v.writeRanges j.func j.dst (bs.flatMap Prod.snd) = (w, 0) :=
  ⟨cxeEnc, (took cxeEnc 0x13 1).1, cxeEncv.1, cxeEncv.1, 300, (took cxeEnc 0x13 1).2.1, [], bytesOf cxeEncv, (took cxeEnc 0x13 1).2.2,
    [], by decide +kernel⟩

theorem wit_CompressionAndHashJobsEnd_3 : ∃ (s : State) (u : State) (v : State) (w : State) (tag : Nat) (pg : Nat) (host : List Byte) (b
    : List Byte) (j : Job) (d : CxeIn), s.fresh.takeJob 0x13 tag (· == 2) = some (u, pg, j) ∧ cxeRefusal j = none ∧
    State.readRanges { u with inp := host } j.func j.src = (v, .ok b) ∧ d = cxeDecodeN (natBits j.param0 0 3) b.toArray true (b.length +
    1) 0 (rangesLen j.dst) ⟨0, 0, [], false, false⟩ ∧ d.status = 0 ∧ v.writeRanges j.func j.dst d.out = (w, 0) :=
  ⟨cxeDec, (took cxeDec 0x13 2).1, cxeDecv.1, (cxeDecv.1.writeRanges 0xFFFF (job 0x13 2).dst cxeDecD.out).1, 300, (took cxeDec 0x13
    2).2.1, [], bytesOf cxeDecv, (took cxeDec 0x13 2).2.2, cxeDecD, by decide +kernel, by decide +kernel, by decide +kernel, rfl,
    by decide +kernel, by decide +kernel⟩

theorem wit_CompressionAndHashJobsEnd_4 : ∃ (s : State) (u : State) (v : State) (w : State) (tag : Nat) (pg : Nat) (host : List Byte) (b
    : List Byte) (j : Job) (d : CxeIn), s.fresh.takeJob 0x13 tag (· == 2) = some (u, pg, j) ∧ cxeRefusal j = none ∧
    State.readRanges { u with inp := host } j.func j.src = (v, .ok b) ∧ d = cxeDecodeN (natBits j.param0 0 3) b.toArray true (b.length +
    1) 0 (rangesLen j.dst) ⟨0, 0, [], false, false⟩ ∧ d.status ∈ [0x1010, 0x1011, 0x1012, 0x2010, 0x3010, 0x3011] ∧
    v.writePart j.func j.dst d.out = (w, 0) :=
  ⟨cxeErr, (took cxeErr 0x13 2).1, cxeErrv.1, (cxeErrv.1.writePart 0xFFFF [] cxeErrD.out).1, 300, (took cxeErr 0x13 2).2.1, [], bytesOf
    cxeErrv, (took cxeErr 0x13 2).2.2, cxeErrD, by decide +kernel, by decide +kernel, by decide +kernel, rfl, by decide +kernel,
    by decide +kernel⟩

theorem wit_CompressionAndHashJobsEnd_5 : ∃ (s : State) (u : State) (v : State) (tag : Nat) (pg : Nat) (host : List Byte) (b : List Byte)
    (j : Job) (d : CxeIn), s.fresh.takeJob 0x13 tag (· == 3) = some (u, pg, j) ∧ cxeRefusal j = none ∧
    State.readRanges { u with inp := host } j.func j.src = (v, .ok b) ∧ d = cxeDecodeN (natBits j.param0 0 3) b.toArray false (b.length +
    1) 0 (rangesLen j.dst) ⟨0, 0, [], false, false⟩ ∧ d.status ∈ [0, 0x1010, 0x1011, 0x1012, 0x3010, 0x3011] :=
  ⟨cxeChk, (took cxeChk 0x13 3).1, cxeChkv.1, 300, (took cxeChk 0x13 3).2.1, [], bytesOf cxeChkv, (took cxeChk 0x13 3).2.2, cxeChkD,
    by decide +kernel, by decide +kernel, by decide +kernel, rfl, by decide +kernel⟩

theorem wit_CompressionAndHashJobsEnd_6 : ∃ (s : State) (u : State) (tag : Nat) (pg : Nat) (op : Nat) (host : List Byte) (j : Job) (i :
    Instr), ((op = 1 ∧ i = .digest tag host ∨ op = 2 ∧ i = .hseVerify tag host ∨ op = 3 ∧ i = .crcBlocks tag host)) ∧
    s.fresh.takeJob 0x15 tag (· == op) = some (u, pg, j) ∧ hseParamsOk j = false :=
  ⟨hseBad, (took hseBad 0x15 3).1, 300, (took hseBad 0x15 3).2.1, 3, [], (took hseBad 0x15 3).2.2, .crcBlocks 300 [], by decide +kernel⟩

theorem wit_CompressionAndHashJobsEnd_7 : ∃ (s : State) (u : State) (v : State) (w : State) (tag : Nat) (pg : Nat) (host : List Byte) (b
    : List Byte) (j : Job), s.fresh.takeJob 0x15 tag (· == 1) = some (u, pg, j) ∧ hseParamsOk j = true ∧ j.opcode = 1 ∧ j.eflags = 0 ∧
    State.readRanges { u with inp := host } j.func j.src = (v, .ok b) ∧ v.writeRanges j.func j.dst (algDigest (j.param1 % 16) b) = (w, 0)
    :=
  ⟨hseDig, (took hseDig 0x15 1).1, hseDigv.1, (hseDigv.1.writeRanges 0xFFFF (job 0x15 1).dst (algDigest 8 (bytesOf hseDigv))).1, 300,
    (took hseDig 0x15 1).2.1, [], bytesOf hseDigv, (took hseDig 0x15 1).2.2, by decide +kernel⟩

theorem wit_CompressionAndHashJobsEnd_8 : ∃ (s : State) (u : State) (v : State) (v' : State) (tag : Nat) (pg : Nat) (host : List Byte) (b
    : List Byte) (x : List Byte) (j : Job), s.fresh.takeJob 0x15 tag (· == 2) = some (u, pg, j) ∧ hseParamsOk j = true ∧ j.opcode = 2 ∧
    j.eflags = 0 ∧ State.readRanges { u with inp := host } j.func j.src = (v, .ok b) ∧ v.readRanges j.func j.dst = (v', .ok x) :=
  ⟨hseVer, (took hseVer 0x15 2).1, hseVerv.1, hseVerX.1, 300, (took hseVer 0x15 2).2.1, [], bytesOf hseVerv, bytesOf hseVerX, (took
    hseVer 0x15 2).2.2, by decide +kernel⟩

theorem wit_CompressionAndHashJobsEnd_9 : ∃ (s : State) (u : State) (v : State) (v' : State) (tag : Nat) (pg : Nat) (op : Nat) (host :
    List Byte) (b : List Byte) (r : List Byte) (j : Job) (i : Instr), ((op = 1 ∧ i = .digest tag host ∨ op = 2 ∧
    i = .hseVerify tag host)) ∧ s.fresh.takeJob 0x15 tag (· == op) = some (u, pg, j) ∧ hseParamsOk j = true ∧ j.eflags = 3 ∧
    State.readRanges { u with inp := host } j.func j.src = (v, .ok b) ∧ v.readRanges j.func j.aux.toList = (v', .ok r) ∧
    recordOf (j.param1 % 16) r = none :=
  ⟨hseNoRec, (took hseNoRec 0x15 1).1, hseNoRecv.1, hseNoRecX.1, 300, (took hseNoRec 0x15 1).2.1, 1, [], bytesOf hseNoRecv, bytesOf
    hseNoRecX, (took hseNoRec 0x15 1).2.2, .digest 300 [], by decide +kernel⟩

theorem wit_CompressionAndHashJobsEnd_10 : ∃ (s : State) (u : State) (v : State) (v' : State) (w : State) (tag : Nat) (pg : Nat) (op :
    Nat) (host : List Byte) (b : List Byte) (r : List Byte) (j : Job) (i : Instr) (st : List Nat) (len : Nat), ((op = 1 ∧
    i = .digest tag host ∨ op = 2 ∧ i = .hseVerify tag host)) ∧ s.fresh.takeJob 0x15 tag (· == op) = some (u, pg, j) ∧
    hseParamsOk j = true ∧ j.eflags = 3 ∧ State.readRanges { u with inp := host } j.func j.src = (v, .ok b) ∧
    v.readRanges j.func j.aux.toList = (v', .ok r) ∧ recordOf (j.param1 % 16) r = some (st, len) ∧
    v'.writeRanges j.func j.aux.toList (recordBytes (j.param1 % 16) (algAbsorb (j.param1 % 16) st b) (len + b.length)) = (w, 0) :=
  ⟨hseRec, (took hseRec 0x15 2).1, hseRecv.1, hseRecX.1, hseRecW.1, 300, (took hseRec 0x15 2).2.1, 2, [], bytesOf hseRecv, bytesOf
    hseRecX, (took hseRec 0x15 2).2.2, .hseVerify 300 [], ((recordOf ((took hseRec 0x15 2).2.2.param1 % 16) (bytesOf hseRecX)).getD ([],
    0)).1, ((recordOf ((took hseRec 0x15 2).2.2.param1 % 16) (bytesOf hseRecX)).getD ([], 0)).2, .inr ⟨rfl, rfl⟩, took_eq
    (by decide +kernel), by decide +kernel, by decide +kernel, read_eq (x := hseRecv) (by decide +kernel), read_eq (x := hseRecX)
    (by decide +kernel), getD_eq (o := recordOf ((took hseRec 0x15 2).2.2.param1 % 16) (bytesOf hseRecX)) (by decide +kernel), wrote_eq
    (x := hseRecW) (by decide +kernel)⟩

theorem wit_CompressionAndHashJobsEnd_11 : ∃ (s : State) (u : State) (v : State) (w : State) (tag : Nat) (pg : Nat) (host : List Byte) (b
    : List Byte) (j : Job), s.fresh.takeJob 0x15 tag (· == 3) = some (u, pg, j) ∧ hseParamsOk j = true ∧
    State.readRanges { u with inp := host } j.func j.src = (v, .ok b) ∧ v.writeRanges j.func j.dst (((chunks (2 ^ (9 + natBits j.param1
    16 4)) b).filter (!·.isEmpty)).flatMap (algDigest (j.param1 % 16))) = (w, 0) :=
  ⟨hseCrc, (took hseCrc 0x15 3).1, hseCrcv.1, (hseCrcv.1.writeRanges 0xFFFF (job 0x15 3).dst (algDigest 8 (bytesOf hseCrcv))).1, 300,
    (took hseCrc 0x15 3).2.1, [], bytesOf hseCrcv, (took hseCrc 0x15 3).2.2, by decide +kernel⟩

def xtsBad : State := jobbed (job 0x14 1)
    (on [pCxe 0, pAee 0, pHse, pAse, pKpr])
def xtsJob : State := jobbed { job 0x14 1 with src := [⟨sramGeneral, 512⟩], srcLen := 512, dst := [⟨sramGeneral + 0x1000, 512⟩], param1 := 0x9000 }
    (withKey (keyed 3 7) (on [pCxe 0, pAee 0, pHse, pAse, pKpr]))
def xtsDecJob : State := jobbed { job 0x14 2 with src := [⟨sramGeneral, 512⟩], srcLen := 512, dst := [⟨sramGeneral + 0x1000, 512⟩], param1 := 0x9000 }
    (withKey (keyed 3 7) (on [pCxe 0, pAee 0, pHse, pAse, pKpr]))
def xtsJobv : State × Except Nat (List Byte) := ({ (took xtsJob 0x14 1).1 with inp := [] }).readRanges ((took xtsJob 0x14 1).2.2).func ((took xtsJob 0x14 1).2.2).src
def xtsJobw : State × Nat := xtsJobv.1.writeRanges (took xtsJob 0x14 1).2.2.func (took xtsJob 0x14 1).2.2.dst (xts true (keyed 3 7).key (2 ^ natBits (took xtsJob 0x14 1).2.2.param1 12 4) (took xtsJob 0x14 1).2.2.param0 (bytesOf xtsJobv))
def ctrJob : State := jobbed { job 0x14 7 with aux := some ⟨sramGeneral + 0x2000, 16⟩ }
    (withKey (keyed 1 0x1F) (on [pCxe 0, pAee 0, pHse, pAse, pKpr]))
def ctrJobi : State × Except Nat (List Byte) := ({ (took ctrJob 0x14 7).1 with inp := [] }).readRanges ((took ctrJob 0x14 7).2.2).func ((took ctrJob 0x14 7).2.2).aux.toList
def ctrJobv : State × Except Nat (List Byte) := (ctrJobi.1).readRanges ((took ctrJob 0x14 7).2.2).func ((took ctrJob 0x14 7).2.2).src
def ctrJobw : State × Nat := ctrJobv.1.writeRanges (took ctrJob 0x14 7).2.2.func (took ctrJob 0x14 7).2.2.dst (ctrCrypt (keyed 1 0x1F).key (bytesOf ctrJobi) (bytesOf ctrJobv))
def gmacUsed : State := jobbed { job 0x14 5 with dst := [], dstAddr := 0, aux := some ⟨sramGeneral + 0x2000, 32⟩ }
    (withKey (keyed 1 0x1F 0xFFFFFFFF) (on [pCxe 0, pAee 0, pHse, pAse, pKpr]))
def gmacJob : State := jobbed { job 0x14 5 with dst := [], dstAddr := 0, aux := some ⟨sramGeneral + 0x2000, 32⟩ }
    (withKey (keyed 1 0x1F 0xFFFFFFFE) (on [pCxe 0, pAee 0, pHse, pAse, pKpr]))
def gcmJob : State := jobbed { job 0x14 3 with aux := some ⟨sramGeneral + 0x2000, 32⟩, param1 := 0x40000 }
    (withKey (keyed 1 0x1F 0xFFFFFFFE) (on [pCxe 0, pAee 0, pHse, pAse, pKpr]))
def gcmJobv : State × Except Nat (List Byte) := ({ (took gcmJob 0x14 3).1 with inp := [], kpr := { (took gcmJob 0x14 3).1.kpr with keys := mapPut (took gcmJob 0x14 3).1.kpr.keys ((took gcmJob 0x14 3).2.2.param1 % 512) { (keyed 1 0x1F 0xFFFFFFFE) with inv := (keyed 1 0x1F 0xFFFFFFFE).inv + 1 } } }).readRanges ((took gcmJob 0x14 3).2.2).func ((took gcmJob 0x14 3).2.2).src
def gcmJobiv : List Byte := leBytes 4 (took gcmJob 0x14 3).1.kpr.salt ++ leBytes 8 (keyed 1 0x1F 0xFFFFFFFE).inv
def gcmJobw : State × Nat := gcmJobv.1.writeRanges (took gcmJob 0x14 3).2.2.func (took gcmJob 0x14 3).2.2.aux.toList (gcmJobiv ++ leBytes 4 0 ++ gcmTag (keyed 1 0x1F 0xFFFFFFFE).key gcmJobiv ((bytesOf gcmJobv).take (aeeAad (took gcmJob 0x14 3).2.2)) (gcmCrypt (keyed 1 0x1F 0xFFFFFFFE).key gcmJobiv ((bytesOf gcmJobv).drop (aeeAad (took gcmJob 0x14 3).2.2))))
def gcmJobw2 : State × Nat := gcmJobw.1.writeRanges (took gcmJob 0x14 3).2.2.func (took gcmJob 0x14 3).2.2.dst (gcmCrypt (keyed 1 0x1F 0xFFFFFFFE).key gcmJobiv ((bytesOf gcmJobv).drop (aeeAad (took gcmJob 0x14 3).2.2)))
def gmacVerJob : State := jobbed { job 0x14 6 with dst := [], dstAddr := 0, aux := some ⟨sramGeneral + 0x2000, 32⟩ }
    (withKey (keyed 1 0x1F) (on [pCxe 0, pAee 0, pHse, pAse, pKpr]))
def gmacVerJobr : State × Except Nat (List Byte) := ({ (took gmacVerJob 0x14 6).1 with inp := [] }).readRanges ((took gmacVerJob 0x14 6).2.2).func ((took gmacVerJob 0x14 6).2.2).aux.toList
def gmacVerJobv : State × Except Nat (List Byte) := (gmacVerJobr.1).readRanges ((took gmacVerJob 0x14 6).2.2).func ((took gmacVerJob 0x14 6).2.2).src
def shutJob : State := jobbed { job 0x14 4 with aux := some ⟨sramGeneral + 0x2000, 32⟩ }
    (withKey (keyed 1 0x1F) (on [pCxe 0, pAee 0, pHse, pAse, pKpr]))
def decBad : State := jobbed { job 0x14 4 with eflags := 2 }
    (on [pCxe 0, pAee 0, pHse, pAse, pKpr])
def decOkJ : Job := { job 0x14 4 with inst := some (pAee 0, 0), slot := some (0, 0), aux := some ⟨sramGeneral + 0x2000, 32⟩ }
def decOk : State := { withKey (keyed 1 0x1F) (on [pAee 0]) with jobs := [(300, decOkJ)], mem := memWrite [] (sramGeneral + 0x2010) (gcmTag (keyed 1 0x1F).key (List.replicate 12 0) [] (List.replicate 16 0)) }
def decOkr : State × Except Nat (List Byte) := State.readRanges { decOk.fresh with inp := [] } decOkJ.func decOkJ.aux.toList
def decOkv : State × Except Nat (List Byte) := decOkr.1.readRanges decOkJ.func decOkJ.src
def decOkw : State × Nat := State.writeRanges { decOkv.1 with jobs := mapPut decOkv.1.jobs 300 { decOkJ with released := if 2 ^ 20 < ((bytesOf decOkv).drop (aeeAad decOkJ)).length then earlyBytes ((bytesOf decOkv).drop (aeeAad decOkJ)).length else 0 } } decOkJ.func decOkJ.dst (gcmCrypt (keyed 1 0x1F).key ((bytesOf decOkr).take 12) ((bytesOf decOkv).drop (aeeAad decOkJ)))
def decBadTagJ : Job := { job 0x14 4 with inst := some (pAee 0, 0), slot := some (0, 0), aux := some ⟨sramGeneral + 0x2000, 32⟩ }
def decBadTag : State := { withKey (keyed 1 0x1F) (on [pAee 0]) with jobs := [(300, decBadTagJ)], mem := [] }
def decBadTagr : State × Except Nat (List Byte) := State.readRanges { decBadTag.fresh with inp := [] } decBadTagJ.func decBadTagJ.aux.toList
def decBadTagv : State × Except Nat (List Byte) := decBadTagr.1.readRanges decBadTagJ.func decBadTagJ.src
def genJob : State := jobbed { job 0x14 0x10 with src := [], srcLen := 0, dst := [], param1 := 2 ^ 44 }
    (withKey (keyed 1 0) ((on [pCxe 0, pAee 0, pHse, pAse, pKpr])) |> fun s => { s with kpr := { s.kpr with keys := [] } })
def loadJob : State := jobbed { job 0x14 0x11 with src := [], srcLen := 0, dst := [], param1 := 0 }
    (State.rset (State.rset (on [pCxe 0, pAee 0, pHse, pAse, pKpr]) (pAee 0) Reg.AEE_WKT_LO 0x0200_0000) (pAee 0) Reg.AEE_WKT_HI 0x100)
def loadJobv : State × Except Nat (List Byte) := State.dmaRead { (took loadJob 0x14 0x11).1 with inp := [] } 0xFFFF ((took loadJob 0x14 0x11).1.wktAt (natBits (took loadJob 0x14 0x11).2.2.param1 32 12)) 128
def wrapJob : State := jobbed { job 0x14 0x12 with src := [], srcLen := 0, dst := [], param1 := 0 }
    (withKey (keyed 1 0x20) (State.rset (State.rset (on [pCxe 0, pAee 0, pHse, pAse, pKpr]) (pAee 0) Reg.AEE_WKT_LO 0x0200_0000) (pAee 0) Reg.AEE_WKT_HI 0x100))
def wrapJobw : State × Nat := State.dmaWrite { (took wrapJob 0x14 0x12).1 with inp := [], kpr := { (took wrapJob 0x14 0x12).1.kpr with wraps := (took wrapJob 0x14 0x12).1.kpr.wraps + 1 } } 0xFFFF ((took wrapJob 0x14 0x12).1.wktAt (natBits (took wrapJob 0x14 0x12).2.2.param1 32 12)) ((took wrapJob 0x14 0x12).1.wrapRecord (keyed 1 0x20))
def wrapNot : State := jobbed { job 0x14 0x12 with src := [], srcLen := 0, dst := [], param1 := 0 }
    (withKey (keyed 1 0) (on [pCxe 0, pAee 0, pHse, pAse, pKpr]))
def eraseJob : State := jobbed { job 0x14 0x13 with src := [], srcLen := 0, dst := [], param1 := 0 }
    (withKey (keyed 1 0) (on [pCxe 0, pAee 0, pHse, pAse, pKpr]))
def eraseFn : State := jobbed { ({ job 0x14 0x13 with src := [], srcLen := 0, dst := [], param1 := 0 }) with func := 5 }
    (withKey (keyed 1 0 0 5) (on [pCxe 0, pAee 0, pHse, pAse, pKpr]))
def alarmJob : State := jobbed { job 0x14 0x13 with src := [], srcLen := 0, dst := [], param1 := 0 }
    (withKey (keyed 1 0) (put (on [pCxe 0, pAee 0, pHse, pAse, pKpr]) pKpr Reg.KPR_ALARM 0 4 8))

theorem wit_CipherAndKeyJobsEnd_0 : ∃ (s : State) (u : State) (tag : Nat) (pg : Nat) (e : Nat) (op : Nat) (host : List Byte) (j : Job) (i
    : Instr), ((op = 1 ∧ i = .xtsEnc tag host ∨ op = 2 ∧ i = .xtsDec tag host ∨ op = 3 ∧ i = .gcmEnc tag host ∨ op = 5 ∧
    i = .gmacGen tag host ∨ op = 6 ∧ i = .gmacVer tag host ∨ op = 7 ∧ i = .ctr tag host)) ∧
    s.fresh.takeJob 0x14 tag (· == op) = some (u, pg, j) ∧ ((aeeRefusal j = some e ∨ aeeRefusal j = none ∧
    State.keyFor { u with inp := host } j = .error e)) :=
  ⟨xtsBad, (took xtsBad 0x14 1).1, 300, (took xtsBad 0x14 1).2.1, 0x1001, 1, [], (took xtsBad 0x14 1).2.2, .xtsEnc 300 [],
    by decide +kernel⟩

theorem wit_CipherAndKeyJobsEnd_1 : ∃ (s : State) (u : State) (v : State) (w : State) (tag : Nat) (pg : Nat) (enc : Bool) (host : List
    Byte) (b : List Byte) (j : Job) (k : KeySlot), s.fresh.takeJob 0x14 tag (· == if enc then 1 else 2) = some (u, pg, j) ∧
    aeeRefusal j = none ∧ State.keyFor { u with inp := host } j = .ok k ∧ State.readRanges { u with inp := host } j.func j.src = (v, .ok
    b) ∧ v.writeRanges j.func j.dst (xts enc k.key (2 ^ natBits j.param1 12 4) j.param0 b) = (w, 0) :=
  ⟨xtsJob, (took xtsJob 0x14 1).1, xtsJobv.1, xtsJobw.1, 300, (took xtsJob 0x14 1).2.1, true, [], bytesOf xtsJobv, (took xtsJob 0x14
    1).2.2, keyed 3 7, took_eq (s := xtsJob) (e := 0x14) (op := 1) (by decide +kernel), by decide +kernel, by decide +kernel, read_eq (x
    := xtsJobv) (by decide +kernel), wrote_eq (x := xtsJobw) (by decide +kernel)⟩

theorem wit_CipherAndKeyJobsEnd_2 : ∃ (s : State) (u : State) (v : State) (v' : State) (w : State) (tag : Nat) (pg : Nat) (host : List
    Byte) (icb : List Byte) (b : List Byte) (j : Job) (k : KeySlot), s.fresh.takeJob 0x14 tag (· == 7) = some (u, pg, j) ∧
    aeeRefusal j = none ∧ State.keyFor { u with inp := host } j = .ok k ∧ State.readRanges { u with inp := host } j.func j.aux.toList =
    (v, .ok icb) ∧ v.readRanges j.func j.src = (v', .ok b) ∧ v'.writeRanges j.func j.dst (ctrCrypt k.key icb b) = (w, 0) :=
  ⟨ctrJob, (took ctrJob 0x14 7).1, ctrJobi.1, ctrJobv.1, ctrJobw.1, 300, (took ctrJob 0x14 7).2.1, [], bytesOf ctrJobi, bytesOf ctrJobv,
    (took ctrJob 0x14 7).2.2, keyed 1 0x1F, by decide +kernel⟩

theorem wit_CipherAndKeyJobsEnd_3 : ∃ (s : State) (u : State) (tag : Nat) (pg : Nat) (text : Bool) (host : List Byte) (j : Job) (k :
    KeySlot), s.fresh.takeJob 0x14 tag (· == if text then 3 else 5) = some (u, pg, j) ∧ aeeRefusal j = none ∧
    State.keyFor { u with inp := host } j = .ok k ∧ k.seq * 2 ^ 32 + 2 ^ 32 - 1 < k.inv + 1 :=
  ⟨gmacUsed, (took gmacUsed 0x14 5).1, 300, (took gmacUsed 0x14 5).2.1, false, [], (took gmacUsed 0x14 5).2.2, keyed 1 0x1F 0xFFFFFFFF,
    by decide +kernel⟩

theorem wit_CipherAndKeyJobsEnd_4 : ∃ (s : State) (u : State) (tag : Nat) (pg : Nat) (text : Bool) (host : List Byte) (j : Job) (k :
    KeySlot), s.fresh.takeJob 0x14 tag (· == if text then 3 else 5) = some (u, pg, j) ∧ aeeRefusal j = none ∧
    State.keyFor { u with inp := host } j = .ok k ∧ k.inv + 1 ≤ k.seq * 2 ^ 32 + 2 ^ 32 - 1 :=
  ⟨gmacJob, (took gmacJob 0x14 5).1, 300, (took gmacJob 0x14 5).2.1, false, [], (took gmacJob 0x14 5).2.2, keyed 1 0x1F 0xFFFFFFFE,
    by decide +kernel⟩

theorem wit_CipherAndKeyJobsEnd_5 : ∃ (s : State) (u : State) (v : State) (w : State) (w' : State) (tag : Nat) (pg : Nat) (host : List
    Byte) (b : List Byte) (iv : List Byte) (j : Job) (k : KeySlot), s.fresh.takeJob 0x14 tag (· == 3) = some (u, pg, j) ∧
    aeeRefusal j = none ∧ State.keyFor { u with inp := host } j = .ok k ∧ k.inv + 1 ≤ k.seq * 2 ^ 32 + 2 ^ 32 - 1 ∧
    iv = leBytes 4 u.kpr.salt ++ leBytes 8 k.inv ∧ State.readRanges { u with
    inp := host, kpr := { u.kpr with keys := mapPut u.kpr.keys (j.param1 % 512) { k with inv := k.inv + 1 } } } j.func j.src = (v, .ok b)
    ∧ v.writeRanges j.func j.aux.toList (iv ++ leBytes 4 0 ++ gcmTag k.key iv (b.take (aeeAad j)) (gcmCrypt k.key iv (b.drop (aeeAad
    j)))) = (w, 0) ∧ w.writeRanges j.func j.dst (gcmCrypt k.key iv (b.drop (aeeAad j))) = (w', 0) :=
  ⟨gcmJob, (took gcmJob 0x14 3).1, gcmJobv.1, gcmJobw.1, gcmJobw2.1, 300, (took gcmJob 0x14 3).2.1, [], bytesOf gcmJobv, gcmJobiv, (took
    gcmJob 0x14 3).2.2, keyed 1 0x1F 0xFFFFFFFE, took_eq (s := gcmJob) (e := 0x14) (op := 3) (by decide +kernel), by decide +kernel,
    by decide +kernel, by decide +kernel, rfl, read_eq (x := gcmJobv) (by decide +kernel), wrote_eq (x := gcmJobw) (by decide +kernel),
    wrote_eq (x := gcmJobw2) (by decide +kernel)⟩

theorem wit_CipherAndKeyJobsEnd_6 : ∃ (s : State) (u : State) (v : State) (v' : State) (tag : Nat) (pg : Nat) (host : List Byte) (r :
    List Byte) (b : List Byte) (j : Job) (k : KeySlot), s.fresh.takeJob 0x14 tag (· == 6) = some (u, pg, j) ∧ aeeRefusal j = none ∧
    State.keyFor { u with inp := host } j = .ok k ∧ State.readRanges { u with inp := host } j.func j.aux.toList = (v, .ok r) ∧
    v.readRanges j.func j.src = (v', .ok b) :=
  ⟨gmacVerJob, (took gmacVerJob 0x14 6).1, gmacVerJobr.1, gmacVerJobv.1, 300, (took gmacVerJob 0x14 6).2.1, [], bytesOf gmacVerJobr,
    bytesOf gmacVerJobv, (took gmacVerJob 0x14 6).2.2, keyed 1 0x1F, by decide +kernel⟩

theorem wit_CipherAndKeyJobsEnd_7 : ∃ (s : State) (u : State) (tag : Nat) (pg : Nat) (k : Nat) (o : Nat) (j : Job), s.fresh.takeJob 0x14
    tag (· == 4) = some (u, pg, j) ∧ s.fresh.slotWant pg j = some k ∧ s.fresh.shutFind pg k = some o :=
  ⟨shutJob, (took shutJob 0x14 4).1, 300, (took shutJob 0x14 4).2.1, 0, 0, (took shutJob 0x14 4).2.2, by decide +kernel⟩

theorem wit_CipherAndKeyJobsEnd_8 : ∃ (s : State) (u : State) (tag : Nat) (pg : Nat) (j : Job) (j' : Job), mapFind s.jobs tag = some j' ∧
    j'.inst = none ∧ s.fresh.takeJob 0x14 tag (· == 4) = some (u, pg, j) ∧ s.fresh.slotWant pg j = none :=
  ⟨decBad, (took decBad 0x14 4).1, 300, (took decBad 0x14 4).2.1, (took decBad 0x14 4).2.2, { job 0x14 4 with eflags := 2 },
    by decide +kernel⟩

theorem wit_CipherAndKeyJobsEnd_9 : ∃ (s : State) (v : State) (v' : State) (w : State) (tag : Nat) (pg : Nat) (host : List Byte) (r :
    List Byte) (b : List Byte) (j : Job) (k : KeySlot) (e : RegWord), mapFind s.jobs tag = some j ∧ j.inst = some (pg, e) ∧
    j.slot.isSome = true ∧ j.result = none ∧ j.opcode = 4 ∧ s.fresh.instFree pg j = true ∧ aeeRefusal j = none ∧
    State.keyFor { s.fresh with inp := host } j = .ok k ∧ State.readRanges { s.fresh with inp := host } j.func j.aux.toList = (v, .ok r)
    ∧ v.readRanges j.func j.src = (v', .ok b) ∧ gcmTag k.key (r.take 12) (b.take (aeeAad j)) (b.drop (aeeAad j)) = r.drop 16 ∧
    State.writeRanges { v' with
    jobs := mapPut v'.jobs tag { j with
    released := if 2 ^ 20 < (b.drop (aeeAad j)).length then earlyBytes (b.drop (aeeAad j)).length else 0 } } j.func j.dst (gcmCrypt k.key
    (r.take 12) (b.drop (aeeAad j))) = (w, 0) :=
  ⟨decOk, decOkr.1, decOkv.1, decOkw.1, 300, pAee 0, [], bytesOf decOkr, bytesOf decOkv, decOkJ, keyed 1 0x1F, 0, by decide +kernel⟩

theorem wit_CipherAndKeyJobsEnd_10 : ∃ (s : State) (v : State) (v' : State) (tag : Nat) (pg : Nat) (host : List Byte) (r : List Byte) (b
    : List Byte) (j : Job) (k : KeySlot) (e : RegWord), mapFind s.jobs tag = some j ∧ j.inst = some (pg, e) ∧ j.slot.isSome = true ∧
    j.result = none ∧ j.opcode = 4 ∧ s.fresh.instFree pg j = true ∧ aeeRefusal j = none ∧
    State.keyFor { s.fresh with inp := host } j = .ok k ∧ State.readRanges { s.fresh with inp := host } j.func j.aux.toList = (v, .ok r)
    ∧ v.readRanges j.func j.src = (v', .ok b) ∧ gcmTag k.key (r.take 12) (b.take (aeeAad j)) (b.drop (aeeAad j)) ≠ r.drop 16 ∧
    (b.drop (aeeAad j)).length ≤ 2 ^ 20 :=
  ⟨decBadTag, decBadTagr.1, decBadTagv.1, 300, pAee 0, [], bytesOf decBadTagr, bytesOf decBadTagv, decBadTagJ, keyed 1 0x1F, 0,
    by decide +kernel⟩

theorem wit_CipherAndKeyJobsEnd_11 : ∃ (s : State) (u : State) (tag : Nat) (pg : Nat) (j : Job), s.fresh.takeJob 0x14 tag (· == 0x10) =
    some (u, pg, j) ∧ aeeRefusal j = none ∧ u.alarmOn = false ∧ mapFind u.kpr.keys (j.param1 % 512) = none :=
  ⟨genJob, (took genJob 0x14 0x10).1, 300, (took genJob 0x14 0x10).2.1, (took genJob 0x14 0x10).2.2, by decide +kernel⟩

theorem wit_CipherAndKeyJobsEnd_12 : ∃ (s : State) (u : State) (v : State) (tag : Nat) (pg : Nat) (j : Job) (r : List Byte),
    s.fresh.takeJob 0x14 tag (· == 0x11) = some (u, pg, j) ∧ aeeRefusal j = none ∧ u.alarmOn = false ∧
    mapFind u.kpr.keys (j.param1 % 512) = none ∧ State.dmaRead { u with inp := [] } 0xFFFF (u.wktAt (natBits j.param1 32 12)) 128 = (v,
    .ok r) :=
  ⟨loadJob, (took loadJob 0x14 0x11).1, loadJobv.1, 300, (took loadJob 0x14 0x11).2.1, (took loadJob 0x14 0x11).2.2, bytesOf loadJobv,
    by decide +kernel⟩

theorem wit_CipherAndKeyJobsEnd_13 : ∃ (s : State) (u : State) (w : State) (tag : Nat) (pg : Nat) (j : Job) (k : KeySlot),
    s.fresh.takeJob 0x14 tag (· == 0x12) = some (u, pg, j) ∧ aeeRefusal j = none ∧ u.alarmOn = false ∧
    mapFind u.kpr.keys (j.param1 % 512) = some k ∧ k.owner = j.func ∧ k.usage.testBit 5 = true ∧
    State.dmaWrite { u with inp := [], kpr := { u.kpr with wraps := u.kpr.wraps + 1 } } 0xFFFF (u.wktAt (natBits j.param1 32 12))
    (u.wrapRecord k) = (w, 0) :=
  ⟨wrapJob, (took wrapJob 0x14 0x12).1, wrapJobw.1, 300, (took wrapJob 0x14 0x12).2.1, (took wrapJob 0x14 0x12).2.2, keyed 1 0x20,
    took_eq (s := wrapJob) (e := 0x14) (op := 0x12) (by decide +kernel), by decide +kernel, by decide +kernel, by decide +kernel,
    by decide +kernel, by decide +kernel, wrote_eq (x := wrapJobw) (by decide +kernel)⟩

theorem wit_CipherAndKeyJobsEnd_14 : ∃ (s : State) (u : State) (tag : Nat) (pg : Nat) (j : Job) (k : KeySlot), s.fresh.takeJob 0x14 tag
    (· == 0x12) = some (u, pg, j) ∧ aeeRefusal j = none ∧ u.alarmOn = false ∧ mapFind u.kpr.keys (j.param1 % 512) = some k ∧
    k.owner = j.func ∧ k.usage.testBit 5 = false :=
  ⟨wrapNot, (took wrapNot 0x14 0x12).1, 300, (took wrapNot 0x14 0x12).2.1, (took wrapNot 0x14 0x12).2.2, keyed 1 0, by decide +kernel⟩

theorem wit_CipherAndKeyJobsEnd_15 : ∃ (s : State) (u : State) (tag : Nat) (pg : Nat) (j : Job) (k : KeySlot), s.fresh.takeJob 0x14 tag
    (· == 0x13) = some (u, pg, j) ∧ aeeRefusal j = none ∧ u.alarmOn = false ∧ mapFind u.kpr.keys (j.param1 % 512) = some k :=
  ⟨eraseJob, (took eraseJob 0x14 0x13).1, 300, (took eraseJob 0x14 0x13).2.1, (took eraseJob 0x14 0x13).2.2, keyed 1 0, by decide +kernel⟩

theorem wit_CipherAndKeyJobsEnd_16 : ∃ (s : State) (u : State) (tag : Nat) (pg : Nat) (op : Nat) (j : Job) (i : Instr), ((op = 0x10 ∧
    i = .keyGen tag ∨ op = 0x11 ∧ i = .keyLoad tag ∨ op = 0x12 ∧ i = .keyWrap tag ∨ op = 0x13 ∧ i = .keyErase tag)) ∧
    s.fresh.takeJob 0x14 tag (· == op) = some (u, pg, j) ∧ aeeRefusal j = none ∧ u.alarmOn = true :=
  ⟨alarmJob, (took alarmJob 0x14 0x13).1, 300, (took alarmJob 0x14 0x13).2.1, 0x13, (took alarmJob 0x14 0x13).2.2, .keyErase 300,
    by decide +kernel⟩

theorem wit_CipherAndKeyJobsEnd_17 : ∃ (s : State), s.kpr.seeded = true ∧ 2 ^ 32 ≤ s.kpr.generated :=
  ⟨{ State.reset with kpr := { State.reset.kpr with seeded := true, generated := 2 ^ 32 } }, by decide +kernel⟩

theorem wit_CipherJobsComplete_0 : ∃ (s : State) (tag : Nat) (j : Job) (k : KeySlot) (x : Range) (y : Range), s.hands 0x14 tag 1 j ∧
    aeeRefusal j = none ∧ s.keyFor j = .ok k ∧ s.inShared j.src x ∧ x.len = j.srcLen ∧ s.inShared j.dst y :=
  ⟨xtsJob, 300, (took xtsJob 0x14 1).2.2, keyed 3 7, ⟨sramGeneral, 512⟩, ⟨sramGeneral + 0x1000, 512⟩, handed (by decide +kernel),
    by decide +kernel, by decide +kernel, shared (by decide +kernel), by decide +kernel, shared (by decide +kernel)⟩

theorem wit_CipherJobsComplete_1 : ∃ (s : State) (tag : Nat) (j : Job) (k : KeySlot) (x : Range) (y : Range), s.hands 0x14 tag 2 j ∧
    aeeRefusal j = none ∧ s.keyFor j = .ok k ∧ s.inShared j.src x ∧ x.len = j.srcLen ∧ s.inShared j.dst y :=
  ⟨xtsDecJob, 300, (took xtsDecJob 0x14 2).2.2, keyed 3 7, ⟨sramGeneral, 512⟩, ⟨sramGeneral + 0x1000, 512⟩, handed (by decide +kernel),
    by decide +kernel, by decide +kernel, shared (by decide +kernel), by decide +kernel, shared (by decide +kernel)⟩

theorem wit_CipherJobsComplete_2 : ∃ (s : State) (tag : Nat) (j : Job) (k : KeySlot) (x : Range) (y : Range) (r : Range), s.hands 0x14
    tag 7 j ∧ aeeRefusal j = none ∧ s.keyFor j = .ok k ∧ s.inShared j.src x ∧ x.len = j.srcLen ∧ s.inShared j.dst y ∧
    s.inShared j.aux.toList r :=
  ⟨ctrJob, 300, (took ctrJob 0x14 7).2.2, keyed 1 0x1F, ⟨sramGeneral, 16⟩, ⟨sramGeneral + 0x1000, 64⟩, ⟨sramGeneral + 0x2000, 16⟩, handed
    (by decide +kernel), by decide +kernel, by decide +kernel, shared (by decide +kernel), by decide +kernel, shared (by decide +kernel),
    shared (by decide +kernel)⟩

theorem wit_CipherJobsComplete_4 : ∃ (s : State) (tag : Nat) (j : Job) (k : KeySlot) (x : Range) (r : Range), s.hands 0x14 tag 5 j ∧
    aeeRefusal j = none ∧ s.keyFor j = .ok k ∧ k.inv + 1 ≤ k.seq * 2 ^ 32 + 2 ^ 32 - 1 ∧ s.inShared j.src x ∧ s.inShared j.aux.toList r ∧
    r.len = 32 :=
  ⟨gmacJob, 300, (took gmacJob 0x14 5).2.2, keyed 1 0x1F 0xFFFFFFFE, ⟨sramGeneral, 16⟩, ⟨sramGeneral + 0x2000, 32⟩, handed
    (by decide +kernel), by decide +kernel, by decide +kernel, by decide +kernel, shared (by decide +kernel), shared (by decide +kernel),
    by decide +kernel⟩

theorem wit_CipherJobsComplete_3 : ∃ (s : State) (tag : Nat) (j : Job) (k : KeySlot) (x : Range) (y : Range) (r : Range), s.hands 0x14
    tag 3 j ∧ aeeRefusal j = none ∧ s.keyFor j = .ok k ∧ k.inv + 1 ≤ k.seq * 2 ^ 32 + 2 ^ 32 - 1 ∧ s.inShared j.src x ∧
    x.len = j.srcLen ∧ s.inShared j.dst y ∧ s.inShared j.aux.toList r ∧ r.len = 32 :=
  ⟨gcmJob, 300, (took gcmJob 0x14 3).2.2, keyed 1 0x1F 0xFFFFFFFE, ⟨sramGeneral, 16⟩, ⟨sramGeneral + 0x1000, 64⟩, ⟨sramGeneral + 0x2000,
    32⟩, handed (by decide +kernel), by decide +kernel, by decide +kernel, by decide +kernel, shared (by decide +kernel),
    by decide +kernel, shared (by decide +kernel), shared (by decide +kernel), by decide +kernel⟩

theorem wit_CipherJobsComplete_5 : ∃ (s : State) (tag : Nat) (j : Job) (k : KeySlot) (x : Range) (r : Range), s.hands 0x14 tag 6 j ∧
    aeeRefusal j = none ∧ s.keyFor j = .ok k ∧ s.inShared j.src x ∧ s.inShared j.aux.toList r :=
  ⟨gmacVerJob, 300, (took gmacVerJob 0x14 6).2.2, keyed 1 0x1F, ⟨sramGeneral, 16⟩, ⟨sramGeneral + 0x2000, 32⟩, handed
    (by decide +kernel), by decide +kernel, by decide +kernel, shared (by decide +kernel), shared (by decide +kernel)⟩

theorem wit_CipherJobsComplete_6 : ∃ (s : State) (u : State) (tag : Nat) (pg : Nat) (j : Job), s.fresh.takeJob 0x14 tag (· == 4) = some
    (u, pg, j) ∧ j.opcode = 4 ∧ aeeParamsOk j = true ∧ j.srcLen - aeeAad j ≤ 2 ^ 20 ∧
    ((∀ e ∈ s.jobs, e.2.inst.map Prod.fst = some pg → e.2.slot = none)) :=
  ⟨shutJob, (took shutJob 0x14 4).1, 300, (took shutJob 0x14 4).2.1, (took shutJob 0x14 4).2.2, by decide +kernel⟩

theorem wit_CipherJobsComplete_7 : ∃ (s : State) (tag : Nat) (pg : Nat) (j : Job) (k : KeySlot) (e : RegWord) (x : Range) (y : Range) (r
    : Range), mapFind s.jobs tag = some j ∧ j.inst = some (pg, e) ∧ j.slot.isSome = true ∧ j.result = none ∧ j.opcode = 4 ∧
    s.instFree pg j = true ∧ aeeRefusal j = none ∧ s.keyFor j = .ok k ∧ s.inShared j.src x ∧ x.len = j.srcLen ∧ s.inShared j.dst y ∧
    s.inShared j.aux.toList r :=
  ⟨decOk, 300, pAee 0, decOkJ, keyed 1 0x1F, 0, ⟨sramGeneral, 16⟩, ⟨sramGeneral + 0x1000, 64⟩, ⟨sramGeneral + 0x2000, 32⟩,
    by decide +kernel, by decide +kernel, by decide +kernel, by decide +kernel, by decide +kernel, by decide +kernel, by decide +kernel,
    by decide +kernel, shared (by decide +kernel), by decide +kernel, shared (by decide +kernel), shared (by decide +kernel)⟩

theorem wit_CipherJobsComplete_8 : ∃ (s : State) (tag : Nat) (j : Job), s.hands 0x14 tag 0x10 j ∧ aeeRefusal j = none ∧
    s.alarmOn = false ∧ s.slotOwn j = 0 :=
  ⟨genJob, 300, (took genJob 0x14 0x10).2.2, handed (by decide +kernel), by decide +kernel, by decide +kernel, by decide +kernel⟩

theorem wit_CipherJobsComplete_9 : ∃ (s : State) (tag : Nat) (j : Job), s.hands 0x14 tag 0x11 j ∧ aeeRefusal j = none ∧
    s.alarmOn = false ∧ s.slotOwn j = 0 ∧ s.inShared [⟨s.wktAt (natBits j.param1 32 12), 128⟩] ⟨s.wktAt (natBits j.param1 32 12), 128⟩ :=
  ⟨loadJob, 300, (took loadJob 0x14 0x11).2.2, handed (by decide +kernel), by decide +kernel, by decide +kernel, by decide +kernel,
    shared (by decide +kernel)⟩

theorem wit_CipherJobsComplete_10 : ∃ (s : State) (tag : Nat) (j : Job) (k : KeySlot), s.hands 0x14 tag 0x12 j ∧ aeeRefusal j = none ∧
    s.alarmOn = false ∧ s.keyFor j = .ok k ∧ s.inShared [⟨s.wktAt (natBits j.param1 32 12), 128⟩] ⟨s.wktAt (natBits j.param1 32 12), 128⟩
    ∧ (s.wrapRecord k).length = 128 :=
  ⟨wrapJob, 300, (took wrapJob 0x14 0x12).2.2, keyed 1 0x20, handed (by decide +kernel), by decide +kernel, by decide +kernel,
    by decide +kernel, shared (by decide +kernel), by decide +kernel⟩

theorem wit_CipherJobsComplete_11 : ∃ (s : State) (tag : Nat) (j : Job) (k : KeySlot), s.hands 0x14 tag 0x13 j ∧ aeeRefusal j = none ∧
    s.alarmOn = false ∧ mapFind s.kpr.keys (j.param1 % 512) = some k ∧ k.owner = j.func ∧ k.owner ≠ 0xFFFF :=
  ⟨eraseFn, 300, (took eraseFn 0x14 0x13).2.2, keyed 1 0 0 5, handed (by decide +kernel), by decide +kernel, by decide +kernel,
    by decide +kernel, by decide +kernel, by decide +kernel⟩

theorem wit_CipherJobsComplete_12 : ∃ (s : State), s.kpr.seeded = true ∧ 2 ^ 32 ≤ s.kpr.generated :=
  ⟨{ State.reset with kpr := { State.reset.kpr with seeded := true, generated := 2 ^ 32 } }, by decide +kernel⟩

/-- ASE with bank 63 of width 1 in table 15, which function 5 owns and which is searchable. -/
def searching (f : Ase → Ase := id) : State :=
  let s := put (put (on [pAse]) (pAse + 1) (Reg.ASE_ENT 63) 0 7 0x1F) (pAse + 2) (Reg.ASE_ENT 15) 16 1 1
  { s with ase := f s.ase }
def aseBad : State := jobbed { job 0x16 0x15 with param0 := 16 } (searching id)
def aseS : State := jobbed { job 0x16 1 with param0 := 15 } (searching id)
def aseC : State := jobbed { job 0x16 2 with param0 := 15 } (searching id)
def aseF : State := jobbed { job 0x16 2 with param0 := 15 } (searching (fun a => { a with ctxs := (List.range 32).map fun c => (c, ⟨15, 0xFFFF, 0, [], false⟩) }))
def aseSt : State := jobbed { job 0x16 3 with param0 := 15, param1 := 2 ^ 48 + 31 * 2 ^ 32, src := [], srcLen := 0 } (searching (fun a => { a with ctxs := (List.range 32).map fun c => (c, ⟨15, 0xFFFF, 0, [], false⟩) }))
def aseFr : State := jobbed { job 0x16 4 with param0 := 15, param1 := 31 * 2 ^ 32, src := [], srcLen := 0 } (searching (fun a => { a with ctxs := (List.range 32).map fun c => (c, ⟨15, 0xFFFF, 0, [], false⟩) }))
def aseW : State := jobbed { job 0x16 0x12 with param0 := 15, param1 := 63 + 1023 * 2 ^ 8, src := [⟨sramGeneral, 40⟩], srcLen := 40 } (searching id)
def aseL : State := jobbed { job 0x16 0x10 with param0 := 15, param1 := 63, src := [⟨sramGeneral, 40⟩], srcLen := 40 } (searching id)
def aseI : State := jobbed { job 0x16 0x11 with param0 := 15, param1 := 63, src := [⟨sramGeneral, 40⟩], srcLen := 40 } (searching id)
def aseD : State := jobbed { job 0x16 0x13 with param0 := 15, param1 := 63 + 1023 * 2 ^ 8, src := [], srcLen := 0 } (searching id)
def aseCl : State := jobbed { job 0x16 0x15 with param0 := 15, param1 := 63, src := [], srcLen := 0 } (searching id)
def aseR : State := jobbed { job 0x16 0x14 with param0 := 15, param1 := 63 + 1023 * 2 ^ 8, src := [], srcLen := 0 } (searching id)
def loading : State := { State.reset with loads := [(loadPage 4, ⟨sramGeneral + 16, 0, r0, 8⟩)] }
def loadIt : State × List Byte × Bool := State.loadRead 2 loading.fresh (sramGeneral + 16) 8
def loadingBad : State := { State.reset with loads := [(loadPage 4, ⟨0, 0, r0, 8⟩)] }
def loadBad : State × List Byte × Bool := State.loadRead 2 loadingBad.fresh 0 8
def benchReady : State := { (running c0) with benches := [(63, { (running c0).benchOf 63 with state := 1 })] }
def benchRun : BenchRun := ⟨63, 100, 100, 0, 0, 0, 0⟩
def outOf : State := running c0 fun x => { x with bench := some benchRun, tcause := 0x10000, tps := 0x10 }
def inBench : State := (benching c0 fun x => { x with bench := some benchRun }).setCoreFld 0 0x10 0 20 1
def busyRing : State := { State.reset with jobs := [(300, { job 0x13 1 with ring := .core c0 3 })] }
/-- A ring header in shared SRAM at offset 0x3000. -/
def header (prod ccons : Nat) : List (Nat × Nat) := [(0x3000, prod + ccons * 2 ^ 32), (0x3010, sramGeneral + 0x4000), (0x3018, sramGeneral + 0x5000), (0x3028, 3 + 0x13 * 256)]
def ringMem (prod ccons : Nat) : List Host.Cell := (header prod ccons).foldl (fun m e => memWrite m (sramGeneral + e.1) (leBytes 8 e.2)) []
def ringHdr : State := let s := State.reset.rset (pCcl 0 + 1) (Reg.CORE 0 (0x24 + 24)) 0x100
  { s with mem := ringMem 0 0 }
def armed (prod ccons : Nat) : State := { (on [pCcl 0]) with
  mem := ringMem prod ccons
  rings := [(.core c0 3, { ringDefault with armed := true, hdr := some (sramGeneral + 0x3000), desc := sramGeneral + 0x4000, cpl := sramGeneral + 0x5000, engine := 0x13 })] }
def ended : State := { armed 0 0 with jobs := [(300, { job 0x13 1 with ring := .core c0 3, result := some ⟨0, 0, 16, 16⟩ })] }

theorem wit_SearchEngineJobsEnd_0 : ∃ (s : State) (u : State) (tag : Nat) (pg : Nat) (e : Nat) (op : Nat) (host : List Byte) (cycs : List
    (Option Nat)) (cyc : Option Nat) (j : Job) (i : Instr), ((op = 1 ∧ i = .aseSearch tag host cycs ∨ op = 2 ∧
    i = .aseSearchCtx tag host cyc ∨ op = 3 ∧ i = .aseStep tag ∨ op = 4 ∧ i = .aseCtxFree tag ∨ op = 0x10 ∧
    i = .aseLoad tag host ∨ op = 0x11 ∧ i = .aseInsert tag host ∨ op = 0x12 ∧ i = .aseWrite tag host ∨ op = 0x13 ∧
    i = .aseDelete tag ∨ op = 0x14 ∧ i = .aseRead tag ∨ op = 0x15 ∧ i = .aseClear tag)) ∧
    s.fresh.takeJob 0x16 tag (· == op) = some (u, pg, j) ∧ u.aseRefusal j = some e :=
  ⟨aseBad, (took aseBad 0x16 0x15).1, 300, (took aseBad 0x16 0x15).2.1, 0x1001, 0x15, [], [], none, (took aseBad 0x16 0x15).2.2,
    .aseClear 300, by decide +kernel⟩

theorem wit_SearchEngineJobsEnd_1 : ∃ (s : State) (u : State) (tag : Nat) (pg : Nat) (d : Nat) (m : Nat) (b : List Byte) (x : Range) (j :
    Job), s.fresh.takeJob 0x16 tag (· == 1) = some (u, pg, j) ∧ u.aseRefusal j = none ∧ s.dramSize ≤ sramBase ∧ s.upsets = [] ∧
    j.src = [x] ∧ x.len = j.srcLen ∧ inSram x.addr x.len = true ∧ j.dst = [⟨d, m⟩] ∧ inSram d m = true ∧
    b = (if x.len = 0 then [] else memRead s.mem x.addr x.len) :=
  ⟨aseS, (took aseS 0x16 1).1, 300, (took aseS 0x16 1).2.1, sramGeneral + 0x1000, 64, memRead aseS.mem sramGeneral 16, ⟨sramGeneral, 16⟩,
    (took aseS 0x16 1).2.2, by decide +kernel⟩

theorem wit_SearchEngineJobsEnd_2 : ∃ (s : State) (u : State) (tag : Nat) (pg : Nat) (d : Nat) (m : Nat) (c : Nat) (x : Range) (j : Job),
    s.fresh.takeJob 0x16 tag (· == 2) = some (u, pg, j) ∧ u.aseRefusal j = none ∧ s.dramSize ≤ sramBase ∧ s.upsets = [] ∧ j.src = [x] ∧
    x.len = j.srcLen ∧ inSram x.addr x.len = true ∧ j.dst = [⟨d, m⟩] ∧ inSram d m = true ∧ c < 32 ∧ mapFind s.ase.ctxs c = none ∧
    ((∀ c' < c, mapFind s.ase.ctxs c' ≠ none)) :=
  ⟨aseC, (took aseC 0x16 2).1, 300, (took aseC 0x16 2).2.1, sramGeneral + 0x1000, 64, 0, ⟨sramGeneral, 16⟩, (took aseC 0x16 2).2.2,
    by decide +kernel⟩

theorem wit_SearchEngineJobsEnd_3 : ∃ (s : State) (u : State) (tag : Nat) (pg : Nat) (j : Job), s.fresh.takeJob 0x16 tag (· == 2) = some
    (u, pg, j) ∧ u.aseRefusal j = none ∧ ((∀ c < 32, mapFind s.ase.ctxs c ≠ none)) :=
  ⟨aseF, (took aseF 0x16 2).1, 300, (took aseF 0x16 2).2.1, (took aseF 0x16 2).2.2, by decide +kernel⟩

theorem wit_SearchEngineJobsEnd_4 : ∃ (s : State) (u : State) (tag : Nat) (pg : Nat) (d : Nat) (m : Nat) (x : AseCtx) (j : Job),
    s.fresh.takeJob 0x16 tag (· == 3) = some (u, pg, j) ∧ u.aseRefusal j = none ∧ s.dramSize ≤ sramBase ∧ s.upsets = [] ∧
    j.dst = [⟨d, m⟩] ∧ inSram d m = true ∧ mapFind s.ase.ctxs (natBits j.param1 32 5) = some x :=
  ⟨aseSt, (took aseSt 0x16 3).1, 300, (took aseSt 0x16 3).2.1, sramGeneral + 0x1000, 64, ⟨15, 0xFFFF, 0, [], false⟩, (took aseSt 0x16
    3).2.2, by decide +kernel⟩

theorem wit_SearchEngineJobsEnd_5 : ∃ (s : State) (u : State) (tag : Nat) (pg : Nat) (j : Job), s.fresh.takeJob 0x16 tag (· == 4) = some
    (u, pg, j) ∧ u.aseRefusal j = none :=
  ⟨aseFr, (took aseFr 0x16 4).1, 300, (took aseFr 0x16 4).2.1, (took aseFr 0x16 4).2.2, by decide +kernel⟩

theorem wit_SearchEngineJobsEnd_6 : ∃ (s : State) (u : State) (tag : Nat) (pg : Nat) (x : Range) (j : Job), s.fresh.takeJob 0x16 tag (·
    == 0x12) = some (u, pg, j) ∧ u.aseRefusal j = none ∧ s.dramSize ≤ sramBase ∧ s.upsets = [] ∧ j.src = [x] ∧ x.len = j.srcLen ∧
    inSram x.addr x.len = true :=
  ⟨aseW, (took aseW 0x16 0x12).1, 300, (took aseW 0x16 0x12).2.1, ⟨sramGeneral, 40⟩, (took aseW 0x16 0x12).2.2, by decide +kernel⟩

theorem wit_SearchEngineJobsEnd_10 : ∃ (s : State) (u : State) (tag : Nat) (pg : Nat) (x : Range) (j : Job), s.fresh.takeJob 0x16 tag (·
    == 0x10) = some (u, pg, j) ∧ u.aseRefusal j = none ∧ s.dramSize ≤ sramBase ∧ s.upsets = [] ∧ j.src = [x] ∧ x.len = j.srcLen ∧
    inSram x.addr x.len = true ∧ natBits j.param1 20 11 = 0 :=
  ⟨aseL, (took aseL 0x16 0x10).1, 300, (took aseL 0x16 0x10).2.1, ⟨sramGeneral, 40⟩, (took aseL 0x16 0x10).2.2, by decide +kernel⟩

theorem wit_SearchEngineJobsEnd_11 : ∃ (s : State) (u : State) (tag : Nat) (pg : Nat) (x : Range) (j : Job), s.fresh.takeJob 0x16 tag (·
    == 0x11) = some (u, pg, j) ∧ u.aseRefusal j = none ∧ s.dramSize ≤ sramBase ∧ s.upsets = [] ∧ j.src = [x] ∧ x.len = j.srcLen ∧
    inSram x.addr x.len = true :=
  ⟨aseI, (took aseI 0x16 0x11).1, 300, (took aseI 0x16 0x11).2.1, ⟨sramGeneral, 40⟩, (took aseI 0x16 0x11).2.2, by decide +kernel⟩

theorem wit_SearchEngineJobsEnd_7 : ∃ (s : State) (u : State) (tag : Nat) (pg : Nat) (j : Job), s.fresh.takeJob 0x16 tag (· == 0x13) =
    some (u, pg, j) ∧ u.aseRefusal j = none :=
  ⟨aseD, (took aseD 0x16 0x13).1, 300, (took aseD 0x16 0x13).2.1, (took aseD 0x16 0x13).2.2, by decide +kernel⟩

theorem wit_SearchEngineJobsEnd_9 : ∃ (s : State) (u : State) (tag : Nat) (pg : Nat) (j : Job), s.fresh.takeJob 0x16 tag (· == 0x15) =
    some (u, pg, j) ∧ u.aseRefusal j = none :=
  ⟨aseCl, (took aseCl 0x16 0x15).1, 300, (took aseCl 0x16 0x15).2.1, (took aseCl 0x16 0x15).2.2, by decide +kernel⟩

theorem wit_SearchEngineJobsEnd_8 : ∃ (s : State) (u : State) (tag : Nat) (pg : Nat) (d : Nat) (m : Nat) (j : Job), s.fresh.takeJob 0x16
    tag (· == 0x14) = some (u, pg, j) ∧ u.aseRefusal j = none ∧ s.dramSize ≤ sramBase ∧ s.upsets = [] ∧ j.dst = [⟨d, m⟩] ∧
    inSram d m = true :=
  ⟨aseR, (took aseR 0x16 0x14).1, 300, (took aseR 0x16 0x14).2.1, sramGeneral + 0x1000, 64, (took aseR 0x16 0x14).2.2, by decide +kernel⟩

theorem wit_CoreAndBenchCommandsAct_0 : ∃ (s : State) (c : CoreId) (pg : Nat) (e : Nat), coreEntry (coreNum c) = some (pg, e) ∧
    (s.core (coreNum c)).mode = .inReset :=
  ⟨State.reset, c0, pCcl 0, 0, by decide +kernel⟩

theorem wit_CoreAndBenchCommandsAct_1 : ∃ (c : CoreId) (pg : Nat) (e : Nat), coreEntry (coreNum c) = some (pg, e) :=
  ⟨r0, pRtx, 0, by decide +kernel⟩

theorem wit_CoreAndBenchCommandsAct_2 : ∃ (s : State) (b : Fin 5), mapFind s.loads (loadPage b) = none :=
  ⟨State.reset, 4, by decide +kernel⟩

theorem wit_CoreAndBenchCommandsAct_3 : ∃ (s : State) (u : State) (b : Fin 5) (l : LoadOp) (d : List Byte), mapFind s.loads (loadPage b)
    = some l ∧ State.loadRead (l.len / 8 + 1) s.fresh l.src l.len = (u, d, true) ∧ u.upsets = [] :=
  ⟨loading, loadIt.1, 4, ⟨sramGeneral + 16, 0, r0, 8⟩, loadIt.2.1, by decide +kernel⟩

theorem wit_CoreAndBenchCommandsAct_4 : ∃ (s : State) (u : State) (b : Fin 5) (l : LoadOp) (d : List Byte), mapFind s.loads (loadPage b)
    = some l ∧ State.loadRead (l.len / 8 + 1) s.fresh l.src l.len = (u, d, false) :=
  ⟨loadingBad, loadBad.1, 4, ⟨0, 0, r0, 8⟩, loadBad.2.1, by decide +kernel⟩

theorem wit_CoreAndBenchCommandsAct_5 : ∃ (s : State) (c : CoreId) (b : Fin 64), s.mayDispatch (coreNum c) b = true ∧
    (s.func (s.benchOf (64 * (coreNum c / 8) + b)).func).epoch.toNat = (s.benchOf (64 * (coreNum c / 8) + b)).fepoch :=
  ⟨benchReady, c0, 63, by decide +kernel⟩

theorem wit_CoreAndBenchCommandsAct_6 : ∃ (s : State) (c : CoreId) (b : Fin 64), coreNum c < 32 ∧ s.coreOn (coreNum c) = true ∧
    s.mayDispatch (coreNum c) b = false :=
  ⟨running c0, c0, 0, by decide +kernel⟩

theorem wit_CoreAndBenchCommandsAct_7 : ∃ (s : State) (c : CoreId) (r : BenchRun), coreNum c < 32 ∧ s.coreOn (coreNum c) = true ∧
    (s.core (coreNum c)).bench = some r ∧ (s.core (coreNum c)).benchMode = false ∧ (s.core (coreNum c)).tcause.getLsbD 16 = true ∧
    (s.core (coreNum c)).tps.getLsbD 4 = true ∧ r.late = 0 :=
  ⟨outOf, c0, benchRun, by decide +kernel⟩

theorem wit_CoreAndBenchCommandsAct_8 : ∃ (s : State) (c : CoreId) (r : BenchRun), coreNum c < 32 ∧ (s.core (coreNum c)).bench = some r ∧
    (s.core (coreNum c)).benchMode = true ∧ s.coreFld (coreNum c) 0x10 0 20 ≠ 0 :=
  ⟨inBench, c0, benchRun, by decide +kernel⟩

theorem wit_CoreAndBenchCommandsAct_9 : ∃ (s : State) (c : CoreId) (r : BenchRun), (s.core (coreNum c)).bench = some r ∧ r.late = 0 ∧
    (s.core (coreNum c)).benchMode = false ∧ s.coreFld (coreNum c) 0x10 0 20 ≠ 0 :=
  ⟨outOf.setCoreFld 0 0x10 0 20 1, c0, benchRun, by decide +kernel⟩

theorem wit_CoreAndBenchCommandsAct_10 : ∃ (s : State) (c : CoreId) (r : BenchRun), coreNum c < 32 ∧
    (s.core (coreNum c)).bench = some r ∧ (s.core (coreNum c)).benchMode = true ∧ r.tRem ≠ BitVec.allOnes 64 :=
  ⟨inBench, c0, benchRun, by decide +kernel⟩

theorem wit_RingAndStreamCommandsAct_0 : ∃ (s : State) (c : CoreId) (r : Fin 4) (lo : RegWord), (coreEntry (coreNum c)).isSome = true ∧
    s.ringBusy (.core c r) = false ∧ lo.getLsbD 0 = false :=
  ⟨State.reset, c0, 3, 2, by decide +kernel⟩

theorem wit_RingAndStreamCommandsAct_1 : ∃ (s : State) (c : CoreId) (r : Fin 4), (coreEntry (coreNum c)).isSome = true ∧
    s.ringBusy (.core c r) = true :=
  ⟨busyRing, c0, 3, by decide +kernel⟩

theorem wit_RingAndStreamCommandsAct_2 : ∃ (s : State) (c : CoreId) (r : Fin 4) (lo : RegWord) (pg : Nat) (e : Nat) (a : Nat), coreEntry
    (coreNum c) = some (pg, e) ∧ s.ringBusy (.core c r) = false ∧ lo.getLsbD 0 = true ∧
    a = (s.rg (pg + 1) (Reg.CORE e (0x24 + 8 * r))).toNat * 2 ^ 32 + lo.toNat / 64 * 64 ∧ s.dramSize ≤ sramBase ∧ s.upsets = [] ∧
    inSram a 64 = true ∧ s.hdrOk (.core c r) (memRead s.mem a 64) = true :=
  ⟨ringHdr, c0, 3, 0x0200_3001, pCcl 0, 0, sramGeneral + 0x3000, by decide +kernel⟩

theorem wit_RingAndStreamCommandsAct_3 : ∃ (s : State) (c : CoreId) (i : Nat) (h : Nat), (s.ringOf (.core c i)).armed = true ∧
    (s.ringOf (.core c i)).halt = false ∧ (s.ringOf (.core c i)).wait = none ∧ (s.ringOf (.core c i)).hold = none ∧
    s.intake (ringBlock (.core c i)) = true ∧ (s.ringOf (.core c i)).hdr = some h ∧ s.dramSize ≤ sramBase ∧ s.upsets = [] ∧
    inSram h 64 = true ∧ (2 ^ (s.ringOf (.core c i)).log2n) < ((leNat (memRead s.mem h 4) + 2 ^ 32 - (s.ringOf (.core c i)).cons) % 2 ^
    32) :=
  ⟨armed 9 0, c0, 3, sramGeneral + 0x3000, by decide +kernel⟩

theorem wit_RingAndStreamCommandsAct_4 : ∃ (s : State) (c : CoreId) (i : Nat) (tag : Nat) (h : Nat), (s.ringOf (.core c i)).armed = true
    ∧ (s.ringOf (.core c i)).halt = false ∧ (s.ringOf (.core c i)).wait = none ∧ (s.ringOf (.core c i)).hold = none ∧
    s.intake (ringBlock (.core c i)) = true ∧ (s.ringOf (.core c i)).hdr = some h ∧ s.dramSize ≤ sramBase ∧ s.upsets = [] ∧
    inSram h 64 = true ∧ ((leNat (memRead s.mem h 4) + 2 ^ 32 - (s.ringOf (.core c i)).cons) % 2 ^ 32) ≤ (2 ^ (s.ringOf (.core c
    i)).log2n) ∧ ((leNat (memRead s.mem h 4) + 2 ^ 32 - (s.ringOf (.core c i)).cons) % 2 ^ 32) ≠ 0 ∧
    (((s.ringOf (.core c i)).cons + 2 ^ 32 - leNat (memRead s.mem (h + 4) 4)) % 2 ^ 32) < (2 ^ (s.ringOf (.core c i)).log2n) ∧
    (s.ringOf (.core c i)).cons < 2 ^ 32 ∧ s.tagFree tag = true ∧ ringTag (.core c i) tag = true ∧
    inSram ((s.ringOf (.core c i)).desc + 64 * ((s.ringOf (.core c i)).cons % (2 ^ (s.ringOf (.core c i)).log2n))) 64 = true :=
  ⟨armed 8 0, c0, 3, 300, sramGeneral + 0x3000, by decide +kernel⟩

theorem wit_RingAndStreamCommandsAct_5 : ∃ (s : State) (tag : Nat) (h : Nat) (j : Job) (x : JobResult), mapFind s.jobs tag = some j ∧
    j.result = some x ∧ s.jobStale j = false ∧ (s.ringOf j.ring).wait = none ∧ (s.ringOf j.ring).hold = none ∧
    (s.ringOf j.ring).hdr = some h ∧ s.dramSize ≤ sramBase ∧ s.upsets = [] ∧ inSram h 64 = true ∧
    inSram ((s.ringOf j.ring).cpl + 32 * ((s.ringOf j.ring).cprod % 2 ^ (s.ringOf j.ring).log2n)) 32 = true :=
  ⟨ended, 300, sramGeneral + 0x3000, { job 0x13 1 with ring := .core c0 3, result := some ⟨0, 0, 16, 16⟩ }, ⟨0, 0, 16, 16⟩,
    by decide +kernel⟩

theorem wit_RingAndStreamCommandsAct_6 : ∃ (s : State) (i : Fin 256), s.attachOf i = none ∧ s.strFld i 0x10 16 1 = 1 ∧
    (s.streamOf i).closed = false :=
  ⟨put State.reset (pCcl 3 + 3) (Reg.STREAM 63 0x10) 16 1 1, 255, by decide +kernel⟩

/-- Port 1 in state `st` of its link, at speed 2. -/
def ported1 (st : Nat) (f : Port → Port := id) : State :=
  let s := put (put (put (on [pHib 1]) (pHib 1) Reg.HIB_LSTAT 0 6 st) (pHib 1) Reg.HIB_LSTAT 8 1 (if st = 3 then 1 else 0)) (pHib 1) Reg.HIB_LSTAT 9 3 5
  { s with ports := [(1, f { s.port 1 with perst := false })] }
def fetchIo : State := hosted fun c => { c with sqs := [(1, sq8 1 1)] }
def fetched : State × Nat × Nat := fetchIo.fresh.pickIo.getD (fetchIo, 0, 0)
/-- The data of a Namespace Management command that creates a namespace of 64 blocks. -/
def nsData : List Byte := sec 64 [(0, 64), (8, 64)]

theorem wit_LinkCommandsAct_0 : ∃ (s : State) (p : Fin 2) (best : Nat) (lanes : Nat), (s.port p).perst = false ∧ s.lstat p 0 6 = 0 ∧
    s.x8Chosen = s.x8 ∧ s.portUsed p = true ∧ lanes ≠ 0 ∧ 1 ≤ s.targetSpeed p ∧ s.targetSpeed p ≤ best :=
  ⟨ported1 0, 1, 5, 4, by decide +kernel⟩

theorem wit_LinkCommandsAct_1 : ∃ (s : State) (p : Fin 2) (lanes : Nat), (s.port p).perst = false ∧ s.lstat p 0 6 = 0 ∧
    s.x8Chosen = s.x8 ∧ s.portUsed p = true ∧ lanes ≠ 0 :=
  ⟨ported1 0, 1, 1, by decide +kernel⟩

theorem wit_LinkCommandsAct_2 : ∃ (s : State) (p : Fin 2), s.lstat p 0 6 ≠ 0 :=
  ⟨ported1 3, 1, by decide +kernel⟩

theorem wit_LinkCommandsAct_3 : ∃ (s : State) (p : Fin 2) (best : Nat) (lanes : Nat), s.linkUp p = true ∧
    s.bit (pHib p) Reg.HIB_LCTL 5 = false ∧ lanes ≠ 0 ∧ 1 ≤ s.targetSpeed p ∧ s.targetSpeed p ≤ best :=
  ⟨ported1 3, 1, 5, 1, by decide +kernel⟩

theorem wit_LinkCommandsAct_4 : ∃ (s : State) (p : Fin 2), s.linkUp p = true ∧ (s.port p).fails + 1 < 3 :=
  ⟨ported1 3 fun p => { p with fails := 1 }, 1, by decide +kernel⟩

theorem wit_LinkCommandsAct_5 : ∃ (s : State) (p : Fin 2) (best : Nat) (lanes : Nat), s.linkUp p = true ∧ 2 ≤ (s.port p).fails ∧
    2 ≤ s.lstat p 9 3 ∧ s.bit (pHib p) Reg.HIB_LCTL 5 = false ∧ s.lstat p 9 3 = s.lstat p 16 3 ∧ s.lstat p 9 3 ≤ best + 1 ∧ lanes ≠ 0 ∧
    s.lstat p 9 3 ≤ s.fget (pHib p) Reg.HIB_LCTL 0 3 :=
  ⟨ported1 3 fun p => { p with fails := 2 }, 1, 4, 4, by decide +kernel⟩

theorem wit_LinkCommandsAct_6 : ∃ (s : State) (p : Fin 2), s.portUsed p = true ∧ (s.port p).perst = false :=
  ⟨ported1 3, 1, by decide +kernel⟩

theorem wit_LinkCommandsAct_7 : ∃ (s : State) (p : Fin 2) (sub : Fin 3) (host : BitVec 3), s.lstat p 0 6 = 3 ∧ s.l1Ok p sub host = true :=
  ⟨put (ported1 3) (pHib 1) Reg.HIB_LCTL 8 2 3, 1, 2, 7, by decide +kernel⟩

theorem wit_LinkCommandsAct_8 : ∃ (s : State) (p : Fin 2), s.lstat p 0 6 = 5 :=
  ⟨ported1 5, 1, by decide +kernel⟩

theorem wit_LinkCommandsAct_9 : ∃ (s : State) (k : Fin 256), s.slotEnabled k = true :=
  ⟨State.reset, 1, by decide +kernel⟩

theorem wit_LinkCommandsAct_10 : ∃ (s : State) (p : Fin 2) (obj : List Byte), s.portUsed p = true ∧ s.linkUp p = true ∧
    s.bit (pHib p) Reg.HIB_DOE 0 = false ∧ obj.length ≤ 4096 ∧ leNat (obj.take 2) = 1 ∧ leNat ((obj.drop 2).take 1) ∈ [1, 2] :=
  ⟨ported1 3, 1, [1, 0, 2, 0, 3, 0, 0, 0, 2, 0, 0, 0], by decide +kernel⟩

theorem wit_LinkCommandsAct_11 : ∃ (s : State) (p : Fin 2) (obj : List Byte), s.portUsed p = true ∧ s.linkUp p = true ∧
    s.bit (pHib p) Reg.HIB_DOE 0 = false ∧ obj.length ≤ 4096 ∧ leNat (obj.take 2) = 1 ∧ leNat ((obj.drop 2).take 1) = 0 ∧
    leNat ((obj.drop 8).take 1) < 3 :=
  ⟨ported1 3, 1, [1, 0, 0, 0, 3, 0, 0, 0, 2, 0, 0, 0], by decide +kernel⟩

theorem wit_LinkCommandsAct_12 : ∃ (s : State) (p : Fin 2) (obj : List Byte), s.portUsed p = true ∧ s.linkUp p = true ∧
    s.bit (pHib p) Reg.HIB_DOE 0 = false ∧ 4096 < obj.length :=
  ⟨ported1 3, 1, List.replicate 4097 0, by decide +kernel⟩

theorem wit_QueueCommandsAct_0 : ∃ (s : State) (c : Fin 256) (q : Nat) (k : Sq), s.rdy c = true ∧ mapFind (s.ctrl c).sqs q = some k :=
  ⟨hosted, 0, 1, sq8 0 1, by decide +kernel⟩

theorem wit_QueueCommandsAct_1 : ∃ (s : State) (c : Fin 256) (q : Nat) (v : Nat) (k : Cq), s.rdy c = true ∧
    mapFind (s.ctrl c).cqs q = some k ∧ k.headOk v = true :=
  ⟨hosted fun c => { c with cqs := [(1, cq8 7)] }, 0, 1, 7, cq8 7, by decide +kernel⟩

theorem wit_QueueCommandsAct_2 : ∃ (s : State) (c : Fin 256) (q : Nat), s.rdy c = true ∧ mapFind (s.ctrl c).cqs q = none :=
  ⟨hosted, 0, 9, by decide +kernel⟩

theorem wit_QueueCommandsAct_3 : ∃ (s : State) (c : Fin 256) (q : Nat) (tag : Nat) (k : Cq) (e : Cqe) (r : List (Nat × Cqe)), mapFind
    (s.ctrl c).cqs q = some k ∧ k.held = (tag, e) :: r ∧ k.room ≠ 0 :=
  ⟨hosted fun c => { c with cqs := [(1, { cq8 6 with held := [(300, ⟨7, 1, 0, 0, false, 0, 0⟩)] })] }, 0, 1, 300, { cq8 6 with
    held := [(300, ⟨7, 1, 0, 0, false, 0, 0⟩)] }, ⟨7, 1, 0, 0, false, 0, 0⟩, [], by decide +kernel⟩

theorem wit_QueueCommandsAct_4 : ∃ (s : State) (c : Fin 256) (q : Nat) (k : Cq), mapFind (s.ctrl c).cqs q = some k ∧ k.coalesced ≠ 0 :=
  ⟨hosted fun c => { c with cqs := [(1, { cq8 6 with coalesced := 3 })] }, 0, 1, { cq8 6 with coalesced := 3 }, by decide +kernel⟩

theorem wit_QueueCommandsAct_5 : ∃ (s : State) (tag : Nat) (c : Nat) (a : Fin 256) (e : Sqe) (k : Sq), s.mayFetch tag = true ∧
    s.power.idle = none ∧ s.pickAdmin a = some c ∧ mapFind (s.ctrl c).sqs 0 = some k ∧ (s.ctrl c).preAbort = [] ∧
    barlisKnows true (s.barlisVer c) e.opc = false ∧ s.unknownCmd c true e = none :=
  ⟨hosted fun c => { c with sqs := [(0, sq8 1)] }, 300, 0, 1, sqe 0x0C, sq8 1, by decide +kernel⟩

theorem wit_QueueCommandsAct_6 : ∃ (s : State) (u : State) (tag : Nat) (c : Nat) (q : Nat) (a : Fin 256) (e : Sqe) (k : Sq), s.mayFetch
    tag = true ∧ s.power.idle = none ∧ s.pickAdmin a = none ∧ s.fresh.pickIo = some (u, c, q) ∧ mapFind (u.ctrl c).sqs q = some k ∧
    q ≠ 0 ∧ (u.ctrl c).preAbort = [] ∧ barlisKnows false (s.barlisVer c) e.opc = false ∧ s.unknownCmd c false e = none :=
  ⟨fetchIo, fetched.1, 300, 0, 1, 0, sqe 2 1, sq8 1 1, by decide +kernel⟩

theorem wit_QueueCommandsAct_7 : ∃ (s : State) (tag : Nat) (c : Nat) (sc : Nat) (a : Fin 256) (e : Sqe) (k : Sq), s.mayFetch tag = true ∧
    s.power.idle = none ∧ s.pickAdmin a = some c ∧ mapFind (s.ctrl c).sqs 0 = some k ∧ (s.ctrl c).preAbort = [] ∧
    barlisKnows true (s.barlisVer c) e.opc = false ∧ s.unknownCmd c true e = some sc ∧ ((∃ g, mapFind (s.ctrl c).cqs k.cq = some g ∧
    g.room ≠ 0 ∧ g.held = [])) ∧ tag < miTag :=
  ⟨hosted fun c => { c with sqs := [(0, sq8 1)] }, 300, 0, 1, 0, sqe 0x7F, sq8 1, by decide +kernel⟩

theorem wit_AdminCommandsAct_0 : ∃ (s : State) (tag : Nat) (q : Nat) (n : Nat) (k : Cmd), s.adminReady tag 5 k ∧
    q = natBits k.e.d10.toNat 0 16 ∧ n = natBits k.e.d10.toNat 16 16 + 1 ∧ q ≠ 0 ∧ q ≤ s.grantCq k.ctrl ∧
    mapFind (s.ctrl k.ctrl).cqs q = none ∧ 2 ≤ n ∧ k.e.d11.getLsbD 0 = true ∧ natBits k.e.d11.toNat 16 16 < s.msixSize k.ctrl :=
  ⟨given (cmd 0 (sqe 0x5 0 0x10040 0x3f0001)), 300, 64, 2, cmd 0 (sqe 0x5 0 0x10040 0x3f0001), adminOk (by decide +kernel),
    by decide +kernel, by decide +kernel, by decide +kernel, by decide +kernel, by decide +kernel, by decide +kernel, by decide +kernel,
    by decide +kernel⟩

theorem wit_AdminCommandsAct_1 : ∃ (s : State) (tag : Nat) (q : Nat) (n : Nat) (k : Cmd), s.adminReady tag 1 k ∧
    q = natBits k.e.d10.toNat 0 16 ∧ n = natBits k.e.d10.toNat 16 16 + 1 ∧ q ≠ 0 ∧ q ≤ s.grantSq k.ctrl ∧
    mapFind (s.ctrl k.ctrl).sqs q = none ∧ natBits k.e.d11.toNat 16 16 ≠ 0 ∧ mapFind (s.ctrl k.ctrl).cqs (natBits k.e.d11.toNat 16 16) ≠
    none ∧ 2 ≤ n ∧ k.e.d11.getLsbD 0 = true :=
  ⟨given (cmd 0 (sqe 0x1 0 0x10040 0x10001)), 300, 64, 2, cmd 0 (sqe 0x1 0 0x10040 0x10001), adminOk (by decide +kernel),
    by decide +kernel, by decide +kernel, by decide +kernel, by decide +kernel, by decide +kernel, by decide +kernel, by decide +kernel,
    by decide +kernel, by decide +kernel⟩

theorem wit_AdminCommandsAct_2 : ∃ (s : State) (tag : Nat) (op : Nat) (k : Cmd) (i : Instr), ((op = 5 ∧ i = .createIoCq tag ∧
    s.grantCq k.ctrl < natBits k.e.d10.toNat 0 16 ∨ op = 1 ∧ i = .createIoSq tag ∧ s.grantSq k.ctrl < natBits k.e.d10.toNat 0 16)) ∧
    s.adminReady tag op k ∧ s.postable tag k :=
  ⟨given (cmd 0 (sqe 0x5 0 0x10041 0x3f0001)), 300, 5, cmd 0 (sqe 0x5 0 0x10041 0x3f0001), .createIoCq 300, by decide +kernel, adminOk
    (by decide +kernel), posts (by decide +kernel)⟩

theorem wit_AdminCommandsAct_3 : ∃ (s : State) (tag : Nat) (k : Cmd), s.adminReady tag 0 k ∧ natBits k.e.d10.toNat 0 16 ≠ 0 :=
  ⟨given (cmd 0 (sqe 0x0 0 0x1)), 300, cmd 0 (sqe 0x0 0 0x1), adminOk (by decide +kernel), by decide +kernel⟩

theorem wit_AdminCommandsAct_4 : ∃ (s : State) (tag : Nat) (q : Nat) (k : Cmd), s.adminReady tag 4 k ∧ q = natBits k.e.d10.toNat 0 16 ∧
    q ≠ 0 ∧ (s.ctrl k.ctrl).sqs.any (fun e => e.1 != 0 && e.2.cq == q) = false :=
  ⟨given (cmd 0 (sqe 0x4 0 0x2)), 300, 2, cmd 0 (sqe 0x4 0 0x2), adminOk (by decide +kernel), by decide +kernel, by decide +kernel,
    by decide +kernel⟩

theorem wit_AdminCommandsAct_5 : ∃ (s : State) (tag : Nat) (k : Cmd) (e : Nat × Cmd), s.adminReady tag 8 k ∧ s.aborts k.ctrl ≤ 8 ∧
    s.cmds.find? (fun e => e.1 != tag && e.2.ctrl == k.ctrl && e.2.sq == natBits k.e.d10.toNat 0 16 && e.2.e.cid == natBits k.e.d10.toNat
    16 16 && !e.2.accepted && !e.2.ended) = some e :=
  ⟨{ hosted with cmds := [(300, cmd 0 (sqe 0x8 0 0x70001)), (301, { cmd 1 (sqe 2 1) with stamp := 4 })] }, 300, cmd 0 (sqe 0x8 0
    0x70001), (301, { cmd 1 (sqe 2 1) with stamp := 4 }), adminOk (by decide +kernel), by decide +kernel, by decide +kernel⟩

theorem wit_AdminCommandsAct_6 : ∃ (s : State) (tag : Nat) (k : Cmd), s.adminReady tag 8 k ∧ s.postable tag k ∧ s.aborts k.ctrl ≤ 8 ∧
    s.cmds.find? (fun e => e.1 != tag && e.2.ctrl == k.ctrl && e.2.sq == natBits k.e.d10.toNat 0 16 && e.2.e.cid == natBits k.e.d10.toNat
    16 16 && !e.2.accepted && !e.2.ended) = none :=
  ⟨given (cmd 0 (sqe 0x8 0 0x70001)), 300, cmd 0 (sqe 0x8 0 0x70001), adminOk (by decide +kernel), posts (by decide +kernel),
    by decide +kernel, by decide +kernel⟩

theorem wit_AdminCommandsAct_7 : ∃ (s : State) (tag : Nat) (k : Cmd), s.adminReady tag 0x0C k ∧ (s.ctrl k.ctrl).aers.length < 4 :=
  ⟨given (cmd 0 (sqe 0xc 0 )) (hosted fun c => { c with aers := [1, 2, 3] }), 300, cmd 0 (sqe 0xc 0 ), adminOk (by decide +kernel),
    by decide +kernel⟩

theorem wit_AdminCommandsAct_8 : ∃ (s : State) (tag : Nat) (op : Nat) (v : Nat) (id : Nat) (k : Cmd) (i : Instr), ((op = 1 ∧
    i = .setArbitration tag none ∧ id = 1 ∧ v = k.e.d11.toNat ∨ op = 2 ∧ i = .setPowerManagement tag none ∧ id = 2 ∧
    v = k.e.d11.toNat % 32 ∧ v ≤ (if s.isPf k.ctrl then 2 else 0) ∨ op = 4 ∧ i = .setTemperatureThreshold tag none ∧
    id = tempKey k.e.d11.toNat ∧ v = 2 ^ 16 + k.e.d11.toNat % 2 ^ 16 ∧ natBits k.e.d11.toNat 20 2 ≤ 1 ∨ op = 8 ∧
    i = .setInterruptCoalescing tag none ∧ id = 8 ∧ v = k.e.d11.toNat % 2 ^ 16 ∨ op = 0x0B ∧ i = .setAsyncEventConfiguration tag none ∧
    id = 0x0B ∧ v = k.e.d11.toNat)) ∧ s.adminReady tag 9 k ∧ k.e.d10.toNat % 256 = op ∧ k.e.d10.getLsbD 31 = false :=
  ⟨given (cmd 0 (sqe 0x9 0 0x2 0x2)), 300, 2, 2, 2, cmd 0 (sqe 0x9 0 0x2 0x2), .setPowerManagement 300 none, by decide +kernel, adminOk
    (by decide +kernel), by decide +kernel, by decide +kernel⟩

theorem wit_AdminCommandsAct_9 : ∃ (s : State) (tag : Nat) (p : Nat) (k : Cmd), s.adminReady tag 9 k ∧ k.e.d10.toNat % 256 = 7 ∧
    k.e.d10.getLsbD 31 = false ∧ natBits k.e.d11.toNat 0 16 ≠ 65535 ∧ natBits k.e.d11.toNat 16 16 ≠ 65535 ∧ p = (s.func k.ctrl).vq - 1 :=
  ⟨given (cmd 0 (sqe 0x9 0 0x7 0xfffefffe)), 300, 64, cmd 0 (sqe 0x9 0 0x7 0xfffefffe), adminOk (by decide +kernel), by decide +kernel,
    by decide +kernel, by decide +kernel, by decide +kernel, by decide +kernel⟩

theorem wit_AdminCommandsAct_10 : ∃ (s : State) (tag : Nat) (k : Cmd), s.adminReady tag 9 k ∧ k.e.d10.toNat % 256 = 9 ∧
    k.e.d10.getLsbD 31 = false ∧ natBits k.e.d11.toNat 0 16 < s.msixSize k.ctrl :=
  ⟨given (cmd 0 (sqe 0x9 0 0x9 0x3f)), 300, cmd 0 (sqe 0x9 0 0x9 0x3f), adminOk (by decide +kernel), by decide +kernel,
    by decide +kernel, by decide +kernel⟩

theorem wit_AdminCommandsAct_11 : ∃ (s : State) (tag : Nat) (k : Cmd), s.adminReady tag 9 k ∧ k.e.d10.toNat % 256 = 0x0E ∧
    k.e.d10.getLsbD 31 = false :=
  ⟨given (cmd 0 (sqe 0x9 0 0xe)), 300, cmd 0 (sqe 0x9 0 0xe), adminOk (by decide +kernel), by decide +kernel, by decide +kernel⟩

theorem wit_AdminCommandsAct_12 : ∃ (s : State) (tag : Nat) (v : Nat) (k : Cmd), s.adminReady tag 9 k ∧ k.e.d10.toNat % 256 = 0xC0 ∧
    k.e.d10.getLsbD 31 = false ∧ v = natBits k.e.d11.toNat 0 16 ∧ v ∈ [0x0100, 0x0101] ∧ (s.ctrl k.ctrl).barlis = false :=
  ⟨given (cmd 0 (sqe 0x9 0 0xc0 0x101)), 300, 0x101, cmd 0 (sqe 0x9 0 0xc0 0x101), adminOk (by decide +kernel), by decide +kernel,
    by decide +kernel, by decide +kernel, by decide +kernel, by decide +kernel⟩

theorem wit_AdminCommandsAct_13 : ∃ (s : State) (tag : Nat) (k : Cmd), s.adminReady tag 0x0A k ∧ s.postable tag k ∧
    k.e.d10.toNat % 256 ≠ 0x0E :=
  ⟨given (cmd 0 (sqe 0xa 0 0x7)), 300, cmd 0 (sqe 0xa 0 0x7), adminOk (by decide +kernel), posts (by decide +kernel), by decide +kernel⟩

theorem wit_AdminCommandsAct_14 : ∃ (s : State) (c : Fin 256), s.slotEnabled c = true ∧ (s.ctrl c).en = true :=
  ⟨hosted, 0, by decide +kernel⟩

theorem wit_AdminCommandsAct_15 : ∃ (s : State) (c : Fin 256) (n : Nat) (m : Nat), s.slotEnabled c = true ∧ (s.ctrl c).en = false ∧
    2 ≤ n ∧ n ≤ 4096 ∧ 2 ≤ m ∧ m ≤ 4096 :=
  ⟨hosted fun c => { c with en := false }, 0, 4096, 2, by decide +kernel⟩

theorem wit_NamespaceCommandsAct_0 : ∃ (s : State) (tag : Nat) (size : Nat) (lbaf : Nat) (pi : Nat) (data : List Byte) (k : Cmd),
    s.adminReady tag 0x0D k ∧ natBits k.e.d10.toNat 0 4 = 0 ∧ k.e.nsid ≠ 1024 ∧ size = leNat (data.take 8) ∧
    leNat ((data.drop 8).take 8) = size ∧ size ≠ 0 ∧ lbaf = leNat ((data.drop 26).take 1) % 16 ∧ pi = leNat ((data.drop 29).take 1) % 8 ∧
    formatOk lbaf pi = true ∧ s.freeNsid ≠ none ∧ s.findUnits (unitsFor lbaf size) ≠ none ∧ s.kpr.jfault = false :=
  ⟨put (given (cmd 0 (sqe 0xd 0 ))) pFtm Reg.FTM_CAP_LO 0 32 16, 300, 64, 0, 0, nsData, cmd 0 (sqe 0xd 0 ), adminOk (by decide +kernel),
    by decide +kernel, by decide +kernel, by decide +kernel, by decide +kernel, by decide +kernel, by decide +kernel, by decide +kernel,
    by decide +kernel, by decide +kernel, by decide +kernel, by decide +kernel⟩

theorem wit_NamespaceCommandsAct_1 : ∃ (s : State) (tag : Nat) (k : Cmd), s.adminReady tag 0x0D k ∧ natBits k.e.d10.toNat 0 4 = 1 ∧
    k.e.nsid ≠ 1024 ∧ mapFind s.nss k.e.nsid ≠ none ∧ s.kpr.jfault = false :=
  ⟨spaced (cmd 0 (sqe 0xd 1 0x1)), 300, cmd 0 (sqe 0xd 1 0x1), adminOk (by decide +kernel), by decide +kernel, by decide +kernel,
    by decide +kernel, by decide +kernel⟩

theorem wit_NamespaceCommandsAct_2 : ∃ (s : State) (tag : Nat) (k : Cmd), s.adminReady tag 0x0D k ∧ natBits k.e.d10.toNat 0 4 ≤ 1 ∧
    k.e.nsid = 1024 ∧ s.postable tag k :=
  ⟨given (cmd 0 (sqe 0xd 1024 0x1)), 300, cmd 0 (sqe 0xd 1024 0x1), adminOk (by decide +kernel), by decide +kernel, by decide +kernel,
    posts (by decide +kernel)⟩

theorem wit_NamespaceCommandsAct_3 : ∃ (s : State) (tag : Nat) (sel : Nat) (data : List Byte) (k : Cmd) (n : Ns) (l : List Nat),
    s.adminReady tag 0x15 k ∧ mapFind s.nss k.e.nsid = some n ∧ sel = natBits k.e.d10.toNat 0 4 ∧ sel ≤ 1 ∧
    l = (List.range (leNat (data.take 2))).map (fun i => leNat ((data.drop (2 + 2 * i)).take 2)) ∧ l ≠ [] ∧ l.length ≤ 2047 ∧
    ((∀ c ∈ l, s.slotEnabled c = true)) ∧ l.Nodup ∧ ((∀ c ∈ l, n.attached.contains c = (sel == 1))) ∧ s.kpr.jfault = false :=
  ⟨spaced (cmd 0 (sqe 0x15 1 0x0)), 300, 0, [1, 0, 1, 0], cmd 0 (sqe 0x15 1 0x0), ns64, [1], adminOk (by decide +kernel),
    by decide +kernel, by decide +kernel, by decide +kernel, by decide +kernel, by decide +kernel, by decide +kernel, by decide +kernel,
    by decide +kernel, by decide +kernel, by decide +kernel⟩

theorem wit_NamespaceCommandsAct_4 : ∃ (s : State) (tag : Nat) (k : Cmd) (n : Ns), s.adminReady tag 0x80 k ∧ k.e.nsid ≠ 1024 ∧
    k.e.nsid ≠ 0xFFFF_FFFF ∧ mapFind s.nss k.e.nsid = some n ∧ formatOk (natBits k.e.d10.toNat 0 4) (natBits k.e.d10.toNat 5 3) = true ∧
    natBits k.e.d10.toNat 8 1 = 0 ∧ natBits k.e.d10.toNat 9 3 ≤ 2 :=
  ⟨spaced (cmd 0 (sqe 0x80 1 0x400)), 300, cmd 0 (sqe 0x80 1 0x400), ns64, adminOk (by decide +kernel), by decide +kernel,
    by decide +kernel, by decide +kernel, by decide +kernel, by decide +kernel, by decide +kernel⟩

theorem wit_NamespaceCommandsAct_5 : ∃ (s : State) (tag : Nat) (k : Cmd), s.adminReady tag 0x80 k ∧ k.e.nsid = 1024 ∧ s.postable tag k :=
  ⟨given (cmd 0 (sqe 0x80 1024 0x0)), 300, cmd 0 (sqe 0x80 1024 0x0), adminOk (by decide +kernel), by decide +kernel, posts
    (by decide +kernel)⟩

theorem wit_NamespaceCommandsAct_6 : ∃ (s : State) (tag : Nat) (act : Nat) (k : Cmd) (i : Instr), ((act = 2 ∧
    i = .sanitizeBlockErase tag ∨ act = 4 ∧ i = .sanitizeCryptoErase tag)) ∧ s.adminReady tag 0x84 k ∧ natBits k.e.d10.toNat 0 3 = act ∧
    s.kpr.seals = [] ∧ s.kpr.jfault = false :=
  ⟨given (cmd 0 (sqe 0x84 0 0x4)), 300, 4, cmd 0 (sqe 0x84 0 0x4), .sanitizeCryptoErase 300, by decide +kernel, adminOk
    (by decide +kernel), by decide +kernel, by decide +kernel, by decide +kernel⟩

theorem wit_NamespaceCommandsAct_7 : ∃ (s : State) (tag : Nat) (act : Nat) (k : Cmd) (i : Instr), ((act = 2 ∧
    i = .sanitizeBlockErase tag ∨ act = 4 ∧ i = .sanitizeCryptoErase tag)) ∧ s.adminReady tag 0x84 k ∧ natBits k.e.d10.toNat 0 3 = act ∧
    s.kpr.seals ≠ [] ∧ s.postable tag k :=
  ⟨{ given (cmd 0 (sqe 0x84 0 0x4)) with kpr := { State.reset.kpr with seals := [⟨1, 2, 3, 4, 5⟩] } }, 300, 4, cmd 0 (sqe 0x84 0 0x4),
    .sanitizeCryptoErase 300, by decide +kernel, adminOk (by decide +kernel), by decide +kernel, by decide +kernel, posts
    (by decide +kernel)⟩

theorem wit_IoCommandsAct_0 : ∃ (s : State) (tag : Nat) (op : Nat) (data : List Byte) (mdata : List Byte) (k : Cmd) (i : Instr), ((op = 1
    ∧ i = .write tag data mdata ∨ op = 0x7D ∧ i = .zoneAppend tag data mdata ∨ op = 8 ∧ i = .writeZeroes tag ∨ op = 9 ∧
    i = .deallocate tag data ∨ op = 2 ∧ i = .read tag ∨ op = 0x0C ∧ i = .verify tag)) ∧ s.cmdOf tag op false = some k ∧
    s.mustWait tag k = true :=
  ⟨{ spaced (cmd 1 (sqe 0x2 1 0x0 0x0 0x0)) with
    cmds := [(300, cmd 1 (sqe 0x2 1 0x0 0x0 0x0)), (301, { cmd 1 (sqe 1 1) with stamp := 4 })] }, 300, 2, [], [], cmd 1 (sqe 0x2 1 0x0
    0x0 0x0), .read 300, by decide +kernel⟩

theorem wit_IoCommandsAct_1 : ∃ (s : State) (tag : Nat) (op : Nat) (data : List Byte) (mdata : List Byte) (k : Cmd) (i : Instr), ((op = 1
    ∧ i = .write tag data mdata ∨ op = 0x7D ∧ i = .zoneAppend tag data mdata ∨ op = 8 ∧ i = .writeZeroes tag ∨ op = 9 ∧
    i = .deallocate tag data ∨ op = 2 ∧ i = .read tag ∨ op = 0x0C ∧ i = .verify tag)) ∧ s.cmdOf tag op false = some k ∧
    (s.func k.ctrl).overCap = false ∧ s.mustWait tag k = false ∧ s.firstPend k = true ∧ s.postable tag k :=
  ⟨{ spaced (cmd 1 (sqe 0x2 1 0x0 0x0 0x0)) with ctrls := [(0, { hosted.ctrl 0 with pend := [(1, 4)] })] }, 300, 2, [], [], cmd 1 (sqe
    0x2 1 0x0 0x0 0x0), .read 300, by decide +kernel, by decide +kernel, by decide +kernel, by decide +kernel, by decide +kernel, posts
    (by decide +kernel)⟩

theorem wit_IoCommandsAct_2 : ∃ (s : State) (tag : Nat) (data : List Byte) (mdata : List Byte) (k : Cmd) (n : Ns), s.ioReady tag 1 k n ∧
    n.pi = 0 ∧ n.xfer k.nlb (piCmd n.lbaf k.e).act ≤ 2097152 ∧ k.nlb * lbaSize n.lbaf ≤ data.length ∧
    k.nlb * metaSize n.lbaf ≤ mdata.length ∧ ((k.e.nsid ≠ 1024 ∧ k.slba + k.nlb ≤ n.size ∨ k.e.nsid = 1024 ∧
    k.slba + k.nlb ≤ s.zoneCount * s.zsze ∧ s.zoneRefuses (k.slba / s.zsze) (k.slba % s.zsze) k.nlb = none)) :=
  ⟨spaced (cmd 1 (sqe 0x1 1 0x3f 0x0 0x0)), 300, List.replicate 512 1, [], cmd 1 (sqe 0x1 1 0x3f 0x0 0x0), ns64, ioOk
    (by decide +kernel), by decide +kernel, by decide +kernel, by decide +kernel, by decide +kernel, by decide +kernel⟩

theorem wit_IoCommandsAct_3 : ∃ (s : State) (tag : Nat) (k : Cmd) (n : Ns) (r : Nat × Nat), s.ioReady tag 1 k n ∧ k.e.nsid = 1024 ∧
    k.slba + k.nlb ≤ s.zoneCount * s.zsze ∧ s.zoneRefuses (k.slba / s.zsze) (k.slba % s.zsze) k.nlb = some r ∧ s.postable tag k :=
  ⟨zoned (cmd 1 (sqe 0x1 1024 0x10 0x0 0x0)) [(1, ⟨.full, 8, false, false, false, false, 0⟩)], 300, cmd 1 (sqe 0x1 1024 0x10 0x0 0x0),
    ns1024, (1, 0xB9), ioOk (by decide +kernel), by decide +kernel, by decide +kernel, by decide +kernel, posts (by decide +kernel)⟩

theorem wit_IoCommandsAct_4 : ∃ (s : State) (tag : Nat) (lba : Nat) (data : List Byte) (mdata : List Byte) (k : Cmd) (n : Ns), s.ioReady
    tag 0x7D k n ∧ n.pi = 0 ∧ k.e.nsid = 1024 ∧ n.xfer k.nlb (piCmd n.lbaf k.e).act ≤ 2097152 ∧ k.nlb * lbaSize n.lbaf ≤ data.length ∧
    k.nlb * metaSize n.lbaf ≤ mdata.length ∧ k.slba < s.zoneCount * s.zsze ∧ k.slba % s.zsze = 0 ∧
    s.zoneRefuses (k.slba / s.zsze) (s.zone (k.slba / s.zsze)).wp k.nlb = none ∧ lba = k.slba + (s.zone (k.slba / s.zsze)).wp :=
  ⟨zoned (cmd 1 (sqe 0x7d 1024 0x90 0x0 0x0)) [(9, ⟨.explOpen, 7, false, false, false, false, 0⟩)], 300, 151, List.replicate 4096 0,
    List.replicate 8 0, cmd 1 (sqe 0x7d 1024 0x90 0x0 0x0), ns1024, ioOk (by decide +kernel), by decide +kernel, by decide +kernel,
    by decide +kernel, by decide +kernel, by decide +kernel, by decide +kernel, by decide +kernel, by decide +kernel, by decide +kernel⟩

theorem wit_IoCommandsAct_5 : ∃ (s : State) (tag : Nat) (k : Cmd) (n : Ns), s.ioReady tag 8 k n ∧ n.pi = 0 ∧ k.e.nsid ≠ 1024 ∧
    k.slba + k.nlb ≤ n.size :=
  ⟨spaced (cmd 1 (sqe 0x8 1 0x3f 0x0 0x0)), 300, cmd 1 (sqe 0x8 1 0x3f 0x0 0x0), ns64, ioOk (by decide +kernel), by decide +kernel,
    by decide +kernel, by decide +kernel⟩

theorem wit_IoCommandsAct_6 : ∃ (s : State) (tag : Nat) (data : List Byte) (k : Cmd) (n : Ns), s.ioReady tag 9 k n ∧ k.e.nsid ≠ 1024 ∧
    natBits k.e.d10.toNat 0 8 = 0 ∧ 16 ≤ data.length ∧ leNat ((data.drop 8).take 8) + leNat ((data.drop 4).take 4) ≤ n.size ∧
    k.e.d11.getLsbD 2 = true :=
  ⟨spaced (cmd 1 (sqe 0x9 1 0x0 0x4)), 300, [0, 0, 0, 0, 1, 0, 0, 0, 63, 0, 0, 0, 0, 0, 0, 0], cmd 1 (sqe 0x9 1 0x0 0x4), ns64, ioOk
    (by decide +kernel), by decide +kernel, by decide +kernel, by decide +kernel, by decide +kernel, by decide +kernel⟩

theorem wit_IoCommandsAct_7 : ∃ (s : State) (tag : Nat) (k : Cmd) (n : Ns), s.ioReady tag 2 k n ∧ n.pi = 0 ∧ k.e.nsid ≠ 1024 ∧
    k.slba + k.nlb ≤ n.size ∧ n.xfer k.nlb (k.e.d12.getLsbD 29) ≤ 2097152 ∧ s.firstBad k.e.nsid k.slba k.nlb = none ∧ n.ext = false :=
  ⟨spaced (cmd 1 (sqe 0x2 1 0x3f 0x0 0x0)), 300, cmd 1 (sqe 0x2 1 0x3f 0x0 0x0), ns64, ioOk (by decide +kernel), by decide +kernel,
    by decide +kernel, by decide +kernel, by decide +kernel, by decide +kernel, by decide +kernel⟩

theorem wit_IoCommandsAct_9 : ∃ (s : State) (tag : Nat) (a : Nat) (k : Cmd) (n : Ns), s.ioReady tag 2 k n ∧ n.pi = 0 ∧ k.e.nsid ≠ 1024 ∧
    k.slba + k.nlb ≤ n.size ∧ n.xfer k.nlb (k.e.d12.getLsbD 29) ≤ 2097152 ∧ s.firstBad k.e.nsid k.slba k.nlb = some a ∧
    s.postable tag k :=
  ⟨{ spaced (cmd 1 (sqe 0x2 1 0x3f 0x0 0x0)) with blocks := [(2 ^ 64 + 63, ⟨List.replicate 512 1, [], 0, 0, 0, 0, .flash, true⟩)] }, 300,
    63, cmd 1 (sqe 0x2 1 0x3f 0x0 0x0), ns64, ioOk (by decide +kernel), by decide +kernel, by decide +kernel, by decide +kernel,
    by decide +kernel, by decide +kernel, posts (by decide +kernel)⟩

theorem wit_IoCommandsAct_8 : ∃ (s : State) (tag : Nat) (k : Cmd) (n : Ns), s.ioReady tag 0x0C k n ∧ n.pi = 0 ∧ k.e.nsid ≠ 1024 ∧
    k.slba + k.nlb ≤ n.size ∧ s.postable tag k :=
  ⟨spaced (cmd 1 (sqe 0xc 1 0x3f 0x0 0x0)), 300, cmd 1 (sqe 0xc 1 0x3f 0x0 0x0), ns64, ioOk (by decide +kernel), by decide +kernel,
    by decide +kernel, by decide +kernel, posts (by decide +kernel)⟩

theorem wit_IoCommandsAct_10 : ∃ (s : State) (tag : Nat) (k : Cmd) (n : Ns), s.ioReady tag 0 k n ∧ k.e.nsid ≠ 0xFFFF_FFFF ∧
    s.postable tag k :=
  ⟨spaced (cmd 1 (sqe 0x0 1 )), 300, cmd 1 (sqe 0x0 1 ), ns64, ioOk (by decide +kernel), by decide +kernel, posts (by decide +kernel)⟩

theorem wit_IoCommandsAct_11 : ∃ (s : State) (tag : Nat) (k : Cmd) (n : Ns) (i : Instr) (z : Nat) (x : Zone), s.ioReady tag 0x79 k n ∧
    k.e.nsid = 1024 ∧ k.e.d13.getLsbD 8 = false ∧ k.slba < s.zoneCount * s.zsze ∧ k.slba % s.zsze = 0 ∧ z = k.slba / s.zsze ∧
    ((k.e.d13.toNat % 256 = 1 ∧ i = .zoneClose tag ∧ (s.zone z).state.active = true ∧
    x = { s.zone z with state := .closed } ∨ k.e.d13.toNat % 256 = 2 ∧ i = .zoneFinish tag ∧
    (s.zone z).state ∈ [.empty, .implOpen, .explOpen, .closed] ∧ x = { s.zone z with state := .full, wp := s.zcap, staged := true } ∨
    k.e.d13.toNat % 256 = 3 ∧ i = .zoneOpen tag ∧ (s.zone z).state ∈ [.empty, .implOpen, .explOpen, .closed] ∧
    s.mayActivate (s.zone z).state = true ∧ x = { s.zone z with state := .explOpen } ∨ k.e.d13.toNat % 256 = 4 ∧ i = .zoneReset tag ∧
    (s.zone z).state ∉ [.readOnly, .offline] ∧ (s.zone z).sealed = false ∧ (s.zone z).destaging = false ∧
    x = ⟨.empty, 0, false, false, false, false, 0⟩)) :=
  ⟨zoned (cmd 1 (sqe 0x79 1024 0x90 0x0 0x0 0x4)) [(9, ⟨.full, 8, false, false, false, false, 0⟩)], 300, cmd 1 (sqe 0x79 1024 0x90 0x0
    0x0 0x4), ns1024, .zoneReset 300, 9, ⟨.empty, 0, false, false, false, false, 0⟩, ioOk (by decide +kernel), by decide +kernel,
    by decide +kernel, by decide +kernel, by decide +kernel, by decide +kernel, by decide +kernel⟩

theorem wit_IoCommandsAct_12 : ∃ (s : State) (tag : Nat) (k : Cmd) (n : Ns) (i : Instr), s.ioReady tag 0x79 k n ∧ k.e.nsid = 1024 ∧
    k.e.d13.getLsbD 8 = false ∧ k.slba < s.zoneCount * s.zsze ∧ k.slba % s.zsze = 0 ∧ (s.zone (k.slba / s.zsze)).state = .full ∧
    (s.zone (k.slba / s.zsze)).sealed = true ∧ (s.zone (k.slba / s.zsze)).destaging = false ∧ ((k.e.d13.toNat % 256 = 3 ∧
    i = .zoneOpen tag ∨ k.e.d13.toNat % 256 = 4 ∧ i = .zoneReset tag)) ∧ s.postable tag k :=
  ⟨zoned (cmd 1 (sqe 0x79 1024 0x90 0x0 0x0 0x4)) [(9, ⟨.full, 8, false, true, false, true, 0⟩)], 300, cmd 1 (sqe 0x79 1024 0x90 0x0 0x0
    0x4), ns1024, .zoneReset 300, ioOk (by decide +kernel), by decide +kernel, by decide +kernel, by decide +kernel, by decide +kernel,
    by decide +kernel, by decide +kernel, by decide +kernel, by decide +kernel, posts (by decide +kernel)⟩

theorem wit_IoCommandsAct_13 : ∃ (s : State) (tag : Nat) (k : Cmd) (n : Ns) (i : Instr), s.ioReady tag 0x7A k n ∧ k.e.nsid = 1024 ∧
    k.slba < s.zoneCount * s.zsze ∧ natBits k.e.d13.toNat 8 8 = 0 ∧ k.e.d13.getLsbD 16 = false ∧ ((k.e.d13.toNat % 256 = 0 ∧
    i = .reportZones tag ∨ k.e.d13.toNat % 256 = 1 ∧ i = .extendedReportZones tag)) :=
  ⟨zoned (cmd 1 (sqe 0x7a 1024 0x9f 0x0 0x7 0x1)) [], 300, cmd 1 (sqe 0x7a 1024 0x9f 0x0 0x7 0x1), ns1024, .extendedReportZones 300, ioOk
    (by decide +kernel), by decide +kernel, by decide +kernel, by decide +kernel, by decide +kernel, by decide +kernel⟩

/-- A Bench image of one code word. -/
def image72 : List Byte := sec 72 [(0, 0x47), (1, 0x41), (2, 0x50), (3, 0x49), (8, 72), (0x10, 8)]
/-- A run block of one extent. -/
def runBlock : List Byte := sec 80 [(0x11, 0x10), (0x18, 1), (0x48, 1)]
/-- Bench 0 bound to function 0, with its program. -/
def bound (s : State) (f : Bench → Bench := id) : State :=
  s.setBench 0 (f { s.benchOf 0 with state := 1, prog := some ⟨0, [], [], 0, 0, 0x180, 0, 0, 0, []⟩ })
/-- Key slot 0 of function 0, of type 3. -/
def fnKey : KeySlot := keyed 3 7 0 0
def attached : State := put (put (bound (zoned (cmd 1 (sqe 0xc0 1024 0x0 0x90 0x0 0xc0a))) fun b => { b with streams := [(10, 63, 300, 1)] }) (pCcl 0 + 3) (Reg.STREAM 63 0x10) 16 1 1)
    (pCcl 0 + 3) (Reg.STREAM 63 0x10) 0 5 12
def fixCK : Cmd := cmd 1 (sqe 0xc2 1 0x3f 0x0 0x0 0x8)
def fixC : State := spaced fixCK
def fixCD : List Byte := algDigest (natBits fixCK.e.d13.toNat 0 4) (fixC.rangeData fixCK.e.nsid ns64 fixCK.slba (fixCK.e.d12.toNat + 1) (fixCK.e.d13.getLsbD 8))
def fixVK : Cmd := cmd 1 (sqe 0xc5 1 0x3f 0x0 0x0 0x8)
def fixV : State := spaced fixVK
def fixVD : List Byte := algDigest (natBits fixVK.e.d13.toNat 0 4) (fixV.rangeData fixVK.e.nsid ns64 fixVK.slba (fixVK.e.d12.toNat + 1) (fixVK.e.d13.getLsbD 8))
def fixRK : Cmd := cmd 1 (sqe 0xc5 1 0x40 0x0 0x0 0x8)
def fixR : State := spaced fixRK
def fixRD : List Byte := algDigest (natBits fixRK.e.d13.toNat 0 4) (fixR.rangeData fixRK.e.nsid ns64 fixRK.slba (fixRK.e.d12.toNat + 1) (fixRK.e.d13.getLsbD 8))
theorem eta3 {α β γ : Type} {x : α × β × γ} : x = (x.1, x.2.1, x.2.2) := rfl
def trOkK : Cmd := cmd 1 { sqe 0xc6 1 0x3f 0x0 0x0 0x3 with d14 := 0x9000, d15 := 576 }
def trOk : State := withKey fnKey (spaced trOkK)
def trOkR : State × JobResult × List Byte := (trOk.fresh.cmdCharge 300 []).engRun 300
  (cmdJob trOkK.ctrl 0x14 1 (trOkK.slba * lbaSize ns64.lbaf / 2 ^ natBits trOkK.e.d14.toNat 12 4) (natBits trOkK.e.d14.toNat 0 9 + natBits trOkK.e.d14.toNat 12 4 * 2 ^ 12))
  (trOk.rangeData trOkK.e.nsid ns64 trOkK.slba (trOkK.e.d12.toNat + 1) false) (trOkK.e.d15.toNat - 64) (fun s j => s.transformRun 300 (pAee 0) j)
def trNoK : Cmd := cmd 1 { sqe 0xc6 1 0x3f 0x0 0x0 0x3 with d14 := 0x9000, d15 := 576 }
def trNo : State := (spaced trNoK)
def trNoR : State × JobResult × List Byte := (trNo.fresh.cmdCharge 300 []).engRun 300
  (cmdJob trNoK.ctrl 0x14 1 (trNoK.slba * lbaSize ns64.lbaf / 2 ^ natBits trNoK.e.d14.toNat 12 4) (natBits trNoK.e.d14.toNat 0 9 + natBits trNoK.e.d14.toNat 12 4 * 2 ^ 12))
  (trNo.rangeData trNoK.e.nsid ns64 trNoK.slba (trNoK.e.d12.toNat + 1) false) (trNoK.e.d15.toNat - 64) (fun s j => s.transformRun 300 (pAee 0) j)
def asked (k : Cmd) (f : Ase → Ase := id) : State :=
  let s := put (put (given k) (pAse + 1) (Reg.ASE_ENT 63) 0 7 0x1F) (pAse + 2) (Reg.ASE_ENT 15) 0 17 0x10000
  { s with ase := f s.ase }
def srchK : Cmd := cmd 1 (sqe 0xc7 0 0xf 0x1 0x0 0x10)
def srch : State := asked srchK
def srchR : State × JobResult × List Byte := (srch.fresh.cmdCharge 300 []).engRun 300 (cmdJob 0 0x16 1 15 0) (List.replicate 16 0) 16
  (fun s j => match s.aseRefusal j with
    | some e => s.aseFail 300 e
    | none => s.aseSearch 300 j [])
def vfK : Cmd := { (cmd 1 (sqe 0xcc 1024 0x90 0x0 0x1)) with ctrl := 2, epoch := 0 }
def sealVf : State := let s := zoned vfK
  { s with nss := [(1024, { ns1024 with attached := [2] })], ctrls := [(2, s.ctrl 0)] }

theorem wit_BarlisProgramCommandsAct_0 : ∃ (s : State) (tag : Nat) (data : List Byte) (k : Cmd) (st : List Byte), s.adminReady tag 0xC1 k
    ∧ k.e.nsid = 0 ∧ k.only m32 m32 0xF 0 0 0 = true ∧ natBits k.e.d12.toNat 1 3 ∉ [4, 5, 6] ∧ k.e.d12.getLsbD 0 = false ∧
    k.e.d10.toNat ≠ 0 ∧ k.e.d10.toNat % 4096 = 0 ∧ k.e.d10.toNat ≤ 2097152 ∧ st = (if k.e.d11.toNat = 0 then [] else (s.ctrl
    k.ctrl).stage.getD []) ∧ k.e.d11.toNat = st.length ∧ k.e.d11.toNat + k.e.d10.toNat ≤ 0x0400_0000 ∧ k.e.d10.toNat ≤ data.length :=
  ⟨given (cmd 0 (sqe 0xc1 0 0x1000 0x0 0x0)), 300, List.replicate 4096 1, cmd 0 (sqe 0xc1 0 0x1000 0x0 0x0), [], adminOk
    (by decide +kernel), by decide +kernel, by decide +kernel, by decide +kernel, by decide +kernel, by decide +kernel,
    by decide +kernel, by decide +kernel, by decide +kernel, by decide +kernel, by decide +kernel, by decide +kernel⟩

theorem wit_BarlisProgramCommandsAct_1 : ∃ (s : State) (tag : Nat) (k : Cmd) (st : List Byte), s.adminReady tag 0xC1 k ∧ k.e.nsid = 0 ∧
    k.only m32 m32 0xF 0 0 0 = true ∧ natBits k.e.d12.toNat 1 3 ∉ [4, 5, 6] ∧ k.e.d12.getLsbD 0 = false ∧ k.e.d10.toNat ≠ 0 ∧
    k.e.d10.toNat % 4096 = 0 ∧ k.e.d10.toNat ≤ 2097152 ∧ st = (if k.e.d11.toNat = 0 then [] else (s.ctrl k.ctrl).stage.getD []) ∧
    k.e.d11.toNat ≠ st.length :=
  ⟨given (cmd 0 (sqe 0xc1 0 0x1000 0x1000 0x0)), 300, cmd 0 (sqe 0xc1 0 0x1000 0x1000 0x0), [], adminOk (by decide +kernel),
    by decide +kernel, by decide +kernel, by decide +kernel, by decide +kernel, by decide +kernel, by decide +kernel, by decide +kernel,
    by decide +kernel, by decide +kernel⟩

theorem wit_BarlisProgramCommandsAct_2 : ∃ (s : State) (tag : Nat) (x : Nat) (data : List Byte) (st : List Byte) (k : Cmd), s.adminReady
    tag 0xC1 k ∧ k.e.nsid = 0 ∧ k.only m32 m32 0xF 0 0 0 = true ∧ natBits k.e.d12.toNat 1 3 ∉ [4, 5, 6] ∧ k.e.d12.getLsbD 0 = true ∧
    k.e.d10.toNat ≠ 0 ∧ k.e.d10.toNat ≤ 2097152 ∧ st = (if k.e.d11.toNat = 0 then [] else (s.ctrl k.ctrl).stage.getD []) ∧
    k.e.d11.toNat = st.length ∧ k.e.d11.toNat + k.e.d10.toNat ≤ 0x0400_0000 ∧ k.e.d10.toNat ≤ data.length ∧
    s.imageStatus (st ++ data.take k.e.d10.toNat) = 0 ∧ s.pickBench k.ctrl (natBits k.e.d12.toNat 1 3) = some x :=
  ⟨{ given (cmd 0 (sqe 0xc1 0 0x48 0x0 0x1)) with kpr := { State.reset.kpr with policy := 1 } }, 300, 0, image72, [], cmd 0 (sqe 0xc1 0
    0x48 0x0 0x1), adminOk (by decide +kernel), by decide +kernel, by decide +kernel, by decide +kernel, by decide +kernel,
    by decide +kernel, by decide +kernel, by decide +kernel, by decide +kernel, by decide +kernel, by decide +kernel, by decide +kernel,
    by decide +kernel⟩

theorem wit_BarlisProgramCommandsAct_3 : ∃ (s : State) (tag : Nat) (data : List Byte) (st : List Byte) (k : Cmd), s.adminReady tag 0xC1 k
    ∧ k.e.nsid = 0 ∧ k.only m32 m32 0xF 0 0 0 = true ∧ natBits k.e.d12.toNat 1 3 ∉ [4, 5, 6] ∧ k.e.d12.getLsbD 0 = true ∧
    k.e.d10.toNat ≠ 0 ∧ k.e.d10.toNat ≤ 2097152 ∧ st = (if k.e.d11.toNat = 0 then [] else (s.ctrl k.ctrl).stage.getD []) ∧
    k.e.d11.toNat = st.length ∧ k.e.d11.toNat + k.e.d10.toNat ≤ 0x0400_0000 ∧ k.e.d10.toNat ≤ data.length ∧
    s.imageStatus (st ++ data.take k.e.d10.toNat) ∈ [0x6001, 0x6002] :=
  ⟨given (cmd 0 (sqe 0xc1 0 0x48 0x0 0x1)), 300, image72, [], cmd 0 (sqe 0xc1 0 0x48 0x0 0x1), adminOk (by decide +kernel),
    by decide +kernel, by decide +kernel, by decide +kernel, by decide +kernel, by decide +kernel, by decide +kernel, by decide +kernel,
    by decide +kernel, by decide +kernel, by decide +kernel, by decide +kernel⟩

theorem wit_BarlisProgramCommandsAct_4 : ∃ (s : State) (tag : Nat) (k : Cmd), s.adminReady tag 0xC4 k ∧ k.e.nsid = 0 ∧
    k.only 0xFFFF 0 0 0 0 0 = true ∧ s.ownBench k.ctrl k.e.d10.toNat = true ∧ s.coreOfCtx k.e.d10.toNat = none ∧
    ((∀ r < 4, s.ringBusy (.bench k.e.d10.toNat r) = false)) :=
  ⟨bound (given (cmd 0 (sqe 0xc4 0 0x0))), 300, cmd 0 (sqe 0xc4 0 0x0), adminOk (by decide +kernel), by decide +kernel,
    by decide +kernel, by decide +kernel, by decide +kernel, by decide +kernel⟩

theorem wit_BarlisProgramCommandsAct_5 : ∃ (s : State) (tag : Nat) (k : Cmd), s.adminReady tag 0xC4 k ∧ k.e.nsid = 0 ∧
    s.ownBench k.ctrl k.e.d10.toNat = false ∧ s.postable tag k :=
  ⟨given (cmd 0 (sqe 0xc4 0 0x0)), 300, cmd 0 (sqe 0xc4 0 0x0), adminOk (by decide +kernel), by decide +kernel, by decide +kernel, posts
    (by decide +kernel)⟩

theorem wit_BarlisProgramCommandsAct_6 : ∃ (s : State) (tag : Nat) (x : Nat) (rb : List Byte) (k : Cmd) (n : Ns), s.ioReady tag 0xC1 k n
    ∧ x = natBits k.e.d10.toNat 0 16 ∧ k.e.d11.toNat ≤ rb.length ∧ s.runFieldsBad k rb = false ∧ s.ownBench k.ctrl x = true ∧
    ((rbExtents rb).map Prod.snd).sum * lbaSize n.lbaf ≤ 2 ^ 30 ∧ ((∀ e ∈ rbExtents rb, s.rangeRefuses k.e.nsid n e.1 e.2 = none)) ∧
    k.e.d12.getLsbD 0 = false ∧ (((s.benchOf x).prog.map Prog.winReq).getD 0) &&& s.granted x rb = ((s.benchOf x).prog.map
    Prog.winReq).getD 0 ∧ (s.benchOf x).state ≠ 4 ∧ (s.coreOfCtx x).isSome = true :=
  ⟨(bound (spaced (cmd 1 (sqe 0xc1 1 0x0 0x50)))).setCore 0 { (State.reset.core 0) with
    mode := .running, bench := some ⟨0, 0, 0, 0, 0, 0, 0⟩ }, 300, 0, runBlock, cmd 1 (sqe 0xc1 1 0x0 0x50), ns64, ioOk
    (by decide +kernel), by decide +kernel, by decide +kernel, by decide +kernel, by decide +kernel, by decide +kernel,
    by decide +kernel, by decide +kernel, by decide +kernel, by decide +kernel, by decide +kernel⟩

theorem wit_BarlisProgramCommandsAct_7 : ∃ (s : State) (tag : Nat) (x : Nat) (rb : List Byte) (k : Cmd) (n : Ns), s.ioReady tag 0xC1 k n
    ∧ x = natBits k.e.d10.toNat 0 16 ∧ k.e.d11.toNat ≤ rb.length ∧ s.runFieldsBad k rb = false ∧ s.ownBench k.ctrl x = true ∧
    ((rbExtents rb).map Prod.snd).sum * lbaSize n.lbaf ≤ 2 ^ 30 ∧ ((∀ e ∈ rbExtents rb, s.rangeRefuses k.e.nsid n e.1 e.2 = none)) ∧
    k.e.d12.getLsbD 0 = false ∧ (((s.benchOf x).prog.map Prog.winReq).getD 0) &&& s.granted x rb = ((s.benchOf x).prog.map
    Prog.winReq).getD 0 ∧ (s.benchOf x).state ≠ 4 ∧ s.coreOfCtx x = none ∧ (s.benchOf x).prog.isSome = true ∧ (s.benchOf x).run = none ∧
    (s.benchOf x).waiting = [] :=
  ⟨bound (spaced (cmd 1 (sqe 0xc1 1 0x0 0x50))), 300, 0, runBlock, cmd 1 (sqe 0xc1 1 0x0 0x50), ns64, ioOk (by decide +kernel),
    by decide +kernel, by decide +kernel, by decide +kernel, by decide +kernel, by decide +kernel, by decide +kernel, by decide +kernel,
    by decide +kernel, by decide +kernel, by decide +kernel, by decide +kernel, by decide +kernel, by decide +kernel⟩

theorem wit_BarlisProgramCommandsAct_8 : ∃ (s : State) (tag : Nat) (i : Nat) (x : Nat) (k : Cmd) (n : Ns), s.ioReady tag 0xC0 k n ∧
    k.e.nsid = 1024 ∧ x = natBits k.e.d10.toNat 0 16 ∧ k.only 0xFFFF m32 m32 0x1F0F 0 0 = true ∧ s.ownBench k.ctrl x = true ∧
    10 ≤ natBits k.e.d13.toNat 0 4 ∧ 12 ≤ natBits k.e.d13.toNat 8 5 ∧ natBits k.e.d13.toNat 8 5 ≤ 30 ∧
    k.e.d11.toNat + k.e.d12.toNat * 2 ^ 32 < s.zoneCount * s.zsze ∧ (k.e.d11.toNat + k.e.d12.toNat * 2 ^ 32) % s.zsze = 0 ∧
    mapFind (s.benchOf x).streams (natBits k.e.d13.toNat 0 4) = none ∧ (s.benchOf x).state ≠ 4 ∧ s.freeStream (x / 64) = some i :=
  ⟨bound (zoned (cmd 1 (sqe 0xc0 1024 0x0 0x90 0x0 0xc0a))), 300, 0, 0, cmd 1 (sqe 0xc0 1024 0x0 0x90 0x0 0xc0a), ns1024, ioOk
    (by decide +kernel), by decide +kernel, by decide +kernel, by decide +kernel, by decide +kernel, by decide +kernel,
    by decide +kernel, by decide +kernel, by decide +kernel, by decide +kernel, by decide +kernel, by decide +kernel, by decide +kernel⟩

theorem wit_BarlisProgramCommandsAct_9 : ∃ (s : State) (i : Fin 256) (data : List Byte) (tag : Nat) (blocks : Nat) (k : Cmd), s.attachOf
    i = some (tag, blocks) ∧ mapFind s.cmds tag = some k ∧ k.ended = false ∧ s.strFld i 0x10 16 1 = 1 ∧ (s.streamOf i).closed = false ∧
    (s.zone ((k.e.d11.toNat + k.e.d12.toNat * 2 ^ 32) / max 1 s.zsze)).staged = false ∧ (s.streamOf i).rel = (s.streamOf i).fill ∧
    (s.streamOf i).fill.toNat + data.length = blocks * 4096 ∧ data.length ≤ 2 ^ s.strFld i 0x10 0 5 ∧ s.postable tag k :=
  ⟨attached, 63, List.replicate 4096 0, 300, 1, cmd 1 (sqe 0xc0 1024 0x0 0x90 0x0 0xc0a), by decide +kernel, by decide +kernel,
    by decide +kernel, by decide +kernel, by decide +kernel, by decide +kernel, by decide +kernel, by decide +kernel, by decide +kernel,
    posts (by decide +kernel)⟩

theorem wit_BarlisProgramCommandsAct_10 : ∃ (s : State) (tag : Nat) (k : Cmd), s.adminReady tag 0xC2 k ∧ k.e.nsid = 0 ∧
    k.only 0xFFFF 0 0 0 0 0 = true ∧ s.ownBench k.ctrl k.e.d10.toNat = true ∧ s.postable tag k :=
  ⟨bound (given (cmd 0 (sqe 0xc2 0 0x0))), 300, cmd 0 (sqe 0xc2 0 0x0), adminOk (by decide +kernel), by decide +kernel,
    by decide +kernel, by decide +kernel, posts (by decide +kernel)⟩

theorem wit_BarlisDataCommandsAct_0 : ∃ (s : State) (tag : Nat) (k : Cmd) (n : Ns) (d : List Byte), k.only m32 m32 m32 0x10F 0 0 = true ∧
    algOut (natBits k.e.d13.toNat 0 4) ≠ 0 ∧ s.rangeRefuses k.e.nsid n k.slba (k.e.d12.toNat + 1) = none ∧
    (s.engFree 0x15).isSome = true ∧ d = algDigest (natBits k.e.d13.toNat 0 4) (s.rangeData k.e.nsid n k.slba (k.e.d12.toNat + 1)
    (k.e.d13.getLsbD 8)) ∧ s.ioReady tag 0xC2 k n :=
  ⟨fixC, 300, fixCK, ns64, fixCD, by decide +kernel, by decide +kernel, by decide +kernel, by decide +kernel, rfl, ioOk
    (by decide +kernel)⟩

theorem wit_BarlisDataCommandsAct_1 : ∃ (s : State) (tag : Nat) (k : Cmd) (n : Ns) (d : List Byte), k.only m32 m32 m32 0x10F 0 0 = true ∧
    algOut (natBits k.e.d13.toNat 0 4) ≠ 0 ∧ s.rangeRefuses k.e.nsid n k.slba (k.e.d12.toNat + 1) = none ∧
    (s.engFree 0x15).isSome = true ∧ d = algDigest (natBits k.e.d13.toNat 0 4) (s.rangeData k.e.nsid n k.slba (k.e.d12.toNat + 1)
    (k.e.d13.getLsbD 8)) ∧ s.ioReady tag 0xC5 k n ∧ s.postable tag k :=
  ⟨fixV, 300, fixVK, ns64, fixVD, by decide +kernel, by decide +kernel, by decide +kernel, by decide +kernel, rfl, ioOk
    (by decide +kernel), posts (by decide +kernel)⟩

theorem wit_BarlisDataCommandsAct_2 : ∃ (s : State) (tag : Nat) (k : Cmd) (n : Ns) (r : Nat × Nat), k.only m32 m32 m32 0x10F 0 0 = true ∧
    algOut (natBits k.e.d13.toNat 0 4) ≠ 0 ∧ s.rangeRefuses k.e.nsid n k.slba (k.e.d12.toNat + 1) = some r ∧ s.ioReady tag 0xC5 k n ∧
    s.postable tag k :=
  ⟨fixR, 300, fixRK, ns64, (0, 0x80), by decide +kernel, by decide +kernel, by decide +kernel, ioOk (by decide +kernel), posts
    (by decide +kernel)⟩

theorem wit_BarlisDataCommandsAct_3 : ∃ (s : State) (u : State) (tag : Nat) (pg : Nat) (k : Cmd) (n : Ns) (x : JobResult) (out : List
    Byte), s.ioReady tag 0xC6 k n ∧ natBits k.e.d13.toNat 0 3 = 3 ∧ k.only m32 m32 m32 7 0xF1FF m32 = true ∧ 65 ≤ k.e.d15.toNat ∧
    k.e.d15.toNat ≤ 2097152 ∧ k.slba * lbaSize n.lbaf % 2 ^ natBits k.e.d14.toNat 12 4 = 0 ∧
    s.rangeRefuses k.e.nsid n k.slba (k.e.d12.toNat + 1) = none ∧ s.engFree 0x14 = some pg ∧
    (State.cmdCharge s.fresh tag []).engRun tag (cmdJob k.ctrl 0x14 1 (k.slba * lbaSize n.lbaf / 2 ^ natBits k.e.d14.toNat 12 4) (natBits
    k.e.d14.toNat 0 9 + natBits k.e.d14.toNat 12 4 * 2 ^ 12)) (s.rangeData k.e.nsid n k.slba (k.e.d12.toNat + 1) false) (k.e.d15.toNat -
    64) (fun s j => s.transformRun tag pg j) = (u, x, out) ∧ x.status < 0x200 :=
  ⟨trOk, trOkR.1, 300, pAee 0, trOkK, ns64, trOkR.2.1, trOkR.2.2, ioOk (by decide +kernel), by decide +kernel, by decide +kernel,
    by decide +kernel, by decide +kernel, by decide +kernel, by decide +kernel, by decide +kernel, eta3 (x := trOkR), by decide +kernel⟩

theorem wit_BarlisDataCommandsAct_4 : ∃ (s : State) (u : State) (tag : Nat) (pg : Nat) (k : Cmd) (n : Ns) (x : JobResult) (out : List
    Byte), s.ioReady tag 0xC6 k n ∧ natBits k.e.d13.toNat 0 3 = 3 ∧ k.only m32 m32 m32 7 0xF1FF m32 = true ∧ 65 ≤ k.e.d15.toNat ∧
    k.e.d15.toNat ≤ 2097152 ∧ k.slba * lbaSize n.lbaf % 2 ^ natBits k.e.d14.toNat 12 4 = 0 ∧
    s.rangeRefuses k.e.nsid n k.slba (k.e.d12.toNat + 1) = none ∧ s.engFree 0x14 = some pg ∧
    (State.cmdCharge s.fresh tag []).engRun tag (cmdJob k.ctrl 0x14 1 (k.slba * lbaSize n.lbaf / 2 ^ natBits k.e.d14.toNat 12 4) (natBits
    k.e.d14.toNat 0 9 + natBits k.e.d14.toNat 12 4 * 2 ^ 12)) (s.rangeData k.e.nsid n k.slba (k.e.d12.toNat + 1) false) (k.e.d15.toNat -
    64) (fun s j => s.transformRun tag pg j) = (u, x, out) ∧ x.status / 256 = 0x60 ∧ u.postable tag k ∧ mapFind u.cmds tag = some k :=
  ⟨trNo, trNoR.1, 300, pAee 0, trNoK, ns64, trNoR.2.1, trNoR.2.2, ioOk (by decide +kernel), by decide +kernel, by decide +kernel,
    by decide +kernel, by decide +kernel, by decide +kernel, by decide +kernel, by decide +kernel, by decide +kernel, by decide +kernel,
    posts (by decide +kernel), by decide +kernel⟩

theorem wit_BarlisDataCommandsAct_5 : ∃ (s : State) (tag : Nat) (k : Cmd), s.cmdOf tag 0xC7 false = some k ∧ k.e.nsid = 0 ∧
    k.only 0x30F m32 0x1F m32 0 0 = true ∧ natBits k.e.d10.toNat 8 2 = 3 ∧ k.e.d11 = 0 ∧ k.e.d13 = 0 ∧ (s.engFree 0x16).isSome = true ∧
    s.aseRefusal (cmdJob k.ctrl 0x16 4 (natBits k.e.d10.toNat 0 4) (natBits k.e.d12.toNat 0 5 * 2 ^ 32)) = none :=
  ⟨asked (cmd 1 (sqe 0xc7 0 0x30f 0x0 0x1f)) fun a => { a with ctxs := [(31, ⟨15, 0, 0, [], false⟩)] }, 300, cmd 1 (sqe 0xc7 0 0x30f 0x0
    0x1f), by decide +kernel⟩

theorem wit_BarlisDataCommandsAct_6 : ∃ (s : State) (u : State) (tag : Nat) (w : Nat) (c : Nat) (data : List Byte) (out : List Byte) (k :
    Cmd) (x : JobResult), s.cmdOf tag 0xC7 false = some k ∧ k.e.nsid = 0 ∧ k.only 0x30F m32 0x1F m32 0 0 = true ∧
    natBits k.e.d10.toNat 8 2 = 0 ∧ k.e.d12 = 0 ∧ w = s.aseWidth (natBits k.e.d10.toNat 0 4) ∧ c = k.e.d11.toNat ∧
    k.e.d13.toNat % 16 = 0 ∧ k.e.d13.toNat ≤ 2097152 ∧ 16 * w * c ≤ k.e.d13.toNat ∧ 16 * c ≤ k.e.d13.toNat ∧ 16 * w * c ≤ data.length ∧
    (s.engFree 0x16).isSome = true ∧ (State.cmdCharge s.fresh tag []).engRun tag (cmdJob k.ctrl 0x16 1 (natBits k.e.d10.toNat 0 4) 0)
    (data.take (16 * w * c)) (16 * c) (fun s j => match s.aseRefusal j with | some e => s.aseFail tag e | none => s.aseSearch tag j []) =
    (u, x, out) ∧ x.status < 0x200 ∧ out ≠ [] :=
  ⟨srch, srchR.1, 300, 1, 1, List.replicate 16 0, srchR.2.2, srchK, srchR.2.1, by decide +kernel⟩

theorem wit_BarlisDataCommandsAct_7 : ∃ (s : State) (tag : Nat) (k : Cmd), s.cmdOf tag 0xC9 false = some k ∧ k.e.nsid = 0 ∧
    k.only 0x73F0F 0x7FF007FF m32 0 0 0 = true ∧ natBits k.e.d10.toNat 16 3 = 4 ∧ k.e.d12 = 0 ∧ natBits k.e.d11.toNat 0 11 ≤ 1024 ∧
    natBits k.e.d11.toNat 20 11 = 0 ∧ (s.engFree 0x16).isSome = true ∧ s.aseRefusal (cmdJob k.ctrl 0x16 0x15 (natBits k.e.d10.toNat 0 4)
    (natBits k.e.d10.toNat 8 6)) = none :=
  ⟨asked (cmd 1 (sqe 0xc9 0 0x43f0f 0x0 0x0)), 300, cmd 1 (sqe 0xc9 0 0x43f0f 0x0 0x0), by decide +kernel⟩

theorem wit_BarlisDataCommandsAct_8 : ∃ (s : State) (tag : Nat) (k : Cmd) (n : Ns), s.ioReady tag 0xC8 k n ∧ k.e.nsid = 1024 ∧
    k.only m32 m32 0 0 0 0 = true ∧ k.slba < s.zoneCount * s.zsze ∧ k.slba % s.zsze = 0 ∧ (s.zone (k.slba / s.zsze)).staged = true ∧
    s.postable tag k :=
  ⟨zoned (cmd 1 (sqe 0xc8 1024 0x90)) [(9, ⟨.full, 8, true, true, false, false, 0⟩)], 300, cmd 1 (sqe 0xc8 1024 0x90), ns1024, ioOk
    (by decide +kernel), by decide +kernel, by decide +kernel, by decide +kernel, by decide +kernel, by decide +kernel, posts
    (by decide +kernel)⟩

theorem wit_BarlisDataCommandsAct_9 : ∃ (s : State) (tag : Nat) (room : Bool) (k : Cmd) (n : Ns), s.ioReady tag 0xC8 k n ∧
    k.e.nsid = 1024 ∧ k.only m32 m32 0 0 0 0 = true ∧ k.slba < s.zoneCount * s.zsze ∧ k.slba % s.zsze = 0 ∧
    (s.zone (k.slba / s.zsze)).staged = false ∧ (s.zone (k.slba / s.zsze)).wp ≠ 0 ∧ room = false ∧ s.postable tag k :=
  ⟨zoned (cmd 1 (sqe 0xc8 1024 0x90)) [(9, ⟨.full, 8, false, true, false, false, 0⟩)], 300, false, cmd 1 (sqe 0xc8 1024 0x90), ns1024,
    ioOk (by decide +kernel), by decide +kernel, by decide +kernel, by decide +kernel, by decide +kernel, by decide +kernel,
    by decide +kernel, by decide +kernel, posts (by decide +kernel)⟩

theorem wit_BarlisDataCommandsAct_10 : ∃ (s : State) (tag : Nat) (room : Bool) (done : Option (List Nat)) (k : Cmd) (n : Ns), s.ioReady
    tag 0xC8 k n ∧ k.e.nsid = 1024 ∧ k.only m32 m32 0 0 0 0 = true ∧ k.slba < s.zoneCount * s.zsze ∧ k.slba % s.zsze = 0 ∧
    (s.zone (k.slba / s.zsze)).staged = false ∧ (s.zone (k.slba / s.zsze)).wp ≠ 0 ∧ room = true ∧ done = none :=
  ⟨zoned (cmd 1 (sqe 0xc8 1024 0x90)) [(9, ⟨.full, 8, false, true, false, false, 0⟩)], 300, true, none, cmd 1 (sqe 0xc8 1024 0x90),
    ns1024, ioOk (by decide +kernel), by decide +kernel, by decide +kernel, by decide +kernel, by decide +kernel, by decide +kernel,
    by decide +kernel, by decide +kernel, by decide +kernel⟩

theorem wit_BarlisDataCommandsAct_11 : ∃ (s : State) (tag : Nat) (room : Bool) (done : Option (List Nat)) (k : Cmd) (n : Ns), s.ioReady
    tag 0xC8 k n ∧ k.e.nsid = 1024 ∧ k.only m32 m32 0 0 0 0 = true ∧ k.slba < s.zoneCount * s.zsze ∧ k.slba % s.zsze = 0 ∧
    (s.zone (k.slba / s.zsze)).staged = false ∧ (s.zone (k.slba / s.zsze)).wp ≠ 0 ∧ room = true ∧ done = some [] :=
  ⟨zoned (cmd 1 (sqe 0xc8 1024 0x90)) [(9, ⟨.full, 8, false, true, false, false, 0⟩)], 300, true, some [], cmd 1 (sqe 0xc8 1024 0x90),
    ns1024, ioOk (by decide +kernel), by decide +kernel, by decide +kernel, by decide +kernel, by decide +kernel, by decide +kernel,
    by decide +kernel, by decide +kernel, by decide +kernel⟩

theorem wit_BarlisDataCommandsAct_12 : ∃ (s : State) (tag : Nat) (k : Cmd) (n : Ns), s.ioReady tag 0xC4 k n ∧ k.e.nsid = 1024 ∧
    k.only m32 m32 1 0 0 0 = true ∧ k.slba < s.zoneCount * s.zsze ∧ k.slba % s.zsze = 0 ∧ (s.zone (k.slba / s.zsze)).destaged = true :=
  ⟨zoned (cmd 1 (sqe 0xc4 1024 0x90)) [(9, ⟨.full, 8, false, true, false, false, 0⟩)], 300, cmd 1 (sqe 0xc4 1024 0x90), ns1024, ioOk
    (by decide +kernel), by decide +kernel, by decide +kernel, by decide +kernel, by decide +kernel, by decide +kernel⟩

theorem wit_BarlisDataCommandsAct_13 : ∃ (s : State) (tag : Nat) (k : Cmd) (n : Ns), s.ioReady tag 0xC4 k n ∧ k.e.nsid = 1024 ∧
    k.only m32 m32 1 0 0 0 = true ∧ k.slba < s.zoneCount * s.zsze ∧ k.slba % s.zsze = 0 ∧ (s.zone (k.slba / s.zsze)).destaged = false ∧
    (s.zone (k.slba / s.zsze)).state = .readOnly ∧ s.postable tag k :=
  ⟨zoned (cmd 1 (sqe 0xc4 1024 0x90)) [(9, ⟨.readOnly, 8, true, false, false, false, 0⟩)], 300, cmd 1 (sqe 0xc4 1024 0x90), ns1024, ioOk
    (by decide +kernel), by decide +kernel, by decide +kernel, by decide +kernel, by decide +kernel, by decide +kernel,
    by decide +kernel, posts (by decide +kernel)⟩

theorem wit_BarlisDataCommandsAct_14 : ∃ (s : State) (tag : Nat) (k : Cmd) (n : Ns), s.ioReady tag 0xC4 k n ∧ k.e.nsid = 1024 ∧
    k.only m32 m32 1 0 0 0 = true ∧ k.slba < s.zoneCount * s.zsze ∧ k.slba % s.zsze = 0 ∧ (s.zone (k.slba / s.zsze)).destaged = false ∧
    (s.zone (k.slba / s.zsze)).state = .full ∧ s.zones.any (·.2.destaging) = true :=
  ⟨zoned (cmd 1 (sqe 0xc4 1024 0x90)) [(8, ⟨.full, 8, true, false, true, false, 0⟩), (9, ⟨.full, 8, true, false, false, false, 0⟩)], 300,
    cmd 1 (sqe 0xc4 1024 0x90), ns1024, ioOk (by decide +kernel), by decide +kernel, by decide +kernel, by decide +kernel,
    by decide +kernel, by decide +kernel, by decide +kernel, by decide +kernel⟩

theorem wit_BarlisDataCommandsAct_15 : ∃ (s : State) (tag : Nat) (k : Cmd) (n : Ns), s.ioReady tag 0xCC k n ∧ k.e.nsid = 1024 ∧
    k.only m32 m32 1 0 0 0 = true ∧ k.slba < s.zoneCount * s.zsze ∧ k.slba % s.zsze = 0 ∧ k.e.d12 = 1 ∧ s.sealOk k.ctrl = true ∧
    (s.zone (k.slba / s.zsze)).state = .full ∧ (s.zone (k.slba / s.zsze)).sealed = false ∧ (s.zone (k.slba / s.zsze)).destaged = true ∧
    s.kpr.jfault = false ∧ s.kpr.queue.any (fun i => i.change == .seal tag (k.slba / s.zsze)) = false :=
  ⟨zoned (cmd 1 (sqe 0xcc 1024 0x90 0x0 0x1)) [(9, ⟨.full, 8, false, true, false, false, 0⟩)], 300, cmd 1 (sqe 0xcc 1024 0x90 0x0 0x1),
    ns1024, ioOk (by decide +kernel), by decide +kernel, by decide +kernel, by decide +kernel, by decide +kernel, by decide +kernel,
    by decide +kernel, by decide +kernel, by decide +kernel, by decide +kernel, by decide +kernel, by decide +kernel⟩

theorem wit_BarlisDataCommandsAct_18 : ∃ (s : State) (tag : Nat) (k : Cmd) (n : Ns), s.ioReady tag 0xCC k n ∧ k.e.nsid = 1024 ∧
    k.only m32 m32 1 0 0 0 = true ∧ k.slba < s.zoneCount * s.zsze ∧ k.slba % s.zsze = 0 ∧ k.e.d12 = 1 ∧ s.sealOk k.ctrl = true ∧
    (s.zone (k.slba / s.zsze)).state ≠ .full ∧ s.postable tag k :=
  ⟨zoned (cmd 1 (sqe 0xcc 1024 0x90 0x0 0x1)), 300, cmd 1 (sqe 0xcc 1024 0x90 0x0 0x1), ns1024, ioOk (by decide +kernel),
    by decide +kernel, by decide +kernel, by decide +kernel, by decide +kernel, by decide +kernel, by decide +kernel, by decide +kernel,
    posts (by decide +kernel)⟩

theorem wit_BarlisDataCommandsAct_17 : ∃ (s : State) (tag : Nat) (k : Cmd) (n : Ns), s.ioReady tag 0xCC k n ∧ k.e.nsid = 1024 ∧
    k.only m32 m32 1 0 0 0 = true ∧ k.slba < s.zoneCount * s.zsze ∧ k.slba % s.zsze = 0 ∧ k.e.d12 = 0 ∧ s.postable tag k :=
  ⟨zoned (cmd 1 (sqe 0xcc 1024 0x90 0x0 0x0)), 300, cmd 1 (sqe 0xcc 1024 0x90 0x0 0x0), ns1024, ioOk (by decide +kernel),
    by decide +kernel, by decide +kernel, by decide +kernel, by decide +kernel, by decide +kernel, posts (by decide +kernel)⟩

theorem wit_BarlisDataCommandsAct_16 : ∃ (s : State) (tag : Nat) (k : Cmd) (n : Ns), s.ioReady tag 0xCC k n ∧ k.e.nsid = 1024 ∧
    k.only m32 m32 1 0 0 0 = true ∧ k.slba < s.zoneCount * s.zsze ∧ k.slba % s.zsze = 0 ∧ k.e.d12 = 1 ∧ s.sealOk k.ctrl = false ∧
    s.postable tag k :=
  ⟨sealVf, 300, vfK, { ns1024 with attached := [2] }, ioOk (by decide +kernel), by decide +kernel, by decide +kernel, by decide +kernel,
    by decide +kernel, by decide +kernel, by decide +kernel, posts (by decide +kernel)⟩

theorem wit_BarlisDataCommandsAct_19 : ∃ (s : State) (tag : Nat) (total : Nat) (power : Nat) (cap : Nat) (ents : List Byte) (k : Cmd),
    s.adminReady tag 0xC6 k ∧ k.e.nsid = 0 ∧ s.energyScope k = some (total, power, cap, ents) ∧
    k.only 3 (if natBits k.e.d10.toNat 0 2 = 1 then 0xFFFF else 0) m32 0 0 0 = true ∧ 64 + ents.length ≤ k.e.d12.toNat :=
  ⟨given (cmd 0 (sqe 0xc6 0 0x0 0x0 0x40)), 300, 0, 0, 0, [], cmd 0 (sqe 0xc6 0 0x0 0x0 0x40), adminOk (by decide +kernel),
    by decide +kernel, by decide +kernel, by decide +kernel, by decide +kernel⟩

/-- Slots 2 to 4 are secondaries of physical function 0; slot `k` is as `f` says. -/
def virt (k : Nat) (f : Func → Func := id) (s : State := hosted) : State :=
  let t := { s with numVfs := [(0, 3)] }
  t.setFunc k (f (t.func k))
def blobHead (n : Nat) : List Byte :=
  leBytes 4 0x42494147 ++ [0, 1, 4, 0] ++ leBytes 4 (144 + n) ++ leBytes 2 8 ++ List.replicate 114 0
def migSlot : KeySlot := ⟨1, 0x1F, 0, List.replicate 32 0, 0, 0⟩
/-- Eight sections, all empty but for the vectors. -/
def sectioned (vec : List Byte) : List Byte :=
  [1, 2, 3, 4, 5, 6, 8, 9].flatMap fun t =>
    leBytes 2 t ++ leBytes 2 1 ++ leBytes 4 (if t = 3 then vec.length else 0) ++ List.replicate 8 0 ++ if t = 3 then vec else []
def migrating (f : Func → Func) (len : Nat := 0x0400_0000) : State :=
  let s := (virt 2 f).tPut 2 0x70 (len * 2 ^ 32)
  { s with kpr := { s.kpr with migKey := some migSlot } }
def okBlob (r : Except Nat Blob) : Blob :=
  match r with
  | .ok x => x
  | .error _ => ⟨[], [], [], [], [], [], none, [], ⟨0, 0, 0, 0⟩, 0⟩
theorem ok_then {r : Except Nat Blob} (p : Blob → Bool) (h : (match r with | .ok x => p x | .error _ => false) = true) :
    r = .ok (okBlob r) ∧ p (okBlob r) = true := by
  cases r <;> simp_all [okBlob]
def refilling : State := migrating fun f => { f with mig := .restoring }
theorem xor_twice (a k : List Byte) (h : a.length ≤ k.length) : xorBytes (xorBytes a k) k = a := by
  induction a generalizing k with
  | nil => simp [xorBytes]
  | cons x r ih =>
    cases k with
    | nil => simp at h
    | cons y q =>
      have := ih q (by simpa using h)
      simp_all [xorBytes]

theorem field_append (h r : List Byte) (o n : Nat) (ho : o + n ≤ h.length) : fieldAt (h ++ r) o n = fieldAt h o n := by
  unfold fieldAt
  rw [List.drop_append_of_le_length (by omega), List.take_append_of_le_length (by rw [List.length_drop]; omega)]

/-- The blob of a header and a body, enciphered and tagged. -/
def sealBlob (m : KeySlot) (h body : List Byte) : List Byte :=
  let iv := (h.drop 0x30).take 12
  h ++ (gcmCrypt m.key iv body ++ gcmTag m.key iv h (gcmCrypt m.key iv body))

/-- What reading it finds, without the ciphers. -/
def readPlain (s : State) (k : Nat) (h body : List Byte) : Except Nat Blob :=
  let len := 144 + body.length
  if fieldAt h 0 4 ≠ 0x42494147 ∨ s.blobLen k < len ∨ 0x0400_0000 < len then .error 6
  else if 1 < fieldAt h 5 1 ∨ (fieldAt h 5 1 = 1 ∧ 1 < fieldAt h 4 1) ∨ 4 < fieldAt h 6 1 then .error 7
  else if fieldAt h 7 1 ≠ 0 ∨ fieldAt h 0xE 2 ≠ 0 ∨ fieldAt h 0x19 7 ≠ 0 ∨ !(h.drop 0x3C).all (· == 0) ∨ len % 8 ≠ 0 then .error 6
  else match parseSections 16 body with
    | some l => match blobOf (fieldAt h 0x10 8) (fieldAt h 4 1) l with
      | some x => if fieldAt h 0xC 2 = l.length then .ok x else .error 6
      | none => .error 6
    | none => .error 6

theorem read_seal {s : State} {k : Nat} {m : KeySlot} {h body : List Byte} (hm : s.kpr.migKey = some m) (hh : h.length = 128)
    (hl : fieldAt h 8 4 = 144 + body.length)
    (hs : (ctrStream 32 m.key (beNat ((h.drop 0x30).take 12 ++ beBytes 4 2)) body.length).length = body.length)
    (ha : (aesEnc m.key ((h.drop 0x30).take 12 ++ beBytes 4 1)).length = 16) : s.readBlob k (sealBlob m h body) = readPlain s k h body := by
  have hb (n v : Nat) : (leBytes n v).length = n := by induction n generalizing v <;> simp_all [leBytes]
  have ht (c : List Byte) : (gcmTag m.key ((h.drop 0x30).take 12) h c).length = 16 := by
    rw [gcmTag, xorBytes, List.length_zipWith, ha, beBytes, List.length_reverse, hb]
    rfl
  have hc : (gcmCrypt m.key ((h.drop 0x30).take 12) body).length = body.length := by
    rw [gcmCrypt, xorBytes, List.length_zipWith, hs, Nat.min_self]
  have h2 : gcmCrypt m.key ((h.drop 0x30).take 12) (gcmCrypt m.key ((h.drop 0x30).take 12) body) = body := by
    rw [gcmCrypt, hc]
    exact xor_twice _ _ (by rw [hs])
  have f (o n : Nat) (ho : o + n ≤ 128) : fieldAt (sealBlob m h body) o n = fieldAt h o n := field_append _ _ _ _ (by omega)
  have hn : (sealBlob m h body).length = 144 + body.length := by
    simp only [sealBlob, List.length_append, hh, hc, ht]
    omega
  have e1 : (sealBlob m h body).take 128 = h := by rw [sealBlob, List.take_append_of_le_length (by omega), List.take_of_length_le (by omega)]
  have e2 : ((sealBlob m h body).drop 128).take (144 + body.length - 144) = gcmCrypt m.key ((h.drop 0x30).take 12) body := by
    rw [sealBlob, ← hh, List.drop_left, Nat.add_sub_cancel_left, ← hc, List.take_left]
  have e3 : ((sealBlob m h body).drop (144 + body.length - 16)).take 16
      = gcmTag m.key ((h.drop 0x30).take 12) h (gcmCrypt m.key ((h.drop 0x30).take 12) body) := by
    rw [sealBlob, ← List.append_assoc, show 144 + body.length - 16 = (h ++ gcmCrypt m.key ((h.drop 0x30).take 12) body).length by
      rw [List.length_append, hh, hc]; omega, List.drop_left, List.take_of_length_le (by rw [ht])]
  unfold State.readBlob
  simp only [f 8 4 (by decide), f 4 1 (by decide), f 5 1 (by decide), f 0 4 (by decide), f 6 1 (by decide), hl, hn, hm, e1, e2, e3, h2]
  unfold readPlain
  have n1 : ¬ (144 + body.length < 144) := by omega
  simp only [n1, false_or, or_false, Nat.lt_irrefl, ne_eq, not_true_eq_false, if_false]
  all_goals rfl
def saver : State := migrating fun f => { f with mig := .saving }
def saverFull : State := migrating (fun f => { f with mig := .saving }) 64

theorem wit_FunctionCommandsAct_0 : ∃ (s : State) (f : Fin 256), s.slotEnabled f = true :=
  ⟨virt 2, 2, by decide +kernel⟩

theorem wit_FunctionCommandsAct_1 : ∃ (s : State) (p : Fin 2) (n : Nat), s.isPf p = true ∧ n ≠ 0 ∧ mapFind s.numVfs p = none ∧
    n ≤ (if s.x8 then 255 else if p = 0 then s.n0 else 254 - s.n0) :=
  ⟨hosted, 0, 127, by decide +kernel⟩

theorem wit_FunctionCommandsAct_2 : ∃ (s : State) (p : Fin 2), s.isPf p = true :=
  ⟨virt 2, 0, by decide +kernel⟩

theorem wit_FunctionCommandsAct_3 : ∃ (s : State) (f : Fin 256) (v : Fin 2048), s.slotEnabled f = true ∧ v.val < s.msixSize f :=
  ⟨virt 2 fun f => { f with vi := 2, online := true, msixPend := [1] }, 2, 1, by decide +kernel⟩

theorem wit_FunctionCommandsAct_4 : ∃ (s : State) (tag : Nat) (n : Nat) (k : Cmd), s.adminReady tag 0x1C k ∧
    natBits k.e.d10.toNat 0 4 = 1 ∧ k.cntlid = k.ctrl ∧ n = k.resNum ∧ s.postable tag k ∧ k.resType = 0 ∧
    n + s.drawn k.ctrl 0 256 ≤ s.pool k.ctrl :=
  ⟨given (cmd 0 (sqe 0x1C 0 0x1 0x64)) (hosted), 300, 100, cmd 0 (sqe 0x1C 0 0x1 0x64), adminOk (by decide +kernel), by decide +kernel,
    by decide +kernel, by decide +kernel, posts (by decide +kernel), by decide +kernel, by decide +kernel⟩

theorem wit_FunctionCommandsAct_5 : ∃ (s : State) (tag : Nat) (n : Nat) (k : Cmd), s.adminReady tag 0x1C k ∧
    natBits k.e.d10.toNat 0 4 = 1 ∧ k.cntlid = k.ctrl ∧ n = k.resNum ∧ s.postable tag k ∧ k.resType = 1 ∧
    n + s.drawn k.ctrl 1 256 ≤ s.pool k.ctrl ∧ 64 + n ≤ 2048 :=
  ⟨given (cmd 0 (sqe 0x1C 0 0x101 0x64)) (hosted), 300, 100, cmd 0 (sqe 0x1C 0 0x101 0x64), adminOk (by decide +kernel),
    by decide +kernel, by decide +kernel, by decide +kernel, posts (by decide +kernel), by decide +kernel, by decide +kernel,
    by decide +kernel⟩

theorem wit_FunctionCommandsAct_6 : ∃ (s : State) (tag : Nat) (n : Nat) (k : Cmd), s.adminReady tag 0x1C k ∧
    natBits k.e.d10.toNat 0 4 = 1 ∧ k.cntlid = k.ctrl ∧ n = k.resNum ∧ s.postable tag k ∧ k.resType = 1 ∧ 2048 < 64 + n :=
  ⟨given (cmd 0 (sqe 0x1C 0 0x101 0x7c1)) (hosted), 300, 1985, cmd 0 (sqe 0x1C 0 0x101 0x7c1), adminOk (by decide +kernel),
    by decide +kernel, by decide +kernel, by decide +kernel, posts (by decide +kernel), by decide +kernel, by decide +kernel⟩

theorem wit_FunctionCommandsAct_7 : ∃ (s : State) (tag : Nat) (n : Nat) (k : Cmd), s.adminReady tag 0x1C k ∧
    natBits k.e.d10.toNat 0 4 = 8 ∧ s.isSecondary k.ctrl k.cntlid = true ∧ k.cntlid ≠ k.ctrl ∧ n = k.resNum ∧ s.postable tag k ∧
    (s.func k.cntlid).online = true ∧ k.resType < 2 :=
  ⟨given (cmd 0 (sqe 0x1C 0 0x20008 0x5)) (virt 2 fun f => { f with online := true }), 300, 5, cmd 0 (sqe 0x1C 0 0x20008 0x5), adminOk
    (by decide +kernel), by decide +kernel, by decide +kernel, by decide +kernel, by decide +kernel, posts (by decide +kernel),
    by decide +kernel, by decide +kernel⟩

theorem wit_FunctionCommandsAct_8 : ∃ (s : State) (tag : Nat) (n : Nat) (k : Cmd), s.adminReady tag 0x1C k ∧
    natBits k.e.d10.toNat 0 4 = 8 ∧ s.isSecondary k.ctrl k.cntlid = true ∧ k.cntlid ≠ k.ctrl ∧ n = k.resNum ∧ s.postable tag k ∧
    (s.func k.cntlid).online = false ∧ k.resType = 0 ∧ n ≤ 2049 ∧ n - 1 + s.drawn k.ctrl 0 k.cntlid + s.flexOf k.ctrl 0 ≤ s.pool k.ctrl :=
  ⟨given (cmd 0 (sqe 0x1C 0 0x20008 0x9)) (virt 2), 300, 9, cmd 0 (sqe 0x1C 0 0x20008 0x9), adminOk (by decide +kernel),
    by decide +kernel, by decide +kernel, by decide +kernel, by decide +kernel, posts (by decide +kernel), by decide +kernel,
    by decide +kernel, by decide +kernel, by decide +kernel⟩

theorem wit_FunctionCommandsAct_9 : ∃ (s : State) (tag : Nat) (n : Nat) (k : Cmd), s.adminReady tag 0x1C k ∧
    natBits k.e.d10.toNat 0 4 = 8 ∧ s.isSecondary k.ctrl k.cntlid = true ∧ k.cntlid ≠ k.ctrl ∧ n = k.resNum ∧ s.postable tag k ∧
    (s.func k.cntlid).online = false ∧ k.resType = 1 ∧ n ≤ 2048 ∧ n + s.drawn k.ctrl 1 k.cntlid + s.flexOf k.ctrl 1 ≤ s.pool k.ctrl :=
  ⟨given (cmd 0 (sqe 0x1C 0 0x20108 0x9)) (virt 2), 300, 9, cmd 0 (sqe 0x1C 0 0x20108 0x9), adminOk (by decide +kernel),
    by decide +kernel, by decide +kernel, by decide +kernel, by decide +kernel, posts (by decide +kernel), by decide +kernel,
    by decide +kernel, by decide +kernel, by decide +kernel⟩

theorem wit_FunctionCommandsAct_10 : ∃ (s : State) (tag : Nat) (n : Nat) (k : Cmd), s.adminReady tag 0x1C k ∧
    natBits k.e.d10.toNat 0 4 = 8 ∧ s.isSecondary k.ctrl k.cntlid = true ∧ k.cntlid ≠ k.ctrl ∧ n = k.resNum ∧ s.postable tag k ∧
    (s.func k.cntlid).online = false ∧ ((k.resType = 0 ∧ 2049 < n ∨ k.resType = 1 ∧ 2048 < n)) :=
  ⟨given (cmd 0 (sqe 0x1C 0 0x20108 0x801)) (virt 2), 300, 2049, cmd 0 (sqe 0x1C 0 0x20108 0x801), adminOk (by decide +kernel),
    by decide +kernel, by decide +kernel, by decide +kernel, by decide +kernel, posts (by decide +kernel), by decide +kernel,
    by decide +kernel⟩

theorem wit_FunctionCommandsAct_11 : ∃ (s : State) (tag : Nat) (k : Cmd), s.adminReady tag 0x1C k ∧ natBits k.e.d10.toNat 0 4 = 9 ∧
    s.isSecondary k.ctrl k.cntlid = true ∧ k.cntlid ≠ k.ctrl ∧ (s.func k.cntlid).online = false ∧ s.postable tag k ∧
    2 ≤ (s.func k.cntlid).vq ∧ 1 ≤ (s.func k.cntlid).vi :=
  ⟨given (cmd 0 (sqe 0x1C 0 0x20009)) (virt 2 fun f => { f with vq := 2, vi := 1 }), 300, cmd 0 (sqe 0x1C 0 0x20009), adminOk
    (by decide +kernel), by decide +kernel, by decide +kernel, by decide +kernel, by decide +kernel, posts (by decide +kernel),
    by decide +kernel, by decide +kernel⟩

theorem wit_FunctionCommandsAct_12 : ∃ (s : State) (tag : Nat) (k : Cmd), s.adminReady tag 0x1C k ∧ natBits k.e.d10.toNat 0 4 = 9 ∧
    s.isSecondary k.ctrl k.cntlid = true ∧ k.cntlid ≠ k.ctrl ∧ (s.func k.cntlid).online = false ∧ s.postable tag k ∧
    ((s.func k.cntlid).vq < 2 ∨ (s.func k.cntlid).vi < 1) :=
  ⟨given (cmd 0 (sqe 0x1C 0 0x20009)) (virt 2 fun f => { f with vq := 2 }), 300, cmd 0 (sqe 0x1C 0 0x20009), adminOk (by decide +kernel),
    by decide +kernel, by decide +kernel, by decide +kernel, by decide +kernel, posts (by decide +kernel), by decide +kernel⟩

theorem wit_FunctionCommandsAct_13 : ∃ (s : State) (tag : Nat) (k : Cmd), s.adminReady tag 0x1C k ∧ natBits k.e.d10.toNat 0 4 = 7 ∧
    s.isSecondary k.ctrl k.cntlid = true ∧ k.cntlid ≠ k.ctrl ∧ (s.func k.cntlid).mig = .running ∧ (s.func k.cntlid).online = true :=
  ⟨given (cmd 0 (sqe 0x1C 0 0x20007)) (virt 2 fun f => { f with online := true }), 300, cmd 0 (sqe 0x1C 0 0x20007), adminOk
    (by decide +kernel), by decide +kernel, by decide +kernel, by decide +kernel, by decide +kernel, by decide +kernel⟩

theorem wit_FunctionCommandsAct_14 : ∃ (s : State) (tag : Nat) (k : Cmd), s.adminReady tag 0x1C k ∧ natBits k.e.d10.toNat 0 4 = 7 ∧
    s.isSecondary k.ctrl k.cntlid = true ∧ k.cntlid ≠ k.ctrl ∧ (s.func k.cntlid).mig ∈ [.draining, .saving, .restoring] ∧
    s.postable tag k :=
  ⟨given (cmd 0 (sqe 0x1C 0 0x20007)) (virt 2 fun f => { f with online := true, mig := .draining }), 300, cmd 0 (sqe 0x1C 0 0x20007),
    adminOk (by decide +kernel), by decide +kernel, by decide +kernel, by decide +kernel, by decide +kernel, posts (by decide +kernel)⟩

theorem wit_FunctionCommandsAct_15 : ∃ (s : State) (k : Fin 256), s.upsets = [] ∧ s.agreed k ≠ 0 :=
  ⟨hosted.tPut 2 0x60 0x101, 2, by decide +kernel⟩

theorem wit_FunctionCommandsAct_16 : ∃ (s : State) (k : Fin 256), s.upsets = [] ∧ s.agreed k = 0x0100 :=
  ⟨hosted.tPut 2 0x60 0x100, 2, by decide +kernel⟩

theorem wit_FunctionCommandsAct_17 : ∃ (s : State) (k : Fin 256), s.upsets = [] ∧ s.agreed k = 0 :=
  ⟨hosted, 2, by decide +kernel⟩

theorem wit_FunctionCommandsAct_18 : ∃ (s : State) (k : Fin 256) (lo : Nat) (hi : Nat), s.upsets = [] ∧ s.agreed k = 0 ∧
    natBits (s.tGet k 0x40) 32 1 = 1 ∧ lo = max (max (s.tGet k 0 % 2 ^ 16) (s.tGet k 0x40 % 2 ^ 16)) 0x0100 ∧
    hi = min (min (natBits (s.tGet k 0) 16 16) (natBits (s.tGet k 0x40) 16 16)) 0x0101 ∧ lo ≤ hi :=
  ⟨(hosted.tPut 2 0 0x0101_0100).tPut 2 0x40 0x1_0101_0100, 2, 0x100, 0x101, by decide +kernel⟩

theorem wit_FunctionCommandsAct_19 : ∃ (s : State) (k : Fin 256) (lo : Nat) (hi : Nat), s.upsets = [] ∧ s.agreed k = 0 ∧
    natBits (s.tGet k 0x40) 32 1 = 1 ∧ lo = max (max (s.tGet k 0 % 2 ^ 16) (s.tGet k 0x40 % 2 ^ 16)) 0x0100 ∧
    hi = min (min (natBits (s.tGet k 0) 16 16) (natBits (s.tGet k 0x40) 16 16)) 0x0101 ∧ hi < lo :=
  ⟨(hosted.tPut 2 0 0x0103_0102).tPut 2 0x40 0x1_0101_0100, 2, 0x102, 0x101, by decide +kernel⟩

theorem wit_FunctionCommandsAct_20 : ∃ (s : State), s.upsets = [] :=
  ⟨hosted, by decide +kernel⟩

theorem wit_FunctionCommandsAct_21 : ∃ (s : State) (k : Nat) (f : Func), (s.funcs.map Prod.fst).Nodup ∧ mapFind s.funcs k = some f ∧
    njSum f.nj ≠ 0 :=
  ⟨hosted.setFunc 2 ({ (hosted.func 2) with nj := [(1, 5000000)] }), 2, { (hosted.func 2) with nj := [(1, 5000000)] }, by decide +kernel⟩

theorem wit_MigrationCommandsAct_0 : ∃ (s : State) (k : Fin 256) (c : Controls) (bad : Bool), s.upsets = [] ∧ (s.func k).result ≠ 1 ∧
    s.wantControls k ((s.func k).later.getD (s.func k).ctl) = (c, bad) :=
  ⟨((hosted).tPut 2 0x60 0x0004_0003_0000_0000).tPut 2 0x68 0x2_0000_00C8, 2, ⟨3, 200, 4, 2⟩, false, by decide +kernel⟩

theorem wit_MigrationCommandsAct_1 : ∃ (s : State) (k : Fin 256) (i : Instr), i ∈ [Instr.applyControls k [], .freeze k [] 0, .thaw k [],
    .save k [], .restore k [], .release k []] ∧ (s.func k).result = 1 :=
  ⟨virt 2 fun f => { f with mig := .frozen, result := 1 }, 2, .thaw 2 [], by decide +kernel⟩

theorem wit_MigrationCommandsAct_2 : ∃ (s : State) (k : Fin 256), s.upsets = [] ∧ (s.func k).result ≠ 1 ∧
    (s.func k).mig ∈ [.running, .draining] :=
  ⟨virt 2 fun f => { f with mig := .running }, 2, by decide +kernel⟩

theorem wit_MigrationCommandsAct_3 : ∃ (s : State) (k : Fin 256), s.upsets = [] ∧ (s.func k).result ≠ 1 ∧
    (s.func k).mig ∈ [.frozen, .saving, .saved, .restoring] :=
  ⟨virt 2 fun f => { f with mig := .saved }, 2, by decide +kernel⟩

theorem wit_MigrationCommandsAct_4 : ∃ (s : State) (k : Fin 256), s.upsets = [] ∧ (s.func k).result ≠ 1 ∧
    (s.func k).mig ∈ [.draining, .frozen, .saved] :=
  ⟨virt 2 fun f => { f with mig := .frozen }, 2, by decide +kernel⟩

theorem wit_MigrationCommandsAct_5 : ∃ (s : State) (k : Fin 256), s.upsets = [] ∧ (s.func k).result ≠ 1 ∧
    (s.func k).mig ∈ [.running, .saving, .restoring] :=
  ⟨virt 2 fun f => { f with mig := .saving }, 2, by decide +kernel⟩

theorem wit_MigrationCommandsAct_6 : ∃ (s : State) (k : Fin 256), s.upsets = [] ∧ (s.func k).result ≠ 1 ∧ (s.func k).mig = .frozen :=
  ⟨virt 2 fun f => { f with mig := .frozen }, 2, by decide +kernel⟩

theorem wit_MigrationCommandsAct_7 : ∃ (s : State) (k : Fin 256), s.upsets = [] ∧ (s.func k).result ≠ 1 ∧ (s.func k).mig ≠ .frozen :=
  ⟨virt 2 fun f => { f with mig := .running }, 2, by decide +kernel⟩

theorem wit_MigrationCommandsAct_8 : ∃ (s : State) (k : Fin 256), s.upsets = [] ∧ (s.func k).result ≠ 1 ∧ (s.func k).mig = .running ∧
    s.isPf k = false ∧ s.slotEnabled k = true ∧ (s.func k).online = false :=
  ⟨virt 2 fun f => { f with mig := .running }, 2, by decide +kernel⟩

theorem wit_MigrationCommandsAct_9 : ∃ (s : State) (k : Fin 256), s.upsets = [] ∧ (s.func k).result ≠ 1 ∧ (s.func k).mig = .running ∧
    (s.isPf k = true ∨ (s.func k).online = true) :=
  ⟨virt 2 fun f => { f with mig := .running }, 0, by decide +kernel⟩

theorem wit_MigrationCommandsAct_10 : ∃ (s : State) (k : Fin 256), s.upsets = [] ∧ (s.func k).result ≠ 1 ∧ (s.func k).mig = .saved :=
  ⟨virt 2 fun f => { f with mig := .saved }, 2, by decide +kernel⟩

theorem wit_MigrationCommandsAct_11 : ∃ (s : State) (k : Fin 256), s.upsets = [] ∧ (s.func k).result ≠ 1 ∧ (s.func k).mig ≠ .saved :=
  ⟨virt 2 fun f => { f with mig := .frozen }, 2, by decide +kernel⟩

theorem wit_MigrationCommandsAct_12 : ∃ (s : State) (k : Fin 256), (s.func k).mig = .draining ∧ (s.func k).frzAt.isSome = true ∧
    s.drained k = true :=
  ⟨virt 2 fun f => { f with mig := .draining, frzAt := some 9 }, 2, by decide +kernel⟩

theorem wit_MigrationCommandsAct_13 : ∃ (s : State) (k : Fin 256), (s.func k).mig = .draining ∧ (s.func k).frzAt.isSome = true ∧
    s.drained k = false :=
  ⟨{ (virt 2 fun f => { f with
    mig := .draining, frzAt := some 9 }) with benches := [(3, { benchDefault 3 with func := 2, state := 2 })] }, 2, by decide +kernel⟩

theorem wit_MigrationCommandsAct_14 : ∃ (s : State) (k : Fin 256) (m : KeySlot) (len : Nat), (s.func k).mig = .saving ∧
    s.kpr.migKey = some m ∧ len = 144 + (s.blobSections k).flatten.length ∧ len ≤ 0x0400_0000 ∧ len ≤ s.blobLen k :=
  ⟨saver, 2, migSlot, 144 + (saver.blobSections 2).flatten.length, by decide +kernel⟩

theorem wit_MigrationCommandsAct_15 : ∃ (s : State) (k : Fin 256) (m : KeySlot) (len : Nat), (s.func k).mig = .saving ∧
    s.kpr.migKey = some m ∧ len = 144 + (s.blobSections k).flatten.length ∧ (0x0400_0000 < len ∨ s.blobLen k < len) :=
  ⟨saverFull, 2, migSlot, 144 + (saverFull.blobSections 2).flatten.length, by decide +kernel⟩

theorem wit_MigrationCommandsAct_16 : ∃ (s : State) (k : Fin 256), (s.func k).mig = .restoring :=
  ⟨refilling, 2, by decide +kernel⟩

theorem wit_MigrationCommandsAct_17 : ∃ (s : State) (k : Fin 256) (blob : List Byte) (r : _), (s.func k).mig = .restoring ∧
    s.readBlob k blob = .error r :=
  ⟨refilling, 2, [], 6, by decide +kernel⟩

theorem wit_MigrationCommandsAct_18 : ∃ (s : State) (k : Fin 256) (blob : List Byte) (x : _), (s.func k).mig = .restoring ∧
    s.readBlob k blob = .ok x ∧ s.restoreStatus k x ≠ 0 :=
  ⟨refilling, 2, sealBlob migSlot (blobHead 144) (sectioned (List.replicate 16 0)), okBlob (readPlain refilling 2 (blobHead 144)
    (sectioned (List.replicate 16 0))), by decide +kernel, (ok_then (r := readPlain refilling 2 (blobHead 144) (sectioned (List.replicate
    16 0))) (fun x => refilling.restoreStatus 2 x != 0) (by decide +kernel)).imp (read_seal (by decide +kernel) (by decide +kernel)
    (by decide +kernel) (by decide +kernel) (by decide +kernel)).trans (by simp)⟩

theorem wit_MigrationCommandsAct_19 : ∃ (s : State) (k : Fin 256) (blob : List Byte) (x : _), (s.func k).mig = .restoring ∧
    s.readBlob k blob = .ok x ∧ s.restoreStatus k x = 0 :=
  ⟨refilling, 2, sealBlob migSlot (blobHead 128) (sectioned []), okBlob (readPlain refilling 2 (blobHead 128) (sectioned [])),
    by decide +kernel, (ok_then (r := readPlain refilling 2 (blobHead 128) (sectioned [])) (fun x => refilling.restoreStatus 2 x == 0)
    (by decide +kernel)).imp (read_seal (by decide +kernel) (by decide +kernel) (by decide +kernel) (by decide +kernel)
    (by decide +kernel)).trans (by simp)⟩

/-- The Keeper runs with its journal open, and NVMe-MI has a session; lifecycle state `l`. -/
def keeping (l : Nat) (f : Kpr → Kpr := id) : State :=
  let s := put (on [pKpr]) pPcr Reg.PCR_BOOT 9 2 1
  let k := s.kpr
  { s with kpr := f { k with fuses := { k.fuses with lcs := l }, ready := true, sessions := [2] } }
theorem measurement_len (s : State) (i : Nat) : (s.measurement i).length ≤ 55 := by
  unfold State.measurement
  have := sha384_len (s.measured i)
  split
  · simp [leBytes, beBytes]
  · simp [leBytes]; omega
theorem measured_len (s : State) (l : List Nat) : (l.flatMap s.measurement).length ≤ 55 * l.length := by
  induction l with
  | nil => simp
  | cons i r ih =>
    have := measurement_len s i
    simp only [List.flatMap_cons, List.length_append, List.length_cons]
    omega

theorem wit_AttestationCommandsAct_0 : ∃ (s : State) (src : Fin 3) (msg : List Byte) (m : List Byte) (typ : Nat), s.asked src msg 0x84
    0x10 typ m :=
  ⟨keeping 3, 2, [0x10, 0x84, 0x0, 0x0], [0x10, 0x84, 0x0, 0x0], 1, askOk (by decide +kernel)⟩

theorem wit_AttestationCommandsAct_1 : ∃ (s : State) (src : Fin 3) (msg : List Byte) (m : List Byte) (typ : Nat) (ver : Nat), ver ≠ 0x12
    ∧ s.asked src msg 0x82 ver typ m :=
  ⟨keeping 3, 2, [0x11, 0x82, 0x1, 0x0], [0x11, 0x82, 0x1, 0x0], 1, 0x11, by decide +kernel, askOk (by decide +kernel)⟩

theorem wit_AttestationCommandsAct_2 : ∃ (s : State) (src : Fin 3) (msg : List Byte) (m : List Byte) (typ : Nat) (ver : Nat), ver ≠ 0x12
    ∧ s.asked src msg 0xE0 ver typ m :=
  ⟨keeping 3, 2, [0x11, 0xe0, 0x1, 0x0], [0x11, 0xe0, 0x1, 0x0], 1, 0x11, by decide +kernel, askOk (by decide +kernel)⟩

theorem wit_AttestationCommandsAct_3 : ∃ (s : State) (src : Fin 3) (msg : List Byte) (m : List Byte) (typ : Nat) (ver : Nat), ver ≠ 0x12
    ∧ s.asked src msg 0x83 ver typ m :=
  ⟨keeping 3, 2, [0x11, 0x83, 0x1, 0x0], [0x11, 0x83, 0x1, 0x0], 1, 0x11, by decide +kernel, askOk (by decide +kernel)⟩

theorem wit_AttestationCommandsAct_4 : ∃ (s : State) (src : Fin 3) (msg : List Byte) (m : List Byte) (typ : Nat) (ver : Nat), ver ≠ 0x12
    ∧ s.asked src msg 0xE4 ver typ m :=
  ⟨keeping 3, 2, [0x11, 0xe4, 0x1, 0x0], [0x11, 0xe4, 0x1, 0x0], 1, 0x11, by decide +kernel, askOk (by decide +kernel)⟩

theorem wit_AttestationCommandsAct_5 : ∃ (s : State) (src : Fin 3) (msg : List Byte) (m : List Byte) (typ : Nat) (ver : Nat), ver ≠ 0x12
    ∧ s.asked src msg 0xEE ver typ m :=
  ⟨keeping 3, 2, [0x11, 0xee, 0x1, 0x0], [0x11, 0xee, 0x1, 0x0], 1, 0x11, by decide +kernel, askOk (by decide +kernel)⟩

theorem wit_AttestationCommandsAct_6 : ∃ (s : State) (src : Fin 3) (msg : List Byte) (m : List Byte) (typ : Nat), s.kpr.fuses.lcs = 4 ∧
    s.asked src msg 0x83 0x12 typ m :=
  ⟨keeping 4, 2, [0x12, 0x83, 0x1, 0x0], [0x12, 0x83, 0x1, 0x0], 1, by decide +kernel, askOk (by decide +kernel)⟩

theorem wit_AttestationCommandsAct_7 : ∃ (s : State) (src : Fin 3) (msg : List Byte) (m : List Byte) (typ : Nat), s.kpr.fuses.lcs = 4 ∧
    s.asked src msg 0xE4 0x12 typ m :=
  ⟨keeping 4, 2, [0x12, 0xe4, 0x1, 0x0], [0x12, 0xe4, 0x1, 0x0], 1, by decide +kernel, askOk (by decide +kernel)⟩

theorem wit_AttestationCommandsAct_8 : ∃ (s : State) (src : Fin 3) (msg : List Byte) (m : List Byte) (typ : Nat), s.kpr.fuses.lcs = 4 ∧
    s.asked src msg 0xEE 0x12 typ m :=
  ⟨keeping 4, 2, [0x12, 0xee, 0x1, 0x0], [0x12, 0xee, 0x1, 0x0], 1, by decide +kernel, askOk (by decide +kernel)⟩

theorem wit_AttestationCommandsAct_9 : ∃ (s : State) (src : Fin 3) (msg : List Byte) (m : List Byte) (c : List Byte) (part : List Byte)
    (typ : Nat), s.asked src msg 0x82 0x12 typ m ∧ s.chain (fieldAt m 2 1 % 16) = some c ∧
    part = (c.drop (fieldAt m 4 2)).take (fieldAt m 6 2) ∧ part.length ≤ 4000 :=
  ⟨(keeping 3 fun k => { k with ownerCert := some [1, 2, 3, 4, 5] }), 2, [0x12, 0x82, 0x1, 0x0, 0x1, 0x0, 0x3, 0x0], [0x12, 0x82, 0x1,
    0x0, 0x1, 0x0, 0x3, 0x0], [1, 2, 3, 4, 5], [2, 3, 4], 1, askOk (by decide +kernel), by decide +kernel, by decide +kernel,
    by decide +kernel⟩

theorem wit_AttestationCommandsAct_10 : ∃ (s : State) (src : Fin 3) (msg : List Byte) (m : List Byte) (r : List Byte) (typ : Nat) (i :
    Nat), s.asked src msg 0xE0 0x12 typ m ∧ fieldAt m 2 1 % 2 = 0 ∧ fieldAt m 3 1 = i ∧ 1 ≤ i ∧ i ≤ 10 ∧ r = s.measurement i ∧
    r.length ≤ 4000 :=
  ⟨keeping 3, 2, [0x12, 0xe0, 0x0, 0x8], [0x12, 0xe0, 0x0, 0x8], (keeping 3).measurement 8, 1, 8, askOk (by decide +kernel),
    by decide +kernel, by decide +kernel, by decide +kernel, by decide +kernel, rfl, (measurement_len _ _).trans (by decide)⟩

theorem wit_AttestationCommandsAct_11 : ∃ (s : State) (src : Fin 3) (msg : List Byte) (m : List Byte) (r : List Byte) (typ : Nat) (i :
    Nat), s.asked src msg 0xE0 0x12 typ m ∧ fieldAt m 2 1 % 2 = 0 ∧ fieldAt m 3 1 = i ∧ i = 0xFF ∧
    r = ((List.range 10).map (· + 1)).flatMap s.measurement ∧ r.length ≤ 4000 :=
  ⟨keeping 3, 2, [0x12, 0xe0, 0x0, 0xff], [0x12, 0xe0, 0x0, 0xff], ((List.range 10).map (· + 1)).flatMap (keeping 3).measurement, 1,
    0xFF, askOk (by decide +kernel), by decide +kernel, by decide +kernel, rfl, rfl, (measured_len _ _).trans (by decide)⟩

theorem wit_AttestationCommandsAct_12 : ∃ (s : State) (src : Fin 3) (msg : List Byte) (m : List Byte) (c : List Byte) (typ : Nat),
    s.asked src msg 0x83 0x12 typ m ∧ s.kpr.fuses.lcs ≠ 4 ∧ s.chain (fieldAt m 2 1 % 16) = some c ∧ fieldAt m 3 1 = 0 :=
  ⟨(keeping 3 fun k => { k with ownerCert := some [1, 2, 3, 4, 5] }), 2, [0x12, 0x83, 0x1, 0x0], [0x12, 0x83, 0x1, 0x0], [1, 2, 3, 4, 5],
    1, askOk (by decide +kernel), by decide +kernel, by decide +kernel, by decide +kernel⟩

theorem wit_AttestationCommandsAct_13 : ∃ (s : State) (src : Fin 3) (msg : List Byte) (m : List Byte) (typ : Nat), s.asked src msg 0xE4
    0x12 typ m ∧ s.kpr.fuses.lcs ≠ 4 ∧ (s.chain (fieldAt m 3 1 % 16)).isSome = true :=
  ⟨(keeping 3 fun k => { k with ownerCert := some [1, 2, 3, 4, 5] }), 2, [0x12, 0xe4, 0x0, 0x1], [0x12, 0xe4, 0x0, 0x1], 1, askOk
    (by decide +kernel), by decide +kernel, by decide +kernel⟩

theorem wit_AttestationCommandsAct_14 : ∃ (s : State) (src : Fin 3) (msg : List Byte) (m : List Byte) (typ : Nat), s.asked src msg 0xEE
    0x12 typ m ∧ s.kpr.fuses.lcs ≠ 4 ∧ s.kpr.fuses.lcs = 3 ∧ fieldAt m 2 1 % 16 = 1 :=
  ⟨keeping 3, 2, [0x12, 0xee, 0x1, 0x0, 0x9, 0x9], [0x12, 0xee, 0x1, 0x0, 0x9, 0x9], 1, askOk (by decide +kernel), by decide +kernel,
    by decide +kernel, by decide +kernel⟩

theorem wit_AttestationCommandsAct_15 : ∃ (s : State) (src : Fin 3) (msg : List Byte) (m : List Byte) (typ : Nat), s.asked src msg 0xEE
    0x12 typ m ∧ s.kpr.fuses.lcs ≠ 4 ∧ s.kpr.fuses.lcs ≠ 3 :=
  ⟨keeping 2, 2, [0x12, 0xee, 0x1, 0x0, 0x9, 0x9], [0x12, 0xee, 0x1, 0x0, 0x9, 0x9], 1, askOk (by decide +kernel), by decide +kernel,
    by decide +kernel⟩

theorem wit_RequestCommandsAct_0 : ∃ (s : State) (src : Fin 3) (blk : List Byte) (f : Nat) (t : Nat) (own : Fuses), natBits (argAt blk 0
    4) 0 3 = f ∧ natBits (argAt blk 0 4) 8 3 = t ∧ own = { s.kpr.fuses with ownerUsed := s.kpr.fuses.ownerUsed + 1 } ∧ f = 0 ∧ t = 1 ∧
    s.reqReady src blk 1 [0] :=
  ⟨keeping 0, 2, reqBlk (keeping 0).devId 1 0 1 (leBytes 4 256), 0, 1, { (keeping 0).kpr.fuses with
    ownerUsed := (keeping 0).kpr.fuses.ownerUsed + 1 }, by decide +kernel, by decide +kernel, by decide +kernel, by decide +kernel,
    by decide +kernel, reqOk (by decide +kernel)⟩

theorem wit_RequestCommandsAct_1 : ∃ (s : State) (src : Fin 3) (blk : List Byte) (f : Nat) (t : Nat) (own : Fuses), natBits (argAt blk 0
    4) 0 3 = f ∧ natBits (argAt blk 0 4) 8 3 = t ∧ own = { s.kpr.fuses with ownerUsed := s.kpr.fuses.ownerUsed + 1 } ∧ f = 1 ∧ t = 2 ∧
    s.reqReady src blk 1 [1] :=
  ⟨keeping 1, 2, reqBlk (keeping 1).devId 1 0 1 (leBytes 4 513), 1, 2, { (keeping 1).kpr.fuses with
    ownerUsed := (keeping 1).kpr.fuses.ownerUsed + 1 }, by decide +kernel, by decide +kernel, by decide +kernel, by decide +kernel,
    by decide +kernel, reqOk (by decide +kernel)⟩

theorem wit_RequestCommandsAct_2 : ∃ (s : State) (src : Fin 3) (blk : List Byte) (f : Nat) (t : Nat) (own : Fuses), natBits (argAt blk 0
    4) 0 3 = f ∧ natBits (argAt blk 0 4) 8 3 = t ∧ own = { s.kpr.fuses with ownerUsed := s.kpr.fuses.ownerUsed + 1 } ∧ f = 2 ∧ t = 3 ∧
    s.reqReady src blk 1 [2] ∧ s.kpr.fuses.ownerUsed < 15 :=
  ⟨keeping 2, 2, reqBlk (keeping 2).devId 1 0 2 (leBytes 4 770), 2, 3, { (keeping 2).kpr.fuses with
    ownerUsed := (keeping 2).kpr.fuses.ownerUsed + 1 }, by decide +kernel, by decide +kernel, by decide +kernel, by decide +kernel,
    by decide +kernel, reqOk (by decide +kernel), by decide +kernel⟩

theorem wit_RequestCommandsAct_3 : ∃ (s : State) (src : Fin 3) (blk : List Byte) (f : Nat) (t : Nat) (own : Fuses), natBits (argAt blk 0
    4) 0 3 = f ∧ natBits (argAt blk 0 4) 8 3 = t ∧ own = { s.kpr.fuses with ownerUsed := s.kpr.fuses.ownerUsed + 1 } ∧ f = 3 ∧ t = 3 ∧
    s.reqReady src blk 1 [3] ∧ s.kpr.fuses.ownerUsed < 15 :=
  ⟨keeping 3, 2, reqBlk (keeping 3).devId 1 0 2 (leBytes 4 771), 3, 3, { (keeping 3).kpr.fuses with
    ownerUsed := (keeping 3).kpr.fuses.ownerUsed + 1 }, by decide +kernel, by decide +kernel, by decide +kernel, by decide +kernel,
    by decide +kernel, reqOk (by decide +kernel), by decide +kernel⟩

theorem wit_RequestCommandsAct_4 : ∃ (s : State) (src : Fin 3) (blk : List Byte) (f : Nat) (t : Nat) (own : Fuses), natBits (argAt blk 0
    4) 0 3 = f ∧ natBits (argAt blk 0 4) 8 3 = t ∧ own = { s.kpr.fuses with ownerUsed := s.kpr.fuses.ownerUsed + 1 } ∧ f = 3 ∧ t = 2 ∧
    s.reqReady src blk 1 [3] ∧ s.kpr.seals = [] ∧ s.kpr.written = false :=
  ⟨keeping 3, 2, reqBlk (keeping 3).devId 1 0 1 (leBytes 4 515), 3, 2, { (keeping 3).kpr.fuses with
    ownerUsed := (keeping 3).kpr.fuses.ownerUsed + 1 }, by decide +kernel, by decide +kernel, by decide +kernel, by decide +kernel,
    by decide +kernel, reqOk (by decide +kernel), by decide +kernel, by decide +kernel⟩

theorem wit_RequestCommandsAct_5 : ∃ (s : State) (src : Fin 3) (blk : List Byte) (f : Nat) (t : Nat) (own : Fuses), natBits (argAt blk 0
    4) 0 3 = f ∧ natBits (argAt blk 0 4) 8 3 = t ∧ own = { s.kpr.fuses with ownerUsed := s.kpr.fuses.ownerUsed + 1 } ∧
    f = s.kpr.fuses.lcs ∧ t = 4 ∧ s.reqReady src blk 1 [2, 3] ∧ s.kpr.seals = [] :=
  ⟨keeping 2, 2, reqBlk (keeping 2).devId 1 0 1 (leBytes 4 1026), 2, 4, { (keeping 2).kpr.fuses with
    ownerUsed := (keeping 2).kpr.fuses.ownerUsed + 1 }, by decide +kernel, by decide +kernel, by decide +kernel, by decide +kernel,
    by decide +kernel, reqOk (by decide +kernel), by decide +kernel⟩

theorem wit_RequestCommandsAct_6 : ∃ (s : State) (src : Fin 3) (blk : List Byte) (e : Nat) (f : Fuses), e = argAt blk 0 4 ∧
    f = s.kpr.fuses ∧ s.reqReady src blk 2 [1, 2, 3] ∧ f.secEpoch < e ∧ e < 256 ∧ f.secUsed < 255 ∧
    ((s.lowTables e).any fun t => s.slotInUse t.1 t.2) = false :=
  ⟨keeping 2, 2, reqBlk (keeping 2).devId 2 0 2 (leBytes 4 5), 5, (keeping 2).kpr.fuses, by decide +kernel, by decide +kernel, reqOk
    (by decide +kernel), by decide +kernel, by decide +kernel, by decide +kernel, by decide +kernel⟩

theorem wit_RequestCommandsAct_7 : ∃ (s : State) (src : Fin 3) (blk : List Byte) (e : Nat) (f : Fuses), e = argAt blk 0 4 ∧
    f = s.kpr.fuses ∧ s.reqReady src blk 3 [3] :=
  ⟨keeping 3, 2, reqBlk (keeping 3).devId 3 0 1 (leBytes 48 0x77), 119, (keeping 3).kpr.fuses, by decide +kernel, by decide +kernel,
    reqOk (by decide +kernel)⟩

theorem wit_RequestCommandsAct_8 : ∃ (s : State) (src : Fin 3) (blk : List Byte) (e : Nat) (f : Fuses), e = argAt blk 0 4 ∧
    f = s.kpr.fuses ∧ s.reqReady src blk 4 [3] :=
  ⟨keeping 3, 2, reqBlk (keeping 3).devId 4 0 1 (leBytes 48 0x77), 119, (keeping 3).kpr.fuses, by decide +kernel, by decide +kernel,
    reqOk (by decide +kernel)⟩

theorem wit_RequestCommandsAct_9 : ∃ (s : State) (src : Fin 3) (blk : List Byte) (e : Nat) (f : Fuses), e = argAt blk 0 4 ∧
    f = s.kpr.fuses ∧ s.reqReady src blk 6 [2, 3] ∧ f.ikeyUsed < 7 :=
  ⟨keeping 2, 2, reqBlk (keeping 2).devId 6 0 1 (leBytes 49 0x302), 770, (keeping 2).kpr.fuses, by decide +kernel, by decide +kernel,
    reqOk (by decide +kernel), by decide +kernel⟩

theorem wit_RequestCommandsAct_10 : ∃ (s : State) (src : Fin 3) (blk : List Byte) (e : Nat) (f : Fuses), e = argAt blk 0 4 ∧
    f = s.kpr.fuses ∧ s.reqReady src blk 7 [2] ∧ f.dbgUsed < 3 :=
  ⟨keeping 2, 2, reqBlk (keeping 2).devId 7 0 1 [], 0, (keeping 2).kpr.fuses, by decide +kernel, by decide +kernel, reqOk
    (by decide +kernel), by decide +kernel⟩

theorem wit_RequestCommandsAct_11 : ∃ (s : State) (src : Fin 3) (blk : List Byte) (e : Nat) (f : Fuses), e = argAt blk 0 4 ∧
    f = s.kpr.fuses ∧ s.reqReady src blk 8 [3] ∧ e &&& 0xFF07 = e :=
  ⟨keeping 3, 2, reqBlk (keeping 3).devId 8 0 1 (leBytes 4 0x103), 259, (keeping 3).kpr.fuses, by decide +kernel, by decide +kernel,
    reqOk (by decide +kernel), by decide +kernel⟩

theorem wit_RequestCommandsAct_12 : ∃ (s : State) (src : Fin 3) (blk : List Byte) (e : Nat) (f : Fuses), e = argAt blk 0 4 ∧
    f = s.kpr.fuses ∧ s.reqReady src blk 0x0B [3] ∧ ((∃ x ∈ s.kpr.seals, x.cart = argAt blk 0 8 ∧ x.zone = argAt blk 8 4 ∧
    x.expires < s.kpr.lastTime)) :=
  ⟨keeping 3 fun k => { k with seals := [⟨1, 2, 3, 4, 5⟩], lastTime := 9 }, 2, reqBlk (keeping 3 fun k => { k with
    seals := [⟨1, 2, 3, 4, 5⟩], lastTime := 9 }).devId 11 0 1 (leBytes 8 1 ++ leBytes 4 2), 1, (keeping 3 fun k => { k with
    seals := [⟨1, 2, 3, 4, 5⟩], lastTime := 9 }).kpr.fuses, by decide +kernel, by decide +kernel, reqOk (by decide +kernel),
    by decide +kernel⟩

theorem wit_RequestCommandsAct_13 : ∃ (s : State) (src : Fin 3) (blk : List Byte) (key : List Byte) (slot : Nat) (func : Nat) (typ : Nat)
    (usage : Nat), slot = argAt blk 0 2 ∧ func = argAt blk 2 2 ∧ typ = argAt blk 4 1 ∧ usage = argAt blk 5 1 ∧
    s.reqReady src blk 0x0C [3] ∧ slot = 0xFFFF ∧ key.length = 32 :=
  ⟨keeping 3, 2, reqBlk (keeping 3).devId 12 0 1 (leBytes 4 0xFFFF), (List.replicate 32 1), 0xFFFF, 0, 0, 0, by decide +kernel,
    by decide +kernel, by decide +kernel, by decide +kernel, reqOk (by decide +kernel), by decide +kernel, by decide +kernel⟩

theorem wit_RequestCommandsAct_14 : ∃ (s : State) (src : Fin 3) (blk : List Byte) (key : List Byte) (slot : Nat) (func : Nat) (typ : Nat)
    (usage : Nat), slot = argAt blk 0 2 ∧ func = argAt blk 2 2 ∧ typ = argAt blk 4 1 ∧ usage = argAt blk 5 1 ∧
    s.reqReady src blk 0x0C [3] ∧ slot < 512 ∧ func < 256 ∧ 1 ≤ typ ∧ typ ≤ 4 ∧ usage < 64 ∧ key.length = keyLen typ ∧
    mapFind s.kpr.keys slot = none :=
  ⟨keeping 3, 2, reqBlk (keeping 3).devId 12 0 1 (leBytes 2 5 ++ leBytes 2 2 ++ [2, 1]), (List.replicate 32 1), 5, 2, 2, 1,
    by decide +kernel, by decide +kernel, by decide +kernel, by decide +kernel, reqOk (by decide +kernel), by decide +kernel,
    by decide +kernel, by decide +kernel, by decide +kernel, by decide +kernel, by decide +kernel, by decide +kernel⟩

theorem wit_RequestCommandsAct_15 : ∃ (s : State) (src : Fin 3) (blk : List Byte) (key : List Byte) (slot : Nat) (func : Nat) (typ : Nat)
    (usage : Nat), slot = argAt blk 0 2 ∧ func = argAt blk 2 2 ∧ typ = argAt blk 4 1 ∧ usage = argAt blk 5 1 ∧
    s.reqReady src blk 0x0E [3] ∧ s.kpr.sealedTier = true ∧ key.length = 32 :=
  ⟨keeping 3 fun k => { k with sealedTier := true }, 2, reqBlk (keeping 3 fun k => { k with sealedTier := true }).devId 14 0 1 [],
    (List.replicate 32 1), 0, 0, 0, 0, by decide +kernel, by decide +kernel, by decide +kernel, by decide +kernel, reqOk
    (by decide +kernel), by decide +kernel, by decide +kernel⟩

theorem wit_RequestCommandsAct_16 : ∃ (s : State) (src : Fin 3) (blk : List Byte) (key : List Byte) (x : Nat × Instr), s.reqHeard src =
    true ∧ fieldAt blk 4 2 = x.1 ∧ s.reqForm blk = false ∧ x ∈ [(1, .provision src blk true), (1, .integrate src blk), (1, .takeOwnership
    src blk), (1, .transfer src blk), (1, .lifecycleRelease src blk), (1, .retire src blk), (2, .securityEpochRaise src blk), (3,
    .firmwareApproval src blk), (4, .tableApproval src blk), (6, .integratorKeyRotation src blk), (7, .debugUnlock src blk), (8,
    .ownerPolicy src blk), (0x0B, .sealRelease src blk), (0x0E, .rebind src blk key true)] :=
  ⟨keeping 3, 2, [0, 0, 0, 0, 1, 0], [], (1, .retire 2 [0, 0, 0, 0, 1, 0]), by decide +kernel⟩

theorem wit_RequestCommandsAct_17 : ∃ (s : State) (src : Fin 3) (blk : List Byte) (x : Nat × Instr), s.reqHeard src = true ∧
    fieldAt blk 4 2 = x.1 ∧ s.reqForm blk = true ∧ fieldAt blk 0x10 4 ≠ s.kpr.nextSeq ∧
    x ∈ [(1, .provision src blk true), (1, .integrate src blk), (1, .takeOwnership src blk), (1, .transfer src blk), (1,
    .lifecycleRelease src blk), (1, .retire src blk), (2, .securityEpochRaise src blk), (3, .firmwareApproval src blk), (4,
    .tableApproval src blk), (6, .integratorKeyRotation src blk), (7, .debugUnlock src blk), (0x0B, .sealRelease src blk)] :=
  ⟨keeping 0, 2, reqBlk 0 1 4 1 [], (1, .retire 2 (reqBlk 0 1 4 1 [])), by decide +kernel⟩

theorem wit_JournalAndAlarmCommandsAct_0 : ∃ (s : State) (i : JItem) (r : List JItem), s.kpr.queue = i :: r ∧
    (s.kpr.fuses.lcs ≠ 0 ∨ i.typ = 1) :=
  ⟨keeping 3 fun k => { k with queue := [⟨3, 3, [], .none_, 2, 0⟩] }, ⟨3, 3, [], .none_, 2, 0⟩, [], by decide +kernel⟩

theorem wit_JournalAndAlarmCommandsAct_1 : ∃ (s : State) (i : JItem) (r : List JItem), s.kpr.queue = i :: r ∧ i.src = 2 :=
  ⟨keeping 3 fun k => { k with queue := [⟨3, 3, [], .none_, 2, 0⟩] }, ⟨3, 3, [], .none_, 2, 0⟩, [], by decide +kernel⟩

theorem wit_JournalAndAlarmCommandsAct_2 : ∃ (s : State) (c : Fin 6), s.boot.held = false ∧ s.alarmArmed c = true ∧
    s.bit pKpr Reg.KPR_ALARM (alarmBit c) = false :=
  ⟨keeping 3, 4, by decide +kernel⟩

theorem wit_JournalAndAlarmCommandsAct_3 : ∃ (s : State) (c : Fin 6), s.boot.held = false ∧ s.alarmArmed c = false :=
  ⟨put (keeping 3) pKpr Reg.KPR_ALARM 18 1 1, 4, by decide +kernel⟩

theorem wit_JournalAndAlarmCommandsAct_4 : ∃ (s : State) (i : Fin 3), s.boot.held = false ∧ s.fget pKpr Reg.KPR_ALARM 0 4 = 2 ^ i.val :=
  ⟨put (keeping 3) pKpr Reg.KPR_ALARM 2 1 1, 2, by decide +kernel⟩

/-- The device with the most idle profile allowed `lim`, what waits for it changed by `f`. -/
def resting (lim : Nat) (f : Power → Power := fun p => { p with since := some 5 }) : State :=
  let s := put (on [pAgm]) (pPcr + 1) Reg.PCR_PROF 0 2 lim
  { s with power := f s.power }
def shuttered (f : Power → Power := fun p => { p with since := some 5 }) : State :=
  let s := put (on [pAgm]) (pPcr + 1) Reg.PCR_PROF 4 1 1
  { s with power := f s.power }
/-- A buffered block keeps the device awake. -/
def loaded (s : State) : State := { s with blocks := [(0, ⟨[], [], 1, 0, 1, 2, .buffer, false⟩)] }
/-- Asleep in profile `p`. -/
def asleep (p : Nat) : State :=
  let s := put (on [pAgm]) (pPcr + 1) Reg.PCR_PSTAT 0 2 p
  { s with fab := false, power := { s.power with asleep := true, saved := 77 } }
def failing (c : Nat) : State := put State.reset pPcr Reg.PCR_BOOT 0 4 c
def ajar (w : Nat) : State := put (put (on [pEmt]) (pPcr + 1) Reg.PCR_PSTAT 0 2 1) pEmt Reg.EMT_POWER_MS 0 24 w
def meters (x : Nat) : List (Option Nat) := List.replicate 8 (some x)

theorem wit_PowerCommandsAct_0 : ∃ (s : State), s.profTarget < 2 :=
  ⟨State.reset, by decide +kernel⟩

theorem wit_PowerCommandsAct_1 : ∃ (s : State), 2 ≤ s.profTarget ∧ s.power.since = none :=
  ⟨resting 2 id, by decide +kernel⟩

theorem wit_PowerCommandsAct_2 : ∃ (s : State), s.profTarget = 2 ∧ s.power.since.isSome = true ∧ s.entryBlock 2 = 0 :=
  ⟨resting 2, by decide +kernel⟩

theorem wit_PowerCommandsAct_3 : ∃ (s : State), s.profTarget = 2 ∧ s.power.since.isSome = true ∧ s.entryBlock 2 ≠ 0 :=
  ⟨loaded (resting 2), by decide +kernel⟩

theorem wit_PowerCommandsAct_4 : ∃ (s : State), s.profTarget = 3 ∧ s.power.since.isSome = true ∧ s.entryBlock 3 = 0 :=
  ⟨shuttered, by decide +kernel⟩

theorem wit_PowerCommandsAct_5 : ∃ (s : State), s.profTarget = 3 ∧ s.power.since.isSome = true ∧ s.entryBlock 3 ≠ 0 :=
  ⟨loaded shuttered, by decide +kernel⟩

theorem wit_PowerCommandsAct_6 : ∃ (s : State) (t0 : Nat), s.power.since = some t0 ∧ s.power.told = false ∧
    s.entryBlock s.profTarget ≠ 0 :=
  ⟨loaded (resting 2), 5, by decide +kernel⟩

theorem wit_PowerCommandsAct_7 : ∃ (s : State) (src : Fin 7) (ok : Bool), s.boot.held = false ∧
    (if src.val = 6 then s.alarmOn = true else s.bit (pPcr + 1) Reg.PCR_WAKE src = true) ∧ s.power.asleep = true ∧
    (s.pcr Reg.PCR_PSTAT 0 2 = 2 ∨ ok = true) :=
  ⟨asleep 2, 4, false, by decide +kernel⟩

theorem wit_PowerCommandsAct_8 : ∃ (s : State) (src : Fin 7) (ok : Bool), s.boot.held = false ∧
    (if src.val = 6 then s.alarmOn = true else s.bit (pPcr + 1) Reg.PCR_WAKE src = true) ∧ s.power.asleep = true ∧
    s.pcr Reg.PCR_PSTAT 0 2 = 3 ∧ ok = false :=
  ⟨asleep 3, 4, false, by decide +kernel⟩

theorem wit_PowerCommandsAct_9 : ∃ (s : State) (src : Fin 7), s.boot.held = false ∧
    (if src.val = 6 then s.alarmOn = true else s.bit (pPcr + 1) Reg.PCR_WAKE src = true) ∧ s.power.asleep = false ∧
    s.power.since.isSome = true :=
  ⟨resting 2, 4, by decide +kernel⟩

theorem wit_PowerCommandsAct_10 : ∃ (s : State) (sec : Nat), s.boot.held = false ∧ s.power.asleep = true ∧ s.pcr Reg.PCR_PSTAT 0 2 = 2 ∧
    sec = (s.rg (pPcr + 1) Reg.PCR_AONTMR).toNat ∧ sec ≠ 0 ∧ s.bit (pPcr + 1) Reg.PCR_WAKE 4 = true :=
  ⟨put (asleep 2) (pPcr + 1) Reg.PCR_AONTMR 0 32 60, 60, by decide +kernel⟩

theorem wit_PowerCommandsAct_11 : ∃ (s : State) (t0 : Nat), s.power.idle = some t0 :=
  ⟨resting 2 fun p => { p with idle := some 3 }, 3, by decide +kernel⟩

theorem wit_PowerCommandsAct_12 : ∃ (s : State) (p : Nat) (limit : Nat), s.pcr Reg.PCR_PSTAT 0 2 = 1 ∧
    p = 100 * s.fget pEmt Reg.EMT_POWER_MS 0 24 ∧ limit = s.pcr Reg.PCR_GOV 0 7 ∧ limit * 20000 < p ∧ s.govSteps < s.clkSteps + 9 :=
  ⟨ajar 100000, 10000000, 95, by decide +kernel⟩

theorem wit_PowerCommandsAct_13 : ∃ (s : State) (p : Nat) (limit : Nat), s.pcr Reg.PCR_PSTAT 0 2 = 1 ∧
    p = 100 * s.fget pEmt Reg.EMT_POWER_MS 0 24 ∧ limit = s.pcr Reg.PCR_GOV 0 7 ∧ p < (limit - 5) * 20000 ∧ s.govSteps ≠ 0 :=
  ⟨put (ajar 100) (pPcr + 1) Reg.PCR_GOV 8 8 2, 10000, 95, by decide +kernel⟩

theorem wit_PowerCommandsAct_14 : ∃ (s : State), s.pcr Reg.PCR_PSTAT 0 2 = 0 :=
  ⟨State.reset, by decide +kernel⟩

theorem wit_PowerCommandsAct_15 : ∃ (rails : List (Option Nat)) (b : Blk) (c : Blk) (r : Nat) (m : Nat) (k : Nat) (nJ : Nat), b ∈ allBlks
    ∧ c ∈ allBlks ∧ b.base ≠ c.base ∧ r < 8 ∧ m + k ≠ 0 ∧ ((∀ i < 8, (rails.getD i none).isSome = true)) ∧ rails.getD r none = some nJ :=
  ⟨meters 900, (blkOf pDcf), (blkOf (pCxe 0)), 2, 1, 2, 900, by decide +kernel⟩

theorem wit_PowerCommandsAct_16 : ∃ (s : State) (b : Blk) (tag : Nat) (n : Nat) (k : Cmd), b ∈ allBlks ∧ b.base ≠ pDcf ∧
    mapFind s.cmds tag = some k ∧ k.ctrl < 256 ∧ n ≠ 0 :=
  ⟨given (cmd 1 (sqe 2 1)), (blkOf (pCxe 0)), 300, 4, cmd 1 (sqe 2 1), by decide +kernel⟩

theorem wit_PowerCommandsAct_17 : ∃ (rails : List (Option Nat)) (b : Blk), b ∈ allBlks ∧ ((∃ i < 8, rails.getD i none = none)) :=
  ⟨[], (blkOf pDcf), by decide +kernel⟩

theorem wit_PowerCommandsAct_18 : ∃ (s : State), s.enabled pAgm = true :=
  ⟨on [pAgm], by decide +kernel⟩

theorem wit_PowerCommandsAct_19 : ∃ (s : State), s.enabled pAgm = true ∧ s.bit pAgm Reg.AGM_CTRL 0 = true ∧
    s.bit pAgm Reg.AGM_CTRL 1 = true ∧ s.power.plan = none ∧ s.power.since = none :=
  ⟨put (put (on [pAgm]) pAgm Reg.AGM_CTRL 0 1 1) pAgm Reg.AGM_CTRL 1 1 1, by decide +kernel⟩

theorem wit_PowerCommandsAct_20 : ∃ (s : State), s.enabled pAgm = true ∧ s.bit pAgm Reg.AGM_CTRL 0 = true ∧
    s.bit pAgm Reg.AGM_CTRL 1 = true ∧ s.power.plan = none ∧ s.power.since.isSome = true :=
  ⟨put (put (resting 2) pAgm Reg.AGM_CTRL 0 1 1) pAgm Reg.AGM_CTRL 1 1 1, by decide +kernel⟩

theorem wit_PowerCommandsAct_21 : ∃ (s : State) (p : Plan) (t0 : Nat), s.power.plan = some (p, t0) :=
  ⟨resting 2 fun q => { q with plan := some (⟨700, 720, 3, 40, 25⟩, 9) }, ⟨700, 720, 3, 40, 25⟩, 9, by decide +kernel⟩

theorem wit_PowerCommandsAct_22 : ∃ (s : State), s.enabled pAgm = true :=
  ⟨on [pAgm], by decide +kernel⟩

theorem wit_PowerCommandsAct_23 : ∃ (s : State) (temps : List (Int × Bool)), s.enabled pAgm = true ∧ temps.length = 12 ∧
    ((∀ x ∈ temps, x.2 = false ∧ -128 ≤ x.1 ∧ x.1 ≤ 127)) :=
  ⟨on [pAgm], List.replicate 12 (45, false), by decide +kernel⟩

theorem wit_ResetAndBootCommandsAct_0 : ∃ (s : State), s.boot.held = true :=
  ⟨{ State.reset with boot := { State.reset.boot with held := true } }, by decide +kernel⟩

theorem wit_ResetAndBootCommandsAct_1 : ∃ (s : State) (i : Instr) (cause : Nat), s.bootFailed = false ∧
    (6 ≤ s.bootCode ∨ s.bit pPcr Reg.PCR_RST 0 = true) ∧ keysRise s.regs = true ∧
    (i, cause) ∈ [(Instr.warm (.core .keeper), 2), (.nssr 0 0x4E564D65, 1)] :=
  ⟨failing 6, .nssr 0 0x4E564D65, 1, by decide +kernel⟩

theorem wit_ResetAndBootCommandsAct_2 : ∃ (req : Requester), req ≠ .core .keeper :=
  ⟨.agent, by decide +kernel⟩

theorem wit_ResetAndBootCommandsAct_3 : ∃ (s : State) (f : Fin 256) (v : BitVec 32), (s.isPf f = false ∨ v ≠ 0x4E564D65) :=
  ⟨failing 6, 2, 0x4E564D65, by decide +kernel⟩

theorem wit_ResetAndBootCommandsAct_4 : ∃ (s : State), s.bootFailed = false ∧ s.alarmOn = false ∧ s.bootCode = 1 :=
  ⟨failing 1, by decide +kernel⟩

theorem wit_ResetAndBootCommandsAct_5 : ∃ (s : State), s.bootFailed = false ∧ s.alarmOn = false ∧ s.bootCode = 2 :=
  ⟨failing 2, by decide +kernel⟩

theorem wit_ResetAndBootCommandsAct_6 : ∃ (s : State), s.bootFailed = false ∧ s.alarmOn = false ∧ s.bootCode = 3 ∧
    s.window.live.isEmpty = false :=
  ⟨{ (failing 3) with window := ⟨[0], 0x10000000⟩ }, by decide +kernel⟩

theorem wit_ResetAndBootCommandsAct_7 : ∃ (s : State) (ok : Bool), s.bootFailed = false ∧ s.alarmOn = false ∧ s.bootCode = 3 ∧
    s.window.live.isEmpty = true ∧ (ok = false ∨ (∀ n < 4, (s.dmc n).trained = true)) :=
  ⟨failing 3, false, by decide +kernel⟩

theorem wit_ResetAndBootCommandsAct_8 : ∃ (s : State), s.bootFailed = false ∧ s.alarmOn = false ∧ s.bootCode = 4 :=
  ⟨failing 4, by decide +kernel⟩

theorem wit_ResetAndBootCommandsAct_9 : ∃ (s : State), s.bootFailed = false ∧ s.alarmOn = false ∧ s.bootCode = 5 ∧
    s.fget pFtm Reg.FTM_DISC 16 4 = 3 :=
  ⟨put (failing 5) pFtm Reg.FTM_DISC 16 4 3, by decide +kernel⟩

theorem wit_ResetAndBootCommandsAct_10 : ∃ (s : State), s.bootFailed = false ∧ s.alarmOn = false ∧ s.bootCode = 5 ∧
    s.fget pFtm Reg.FTM_DISC 16 4 = 2 :=
  ⟨put (failing 5) pFtm Reg.FTM_DISC 16 4 2, by decide +kernel⟩

theorem wit_ResetAndBootCommandsAct_11 : ∃ (s : State), s.alarmOn = true :=
  ⟨put (failing 3) pKpr Reg.KPR_ALARM 2 1 1, by decide +kernel⟩

theorem wit_ResetAndBootCommandsAct_12 : ∃ (s : State) (a : _), s.bootFailed = false ∧ s.bootCode < 6 ∧ s.alarmOn = true ∧
    s.boot.alarmAt = some a :=
  ⟨(fun s : State => { s with boot := { s.boot with alarmAt := some 4 } }) (put (failing 3) pKpr Reg.KPR_ALARM 2 1 1), 4,
    by decide +kernel⟩

theorem wit_ResetAndBootCommandsAct_13 : ∃ (s : State) (a : _), s.bootFailed = false ∧ s.bootCode < 6 ∧ s.alarmOn = false ∧
    s.bootCode = 4 ∧ s.boot.rtAt = some a :=
  ⟨(fun s : State => { s with boot := { s.boot with rtAt := some 4 } }) (failing 4), 4, by decide +kernel⟩

theorem wit_ResetAndBootCommandsAct_14 : ∃ (s : State), s.bootFailed = false ∧ 5 ≤ s.bootCode ∧ s.kpr.sealedTier = false ∧
    s.window.live.isEmpty = false :=
  ⟨{ (failing 6) with window := ⟨[0], 0x10000000⟩ }, by decide +kernel⟩

theorem wit_ResetAndBootCommandsAct_15 : ∃ (s : State), s.boot.held = false :=
  ⟨failing 6, by decide +kernel⟩

theorem pair_some {x : Option (List Byte) × Nat} (h : x.1.isSome = true) : x = (some (x.1.getD []), x.2) := by
  obtain ⟨o, n⟩ := x
  cases o with
  | none => cases h
  | some b => rfl
def booted (k : Cmd) (f : Boot → Boot := id) : State :=
  let s := given k
  { s with boot := f s.boot }
def owning (q : List JItem) : State :=
  let k := State.reset.kpr
  { State.reset with kpr := { k with fuses := { k.fuses with lcs := 3 }, queue := q } }
def slotLog : State × List Byte := ((given (cmd 0 (sqe 0x2 0 0x30003))).fresh.logData (cmd 0 (sqe 0x2 0 0x30003)) 0 16).getD (hosted, [])
/-- What a command makes of the device after reset. -/
def after (i : Instr) : State :=
  match exec i State.reset with
  | .next t => t
  | _ => State.reset
theorem after_eq {i : Instr} (h : (match exec i State.reset with | .next _ => true | _ => false) = true) :
    exec i State.reset = .next (after i) := by
  unfold after
  split <;> simp_all

theorem wit_FirmwareCommandsAct_0 : ∃ (s : State) (tag : Nat) (data : List Byte) (k : Cmd) (o : Nat) (n : Nat), s.adminReady tag 0x11 k ∧
    n = 4 * (k.e.d10.toNat + 1) ∧ o = 4 * k.e.d11.toNat ∧ n ≤ data.length ∧ o + n ≤ 65536 :=
  ⟨given (cmd 0 (sqe 0x11 0 0x1 0x4)), 300, [1, 2, 3, 4, 5, 6, 7, 8], cmd 0 (sqe 0x11 0 0x1 0x4), 16, 8, adminOk (by decide +kernel),
    by decide +kernel, by decide +kernel, by decide +kernel, by decide +kernel⟩

theorem wit_FirmwareCommandsAct_1 : ∃ (s : State) (tag : Nat) (a : Nat) (slot : Nat) (image : List Byte) (b : List Byte) (k : Cmd) (i :
    Instr), s.adminReady tag 0x10 k ∧ a = natBits k.e.d10.toNat 3 3 ∧ slot = s.fwSlot k ∧ 1 ≤ slot ∧ slot ≤ 2 ∧ s.kpr.jfault = false ∧
    s.kpr.queue.any isCommit = false ∧ ((a ≤ 1 ∧ i = .firmwareCommitReplace tag ∧ b = s.downloaded ∨ a = 2 ∧
    i = .firmwareCommitNextBoot tag image ∧ b = (mapFind s.boot.slots slot).getD image ∨ a = 3 ∧ i = .firmwareActivate tag image ∧
    b = (mapFind s.boot.slots slot).getD image ∧ s.boot.act = none ∧ s.streaming = false)) :=
  ⟨given (cmd 0 (sqe 0x10 0 0x9)), 300, 1, 1, [], (given (cmd 0 (sqe 0x10 0 0x9))).downloaded, cmd 0 (sqe 0x10 0 0x9),
    .firmwareCommitReplace 300, adminOk (by decide +kernel), by decide +kernel, by decide +kernel, by decide, by decide,
    by decide +kernel, by decide +kernel, .inl ⟨by decide, rfl, rfl⟩⟩

theorem wit_FirmwareCommandsAct_2 : ∃ (s : State) (tag : Nat) (slot : Nat) (image : List Byte) (b : List Byte) (k : Cmd), s.adminReady
    tag 0x10 k ∧ natBits k.e.d10.toNat 3 3 = 3 ∧ slot = s.fwSlot k ∧ 1 ≤ slot ∧ slot ≤ 2 ∧ s.kpr.queue.any isCommit = false ∧
    s.boot.act = none ∧ s.streaming = true ∧ b = (mapFind s.boot.slots slot).getD image ∧ sectionOf b 0x0402 ≠ s.boot.rtCode ∧
    s.postable tag k :=
  ⟨put (booted (cmd 0 (sqe 0x10 0 0x19)) fun b => { b with rtCode := [1] }) pTpi Reg.TPI_STAT 16 1 1, 300, 1, [], [], cmd 0 (sqe 0x10 0
    0x19), adminOk (by decide +kernel), by decide +kernel, by decide +kernel, by decide +kernel, by decide +kernel, by decide +kernel,
    by decide +kernel, by decide +kernel, by decide +kernel, by decide +kernel, posts (by decide +kernel)⟩

theorem wit_FirmwareCommandsAct_3 : ∃ (s : State) (tag : Nat) (act : Nat) (slot : Nat) (image : List Byte) (x : JItem) (r : List JItem),
    s.kpr.queue = x :: r ∧ s.kpr.fuses.lcs ≠ 0 ∧ x.change = .commit tag act slot image :=
  ⟨owning [⟨3, 0, [], .commit 300 2 1 [5], 3, 0⟩], 300, 2, 1, [5], ⟨3, 0, [], .commit 300 2 1 [5], 3, 0⟩, [], by decide +kernel⟩

theorem wit_FirmwareCommandsAct_4 : ∃ (s : State) (t0 : Nat) (tag : Nat) (slot : Nat), s.boot.act = some (t0, tag, slot) :=
  ⟨booted (cmd 0 (sqe 0x10 0 0x19)) fun b => { b with act := some (5, 300, 1) }, 5, 300, 1, by decide +kernel⟩

theorem wit_ReportAndEventCommandsAct_0 : ∃ (s : State) (tag : Nat) (k : Cmd) (b : _) (n : _), s.adminReady tag 6 k ∧
    s.identData k = (some b, n) :=
  ⟨given (cmd 0 (sqe 0x6 0 0x2)), 300, cmd 0 (sqe 0x6 0 0x2), ((given (cmd 0 (sqe 0x6 0 0x2))).identData (cmd 0 (sqe 0x6 0 0x2))).1.getD
    [], ((given (cmd 0 (sqe 0x6 0 0x2))).identData (cmd 0 (sqe 0x6 0 0x2))).2, adminOk (by decide +kernel), pair_some (by decide +kernel)⟩

theorem wit_ReportAndEventCommandsAct_1 : ∃ (s : State) (tag : Nat) (k : Cmd) (sc : _), s.adminReady tag 6 k ∧
    s.identData k = (none, sc) ∧ s.postable tag k :=
  ⟨given (cmd 0 (sqe 0x6 0 0x7e)), 300, cmd 0 (sqe 0x6 0 0x7e), ((given (cmd 0 (sqe 0x6 0 0x7e))).identData (cmd 0 (sqe 0x6 0 0x7e))).2,
    adminOk (by decide +kernel), by decide +kernel, posts (by decide +kernel)⟩

theorem wit_ReportAndEventCommandsAct_2 : ∃ (s : State) (u : Tunnel), s.miPort u.port = true ∧ s.slotEnabled u.ctrl = true ∧
    u.e.opc = 6 ∧ u.e.d10.toNat % 256 = 1 :=
  ⟨hosted, ⟨1, 0, 0, sqe 6 0 1⟩, by decide +kernel⟩

theorem wit_ReportAndEventCommandsAct_3 : ∃ (s : State) (u : State) (tag : Nat) (lo : Nat) (n : Nat) (k : Cmd) (b : List Byte),
    s.adminReady tag 2 k ∧ n = 4 * (natBits k.e.d10.toNat 16 16 + natBits k.e.d11.toNat 0 16 * 2 ^ 16 + 1) ∧ n ≤ 2097152 ∧
    lo = k.e.d12.toNat + k.e.d13.toNat * 2 ^ 32 ∧ lo % 4 = 0 ∧ k.e.d14.getLsbD 23 = false ∧ s.fresh.logData k lo n = some (u, b) :=
  ⟨given (cmd 0 (sqe 0x2 0 0x30003)), slotLog.1, 300, 0, 16, cmd 0 (sqe 0x2 0 0x30003), slotLog.2, adminOk (by decide +kernel),
    by decide +kernel, by decide +kernel, by decide +kernel, by decide +kernel, by decide +kernel, getD_eq (by decide +kernel)⟩

theorem wit_ReportAndEventCommandsAct_4 : ∃ (s : State) (p : Fin 3), s.miPort p = true :=
  ⟨hosted, 0, by decide +kernel⟩

theorem wit_ReportAndEventCommandsAct_5 : ∃ (s : State) (p : Fin 3) (portId : Nat), s.miPort p = true ∧
    s.miPorts.contains portId = false :=
  ⟨hosted, 0, 7, by decide +kernel⟩

theorem wit_ReportAndEventCommandsAct_6 : ∃ (s : State) (p : Fin 3) (d : _), s.miPort p = true ∧ 5 ≤ d :=
  ⟨hosted, 0, 5, by decide +kernel⟩

theorem wit_ReportAndEventCommandsAct_7 : ∃ (s : State) (p : Fin 3), s.miPort p = true :=
  ⟨hosted, 0, by decide +kernel⟩

theorem wit_ReportAndEventCommandsAct_8 : ∃ (s : State) (p : Fin 3) (start : Nat) (most : Nat) (l : List Nat), s.miPort p = true ∧
    l = (s.allCtrls.filter (start ≤ ·)).take (min most 255) :=
  ⟨hosted, 0, 0, 9, (hosted.allCtrls.filter (0 ≤ ·)).take (min 9 255), by decide +kernel⟩

theorem wit_ReportAndEventCommandsAct_9 : ∃ (s : State) (p : Fin 3) (w : BitVec 32) (v : BitVec 32) (port : Nat) (m : Nat) (f : Nat),
    s.miPort p = true ∧ port = natBits w.toNat 24 8 ∧ f = natBits w.toNat 8 4 ∧ m = natBits v.toNat 0 16 ∧ w.toNat % 256 = 1 ∧ port = 2 :=
  ⟨hosted, 0, 0x02000001, 0, 2, 0, 0, by decide +kernel⟩

theorem wit_ReportAndEventCommandsAct_10 : ∃ (s : State) (p : Fin 3) (w : BitVec 32) (v : BitVec 32) (port : Nat) (m : Nat) (f : Nat),
    s.miPort p = true ∧ port = natBits w.toNat 24 8 ∧ f = natBits w.toNat 8 4 ∧ m = natBits v.toNat 0 16 ∧ w.toNat % 256 = 1 ∧ port = 2 ∧
    1 ≤ f ∧ f ≤ 3 :=
  ⟨hosted, 0, 0x02000201, 0, 2, 0, 2, by decide +kernel⟩

theorem wit_ReportAndEventCommandsAct_11 : ∃ (s : State) (p : Fin 3) (w : BitVec 32) (v : BitVec 32) (port : Nat) (m : Nat) (f : Nat),
    s.miPort p = true ∧ port = natBits w.toNat 24 8 ∧ f = natBits w.toNat 8 4 ∧ m = natBits v.toNat 0 16 ∧ w.toNat % 256 = 3 ∧
    s.miPorts.contains port = true :=
  ⟨hosted, 0, 0x01000003, 0, 1, 0, 0, by decide +kernel⟩

theorem wit_ReportAndEventCommandsAct_12 : ∃ (s : State) (p : Fin 3) (w : BitVec 32) (v : BitVec 32) (port : Nat) (m : Nat) (f : Nat),
    s.miPort p = true ∧ port = natBits w.toNat 24 8 ∧ f = natBits w.toNat 8 4 ∧ m = natBits v.toNat 0 16 ∧ w.toNat % 256 = 3 ∧
    s.miPorts.contains port = true ∧ 64 ≤ m ∧ m ≤ max 64 (Config.maxMtu port).toNat :=
  ⟨hosted, 0, 0x01000003, 64, 1, 64, 0, by decide +kernel, by decide, by decide, by decide, by decide, by decide +kernel, by decide,
    Nat.le_max_left _ _⟩

theorem wit_ReportAndEventCommandsAct_13 : ∃ (s : State) (p : Fin 3) (w : BitVec 32) (v : BitVec 32) (port : Nat) (m : Nat) (f : Nat),
    s.miPort p = true ∧ port = natBits w.toNat 24 8 ∧ f = natBits w.toNat 8 4 ∧ m = natBits v.toNat 0 16 ∧ 4 ≤ w.toNat % 256 :=
  ⟨hosted, 0, 0x01000004, 0, 1, 0, 0, by decide +kernel⟩

theorem wit_ReportAndEventCommandsAct_14 : ∃ (s : State) (p : Fin 3) (ofs : Nat) (len : Nat), s.miPort p = true ∧ ofs + len ≤ vpdSize :=
  ⟨hosted, 0, 8, 4, by decide +kernel⟩

theorem wit_ReportAndEventCommandsAct_15 : ∃ (s : State) (p : Fin 3) (ofs : Nat) (len : Nat), s.miPort p = true ∧ vpdSize < ofs + len :=
  ⟨hosted, 0, 4095, 2, by decide +kernel⟩

theorem wit_ReportAndEventCommandsAct_16 : ∃ (s : State) (p : Fin 3) (ofs : Nat) (data : List Byte), s.miPort p = true ∧
    ofs + data.length ≤ vpdSize :=
  ⟨hosted, 0, 8, [1, 2], by decide +kernel⟩

theorem wit_ReportAndEventCommandsAct_17 : ∃ (s : State) (p : Fin 3) (ofs : Nat) (data : List Byte), s.miPort p = true ∧
    vpdSize < ofs + data.length :=
  ⟨hosted, 0, 4095, [1, 2], by decide +kernel⟩

theorem wit_ReportAndEventCommandsAct_18 : ∃ (s : State) (p : Fin 3), s.miPort p = true ∧ s.bootFailed = false ∧
    (6 ≤ s.bootCode ∨ s.bit pPcr Reg.PCR_RST 0 = true) :=
  ⟨put hosted pPcr Reg.PCR_BOOT 0 4 6, 0, by decide +kernel⟩

theorem wit_ReportAndEventCommandsAct_19 : ∃ (s : State) (p : Fin 3) (typ : _), s.miPort p = true ∧ typ ≠ 0 :=
  ⟨hosted, 0, 1, by decide +kernel⟩

theorem wit_ReportAndEventCommandsAct_20 : ∃ (s : State) (p : Fin 3) (eid : BitVec 8), s.miPort p = true ∧ eid ≠ 0 ∧ eid ≠ 0xFF :=
  ⟨hosted, 0, 9, by decide +kernel⟩

theorem wit_ReportAndEventCommandsAct_21 : ∃ (s : State) (p : Fin 3) (eid : BitVec 8), s.miPort p = true ∧ (eid = 0 ∨ eid = 0xFF) :=
  ⟨hosted, 0, 0xFF, by decide +kernel⟩

theorem wit_ReportAndEventCommandsAct_22 : ∃ (s : State) (n : Fin 256) (r : RegWord) (tw : Nat), r = s.route (0xF00 + n) ∧
    tw = s.rg64 (pEvf + 9) (Reg.EVF_TGT (bitsOf r 8 6)) :=
  ⟨State.reset, 3, State.reset.route 0xF03, State.reset.rg64 (pEvf + 9) (Reg.EVF_TGT (bitsOf (State.reset.route 0xF03) 8 6)), rfl, rfl⟩

theorem wit_TapeAndStorageCommandsKeep_0 : ∃ (i : Instr) (s : State) (t : State), exec i s = .next t :=
  ⟨.lockLoss 3 [], State.reset, after (.lockLoss 3 []), after_eq (by decide +kernel)⟩

theorem wit_EngineCommandsKeep_0 : ∃ (i : Instr) (s : State) (t : State), exec i s = .next t :=
  ⟨.coreRun .keeper, State.reset, after (.coreRun .keeper), after_eq (by decide +kernel)⟩

theorem wit_HostCommandsKeep_0 : ∃ (i : Instr) (s : State) (t : State), exec i s = .next t :=
  ⟨.destageStart, State.reset, after (.destageStart), after_eq (by decide +kernel)⟩

theorem wit_ManagementCommandsKeep_0 : ∃ (i : Instr) (s : State) (t : State), exec i s = .next t :=
  ⟨.softResetDone 0x300, State.reset, after (.softResetDone 0x300), after_eq (by decide +kernel)⟩

theorem wit_RegistersOfOtherBlocksKeep_0 : ∃ (i : Instr) (s : State) (t : State) (o : Nat), o < 4096 ∧ exec i s = .next t :=
  ⟨.destageStart, State.reset, after .destageStart, 2, by decide, after_eq (by decide +kernel)⟩

end Sys2Proof.Tests
end

/-! # Rejected writes (chapter 2, R43, R51)

A write with a reserved encoding ends in `State.badWrite`, which writes BAD_WR_CNT of the block's header and raises its local source 0.
The facts come in that order: fields of a register word, fields of the register store, the header of a block, the rejected write, and the
one-word register write that ends in it. -/

namespace Sys2Proof.Machine

/-! ### Fields of a register word -/

theorem testBit_bitsOf (w : RegWord) (lo len i : Nat) : (bitsOf w lo len).testBit i = (decide (i < len) && w.getLsbD (lo + i)) := by
  simp [bitsOf, natBits, Nat.testBit_mod_two_pow, Nat.testBit_div_two_pow, BitVec.getLsbD, Nat.add_comm]

theorem getLsbD_maskOf (lo len j : Nat) : (maskOf lo len).getLsbD j = decide (j < 32 ∧ lo ≤ j ∧ j < lo + len) := by
  simp only [maskOf, BitVec.getLsbD_shiftLeft, BitVec.getLsbD_ofNat, Nat.testBit_two_pow_sub_one, ← Bool.decide_and, ← decide_not,
    decide_eq_decide]
  omega

/-- A bit of a word after a field of it is replaced: inside the field the bit of the new value, outside it the old bit. -/
theorem getLsbD_putBits (w : RegWord) {lo len : Nat} (v j : Nat) (h : lo + len ≤ 32) :
    (putBits w lo len v).getLsbD j = if lo ≤ j ∧ j < lo + len then v.testBit (j - lo) else w.getLsbD j := by
  simp only [putBits, BitVec.getLsbD_or, BitVec.getLsbD_and, BitVec.getLsbD_not, getLsbD_maskOf, BitVec.getLsbD_shiftLeft,
    BitVec.getLsbD_ofNat, Nat.testBit_mod_two_pow]
  split
  · have : j < 32 ∧ j - lo < 32 ∧ j - lo < len ∧ ¬ j < lo := by omega
    simp [*]
  · rename_i out
    by_cases hj : j < 32
    · have : j < lo ∨ ¬ j - lo < len := by omega
      rcases this with hlo | hlen <;> simp [*]
    · simp [hj, BitVec.getLsbD_of_ge w j (by omega)]

theorem bitsOf_putBits_self (w : RegWord) {lo len : Nat} (v : Nat) (h : lo + len ≤ 32) : bitsOf (putBits w lo len v) lo len = v % 2 ^ len := by
  refine Nat.eq_of_testBit_eq fun i => ?_
  rw [testBit_bitsOf, getLsbD_putBits w v _ h, Nat.testBit_mod_two_pow]
  by_cases hi : i < len <;> simp [hi]

theorem bitsOf_putBits_of_disjoint (w : RegWord) {lo len lo' len' : Nat} (v : Nat) (h : lo + len ≤ 32)
    (apart : lo' + len' ≤ lo ∨ lo + len ≤ lo') : bitsOf (putBits w lo len v) lo' len' = bitsOf w lo' len' := by
  refine Nat.eq_of_testBit_eq fun i => ?_
  simp only [testBit_bitsOf, getLsbD_putBits w v _ h]
  by_cases hi : i < len'
  · rw [if_neg (by omega)]
  · simp [hi]

/-! ### Fields of the register store -/

theorem fget_fset_self (s : State) (p o : Nat) {lo len : Nat} (v : Nat) (h : lo + len ≤ 32) :
    (s.fset p o lo len v).fget p o lo len = v % 2 ^ len := by
  simp [State.fget, bitsOf_putBits_self _ _ h]

theorem fget_fset_of_disjoint (s : State) (p o : Nat) {lo len lo' len' : Nat} (v : Nat) (h : lo + len ≤ 32)
    (apart : lo' + len' ≤ lo ∨ lo + len ≤ lo') : (s.fset p o lo len v).fget p o lo' len' = s.fget p o lo' len' := by
  simp [State.fget, bitsOf_putBits_of_disjoint _ _ h apart]

theorem fget_cntSat_self (s : State) (p o : Nat) {lo len : Nat} (k : Nat) (h : lo + len ≤ 32) :
    (s.cntSat p o lo len k).fget p o lo len = min (2 ^ len - 1) (s.fget p o lo len + k) := by
  have below : min (2 ^ len - 1) (s.fget p o lo len + k) < 2 ^ len := by have := Nat.two_pow_pos len; omega
  rw [State.cntSat, fget_fset_self _ _ _ _ h, satAdd, Nat.mod_eq_of_lt below]

theorem rg_cntSat_of_ne (s : State) {p o q r : Nat} (lo len k : Nat) (h : regKey q r ≠ regKey p o) :
    (s.cntSat p o lo len k).rg q r = s.rg q r := State.rg_fset_ne s _ _ _ h

/-! ### The header of a block -/

/-- The block that owns a page is one of *Page assignment*. -/
theorem mem_allBlks_of_blkAt {page : Nat} {b : Blk} (h : blkAt page = some b) : b ∈ allBlks := by
  obtain ⟨row, hrow, hat⟩ := List.exists_of_findSome?_eq_some h
  simp only [BlkRow.at?, Option.ite_none_right_eq_some, Option.some.injEq] at hat
  obtain ⟨hpage, hb⟩ := hat
  have hinst : (page - row.base) / row.pages < row.inst := Nat.div_lt_of_lt_mul (by omega)
  exact List.mem_flatMap.mpr ⟨row, hrow, List.mem_map.mpr ⟨_, List.mem_range.mpr hinst, hb⟩⟩

/-- The first page of a block belongs to the block. -/
theorem blkAt_base {page : Nat} {b : Blk} (h : blkAt page = some b) : blkAt b.base = some b := by
  have first : ∀ b ∈ allBlks, blkAt b.base = some b := by decide
  exact first b (mem_allBlks_of_blkAt h)

/-- Registers at different word offsets of their pages are different registers. -/
theorem regKey_ne_of_off {p o q r : Nat} (h : o / 4 % 1024 ≠ r / 4 % 1024) : regKey p o ≠ regKey q r := by
  unfold regKey; omega

/-! ### The rejected write -/

/-- A rejected write changes BAD_WR_CNT, EVT_PEND and EVF ERR_CNT[3], and no other register. -/
theorem badWrite_rg (s : State) {page : Nat} {b : Blk} (hb : blkAt page = some b) (off cause : Nat) {p o : Nat}
    (hcnt : regKey p o ≠ regKey b.base Reg.BAD_WR_CNT) (hpend : regKey p o ≠ regKey b.base Reg.EVT_PEND)
    (herr : regKey p o ≠ regKey pEvf (Reg.ERR_CNT 3)) : (s.badWrite b.base off cause).rg p o = s.rg p o := by
  have pend : ∀ c, blkAt b.base = some c → regKey p o ≠ regKey c.base Reg.EVT_PEND := fun c hc => by
    obtain rfl : b = c := Option.some.inj ((blkAt_base hb).symm.trans hc)
    exact hpend
  unfold State.badWrite
  rw [raise_rg _ _ _ _ _ herr pend, State.rg_fset_ne _ _ _ _ hcnt, State.rg_fset_ne _ _ _ _ hcnt, rg_cntSat_of_ne _ _ _ _ hcnt]

@[simp] theorem badWrite_shadows (s : State) (pg off cause : Nat) : (s.badWrite pg off cause).shadows = s.shadows := by
  simp [State.badWrite, State.cntSat]

@[simp] theorem badWrite_blks (s : State) (pg off cause : Nat) : (s.badWrite pg off cause).blks = s.blks := by
  simp [State.badWrite, State.cntSat]

/-- Raising the event does not disturb what BAD_WR_CNT has logged. -/
theorem badWrite_fget (s : State) (pg off cause lo len : Nat) :
    (s.badWrite pg off cause).fget pg Reg.BAD_WR_CNT lo len
      = (((s.cntSat pg Reg.BAD_WR_CNT 0 16 1).fset pg Reg.BAD_WR_CNT 16 12 off).fset pg Reg.BAD_WR_CNT 28 2 cause).fget
          pg Reg.BAD_WR_CNT lo len := by
  unfold State.badWrite State.fget
  rw [raise_rg _ _ _ _ _ (regKey_ne_of_off (by decide)) (fun _ _ => regKey_ne_of_off (by decide))]

theorem badWrite_count (s : State) (pg off cause : Nat) :
    (s.badWrite pg off cause).fget pg Reg.BAD_WR_CNT 0 16 = min 0xFFFF (s.fget pg Reg.BAD_WR_CNT 0 16 + 1) := by
  rw [badWrite_fget, fget_fset_of_disjoint _ _ _ _ (by decide) (by decide), fget_fset_of_disjoint _ _ _ _ (by decide) (by decide)]
  exact fget_cntSat_self _ _ _ _ (by decide)

theorem badWrite_offset (s : State) (pg cause : Nat) {off : Nat} (hoff : off < 4096) :
    (s.badWrite pg off cause).fget pg Reg.BAD_WR_CNT 16 12 = off := by
  rw [badWrite_fget, fget_fset_of_disjoint _ _ _ _ (by decide) (by decide), fget_fset_self _ _ _ _ (by decide)]
  exact Nat.mod_eq_of_lt hoff

theorem badWrite_cause (s : State) (pg off : Nat) {cause : Nat} (hcause : cause < 4) :
    (s.badWrite pg off cause).fget pg Reg.BAD_WR_CNT 28 2 = cause := by
  rw [badWrite_fget, fget_fset_self _ _ _ _ (by decide)]
  exact Nat.mod_eq_of_lt hcause

theorem badWrite_pend (s : State) {page : Nat} {b : Blk} (hb : blkAt page = some b) (off cause : Nat) :
    (s.badWrite b.base off cause).bit b.base Reg.EVT_PEND 0 = true := by
  unfold State.badWrite State.bit State.fget
  rw [raise_pend _ _ _ b (blkAt_base hb) (regKey_ne_of_off (by decide)), bitsOf_putBits_self _ _ (by decide)]
  rfl

/-! ### The write -/

/-- Whether a write is rejected does not depend on what earlier commands sent out. -/
theorem badEnc_fresh (s : State) (r : Requester) (b : Blk) (pg off : Nat) (v : RegWord) :
    s.fresh.badEnc r b pg off v = s.badEnc r b pg off v := rfl

/-- No write to a KPR register is judged by its encoding but the Keeper's own: any other requester meets a locked register (R51, R52). -/
theorem req_eq_keeper_of_badEnc_kpr {s : State} {r : Requester} {b : Blk} {pg off : Nat} {v : RegWord} (hk : b.typ = .kpr)
    (hoff : 0x080 ≤ off) (h : s.badEnc r b pg off v = true) : r = .core .keeper := by
  have hne : off ≠ Reg.BLK_CTRL ∧ off ≠ Reg.STG_CTRL ∧ ¬ off < 0x080 := by simp only [Reg.BLK_CTRL, Reg.STG_CTRL]; omega
  simp only [State.badEnc, hk, hne, if_false, Bool.and_eq_true, beq_iff_eq] at h
  exact h.1.1.1

/-- A write of a reserved encoding to a defined register is rejected with cause 1. -/
theorem regWrite32_of_badEnc {s : State} {r : Requester} {page off : Nat} {b : Blk} {v : RegWord} (hb : blkAt page = some b)
    (hdef : (fldsOf b (if off < 0x080 then 0 else page - b.base) off).isEmpty = false)
    (hbad : s.badEnc r b (if off < 0x080 then 0 else page - b.base) off v = true) :
    s.regWrite32 r page off v = s.badWrite b.base off 1 := by
  have keeper : ¬ (b.typ = .kpr ∧ 0x080 ≤ off ∧ r ≠ .core .keeper) := fun ⟨hk, ho, hr⟩ => hr (req_eq_keeper_of_badEnc_kpr hk ho hbad)
  simp only [State.regWrite32, hb, hdef, if_neg keeper, hbad, if_true, Bool.false_eq_true, if_false]

/-- An aligned word at offset `o` of the register space is one register (R34). -/
theorem regWrite_word (s : State) (r : Requester) {page off : Nat} (v : BitVec 32) (hoff : off < 4096) (halign : off % 4 = 0) :
    s.regWrite r (page * 4096 + off) 4 v.toNat = (s.regWrite32 r page off v, true) := by
  have aligned : 4 = 4 ∧ (page * 4096 + off) % 4 = 0 := by omega
  have hpage : (page * 4096 + off) / 4096 = page := by omega
  have hrest : (page * 4096 + off) % 4096 = off := by omega
  rw [State.regWrite, if_pos aligned, hpage, hrest, BitVec.ofNat_toNat, BitVec.setWidth_eq]

/-- REGISTER_WRITE of one word at a device address does what the write at its offset in the register space does (R31). -/
theorem exec_registerWrite_of_regWrite {s t : State} {r : Requester} {o : Nat} {v : BitVec 64} (hlive : s.live = true) (ho : o < regSize)
    (h : s.fresh.regWrite r o 4 v.toNat = (t, true)) :
    exec (.registerWrite (.dev r) (regBase + o) false v) s = .next (s.leaveQueue t) := by
  have inside : ¬ (regBase + o < regBase ∨ regBase + regSize ≤ regBase + o) := by omega
  have row : exec (.registerWrite (.dev r) (regBase + o) false v) s = execRegisterWrite (.dev r) (regBase + o) false v s := rfl
  rw [row, execRegisterWrite, next_live _ _ hlive]
  simp only [if_neg inside, Nat.add_sub_cancel_left, Bool.false_eq_true, if_false, h]

/-- REGISTER_WRITE of one word at a device address writes the register that the address names (R34). -/
theorem exec_registerWrite_word {s : State} (r : Requester) {page off : Nat} (v : BitVec 32) (hlive : s.live = true) (hpage : page < 4096)
    (hoff : off < 4096) (halign : off % 4 = 0) :
    exec (.registerWrite (.dev r) (regBase + page * 4096 + off) false (v.setWidth 64)) s
      = .next (s.leaveQueue (s.fresh.regWrite32 r page off v)) := by
  have inSpace : page * 4096 + off < regSize := by simp only [regSize]; omega
  have hval : (v.setWidth 64).toNat = v.toNat := BitVec.toNat_setWidth_of_le (by decide)
  rw [Nat.add_assoc]
  exact exec_registerWrite_of_regWrite hlive inSpace (hval ▸ regWrite_word s.fresh r v hoff halign)

/-- COMMIT and ABORT together in STG_CTRL are a reserved encoding (R43). -/
theorem badEnc_commit_abort (s : State) (r : Requester) (b : Blk) (pg : Nat) {v : RegWord} (hcommit : v.getLsbD 0 = true)
    (habort : v.getLsbD 1 = true) : s.badEnc r b pg Reg.STG_CTRL v = true := by
  have both : bitsOf v 0 2 = 3 := Nat.eq_of_testBit_eq fun i => by
    rw [testBit_bitsOf]
    match i with
    | 0 => exact hcommit
    | 1 => exact habort
    | i + 2 => simp [Nat.testBit_succ]
  simp [State.badEnc, both, Reg.STG_CTRL, Reg.BLK_CTRL]

/-- Settles O8: the write is `State.badWrite` with cause 1, and the two parts of R51, what is kept and what is logged, are its laws. -/
theorem reservedEncodingsAreRejected : Obligations.ReservedEncodingsAreRejected := by
  unfold Obligations.ReservedEncodingsAreRejected
  intro s r page off b v hb hpage hoff halign
  refine ⟨fun hdef hbad hlive => ?_, ?_⟩
  · have rejected : s.fresh.regWrite32 r page off v = s.fresh.badWrite b.base off 1 :=
      regWrite32_of_badEnc hb hdef ((badEnc_fresh s r b _ off v).trans hbad)
    refine ⟨_, exec_registerWrite_word r v hlive hpage hoff halign, ?_⟩
    rw [rejected]
    refine ⟨fun q o hkey => ?_, badWrite_shadows s.fresh _ _ _, badWrite_blks s.fresh _ _ _, badWrite_count s.fresh _ off 1,
      badWrite_offset s.fresh _ 1 hoff, badWrite_cause s.fresh _ off (by decide), badWrite_pend s.fresh hb off 1⟩
    simp only [List.mem_cons, List.not_mem_nil, or_false, not_or] at hkey
    obtain ⟨hcnt, hpend, herr⟩ := hkey
    exact badWrite_rg s.fresh hb off 1 hcnt hpend herr
  · rintro rfl hcommit habort
    exact badEnc_commit_abort s r b _ hcommit habort

end Sys2Proof.Machine

/-! # Division corners (chapter 10, R282)

Every integer instruction of register format is `State.intStep` with an operation `op`, and so goes on to the next instruction with the
result of `op` in g[rd]. What R282 adds is what the four division operations give in the corners. -/

namespace Sys2Proof.Machine

/-! ### An integer instruction -/

theorem gr_setG_self (c : Core) (r : Nat) (v : Word) : (c.setG r v).gr r = if r = 0 then 0 else v := by
  unfold Core.setG
  split <;> simp [Core.gr, *]

/-- The core with the result and the flags of an integer operation, before it goes on (R281, R284). -/
def Core.intResult (x : Core) (f : FmtA) (op : Word → Word → Bool → Alu) : Core :=
  let y := op (x.gr f.ra.toNat) (x.gr f.rb.toNat) (psC x.ps)
  { x.setG f.rd.toNat y.r with ps := if f.s then y.flags x.ps else x.ps }

theorem intResult_pc (x : Core) (f : FmtA) (op : Word → Word → Bool → Alu) : (x.intResult f op).pc = x.pc := by
  unfold Core.intResult Core.setG
  split <;> rfl

/-- g[rd] holds the result; g0 discards it (R256). -/
theorem intResult_rd (x : Core) (f : FmtA) (op : Word → Word → Bool → Alu) :
    (x.intResult f op).gr f.rd.toNat = if f.rd = 0 then 0 else (op (x.gr f.ra.toNat) (x.gr f.rb.toNat) (psC x.ps)).r := by
  have rd_zero : f.rd.toNat = 0 ↔ f.rd = 0 := BitVec.toNat_inj (y := 0)
  exact (gr_setG_self x _ _).trans (by simp only [rd_zero])

/-- A core that takes its integer instruction takes no trap and goes on with the result. -/
theorem intStep_ready {s : State} {c : CoreId} (h : s.ready (coreNum c)) (func : Nat) (f : FmtA) (op : Word → Word → Bool → Alu) :
    next (fun s => s.intStep c func f true op) s
      = s.coreDone (coreNum c) (((s.atFetch (coreNum c)).core (coreNum c)).intResult f op).advance :=
  coreBody_ready h (fun _ => ill3 true) (encInt func f) (fun x => x.intResult f op) rfl

/-- What R281 says of a command whose row is an integer instruction: the next instruction follows, and g[rd] holds the result. -/
theorem exec_intStep_writes {s : State} {c : CoreId} {i : Instr} {func : Nat} (f : FmtA) (op : Word → Word → Bool → Alu)
    (h : s.ready (coreNum c)) (row : exec i s = next (fun s => s.intStep c func f true op) s) :
    let x := (s.atFetch (coreNum c)).core (coreNum c)
    ∃ y, exec i s = s.coreDone (coreNum c) y ∧ y.pc = x.pc + 4
      ∧ y.gr f.rd.toNat = if f.rd = 0 then 0 else (op (x.gr f.ra.toNat) (x.gr f.rb.toNat) (psC x.ps)).r :=
  ⟨_, row.trans (intStep_ready h func f op), congrArg (· + 4) (intResult_pc _ f op), intResult_rd _ f op⟩

/-! ### The table of R282 -/

theorem aluDivu_zero (a : Word) : (aluDivu a 0).r = 0xFFFF_FFFF_FFFF_FFFF := rfl
theorem aluRemu_zero (a : Word) : (aluRemu a 0).r = a := rfl
theorem aluDivs_zero (a : Word) : (aluDivs a 0).r = -1 := rfl
theorem aluRems_zero (a : Word) : (aluRems a 0).r = a := rfl
theorem aluDivs_overflow : (aluDivs 0x8000_0000_0000_0000 (-1)).r = 0x8000_0000_0000_0000 := by decide
theorem aluRems_overflow : (aluRems 0x8000_0000_0000_0000 (-1)).r = 0 := by decide

/-- Settles O11: each division is an integer instruction, whose result in a corner is that of the table. -/
theorem divisionCorners : Obligations.DivisionCorners := by
  unfold Obligations.DivisionCorners
  intro s c f hready x a b gives
  have divu : gives (.divu c f) (aluDivu a b).r := exec_intStep_writes f (fun a b _ => aluDivu a b) hready rfl
  have remu : gives (.remu c f) (aluRemu a b).r := exec_intStep_writes f (fun a b _ => aluRemu a b) hready rfl
  have divs : gives (.divs c f) (aluDivs a b).r := exec_intStep_writes f (fun a b _ => aluDivs a b) hready rfl
  have rems : gives (.rems c f) (aluRems a b).r := exec_intStep_writes f (fun a b _ => aluRems a b) hready rfl
  refine ⟨fun hb => ?_, fun ha hb => ?_⟩
  · rw [hb] at divu remu divs rems
    exact ⟨aluDivu_zero a ▸ divu, aluRemu_zero a ▸ remu, aluDivs_zero a ▸ divs, aluRems_zero a ▸ rems⟩
  · rw [ha, hb] at divs rems
    exact ⟨aluDivs_overflow ▸ divs, aluRems_overflow ▸ rems⟩

end Sys2Proof.Machine

/-! # The reset state of a core (chapter 10, R264; chapter 12, R313)

CORE_RESET and CORE_RUN both put `coreDefault` in place of the core, but for its mode and its pc. CORE_CTRL.RUN, which both write, is
no part of the core. -/

namespace Sys2Proof.Machine

/-- The last offset of a local store, which limits w0, fits a word. -/
theorem toNat_localLimit (k : Nat) : (BitVec.ofNat 64 (localSizeOf k - 1)).toNat = localSizeOf k - 1 := by
  unfold localSizeOf
  split
  · rfl
  · split <;> rfl

/-- A core that is as `coreDefault` gives it, but for its mode and its pc, has the state of R264. -/
theorem coreFresh_of_core_eq {s : State} {k : Nat} {m : CoreMode} {p : Word}
    (h : s.core k = { coreDefault k with mode := m, pc := p }) : s.coreFresh k := by
  have bits : ∀ b, b < 4096 → s.bitGet k b = false := fun b hb => by
    simp [State.bitGet, hb, h, coreDefault, zeroWord]
  have windows : ∀ w, 1 ≤ w → w < 16 → ((s.core k).wa w).getLsbD 0 = false := fun w hw _ => by
    have apart : 0 ≠ w := by omega
    simp [h, Core.wa, coreDefault, mapGet, mapFind, apart, zeroWord]
  have regs : ∀ r, (s.core k).gr r = 0 ∧ (s.core k).vr r = 0 := fun r => by
    simp [h, Core.gr, Core.vr, coreDefault, zeroWord]
  have limit : (s.core k).wl 0 = localSizeOf k - 1 := by
    rw [h]
    exact toNat_localLimit k
  refine ⟨?_, ?_, regs, bits, ?_, limit, ?_, windows⟩ <;> rw [h] <;> rfl

/-- The registers of a core entry are not part of the core. -/
@[simp] theorem setCoreFld_core (s : State) (k w lo len v j : Nat) : (s.setCoreFld k w lo len v).core j = s.core j := by
  unfold State.setCoreFld
  split <;> rfl

/-- A reset core is as `coreDefault` gives it, whatever it ran before. -/
theorem coreReset_core (s : State) (k : Nat) : (s.coreReset k).core k = coreDefault k := by
  rw [State.coreReset, setCoreFld_core, core_setCore_self]
  rfl

/-- Setting RUN of a core entry leaves its START offset. -/
theorem setCoreFld_start (s : State) {k pg e : Nat} (he : coreEntry k = some (pg, e)) (lo len v : Nat) :
    (s.setCoreFld k 0 lo len v).rg (pg + 1) (Reg.CORE e 4) = s.rg (pg + 1) (Reg.CORE e 4) := by
  have apart : regKey (pg + 1) (Reg.CORE e 4) ≠ regKey (pg + 1) (Reg.CORE e 0) :=
    regKey_ne_of_off (by simp only [Reg.CORE]; omega)
  simp only [State.setCoreFld, he]
  exact State.rg_fset_ne s _ _ _ apart

/-- A core that is run from reset is as `coreDefault` gives it, running at its START offset. -/
theorem coreRun_core (s : State) {k pg e : Nat} (he : coreEntry k = some (pg, e)) (hmode : (s.core k).mode = .inReset) :
    (s.coreRun k).core k = { coreDefault k with mode := .running, pc := (s.rg (pg + 1) (Reg.CORE e 4)).setWidth 64 } := by
  simp only [State.coreRun, setCoreFld_core, hmode, if_true, core_setCore_self, he, setCoreFld_start s he, BitVec.ofNat_toNat]

/-- Only the Keeper, which has no entry, runs out of power-on reset by itself (R313, R551). -/
theorem coreDefault_mode_of_entry {k : Nat} {q : Nat × Nat} (h : coreEntry k = some q) : (coreDefault k).mode = .inReset := by
  have not_keeper : k ≠ 40 := by
    rintro rfl
    cases h
  exact if_neg not_keeper

/-- CORE_RESET of a core with an entry does what resetting that core does. -/
theorem exec_coreReset_live {s : State} {c : CoreId} {q : Nat × Nat} (hlive : s.live = true) (he : coreEntry (coreNum c) = some q) :
    exec (.coreReset c) s = .next (s.leaveQueue (s.fresh.coreReset (coreNum c))) := by
  have row : exec (.coreReset c) s = execCoreReset c s := rfl
  rw [row, execCoreReset, next_live _ _ hlive, he, Option.isSome_some, if_pos rfl]

/-- CORE_RUN of a core with an entry does what running that core does. -/
theorem exec_coreRun_live {s : State} {c : CoreId} {q : Nat × Nat} (hlive : s.live = true) (he : coreEntry (coreNum c) = some q) :
    exec (.coreRun c) s = .next (s.leaveQueue (s.fresh.coreRun (coreNum c))) := by
  have row : exec (.coreRun c) s = execCoreRun c s := rfl
  rw [row, execCoreRun, next_live _ _ hlive, he, Option.isSome_some, if_pos rfl]

/-- Settles O7: in each of the three states the core is `coreDefault` but for its mode and its pc. -/
theorem coreResetState : Obligations.CoreResetState := by
  unfold Obligations.CoreResetState
  refine ⟨fun k _ => ?_, fun s c q he hlive => ?_, fun s c pg e he hmode hlive => ?_⟩
  · have unlisted : State.reset.core k = coreDefault k := rfl
    exact coreFresh_of_core_eq unlisted
  · have core := coreReset_core s.fresh (coreNum c)
    refine ⟨_, exec_coreReset_live hlive he, coreFresh_of_core_eq core, ?_⟩
    rw [leaveQueue_core, core, coreDefault_mode_of_entry he]
  · have core := coreRun_core s.fresh he hmode
    refine ⟨_, exec_coreRun_live hlive he, coreFresh_of_core_eq core, ?_⟩
    rw [leaveQueue_core, core]
    exact ⟨rfl, rfl⟩

end Sys2Proof.Machine

/-! # Branch conditions (chapter 10, R258, R284, R291)

BCC is `State.jumpStep`: a core that takes it traps, or goes on at the target and is otherwise as it was. What the conditions say after
a compare comes from the four flags, each read back from `Alu.flags`; the signed conditions turn on N ≠ V being the order of the operands. -/

namespace Sys2Proof.Machine

/-! ### The flags of an operation -/

theorem getLsbD_psPut (ps : Word) {i : Nat} (b : Bool) (j : Nat) (hi : i < 64) :
    (psPut ps i b).getLsbD j = if j = i then b else ps.getLsbD j := by
  have mask : (BitVec.ofNat 64 (2 ^ i)).getLsbD j = decide (j = i) := by
    rw [BitVec.getLsbD_ofNat, Nat.testBit_two_pow, ← Bool.decide_and, decide_eq_decide]
    omega
  cases b with
  | true =>
    rw [psPut, if_pos rfl, BitVec.getLsbD_or, mask]
    by_cases hj : j = i <;> simp [hj]
  | false =>
    have inside : (ps.getLsbD j && decide (j < 64)) = ps.getLsbD j := by
      by_cases hj : j < 64
      · simp [hj]
      · simp [BitVec.getLsbD_of_ge ps j (by omega)]
    rw [psPut, if_neg Bool.false_ne_true, BitVec.getLsbD_and, BitVec.getLsbD_not, mask, ← Bool.and_assoc, inside]
    by_cases hj : j = i <;> simp [hj]

/-- ps after an operation: Z and N follow the result, C and V the operation where it sets them, and every other bit stays (R284). -/
theorem getLsbD_flags (x : Alu) (ps : Word) (j : Nat) :
    (x.flags ps).getLsbD j =
      if j = 3 then x.v.getD (ps.getLsbD 3) else if j = 2 then x.c.getD (ps.getLsbD 2)
      else if j = 1 then x.r.msb else if j = 0 then x.r == 0 else ps.getLsbD j := by
  rw [BitVec.msb_eq_getLsbD_last]
  rcases x with ⟨r, _ | c, _ | v⟩ <;>
    simp (disch := decide) only [Alu.flags, getLsbD_psPut, Option.getD_some, Option.getD_none] <;> grind

@[simp] theorem psZ_flags (x : Alu) (ps : Word) : psZ (x.flags ps) = (x.r == 0) := getLsbD_flags x ps 0

@[simp] theorem psN_flags (x : Alu) (ps : Word) : psN (x.flags ps) = x.r.msb := getLsbD_flags x ps 1

@[simp] theorem psC_flags (x : Alu) (ps : Word) : psC (x.flags ps) = x.c.getD (psC ps) := getLsbD_flags x ps 2

@[simp] theorem psV_flags (x : Alu) (ps : Word) : psV (x.flags ps) = x.v.getD (psV ps) := getLsbD_flags x ps 3

/-! ### The order of the operands of a compare -/

/-- Z of a difference: the operands are equal. -/
theorem sub_beq_zero (a b : Word) : (a - b == 0) = decide (a = b) := by
  rw [Bool.beq_eq_decide_eq, decide_eq_decide]
  exact sub_eq_zero

/-- The difference of two words of one sign fits a word. -/
theorem toInt_sub_of_msb_eq {a b : Word} (h : a.msb = b.msb) : (a - b).toInt = a.toInt - b.toInt := by
  have ha := BitVec.toInt_lt (x := a)
  have ha' := BitVec.le_toInt a
  have hb := BitVec.toInt_lt (x := b)
  have hb' := BitVec.le_toInt b
  have sameSign : a.toInt < 0 ↔ b.toInt < 0 := by simpa only [BitVec.msb_eq_toInt, decide_eq_decide] using h
  rw [BitVec.toInt_sub]
  exact Int.bmod_eq_of_le (by omega) (by omega)

/-- N ≠ V of a difference: between operands of one sign V is 0 and N is the sign of the difference; otherwise N ≠ V is the sign of the
minuend, which alone decides. -/
theorem sub_sign_ne_overflow (a b : Word) :
    ((a - b).msb != (a.msb != b.msb && (a - b).msb != a.msb)) = decide (a.toInt < b.toInt) := by
  by_cases h : a.msb = b.msb
  · have sign : (a - b).msb = decide (a.toInt < b.toInt) := by
      rw [BitVec.msb_eq_toInt, toInt_sub_of_msb_eq h, decide_eq_decide]
      omega
    simp [h, sign]
  · have minuend : a.msb = decide (a.toInt < b.toInt) := by
      simp only [BitVec.msb_eq_toInt, decide_eq_decide] at h ⊢
      omega
    rw [bne_iff_ne.mpr h, Bool.true_and, Bool.bne_self_left, minuend]

/-- R291 of a compare: C orders the operands as unsigned values, N and V order them as signed values, and Z says whether they are equal. -/
theorem compare_orders (ps a b : Word) :
    let q := (⟨a - b, some (decide (b.toNat ≤ a.toNat)), some (a.msb != b.msb && (a - b).msb != a.msb)⟩ : Alu).flags ps
    (psC q = true ↔ b ≤ a) ∧ (psC q = false ↔ a < b) ∧ (psC q = true ∧ psZ q = false ↔ b < a) ∧ (psZ q = true ↔ a = b)
    ∧ ((psN q != psV q) = true ↔ a.toInt < b.toInt) ∧ (psZ q = false ∧ psN q = psV q ↔ b.toInt < a.toInt) := by
  intro q
  have hz : psZ q = decide (a = b) := (psZ_flags _ ps).trans (sub_beq_zero a b)
  have hc : psC q = decide (b.toNat ≤ a.toNat) := psC_flags _ ps
  have hnv : (psN q != psV q) = decide (a.toInt < b.toInt) := by
    rw [← sub_sign_ne_overflow, psN_flags, psV_flags, Option.getD_some]
  have hnv' : psN q = psV q ↔ ¬ a.toInt < b.toInt := by
    rw [← decide_eq_false_iff_not, ← hnv, bne_eq_false_iff_eq]
  have unsigned_inj : a.toNat = b.toNat ↔ a = b := BitVec.toNat_inj
  have signed_inj : a.toInt = b.toInt ↔ a = b := BitVec.toInt_inj
  rw [hnv', hnv, hz, hc]
  simp only [decide_eq_true_eq, decide_eq_false_iff_not, BitVec.le_def, BitVec.lt_def, ← signed_inj, true_and]
  refine ⟨?_, ?_, ?_⟩
  · omega
  · rw [signed_inj, ← unsigned_inj]
    omega
  · omega

/-! ### The branch -/

/-- The displacement of a branch counts words (R290). -/
theorem pcRel_eq {n : Nat} (pc : Word) (x : BitVec n) : pcRel pc x = pc + 4 * x.signExtend 64 := by
  rw [pcRel, sextI, BitVec.shiftLeft_eq_mul_twoPow, BitVec.mul_comm]
  rfl

/-- A jump with an illegal encoding traps and goes nowhere. -/
theorem jumpStep_illegal {s : State} {c : CoreId} (h : s.ready (coreNum c)) {ill : Nat} (word : Nat) (target : Core → Word)
    (bad : ill ≠ 0) :
    next (fun s => s.jumpStep c ill word target) s
      = s.coreTraps (coreNum c) ⟨0, word, ill⟩ ((s.atFetch (coreNum c)).core (coreNum c)).pc := by
  rw [atFetch_pc]
  unfold State.jumpStep
  exact (coreStep_ready h (fun _ => ill) word _).trans (if_pos bad)

/-- A jump with a legal encoding changes pc alone. -/
theorem jumpStep_legal {s : State} {c : CoreId} (h : s.ready (coreNum c)) (word : Nat) (target : Core → Word) :
    let x := (s.atFetch (coreNum c)).core (coreNum c)
    next (fun s => s.jumpStep c 0 word target) s = s.coreDone (coreNum c) { x with pc := target x } := by
  unfold State.jumpStep
  exact (coreStep_ready h (fun _ => 0) word _).trans (if_neg (not_not.mpr rfl))

/-- DETAIL of BCC: that of its reserved fields, then that of its condition (R291, R307). -/
def bccIll (f : FmtB) : Nat := orIll (ill3 (f.rd.toNat < 16 && f.ra == 0)) (if f.rd.toNat % 16 = 15 then 5 else 0)

/-- Where BCC goes on. -/
def bccTarget (f : FmtB) (x : Core) : Word := if condHolds x.ps (f.rd.toNat % 16) then pcRel x.pc f.imm else x.pc + 4

/-- The table of R291: each code with whether its condition holds. -/
def condTable (ps : Word) : List (BitVec 5 × Bool) :=
  let z := psZ ps
  let n := psN ps
  let c := psC ps
  let v := psV ps
  [(0x0, true), (0x1, z), (0x2, !z), (0x3, !c), (0x4, c), (0x5, c && !z), (0x6, !c || z), (0x7, n != v), (0x8, n == v),
    (0x9, !z && n == v), (0xA, z || n != v), (0xB, n), (0xC, !n), (0xD, v), (0xE, !v)]

theorem condHolds_of_mem_condTable (ps : Word) : ∀ p ∈ condTable ps, condHolds ps (p.1.toNat % 16) = p.2 := by
  simp [condTable, condHolds]

/-- Code 0xF and the codes with rd[4] set have no row. -/
theorem toNat_lt_of_mem_condTable (ps : Word) : ∀ p ∈ condTable ps, p.1.toNat < 15 := by
  simp [condTable]

theorem bccIll_of_mem_condTable {f : FmtB} {ps : Word} {taken : Bool} (hra : f.ra = 0) (h : (f.rd, taken) ∈ condTable ps) :
    bccIll f = 0 := by
  have code : f.rd.toNat < 15 := toNat_lt_of_mem_condTable ps _ h
  have defined : f.rd.toNat < 16 ∧ f.rd.toNat % 16 ≠ 15 := by omega
  simp [bccIll, ill3, orIll, hra, defined]

theorem bccIll_of_code_undefined {f : FmtB} (hra : f.ra = 0) (hrd : f.rd = 0xF) : bccIll f = 5 := by
  simp [bccIll, ill3, orIll, hra, hrd]

theorem bccIll_of_reserved {f : FmtB} (h : f.ra ≠ 0 ∨ f.rd.getLsbD 4 = true) : bccIll f = 3 := by
  have notZero : ¬ (f.rd.toNat < 16 ∧ f.ra = 0) := by
    rintro ⟨small, hra⟩
    have bit4 : f.rd.getLsbD 4 = false := Nat.testBit_lt_two_pow small
    rw [bit4] at h
    exact h.elim (absurd hra) Bool.false_ne_true
  have set : (f.rd.toNat < 16 && f.ra == 0) = false := by simpa using notZero
  simp only [bccIll, set]
  rfl

theorem exec_bcc (c : CoreId) (f : FmtB) (s : State) :
    exec (.bcc c f) s = next (fun s => s.jumpStep c (bccIll f) (encB 0x07 f) (bccTarget f)) s := rfl

/-- BCC with a defined condition and no reserved field set goes where its condition says. -/
theorem exec_bcc_of_mem_condTable {s : State} {c : CoreId} {f : FmtB} {taken : Bool} (h : s.ready (coreNum c)) (hra : f.ra = 0)
    (row : (f.rd, taken) ∈ condTable ((s.atFetch (coreNum c)).core (coreNum c)).ps) :
    let x := (s.atFetch (coreNum c)).core (coreNum c)
    exec (.bcc c f) s
      = s.coreDone (coreNum c) { x with pc := if taken then x.pc + 4 * f.imm.signExtend 64 else x.pc + 4 } := by
  intro x
  have holds : condHolds x.ps (f.rd.toNat % 16) = taken := condHolds_of_mem_condTable x.ps _ row
  have target : bccTarget f x = if taken then x.pc + 4 * f.imm.signExtend 64 else x.pc + 4 := by rw [bccTarget, holds, pcRel_eq]
  rw [exec_bcc, bccIll_of_mem_condTable hra row, jumpStep_legal h, target]

/-- BCC with a DETAIL of its encoding traps with it. -/
theorem exec_bcc_illegal {s : State} {c : CoreId} {f : FmtB} {d : Nat} (h : s.ready (coreNum c)) (hd : bccIll f = d) (bad : d ≠ 0) :
    exec (.bcc c f) s = s.coreTraps (coreNum c) ⟨0, encB 0x07 f, d⟩ ((s.atFetch (coreNum c)).core (coreNum c)).pc := by
  rw [exec_bcc, hd]
  exact jumpStep_illegal h _ _ bad

/-- Settles O12: the instruction is a row of `condTable` or has a DETAIL, and the flags of a compare order its operands. -/
theorem branchConditions : Obligations.BranchConditions := by
  unfold Obligations.BranchConditions
  refine ⟨fun s c f hready => ?_, compare_orders⟩
  intro k x z n cy v word
  have hword : encB 0x07 f = word := by simp only [encB, encOp, word, Nat.add_assoc]
  rw [← hword]
  exact ⟨fun taken hra row => exec_bcc_of_mem_condTable hready hra row,
    fun hra hrd => exec_bcc_illegal hready (bccIll_of_code_undefined hra hrd) (by decide),
    fun reserved => exec_bcc_illegal hready (bccIll_of_reserved reserved) (by decide)⟩

end Sys2Proof.Machine

/-! # Matching entries of the search engine (chapter 15, R376, R377)

An entry is the list of its units, all of them valid. It matches a key unit by unit, and a unit bit by bit: the masked XOR of R377 is zero
exactly where key and unit agree under each care bit. -/

namespace Sys2Proof.Machine

/-! ### The bits of a unit -/

theorem testBit_natBits (w lo len i : Nat) : (natBits w lo len).testBit i = (decide (i < len) && w.testBit (lo + i)) := by
  rw [natBits, Nat.testBit_mod_two_pow, Nat.testBit_div_two_pow, Nat.add_comm]

/-- A masked XOR is zero exactly where its operands agree in every bit of the mask. -/
theorem xor_and_eq_zero_iff (a b mask : Nat) :
    (a ^^^ b) &&& mask = 0 ↔ ∀ i, mask.testBit i = true → a.testBit i = b.testBit i := by
  rw [Nat.eq_iff_testBit_eq]
  refine forall_congr' fun i => ?_
  rw [Nat.testBit_and, Nat.testBit_xor, Nat.zero_testBit]
  cases mask.testBit i <;> simp

/-! ### The units of an entry -/

/-- `mapM` gives a list exactly when its elements are the values of the function one by one. -/
theorem mapM_eq_some_iff {α β : Type} (f : α → Option β) (l : List α) (ys : List β) : l.mapM f = some ys ↔ l.map f = ys.map some := by
  induction l generalizing ys with
  | nil => cases ys <;> simp
  | cons a l ih => cases ys <;> simp [List.mapM_cons, Option.bind_eq_some_iff, ih]

/-- The units of an entry stand at its `w` places in order, none of them missing. -/
theorem entryUnits_eq_some_iff (m : FMap AseUnit) (w sl : Nat) (us : List AseUnit) :
    entryUnits m w sl = some us ↔ us.length = w ∧ ∀ u < w, mapFind m (w * sl + u) = us[u]? := by
  have lengths : ((List.range w).map fun u => mapFind m (w * sl + u)).length = (us.map some).length ↔ us.length = w := by
    simp [eq_comm]
  rw [entryUnits, mapM_eq_some_iff, List.ext_getElem_iff, lengths]
  refine and_congr_right fun hlen => forall_congr' fun u => ?_
  simp +contextual [hlen]

theorem exists_entryUnits_of_valid {m : FMap AseUnit} {w sl : Nat} (valid : ∀ u < w, (mapFind m (w * sl + u)).isSome = true) :
    ∃ us, entryUnits m w sl = some us := by
  refine ⟨List.ofFn fun u : Fin w => (mapFind m (w * sl + u)).get (valid u u.2), ?_⟩
  rw [entryUnits_eq_some_iff]
  simp +contextual

/-! ### Matching -/

theorem entryMatches_iff (us : List AseUnit) (key : Nat) :
    entryMatches us key = true ↔ ∀ u x, us[u]? = some x → (natBits key (128 * u) 128 ^^^ x.key) &&& x.care = 0 := by
  simp only [entryMatches, List.all_eq_true, List.mem_range, beq_iff_eq, List.getElem?_eq_some_iff]
  constructor
  · rintro h u x ⟨hu, rfl⟩
    simpa [hu] using h u hu
  · intro h u hu
    simpa [hu] using h u us[u] ⟨hu, rfl⟩

theorem matchAt_isSome_iff (m : FMap AseUnit) (w key sl : Nat) :
    (matchAt m w key sl).isSome = true ↔ ∃ us, entryUnits m w sl = some us ∧ entryMatches us key = true := by
  rw [matchAt]
  cases entryUnits m w sl <;> simp [Option.isSome_ite]

/-- The entry at a slot matches when each of its places holds a valid unit whose masked XOR with the key is zero. -/
theorem matchAt_isSome_iff_units (m : FMap AseUnit) (w key sl : Nat) :
    (matchAt m w key sl).isSome = true ↔
      ∀ u < w, ∃ x, mapFind m (w * sl + u) = some x ∧ (natBits key (128 * u) 128 ^^^ x.key) &&& x.care = 0 := by
  rw [matchAt_isSome_iff]
  constructor
  · rintro ⟨us, hus, hmatch⟩ u hu
    obtain ⟨hlen, places⟩ := (entryUnits_eq_some_iff m w sl us).mp hus
    have unit : us[u]? = some us[u] := List.getElem?_eq_getElem (hlen ▸ hu)
    exact ⟨us[u], (places u hu).trans unit, (entryMatches_iff us key).mp hmatch u _ unit⟩
  · intro h
    obtain ⟨us, hus⟩ := exists_entryUnits_of_valid fun u hu => (h u hu).elim fun _ hx => Option.isSome_of_eq_some hx.1
    obtain ⟨hlen, places⟩ := (entryUnits_eq_some_iff m w sl us).mp hus
    refine ⟨us, hus, (entryMatches_iff us key).mpr fun u x unit => ?_⟩
    have hu : u < w := hlen ▸ (List.getElem?_eq_some_iff.mp unit).1
    obtain ⟨y, hy, agrees⟩ := h u hu
    have same : y = x := Option.some.inj (hy.symm.trans ((places u hu).trans unit))
    exact same ▸ agrees

/-- Settles O10: the masked XOR of each unit, read bit by bit. -/
theorem entriesMatchByCare : Obligations.EntriesMatchByCare := by
  unfold Obligations.EntriesMatchByCare
  intro m w key sl
  simp only [matchAt_isSome_iff_units, xor_and_eq_zero_iff, testBit_natBits]

end Sys2Proof.Machine

/-! # MSI-X deliveries (chapter 23, R566)

A delivery does one of four things: it is sent, it becomes the pending bit of its masked vector, it merges into the bit that stands there,
or it is discarded and counted. Merging holds because the pending bit changes neither which functions are usable nor any other field that
the next delivery reads. -/

namespace Sys2Proof.Machine

/-- A function is unusable exactly on the conditions R566 names. -/
theorem usable_eq_false_iff (s : State) (k : Nat) :
    s.usable k = false ↔ s.slotEnabled k = false ∨ (s.isPf k = false ∧ (s.func k).online = false) ∨ (s.func k).d3 = true
      ∨ s.linkUp (s.portOf k) = false := by
  simp only [State.usable, State.slotOnline, Bool.and_eq_false_iff, Bool.or_eq_false_iff, Bool.not_eq_false', or_assoc]

/-- Whether a function is usable does not depend on its pending bits. -/
theorem usable_setFunc_msixPend (s : State) (k : Nat) (p : List Nat) :
    (s.setFunc k { s.func k with msixPend := p }).usable k = s.usable k := by
  simp only [State.usable, State.slotOnline, State.func_setFunc_self]
  rfl

/-! ### The four outcomes of a delivery -/

section
variable {s : State} {k v : Nat}

theorem msix_of_unmasked (usable : s.usable k = true) (inTable : v < (s.func k).vi)
    (unmasked : (mapFind (s.func k).unmasked v).isSome = true) : s.msix k v = s.emit (.msix k v) := by
  rw [State.msix, if_pos ⟨usable, inTable⟩, if_pos unmasked]

theorem msix_of_masked_pending (usable : s.usable k = true) (inTable : v < (s.func k).vi)
    (masked : mapFind (s.func k).unmasked v = none) (pending : (s.func k).msixPend.contains v = true) : s.msix k v = s := by
  simp only [State.msix, if_pos (⟨usable, inTable⟩ : s.usable k = true ∧ v < s.msixSize k), masked, Option.isSome_none,
    Bool.false_eq_true, if_false, if_pos pending]

theorem msix_of_masked_idle (usable : s.usable k = true) (inTable : v < (s.func k).vi)
    (masked : mapFind (s.func k).unmasked v = none) (idle : (s.func k).msixPend.contains v = false) :
    s.msix k v = s.setFunc k { s.func k with msixPend := v :: (s.func k).msixPend } := by
  simp only [State.msix, if_pos (⟨usable, inTable⟩ : s.usable k = true ∧ v < s.msixSize k), masked, Option.isSome_none,
    Bool.false_eq_true, if_false, idle]

theorem msix_of_undeliverable (h : s.usable k = false ∨ (s.func k).vi ≤ v) : s.msix k v = s.errCnt pEvf 3 := by
  refine if_neg fun ⟨usable, inTable⟩ => ?_
  rcases h with unusable | beyond
  · exact Bool.false_ne_true (unusable.symm.trans usable)
  · exact Nat.not_lt.mpr beyond inTable

/-- A delivery to a masked vector leaves its pending bit set and sends nothing, and the next one merges into that bit. -/
theorem msix_of_masked (usable : s.usable k = true) (inTable : v < (s.func k).vi) (masked : mapFind (s.func k).unmasked v = none) :
    ((s.msix k v).func k).msixPend.contains v = true ∧ (s.msix k v).out = s.out ∧ (s.msix k v).msix k v = s.msix k v := by
  cases pending : (s.func k).msixPend.contains v with
  | true =>
    have merged := msix_of_masked_pending usable inTable masked pending
    rw [merged]
    exact ⟨pending, rfl, merged⟩
  | false =>
    rw [msix_of_masked_idle usable inTable masked pending]
    refine ⟨by simp, rfl, msix_of_masked_pending ?_ ?_ ?_ ?_⟩
    · exact (usable_setFunc_msixPend s k _).trans usable
    · simpa using inTable
    · simpa using masked
    · simp

end

/-! ### The obligation -/

/-- Settles O9: a delivery has the outcomes above, and each condition of the last clause makes a function unusable. -/
theorem messagesMergeWhileMasked : Obligations.MessagesMergeWhileMasked := by
  unfold Obligations.MessagesMergeWhileMasked
  intro s k v
  refine ⟨fun usable inTable => ⟨msix_of_masked usable inTable, fun unmasked => ?_⟩, fun undeliverable => ?_,
    (usable_eq_false_iff s k).mpr⟩
  · rw [msix_of_unmasked usable inTable unmasked, State.emit_out]
  · rw [msix_of_undeliverable undeliverable]
    exact ⟨rfl, rfl, fget_cntSat_self s _ _ 1 (by decide)⟩

end Sys2Proof.Machine
